-- ==== Sys2Proof/Word.lean ====
section
/-! DEFINITION. The word types of the device and the plainest arithmetic on them. -/

namespace Sys2Proof

/-- A byte (spec/00_scope.md, Notation). -/
abbrev Byte := BitVec 8

/-- A 64-bit register or register pair of BAR0 (R6). -/
abbrev Word := BitVec 64

/-- Round up a/b. -/
def ceilDiv (a b : Nat) : Nat := (a + b - 1) / b

/-- x rounded down to a multiple of n. -/
def alignDown (x n : Nat) : Nat := x - x % n

/-- x rounded up to a multiple of n. -/
def alignUp (x n : Nat) : Nat := ceilDiv x n * n

/-- The naturals below n, in rising order. -/
def below (n : Nat) : List Nat := List.range n

end Sys2Proof
end

