-- ==== Sys2Proof/Syntax.lean ====
section
/-! DEFINITION. The commands of the device: one constructor per row of spec/opcode_table.json, with the operands the
command brings from outside, and the types of those operands. -/

namespace Sys2Proof

/-- What a read outside device memory brings: the bytes, or the status code of its failure. -/
inductive Got where
  | bytes (l : List Byte)
  | fail (code : Nat)
  deriving DecidableEq, Repr

/-- The traffic a request of the hub fabric belongs to (the table under R15); a descriptor's traffic names its class. -/
inductive Traffic where
  | barrier
  | fenceMessage
  | powerEmergency
  | doorbell
  | heartbeat
  | interruptMessage
  | attend
  | transportAck
  | completionRecord
  | latencyQueue
  | mirror
  | dma
  | storageData
  | checkpoint
  | gather
  | packetPayload
  | descriptor (cls : Nat)
  deriving DecidableEq, Repr

/-- A 256-byte flit with the sender's flit number. -/
structure LinkFlit where
  seq : Nat
  bytes : List Byte
  deriving DecidableEq, Repr

/-- What has passed at a target port since its last cycle: cycles of 1.2 GHz, and the buffer credits that came back, class and
beats. -/
structure PortElapsed where
  cycles : Nat
  returned : List (Nat × Nat)
  deriving DecidableEq, Repr

/-- A request waiting at a target port of the hub fabric: its traffic (R15), its initiator, its length in beats and the
quiet partition it belongs to, if any (R21). -/
structure FabricRequest where
  traffic : Traffic
  initiator : Nat
  beats : Nat
  partition : Option Nat
  deriving DecidableEq, Repr

/-- A doorbell: a write through a doorbell page of BAR2 (function, page, offset in the page, bytes, value), or a write of
the queue's index register by the manager (R278, R279, R281). -/
inductive Bell where
  | page (fn p off len value : Nat)
  | reg (queue : Nat) (value : Word)
  deriving DecidableEq, Repr

/-- The scope of a barrier: a bench's, a stack's, the device's (R98). -/
inductive BarScope where
  | bench (stack b : Nat)
  | stack (stack : Nat)
  | device
  deriving DecidableEq, Repr

/-- The level of a spare that enters service (R105). -/
inductive SpareLevel where
  | engine (stack b e : Nat)
  | lane (stack b e : Nat)
  | bench (stack b : Nat)
  deriving DecidableEq, Repr

/-- What comes from outside as a core executes: for a firmware core, whose memory the spec does not lay out, the syllables fetched
and what its memory answers to an access: the bytes it brings, or a failure; whether the core meets an uncorrectable error in its own registers, predicates or pipeline
(R135); for a block operation, the units that took part in each mismatch of its checks (R385); for an action
core, what the reads of receive descriptors in host rings bring, in order. -/
structure Feed where
  code : List (BitVec 32)
  data : Got
  check : Bool
  mismatch : List (List Nat)
  descs : List Got
  deriving DecidableEq, Repr

/-- What patrol scrub sees of a word (R161, R162, R169): a burst of 32 data, 3 check and 1 address check byte of HBM with the severity
the DRAM's on-die ECC reports (0 none); the number of DDR5 devices in error. -/
inductive ScrubSeen where
  | hbm (burst : List Byte) (severity : Nat)
  | ddr (devices : Nat)
  deriving DecidableEq, Repr

/-- The kinds of DIMM that the table under R147 tells apart. -/
inductive DimmKind where
  | registered
  | unbuffered
  | loadReduced
  | nonVolatile
  deriving DecidableEq, Repr

/-- What a DIMM says of itself (R147): its kind, the width of its DRAM devices, whether it has ECC, its capacity in GiB, its ranks,
the height of its 3DS stacks (1 for none). -/
structure Dimm where
  kind : DimmKind
  deviceWidth : Nat
  ecc : Bool
  gib : Nat
  ranks : Nat
  height : Nat
  deriving DecidableEq, Repr

/-- What training finds of a DDR5 channel (R147): its DIMMs, and whether it trained. -/
structure DdrTrain where
  fitted : List Dimm
  trained : Bool
  deriving DecidableEq, Repr

/-- A word or unit that a protection code has judged outside the scrub (R75, R161 to R164): the word at stack-local offset x of a stack
as a demand read saw it, with its on-die severity and DRAM row, whether the row's bank has a spare, whether a write reached
the word before the write-back; a DDR5 unit with the number of its devices in error; a word of a hub memory (0 packet buffer,
1 connection contexts, 2 classification tables, 3 daybook, 4 hub buffer, 5 AON) with one bit in error, or two, and what reads
it: the arrival number of a frame (0 and 2), a connection (1), the device address whose data it buffers (4); a word of a bench die's
SRAM with one bit in error; the scratch word at an offset of a bench, with two; the unit at a device address whose data meet a
byte-parity error on their way. -/
inductive CodeEvent where
  | hbm (stack x : Nat) (burst : List Byte) (severity row : Nat) (bankSpare overwritten : Bool)
  | ddr (a devices : Nat) (overwritten : Bool)
  | hub (memory reader : Nat) (double : Bool)
  | bench (stack : Nat)
  | scratch (stack b off : Nat)
  | parity (a : Nat)
  deriving DecidableEq, Repr

/-- What a scrub read brings: its own word or unit, and what the codes have judged elsewhere since the last one. -/
structure ScrubFind where
  own : ScrubSeen
  elsewhere : List CodeEvent
  deriving DecidableEq, Repr

/-- What training finds of a stack (R168): trained, spare rows. -/
structure HbmTrain where
  trained : Bool
  spareRows : Nat
  deriving DecidableEq, Repr

/-- How the compare-and-swap on a commit word ends (R227, R229): the old value; no reply within the lifetime, and then the
commit word as read back, or no answer to that either. -/
inductive CasReply where
  | old (value : Nat)
  | lost (readBack : Option Nat)
  deriving DecidableEq, Repr

/-- The capabilities that a function has (R251). -/
inductive Capability where
  | pciExpress
  | powerManagement
  | msix
  | aer
  | serialNumber
  | pasid
  | resizableBar
  | secondaryPcie
  | dataLinkFeature
  | physical16
  | physical32
  | physical64
  | laneMargining
  | ltr
  | l1Substates
  | dataObjectExchange
  deriving DecidableEq, Repr

/-- The configuration registers of a function that the spec gives a meaning (R248 to R252, R255 to R261), one of a capability
that R252 lists as not supported, and any other by its offset. -/
inductive CfgReg where
  | vendorId
  | deviceId
  | revisionId
  | classCode
  | subsystemVendorId
  | subsystemId
  | headerType
  | interruptPin
  | bar (i : Nat)
  | command
  | status
  | deviceControl
  | deviceStatus
  | deviceControl2
  | linkControl
  | msixControl
  | pmcsr
  | aerUncorrectable
  | aerCorrectable
  | aerSeverity
  | deviceCapabilities
  | deviceCapabilities2
  | linkCapabilities
  | pasidCapability
  | pasidControl
  | serialNumber (half : Nat)
  | ltrLatency
  | l1ssCapabilities
  | l1ssControl
  | absent (offset : Nat)
  | resizableBarCapability
  | resizableBar
  | pmCapabilities
  | msixTable
  | msixPba
  | capabilityId (c : Capability)
  | other (offset : Nat)
  deriving DecidableEq, Repr

/-- A configuration request of type 0; or a request that the device does not support: I/O, a message with data, configuration type
1 (R272). -/
inductive CfgReq where
  | read (r : CfgReg)
  | write (r : CfgReg) (v : Nat)
  | unsupported
  deriving DecidableEq, Repr

/-- A memory request that comes in: a read of so many bytes, or a write. -/
inductive MemReq where
  | read (len : Nat)
  | write (data : List Byte)
  deriving DecidableEq, Repr

/-- An AtomicOp that comes in: its operand in bytes, the operands. -/
inductive AtomicReq where
  | fetchAdd (bytes add : Nat)
  | swap (bytes value : Nat)
  | cas (bytes compare value : Nat)
  | other
  deriving DecidableEq, Repr

/-- A queue or ring whose context the manager enables (R281). -/
inductive QueueKind where
  | bench
  | completion
  | packet
  | cipher
  deriving DecidableEq, Repr

/-- A request from below a downstream port: a memory request, an AtomicOp, or a malformed TLP, a poisoned one (a write, or
the completion of the read under a tag), or a request that is not supported (R272, R298). -/
inductive PortReq where
  | mem (r : MemReq)
  | atomic (a : AtomicReq)
  | malformed
  | poisoned (tag : Option Nat)
  | bad (posted : Bool)
  deriving DecidableEq, Repr


/-- The LBAs of a backend: its atomic boundary and the offset of the first, and whether they are of 4 KiB (R312, R320). -/
structure BackendFormat where
  boundary : Nat
  offset : Nat
  lba4k : Bool
  deriving DecidableEq, Repr

/-- A PTP message a time receiver hears (R325), times in units of 2⁻¹⁶ ns since the epoch: a Sync with its origin time and
correction, two-step or not; a Follow_Up; a Delay_Resp with its receive time. -/
inductive PtpMsg where
  | sync (twoStep : Bool) (origin correction : Int)
  | followUp (origin correction : Int)
  | delayResp (received correction : Int)
  deriving DecidableEq, Repr

/-- A PTP message with its transport: 0 Ethernet, 1 UDP over IPv4, 2 UDP over IPv6 (R325). -/
structure PtpFrame where
  transport : Nat
  msg : PtpMsg
  deriving DecidableEq, Repr

/-- A requester operation on the wire (R353). -/
inductive RoceOp where
  | send
  | write
  | read
  | cas
  | faa
  deriving DecidableEq, Repr

/-- A RoCEv2 request packet as its fields tell it (R353, R371): destination queue pair, PSN, operation, whether it is the first
and the last packet of its message; remote address, key and length of the RETH; the byte offset of a sprayed SEND; payload;
immediate; solicited; the operands of an atomic; the CE mark. -/
structure RocePkt where
  conn : Nat
  psn : Nat
  op : RoceOp
  first : Bool
  last : Bool
  va : Nat
  rkey : Nat
  len : Nat
  offset : Nat
  payload : List Byte
  imm : Option Nat
  solicited : Bool
  operand : Nat
  swap : Nat
  ce : Bool
  deriving DecidableEq, Repr

/-- The negative acknowledgements of R353. -/
inductive NakKind where
  | sequence
  | invalid
  | access
  | operational
  | rnr (timer : Nat)
  deriving DecidableEq, Repr

/-- What a responder sends: an ACK with the selective bitmap and echo of a sprayed connection, a NAK, READ data, the old value
of an atomic, a CNP. -/
inductive RoceAnswer where
  | ack (psn bitmap : Nat) (echo : Bool)
  | nak (kind : NakKind) (psn : Nat)
  | readData (psn : Nat) (data : List Byte)
  | atomic (psn old : Nat)
  | cnp
  deriving DecidableEq, Repr

/-- Where a Sceran frame goes: a node, the device of a rank of the job in a slot, the pair partner. -/
inductive ScDest where
  | node (n : Nat)
  | rank (job r : Nat)
  | partner
  deriving DecidableEq, Repr

/-- What a Sceran request does (R379): a message, or an operation on device memory of slice 0 at the target; and the messages
of the commit (R227): a rank's entries or failure code, the outcome. -/
inductive ScOp where
  | message (data : List Byte)
  | write (target : Nat) (data : List Byte)
  | read (target len : Nat)
  | cas (target compare swap : Nat)
  | faa (target add : Nat)
  | entries (job gen rank code : Nat) (l : List (List Byte))
  | outcome (job gen code : Nat)
  deriving DecidableEq, Repr

/-- A Sceran response or release on the wire: its source's address, whether its CRC is right, the identifier of its request (R379). -/
structure ScFrame where
  ipv6 : Bool
  addr : Nat
  crcOk : Bool
  id : Nat
  deriving DecidableEq, Repr

/-- What comes from outside as a cipher job runs: what the reads of its descriptor and of host memory bring (R393), and the units
that took part in each mismatch of its checks (R385). -/
structure JobIo where
  ring : Got
  src : Got
  aux : Got
  nonce : Got
  tag : Got
  mismatch : List (List Nat)
  deriving DecidableEq, Repr

/-- What the pools and policy section gives a slice (R500): its ceilings in the pools of R277 in the order HBM GiB, DDR5
GiB, bench work queues, completion rings, DMA channels, NVMe queue pairs, connections, key slots, sequences, KV frames;
the modes beyond the first choices; the fabric classes; whether its kernels must be signed; its kernel time limit. -/
structure ImgPolicy where
  slice : Nat
  ceilings : List Nat
  fastOk : Bool
  inverseOk : Bool
  leaveOk : Bool
  classes : Nat
  signed : Bool
  limitUs : Nat
  deriving DecidableEq, Repr

/-- A quiet partition (R21): its slices, and the stacks, DMA engines and network ports it holds as bit masks, its fixed
issue rate in 64ths, its share of cipher units. -/
structure ImgQuiet where
  slices : List Nat
  stackIds : Nat
  engines : Nat
  ports : Nat
  rate : Nat
  cipher : Nat
  deriving DecidableEq, Repr

/-- A boot slice: the function, the slice, the words of its entry, its namespaces, its drive ports. -/
structure ImgBoot where
  fn : Nat
  slice : Nat
  bind : Word
  policy : Word
  quotaMem : Word
  quotaQ : Word
  quotaNet : Word
  quotaServe : Word
  share : Word
  namespaces : List Nat
  drivePorts : Nat
  deriving DecidableEq, Repr

/-- An initial region of slice 0: entry, base, granules, tier, bulk_mirror. -/
structure ImgRegion where
  entry : Nat
  base : Nat
  granules : Nat
  tier : Nat
  bulk : Bool
  deriving DecidableEq, Repr

/-- The content of a configuration image's body. The spec gives no byte layout of the sections' contents (log entry 8, DESIGN CHOICE), so
the content is data of its own. -/
structure Image where
  /-- Subsystem vendor and subsystem ID of functions 0 and 1. -/
  subsys : List Nat
  /-- The registers the sections name and the values they give them. -/
  regs : List (Nat × Word)
  ddr7Spill : Bool
  ddr7Kv : Bool
  regions0 : List ImgRegion
  daybookKib : Nat
  /-- Engine 15 is assigned to checkpoint. -/
  dma15 : Bool
  /-- Engine 15 is claimed for general use. -/
  dma15General : Bool
  policies : List ImgPolicy
  quiet : List ImgQuiet
  /-- Public keys for R97, by index: 97 bytes each. -/
  keys : List (Nat × List Byte)
  /-- The first section type with a reserved field that is not 0, and the first with a field outside the range its rule gives
  (checks 1 and 3 of R428), as far as the fields below do not show it. -/
  badReserved : Option Nat
  badRange : Option Nat
  /-- The classification table that serves apprentice service (R352). -/
  apprenticeTable : Nat
  boot : List ImgBoot
  /-- The classification tables that the pair section lists as flow tables (R448). -/
  flowTables : List Nat
  deriving DecidableEq, Repr

/-- What the boot ROM finds at a start: the counters the flash's SFDP table reports (0 without an RPMC table), the size of the
flash in bytes, the RPMC authentication, the identity key against the device certificate, the signature of the calibration
record, the start-up test of the random source (R421, R423, R430, R443, R386). -/
structure BootSeen where
  counters : Nat
  flashSize : Nat
  rpmcOk : Bool
  identityOk : Bool
  calibOk : Bool
  rngOk : Bool
  deriving DecidableEq, Repr

/-- The requests the SPDM responder knows (R442), and any other by its code. transport: 0 and 1 DOE of the functions, 2 MCTP over
PCIe VDM, 3 MCTP on the management sideband. -/
inductive SpdmReq where
  | getVersion
  | getCapabilities
  /-- NEGOTIATE_ALGORITHMS: SHA-384 and brainpool P-384 are among those offered. -/
  | negotiateAlgorithms (sha384 brainpool : Bool)
  | getDigests
  | getCertificate (slot offset length : Nat)
  | challenge (slot : Nat)
  /-- Index 0 the number of measurements, 255 all of them. -/
  | getMeasurements (index : Nat) (signed : Bool)
  | chunkGet (handle chunk : Nat)
  | other (code : Nat)
  deriving DecidableEq, Repr

/-- What the partner shows at pairing (R446, R447): its identity chain verifies against the identifier the pair section names; its
device identifier, prefer_active, MEM_LAYOUT, PAIR_SLICES and classes. -/
structure Partner where
  verified : Bool
  id : List Byte
  prefer : Bool
  layout : Word
  slices : List Word
  classes : Nat
  deriving DecidableEq, Repr

/-- A record of mirrored state as it crosses the welt (R448): config as the register writes that changed it; a loaded key slot; a last
with its layer entries and an arena, or their end; a job record, or its close; a connection's context, state, PSNs and unacknowledged packets, or its end; an entry of
the memory region table; an NVMe queue pair's indices and a command accepted (true) or completed; a sequence; the execution of a
Sceran request. -/
inductive MirrorUpd where
  | writes (l : List (Nat × Word))
  | key (slot kind owner salt : Nat) (flags : List Bool) (counter limit : Word) (key : List Byte)
  | last (n : Nat) (raw : List Byte) (layers : List (List Byte))
  | lastGone (n : Nat)
  | arena (base last size frame : Nat)
  | arenaGone (base : Nat)
  | job (n slice : Nat) (raw : List Byte)
  | jobGone (n : Nat)
  | conn (n : Nat) (ctx : List Word) (state sendPsn expPsn : Nat) (unacked : List RocePkt)
  | connGone (n : Nat)
  | memRegion (index : Nat) (entry : List Byte)
  | nvme (queue sqHead cqTail phase : Nat)
  | nvmeCmd (queue cid : Nat) (accepted : Bool)
  | sequence (id state slice last seed : Nat) (stackIds : List Nat) (lens pages : List (Nat × Nat))
  | sceran (node : Nat) (epoch : Word) (id code status old : Nat)
  | program (slot : Nat) (code image : List Byte) (codeAt imageAt : Word)
  deriving DecidableEq, Repr

/-- MIRROR_UPDATE (R449): an update arrives at the standby; or the active learns what the standby answers to its next synchronous
operation. -/
inductive MirrorStep where
  | arrives (u : MirrorUpd)
  | verdict (code : Nat)
  deriving DecidableEq, Repr

/-- Where a partner's heartbeat arrives, with its timebase value on the welt (R452). -/
inductive HeartbeatFrom where
  | welt (time : Word)
  | pin
  deriving DecidableEq, Repr

/-- SWITCHOVER (R456): the manager writes PAIR_CMD on the active (weltSilent: the welt goes silent on the way), or the active's hand
over arrives at the standby. -/
inductive SwitchHow where
  | command (value : Word) (weltSilent : Bool)
  | handover
  deriving DecidableEq, Repr

/-- A unit that fails the power-on self-test without being fatal to the device (R461). -/
inductive PostUnit where
  | lane (stack bench engine lane : Nat)
  | engine (stack bench engine : Nat)
  | bench (stack bench : Nat)
  /-- The control core or the crossbar of a bench die. -/
  | control (stack : Nat)
  /-- The HBM PHY or TSV lanes beyond their spares. -/
  | hbm (stack : Nat)
  /-- Lane 0 to 15, or the spare 16, of a PCIe lane group. -/
  | group (group lane : Nat)
  /-- A network lane group beyond its spare, with the network ports that use it as a mask. -/
  | net (ports : Nat)
  deriving DecidableEq, Repr

/-- What an in-service test finds in its bench (R466): a lane of an engine, an engine, bench-level logic. -/
inductive IsstFault where
  | lane (engine lane : Nat)
  | engine (engine : Nat)
  | logic
  deriving DecidableEq, Repr

/-- The PLDM commands the terminus supports (R481), and any other. -/
inductive PldmReq where
  | getTid
  | getPldmTypes
  | getPldmCommands (type : Nat)
  | getPdrRepositoryInfo
  | getPdr (record : Nat)
  | getSensorReading (sensor : Nat)
  | getStateSensorReadings (sensor : Nat)
  | pollForPlatformEventMessage
  | other (type command : Nat)
  deriving DecidableEq, Repr

/-- The commands, one constructor per row of spec/opcode_table.json. -/
inductive Instr where
  /-- A write of 4 or 8 bytes to a BAR0 register with no row of its own: the function it came through, the address,
  whether it is 8 bytes wide, the value (R3, R6, R28). -/
  | registerWrite (fn addr : Nat) (wide : Bool) (value : Word)
  /-- A BAR0 access that is not a naturally aligned 4- or 8-byte access: function, address, length, write or read (R28). -/
  | bar0MisalignedAccess (fn addr len : Nat) (write : Bool)
  /-- A 256-byte flit arrives on die-to-die link k (R5). -/
  | linkFlitReceive (k : Nat) (flit : LinkFlit)
  /-- Link k retrains after its eighth CRC failure in succession; ok: the retrain succeeds (R5). -/
  | linkRetrain (k : Nat) (ok : Bool)
  /-- A physical lane of link k fails training (training) or exceeds its error threshold; retrainOk: the outcome of the one retrain
  where no spare is left (R5). -/
  | laneSpareSubstitute (k lane : Nat) (training retrainOk : Bool)
  /-- One ms after a failed retrain of link k; ok: the second training succeeds (R5). -/
  | linkTrainRetry (k : Nat) (ok : Bool)
  /-- The root PLL loses lock (R11). -/
  | rootPllLockLoss
  /-- The reference clock is lost (R11). -/
  | refclkLoss
  /-- The reference clock returns (R11). -/
  | refclkRestore
  /-- A read of TIMEBASE: part 0 the low 32 bits, 1 the high 32 bits, 2 all 64 bits (R12). -/
  | timebaseRead (part : Nat)
  /-- The manager writes TIME_RATE (R13, R14). -/
  | timeRateWrite (value : Word)
  /-- The manager writes TIME_STEP (R13, R14). -/
  | timeStepWrite (value : Word)
  /-- The manager writes TIME_SRC (R14). -/
  | timeSrcWrite (value : Word)
  /-- A cycle of a target port, with what has passed since the port's last one and the requests that wait (R16). -/
  | fabricGrant (port : Nat) (elapsed : PortElapsed) (waiting : List FabricRequest)
  /-- The quiet-partition slot counter moves on (R22). -/
  | quietSlotAdvance
  /-- A doorbell of kind 1 or a BQ_TAIL write (R279, R281). -/
  | benchQueueDoorbell (bell : Bell)
  /-- The scheduler reads the next descriptor of queue q; host: what the read of a host ring brings (R80). -/
  | benchDescriptorFetch (q : Nat) (host : Got)
  /-- A sub-part of descriptor d for a stack and a logical bench position starts (R84). -/
  | subpartDispatch (d stack pos : Nat)
  /-- That sub-part ends (R85). -/
  | subpartComplete (d stack pos : Nat)
  /-- The reduce of descriptor d is computed (R88). -/
  | reduce (d : Nat)
  /-- The quantize of descriptor d is computed (R90). -/
  | quantize (d : Nat)
  /-- The barrier set of descriptor d acts (R91). -/
  | barrierSet (d : Nat)
  /-- The kernel launch of descriptor d is checked (R92, R96, R97). -/
  | kernelLaunch (d : Nat)
  /-- Instance idx of launch d starts on the bench at a stack and position (R93). -/
  | instanceStart (d idx stack pos : Nat)
  /-- The time limit of the instance on a bench controller expires (R94). -/
  | kernelTimeLimit (core : Nat)
  /-- The zeroing of a scratch page ends (R76). -/
  | scratchPageZeroed (stack b page : Nat)
  /-- The pending release of a barrier is delivered (R98). -/
  | barrierRelease (scope : BarScope) (n : Nat)
  /-- The manager writes the register of a stack or device barrier (R100). -/
  | barrierOwnerWrite (scope : BarScope) (n : Nat) (value : Word)
  /-- Engine k of a stack has issued nothing for 256 cycles (R102). -/
  | engineIdle (stack k : Nat)
  /-- 250 ns of a ramp pass on a stack (R103). -/
  | rampStep (stack : Nat)
  /-- Physical engine e of bench b faults (R105). -/
  | engineFault (stack b e : Nat)
  /-- A lane of physical engine e of bench b faults (R105). -/
  | laneFault (stack b e lane : Nat)
  /-- Bench b faults (R105). -/
  | benchFault (stack b : Nat)
  /-- A substituted spare finishes its power-up and enters service (R105). -/
  | spareInService (level : SpareLevel)
  /-- A core executes one bundle (R116). -/
  | bundleExecute (core : Nat) (feed : Feed)
  /-- The oldest outstanding operation of a coprocessor of a core completes; data: what a firmware core reads (R129). -/
  | coprocessorOpComplete (core cop : Nat) (data : Got)
  /-- The oldest failure of a core's stores is known and is taken at the bundle boundary (R136). -/
  | storeFailure (core : Nat)
  /-- Interrupt line of a firmware core becomes pending, and is taken between bundles where enabled (R136). -/
  | interrupt (core line : Nat)
  /-- The control core of a stack reads its DRAM dies' temperatures in °C (R144). -/
  | dramTempPoll (stack : Nat) (temps : List Nat)
  /-- DDR5 channel c fails at runtime (R148). -/
  | ddrChannelFail (c : Nat)
  /-- The manager writes REGION_CMD_GO with op 1 (R153). -/
  | regionCreate (value : Word)
  /-- The manager writes REGION_CMD_GO with op 2 (R153). -/
  | regionDestroy (value : Word)
  /-- The manager writes REGION_CMD_GO with op 3 (R153). -/
  | regionSetBulkMirror (value : Word)
  /-- The zeroing of region entry r's granules ends (R167). -/
  | regionZeroingDone (r : Nat)
  /-- A write to the stitched range: MEM_ERR_INFO source, slice, device address, bytes (R156, R157). -/
  | stitchWrite (source slice a : Nat) (data : List Byte)
  /-- The lock on a stripe ends (R158). -/
  | stripeLockRelease (stripe : Nat)
  /-- A read of the stitched range: MEM_ERR_INFO source, slice, device address, bytes (R159). -/
  | stitchRead (source slice a len : Nat)
  /-- Patrol scrub reads its next word or unit: what it and the other codes see, the DRAM row of an HBM word, whether the row's
  bank has a spare row, whether a write reached the word before the write-back (R145, R163, R169). -/
  | scrubRead (seen : ScrubFind) (row : Nat) (bankSpare overwritten : Bool)
  /-- HBM and DDR5 training ends, with what it found of each stack and channel (R147, R148). -/
  | memoryTrainingDone (stackIds : List HbmTrain) (channels : List DdrTrain)
  /-- Attend op 1 of descriptor d: a sequence is opened (R177). -/
  | sequenceOpen (d : Nat)
  /-- Attend op 2 of descriptor d: a sequence is closed (R178). -/
  | sequenceClose (d : Nat)
  /-- Attend op 3 of descriptor d: a sequence is cut (R178). -/
  | sequenceTruncate (d : Nat)
  /-- Attend op 4 of descriptor d: a sequence moves to the cold tier (R179). -/
  | sequencePark (d : Nat)
  /-- Attend op 5 of descriptor d: a sequence moves back (R179). -/
  | sequenceUnpark (d : Nat)
  /-- Attend op 8 of descriptor d: a last is bound (R173). -/
  | lastBind (d : Nat)
  /-- Attend op 9 of descriptor d: a last is unbound (R173). -/
  | lastUnbind (d : Nat)
  /-- Attend op 10 of descriptor d: a region becomes an arena (R174). -/
  | arenaBind (d : Nat)
  /-- Attend op 13 of descriptor d: an arena is released (R174). -/
  | arenaRelease (d : Nat)
  /-- Attend op 11 of descriptor d: a feed is opened (R181). -/
  | feedOpen (d : Nat)
  /-- Attend op 12 of descriptor d: a feed is closed (R181). -/
  | feedClose (d : Nat)
  /-- Attend op 0 of descriptor d: hub intake takes the batch (R185). -/
  | attendBatch (d : Nat)
  /-- The accelerator below a port writes the doorbell of feed f (R183). -/
  | feedDoorbell (port f value : Nat)
  /-- Batch n, which waits on sequences of earlier batches, starts once they are free (R185). -/
  | attendBatchStart (n : Nat)
  /-- The local maxima of batch n's part on a stack reach the home parts (R189). -/
  | maximaExchange (n stack : Nat)
  /-- The partial sums of batch n's part on a stack are merged (R192). -/
  | partialMerge (n stack : Nat)
  /-- The zeroing of the KV frame at a device address ends (R175). -/
  | frameZeroingDone (addr : Nat)
  /-- Gather kind 0 of descriptor d (R199). -/
  | embeddingGather (d : Nat)
  /-- Gather kind 1 of descriptor d (R199). -/
  | stage (d : Nat)
  /-- Gather kind 2 of descriptor d (R199). -/
  | sample (d : Nat)
  /-- Optimize op 8 of descriptor d (R203). -/
  | jobOpen (d : Nat)
  /-- Optimize op 9 of descriptor d (R218). -/
  | jobClose (d : Nat)
  /-- Optimize op 10 of descriptor d (R218, R233). -/
  | jobLoad (d : Nat)
  /-- Optimize op 11 of descriptor d (R218). -/
  | jobStore (d : Nat)
  /-- Optimize op 12 of descriptor d (R218). -/
  | advance (d : Nat)
  /-- The step of descriptor d is computed (R211). -/
  | step (d : Nat)
  /-- The square norm of descriptor d is computed (R215). -/
  | sqnorm (d : Nat)
  /-- The push of descriptor d (R216). -/
  | push (d : Nat)
  /-- The scatter of descriptor d (R206). -/
  | scatter (d : Nat)
  /-- The feed of descriptor d; reads: what the storage path brings of each record, in j order (R217). -/
  | feed (d : Nat) (reads : List Got)
  /-- The intake wait of descriptor d begins (R208). -/
  | intakeWait (d : Nat)
  /-- The limit of an intake wait passes (R208). -/
  | intakeWaitTimeout (d : Nat)
  /-- The oldest local copy or handed-over immediate is taken in (R207). -/
  | intakeArrival
  /-- Digest op 0 of descriptor d (R222). -/
  | digest (d : Nat)
  /-- Digest op 1 of descriptor d begins a snapshot epoch (R223). -/
  | checkpoint (d : Nat)
  /-- Digest op 2 of descriptor d (R230). -/
  | checkpointAbort (d : Nat)
  /-- Digest op 3 of descriptor d; pool: the bytes of the shard that pool_conn brings (R232). -/
  | restore (d : Nat) (pool : Got)
  /-- Digest op 4 of descriptor d; word and manifest: what the reads of the commit word and of the slot bring (R231). -/
  | manifestFetch (d : Nat) (word manifest : Got)
  /-- The pool acknowledges the next page of the epoch (R224). -/
  | snapshotPageSent
  /-- A write of a source (MEM_ERR_INFO code) for a slice to device memory that may touch pages of the epoch (R225). -/
  | copyBeforeWrite (source slice addr : Nat) (data : List Byte)
  /-- The oldest staging copy ends (R225). -/
  | stagingCopyDone
  /-- A write has waited 100 ms on exhausted staging (R226). -/
  | stagingTimeout
  /-- The committer of a job hears a rank: its failure code or 0, and its entries (R227). -/
  | checkpointEntries (job rank code : Nat) (entries : List (List Byte))
  /-- The compare-and-swap of a job's commit word answers (R227, R229). -/
  | commitCasReply (job : Nat) (reply : CasReply)
  /-- A rank hears the outcome of its job's checkpoint (R227). -/
  | checkpointOutcome (job code : Nat)
  /-- A rank hears no outcome within limit (R228). -/
  | checkpointLimitTimeout (job : Nat)
  /-- A doorbell of kind 2 or a CHAN_TAIL write (R236). -/
  | dmaDoorbell (bell : Bell)
  /-- Channel ch fetches its next descriptor; host: what the read of a host ring brings (R239). -/
  | dmaDescriptorFetch (ch : Nat) (host : Got)
  /-- The copy in progress on channel ch moves up to n more bytes; data: what a read of a host or a port brings of them, none where
  the read is only requested now, and its completion comes later (R238, R261). -/
  | dmaCopy (ch n : Nat) (data : Option Got)
  /-- The fill in progress on channel ch writes up to n more bytes (R238). -/
  | dmaFill (ch n : Nat)
  /-- Every write of the oldest issued descriptor of channel ch is acknowledged (R242). -/
  | dmaWritesAcked (ch : Nat)
  /-- A leave-mode write of channel ch fails after its record, with a code (R243). -/
  | dmaLateError (ch code : Nat)
  /-- CHAN_CTRL.pause of channel ch is written (R244). -/
  | dmaPause (ch : Nat) (pause : Bool)
  /-- The reads in flight of a pausing channel have drained (R244). -/
  | dmaPaused (ch : Nat)
  /-- A bus error of code 0x0011, 0x0012 or 0x0016 at an address stops engine e (R245). -/
  | dmaEngineStop (e code addr : Nat)
  /-- CHAN_CTRL.clear_error of channel ch is written (R245). -/
  | dmaClearError (ch : Nat)
  /-- CHAN_CTRL.squash of channel ch is written (R247). -/
  | dmaSquash (ch : Nat)
  /-- A configuration request to function fn (R248, R251). -/
  | configRequest (fn : Nat) (req : CfgReq)
  /-- A host reads or writes BAR4 of function fn at an offset (R250, R280). -/
  | bar4Access (fn off : Nat) (req : MemReq)
  /-- An AtomicOp on BAR4 of function fn at an offset (R250). -/
  | bar4Atomic (fn off : Nat) (op : AtomicReq)
  /-- A withheld message of vector v is sent (R255). -/
  | msixPendingSend (fn v : Nat)
  /-- The driver writes INTX_PEND of function fn (R256). -/
  | intxPendWrite (fn : Nat) (value : Word)
  /-- The Power Management Control/Status register of function fn is written with D3hot (R257). -/
  | d3hotEntry (fn : Nat)
  /-- It is written with D0 (R257, R410). -/
  | d0Write (fn : Nat)
  /-- The link of function fn enters L2 (R258). -/
  | l2Entry (fn : Nat)
  /-- PERST# of the upstream port of function fn is asserted (R259). -/
  | perstAssert (fn : Nat)
  /-- It is deasserted (R259, R410). -/
  | perstDeassert (fn : Nat)
  /-- A wake source, numbered as WAKE_CFG's bits, arises for function fn (R260). -/
  | wakeSource (fn source : Nat)
  /-- The timeout of an outstanding tag of a unit (0 and 1 functions, 2 + p port p) expires (R262, R294). -/
  | completionTimeout (unit tag : Nat)
  /-- A completion arrives on a tag of a unit: data or its failure code, and whether it is the last of its request (R263). -/
  | completionReceived (unit tag : Nat) (last : Bool) (data : Got)
  /-- A tag of a unit is due to leave quarantine (R264). -/
  | tagQuarantineRelease (unit tag : Nat)
  /-- Bus Master Enable of function fn goes from 1 to 0 (R267). -/
  | busMasterDisable (fn : Nat)
  /-- Initiate Function Level Reset of function fn is written (R268). -/
  | functionLevelReset (fn : Nat)
  /-- The Function Level Reset of function fn ends (R268). -/
  | flrComplete (fn : Nat)
  /-- The driver writes HB_CFG of function fn (R270). -/
  | hbCfgWrite (fn : Nat) (value : Word)
  /-- The driver writes HB_COUNT of function fn (R270). -/
  | hbCountWrite (fn : Nat) (value : Word)
  /-- Three heartbeat periods of function fn have passed without a beat (R270). -/
  | heartbeatMiss (fn : Nat)
  /-- The link of function fn has been down for 10 ms (R270). -/
  | upstreamLinkDown (fn : Nat)
  /-- The 100 ms of the host-loss drain of function fn are over (R271). -/
  | hostLossDrainEnd (fn : Nat)
  /-- A malformed or oversized TLP arrives at function fn (R272). -/
  | malformedTlp (fn : Nat)
  /-- A poisoned write arrives at function fn, or a poisoned completion on one of its tags (R272). -/
  | poisonedTlp (fn : Nat) (tag : Option Nat)
  /-- The link of function fn comes up, with its lanes, its speed code and whether it is in Flit mode; or changes its width under L0p
  (narrowed); or goes down (R258, R270). -/
  | upstreamLinkChange (fn : Nat) (up flit narrowed : Bool) (width speed : Nat)
  /-- The idle time of ASPM L1 (or L1.1: deep) of the link of function fn is over (R258). -/
  | aspmIdleEntry (fn : Nat) (deep : Bool)
  /-- The manager writes CHAN_CFG of DMA channel ch = engine × 64 + channel (R274, R237). -/
  | chanCfgWrite (ch : Nat) (value : Word)
  /-- The manager writes SLICE_CMD_GO with op 1 (R276). -/
  | sliceCreate (value : Word)
  /-- The manager writes SLICE_CMD_GO with op 2 (R289). -/
  | sliceDestroy (value : Word)
  /-- The manager writes SLICE_CMD_GO with op 3 (R286). -/
  | sliceReset (value : Word)
  /-- The manager writes SLICE_CMD_GO with op 4 (R288). -/
  | sliceQuiesce (value : Word)
  /-- The manager writes SLICE_CMD_GO with op 5 (R288). -/
  | sliceResume (value : Word)
  /-- The manager writes SLICE_CMD_GO with op 6 (R276). -/
  | sliceApply (value : Word)
  /-- The manager writes SLICE_CMD_GO with op 7 (R283). -/
  | logStart (value : Word)
  /-- The manager writes SLICE_CMD_GO with op 8 (R285). -/
  | logSwap (value : Word)
  /-- The manager writes SLICE_CMD_GO with op 9 (R285). -/
  | logStop (value : Word)
  /-- The zero-length read after the last bit of a swap or stop completes (R285). -/
  | logSwapDone (slice : Nat)
  /-- The oldest logged page's bit is set; old: what the read of its bitmap word brings (R284). -/
  | dirtyBitWrite (old : Got)
  /-- The reset of a slice ends; force: the storage timeout has expired (R286). -/
  | sliceResetDone (slice : Nat) (force : Bool)
  /-- Every fetched operation of a quiescing slice has completed (R288). -/
  | quiesceDone (slice : Nat)
  /-- The zeroing of a destroyed slice ends (R289). -/
  | sliceZeroingDone (slice : Nat)
  /-- The manager writes entry p of function fn's doorbell table (R278). -/
  | doorbellEntryWrite (fn p : Nat) (value : Word)
  /-- The manager writes word 0 to 3 (APER_BAR, APER_PA, APER_SIZE, APER_CTRL) of entry a of function fn's aperture table (R280). -/
  | apertureEntryWrite (fn a word : Nat) (value : Word)
  /-- The manager writes BQ_CFG, CR_CFG, PR_CFG or CQ_CFG of a queue (R281). -/
  | queueEnable (kind : QueueKind) (q : Nat) (value : Word)
  /-- A doorbell of kind 3 or a CR_HEAD write (R279). -/
  | completionRingDoorbell (bell : Bell)
  /-- The oldest record held for completion ring r goes on (R282). -/
  | pendingRecordWrite (r : Nat)
  /-- The manager reads or writes (with the data in the value) DP_CFG_DATA of port p; reply: what the configuration request below the
  port brings back, none where it fails (R292). -/
  | dpCfgAccess (p : Nat) (write : Bool) (value : Word) (reply : Option Nat)
  /-- A request from below port p at a bus address (R296 to R298). -/
  | inboundPortRequest (p bus : Nat) (req : PortReq)
  /-- An SGPIO frame ends with the 8 SDataIn bits of each port (R299). -/
  | sgpioFrame (bits : List (BitVec 8))
  /-- The manager writes DP_SLOT_CTRL.power_ctrl of port p (R300). -/
  | powerCtrlWrite (p : Nat) (on : Bool)
  /-- The 100 ms of powering of port p end (R300). -/
  | poweringEnd (p : Nat)
  /-- The Data Link Layer of port p becomes active, with width, speed code and Flit mode (R300). -/
  | portLinkUp (p width speed : Nat) (flit : Bool)
  /-- Port p loses its Data Link Layer, or its presence (R300). -/
  | portLinkDown (p : Nat)
  /-- Port p has been in training for 1 s (R300). -/
  | trainFail (p : Nat)
  /-- The manager writes DP_CTRL.hot_reset of port p (R300). -/
  | hotReset (p : Nat)
  /-- The manager writes DP_CTRL.port_enable of port p (R303). -/
  | portEnableWrite (p : Nat) (on : Bool)
  /-- An error message arrives from below port p: 0 ERR_COR, 1 ERR_NONFATAL, 2 ERR_FATAL (R291, R304). -/
  | errMessage (p severity : Nat)
  /-- A submission doorbell at offset 0x0 of a page of kind 4 (R306). -/
  | nvmeSqDoorbell (bell : Bell)
  /-- A completion doorbell at offset 0x4 of a page of kind 4 (R306). -/
  | nvmeCqDoorbell (bell : Bell)
  /-- The front end fetches the next command of queue pair q; host: what the read of its entry brings (R307). -/
  | nvmeCommandFetch (q : Nat) (host : Got)
  /-- Identify, command id (R308). -/
  | identify (id : Nat)
  /-- Get Log Page, command id (R308). -/
  | getLogPage (id : Nat) (lists : List Got)
  /-- Get Features, command id (R308). -/
  | getFeatures (id : Nat)
  /-- Set Features, command id (R308). -/
  | setFeatures (id : Nat)
  /-- Asynchronous Event Request, command id (R308). -/
  | asynchronousEventRequest (id : Nat)
  /-- Keep Alive, command id (R308). -/
  | keepAlive (id : Nat)
  /-- Abort, command id; entries: what the read of the unfetched part of the named submission queue brings, in ring order from
  its head (R308). -/
  | nvmeAbort (id : Nat) (entries : Got)
  /-- A forwarded admin command, command id (R308, R309). -/
  | forwardedAdminCommand (id : Nat)
  /-- The manager writes MED_REPLY (R309). -/
  | medReply (value : Word)
  /-- The forwarded command of a mediation tag has had no reply for 60 s (R309). -/
  | mediationTimeout (tag : Nat)
  /-- QP_CFG of queue pair q is written (R310). -/
  | queuePairEnable (q : Nat) (value : Word)
  /-- Flush, command id (R314). -/
  | nvmeFlush (id : Nat)
  /-- Write, command id; lists: what the reads of PRP lists or SGL segments bring, in order (R311, R313). -/
  | nvmeWrite (id : Nat) (lists : List Got)
  /-- Read, command id; lists as for a Write (R311, R317). -/
  | nvmeRead (id : Nat) (lists : List Got)
  /-- Write Zeroes, command id (R311). -/
  | writeZeroes (id : Nat)
  /-- Dataset Management, command id; lists as for a Write; ranges: what the read of its ranges brings (R311). -/
  | datasetManagement (id : Nat) (lists : List Got) (ranges : Got)
  /-- A backend completes the command of an identifier with SCT (bits 10–8), SC (bits 7–0) and the do-not-retry bit; data: the bytes
  of a Read of a backend of kind 2 or 3 (R314 to R320). -/
  | backendCompletion (id status : Nat) (dnr : Bool) (data : List Byte)
  /-- A backend command exceeds backend_timeout (R319). -/
  | backendTimeout (id : Nat)
  /-- A drive on a port accesses the proxy range at a bus address: a write with its bytes, or a read of n bytes; host: what the read of
  the slice's host memory brings (R315). -/
  | proxyAccess (port addr n : Nat) (data : Option (List Byte)) (host : Got)
  /-- A mirrored namespace has been idle and flushed for 5 s (R317). -/
  | cleanFlagSet (ns : Nat)
  /-- NS_STATUS.rearm of a namespace is written (R318). -/
  | nsRearm (ns : Nat)
  /-- Resynchronisation copies the next n LBAs of a namespace; the statuses its read and its write end with (R318). -/
  | resyncCopy (ns n readStatus writeStatus : Nat)
  /-- The initialisation of backend b ends; its atomic write unit, its LBAs, and the clean flag its range holds (R312, R317). -/
  | backendReady (b awupf : Nat) (format : BackendFormat) (clean : Bool)
  /-- A frame arrives on a network port: its body without FCS, whether the FCS is right, its 802.1Q priority (0 untagged) (R323). -/
  | frameReceive (port : Nat) (body : List Byte) (fcsOk : Bool) (prio : Nat)
  /-- A pipeline gives its next slot; feed: what the action program and the reads of host descriptors bring (R327). -/
  | pipelinePass (pipe : Nat) (feed : Feed)
  /-- The program of an action core has run 256 bundles (R335). -/
  | actionTimeLimit (core : Nat) (feed : Feed)
  /-- A doorbell of kind 6 or a PR_TAIL write (R341). -/
  | packetRingDoorbell (bell : Bell)
  /-- The next descriptor of transmit ring r; host: what the read of its entry brings; data: what the read of a host frame body
  brings (R343). -/
  | transmitDescriptor (r : Nat) (host data : Got)
  /-- Port n picks its next frame (R346). -/
  | tmSchedule (port : Nat)
  /-- A microsecond passes (R348). -/
  | tokenRefill
  /-- A PFC frame arrives: the priorities it names, with their quanta (R351). -/
  | pfcReceive (port : Nat) (quanta : List (Nat × Nat))
  /-- The quanta of a priority have run out (R351). -/
  | pfcPauseExpire (port prio : Nat)
  /-- OBJ_CMD is written with op 1 (R335). -/
  | objRead (value : Word)
  /-- OBJ_CMD is written with op 2 (R335). -/
  | objWrite (value : Word)
  /-- OBJ_CMD is written with op 3 (R335). -/
  | objEnable (value : Word)
  /-- OBJ_CMD is written with op 4 (R335). -/
  | objDisable (value : Word)
  /-- A PTP message of a domain arrives on a port (R325). -/
  | ptpMessage (port domain : Nat) (msg : PtpFrame)
  /-- A rising edge of the PPS land (R326). -/
  | ppsEdge
  /-- No source has delivered for 3 s (R326). -/
  | servoHoldover
  /-- A whole second of the timebase (R326). -/
  | ppsOutPulse
  /-- A RoCEv2 request packet arrives; whether its ICRC is right and it is malformed; host: what the read of a host receive ring, or
  for a READ of a host region, brings (R353, R365). -/
  | requestPacket (p : RocePkt) (icrcOk malformed : Bool) (host : Got)
  /-- An ACK for a PSN with its selective bitmap and echo bit arrives; atomic: the old value an atomic acknowledgement carries
  (R372, R375). -/
  | ackReceive (conn psn bitmap : Nat) (echo : Bool) (atomic : Option Nat)
  /-- A NAK arrives (R369, R377). -/
  | nakReceive (conn psn : Nat) (kind : NakKind)
  /-- A CNP arrives (R375). -/
  | cnpReceive (conn : Nat)
  /-- READ response data of a PSN arrives (R361). -/
  | readResponse (conn psn : Nat) (data : List Byte)
  /-- CONN_CMD is written with op 1 (R357). -/
  | connRead (value : Word)
  /-- CONN_CMD is written with op 2 (R358). -/
  | connCreate (value : Word)
  /-- CONN_CMD is written with op 3 (R357). -/
  | connModify (value : Word)
  /-- CONN_CMD is written with op 4 (R357). -/
  | connDestroy (value : Word)
  /-- A send-queue doorbell (R360). -/
  | sendQueueDoorbell (bell : Bell)
  /-- A receive-queue doorbell (R360). -/
  | receiveQueueDoorbell (bell : Bell)
  /-- The next work request of a connection, of opcode 0x00; host: what the read of its entry in a host ring brings; data: what the
  read of local host bytes brings (R361). -/
  | send (conn : Nat) (host data : Got)
  /-- Opcode 0x01, as send (R361). -/
  | sendWithImmediate (conn : Nat) (host data : Got)
  /-- Opcode 0x02, as send (R361). -/
  | rdmaWrite (conn : Nat) (host data : Got)
  /-- Opcode 0x03, as send (R361). -/
  | rdmaWriteWithImmediate (conn : Nat) (host data : Got)
  /-- Opcode 0x04, as send (R361). -/
  | rdmaRead (conn : Nat) (host : Got)
  /-- Opcode 0x05, as send (R361). -/
  | atomicCompareSwap (conn : Nat) (host : Got)
  /-- Opcode 0x06, as send (R361). -/
  | atomicFetchAdd (conn : Nat) (host : Got)
  /-- The next receive request of a connection is fetched (R361). -/
  | receive (conn : Nat) (host : Got)
  /-- The retransmission timer of a PSN expires (R369). -/
  | retransmitTimeout (conn psn : Nat)
  /-- The RNR time passes (R369). -/
  | rnrDelayEnd (conn : Nat)
  /-- A PSN reaches lifetime_ms unacknowledged (R367). -/
  | connectionLifetimeExpiry (conn psn : Nat)
  /-- The suspension of a path ends (R370). -/
  | pathResume (conn path : Nat)
  /-- 2 µs have passed since an unacknowledged arrival (R372). -/
  | ackTimer (conn : Nat)
  /-- The context of a spilled connection is brought in; whether its check holds (R359). -/
  | contextFillDone (conn : Nat) (ok : Bool)
  /-- MR_INVAL is written (R364). -/
  | mrInval (value : Word)
  /-- No packet is still placed under the entry being invalidated (R364). -/
  | mrInvalDone
  /-- The window of a connection has stayed at w_min for 1 s (R378). -/
  | windowAtMin (conn : Nat)
  /-- Network port n goes up or down (R378). -/
  | netLinkChange (port : Nat) (up : Bool)
  /-- A Sceran request arrives: its source's address, node, epoch, identifier, and whether its CRC is right (R379, R382). -/
  | sceranRequest (ipv6 : Bool) (addr node : Nat) (epoch : Word) (id : Nat) (op : ScOp) (crcOk : Bool)
  /-- A Sceran response to a request of this device (R381). -/
  | sceranResponse (frame : ScFrame) (status old : Nat) (data : List Byte)
  /-- A Sceran release arrives (R382). -/
  | sceranRelease (node : Nat) (epoch : Word) (frame : ScFrame)
  /-- The retransmission timer of a Sceran request expires (R381). -/
  | sceranRetransmit (id : Nat)
  /-- A Sceran request is 500 ms old without a response (R381). -/
  | sceranLifetime (id : Nat)
  /-- The record of a number in the Sceran store is due to be freed (R382). -/
  | sceranRecordExpiry (number : Nat)
  /-- The DRBG is reseeded (R386). -/
  | drbgReseed
  /-- The mask generator is rekeyed (R387). -/
  | maskRekey
  /-- A health test of the entropy source fails (R387). -/
  | entropyHealthFail
  /-- The start-up test of the entropy source is repeated; pass: it passes (R387). -/
  | entropyRetest (pass : Bool)
  /-- The manager writes KEY_CMD with op 1 (R390). -/
  | keyLoad (value : Word)
  /-- The manager writes KEY_CMD with op 2 (R390). -/
  | keyGenerate (value : Word)
  /-- The manager writes KEY_CMD with op 3 (R390). -/
  | keyImport (value : Word)
  /-- The manager writes KEY_CMD with op 4 (R390). -/
  | keyUnload (value : Word)
  /-- The manager writes KEY_CMD with op 5 (R390). -/
  | keyRead (value : Word)
  /-- The security core's units have unwrapped a slot for a pipeline (R388). -/
  | keyUnwrapDone (pipe slot : Nat)
  /-- A doorbell of kind 7 or a CQ_TAIL write (R392). -/
  | cipherQueueDoorbell (bell : Bell)
  /-- The next job of cipher queue q runs recipe 0x01 (R396). -/
  | gcmSeal (q : Nat) (io : JobIo)
  /-- The next job of cipher queue q runs recipe 0x02 (R396). -/
  | gcmOpen (q : Nat) (io : JobIo)
  /-- The next job of cipher queue q runs recipe 0x03 (R397). -/
  | ctr (q : Nat) (io : JobIo)
  /-- The next job of cipher queue q runs recipe 0x04 (R398). -/
  | xtsEncrypt (q : Nat) (io : JobIo)
  /-- The next job of cipher queue q runs recipe 0x05 (R398). -/
  | xtsDecrypt (q : Nat) (io : JobIo)
  /-- The next job of cipher queue q runs recipe 0x08 (R399). -/
  | sha256 (q : Nat) (io : JobIo)
  /-- The next job of cipher queue q runs recipe 0x09 (R399). -/
  | sha384 (q : Nat) (io : JobIo)
  /-- The next job of cipher queue q runs recipe 0x0C (R400). -/
  | ecdsaSign (q : Nat) (io : JobIo)
  /-- The next job of cipher queue q runs recipe 0x0D (R400). -/
  | ecdsaVerify (q : Nat) (io : JobIo)
  /-- The next job of cipher queue q runs recipe 0x0E (R393). -/
  | publicKey (q : Nat) (io : JobIo)
  /-- The input stays below 44 V for 100 µs (R401). -/
  | inputLow
  /-- The input stays at 45 V or above for 10 ms (R401). -/
  | inputRecover
  /-- The input rises above 58 V (R401). -/
  | inputOvervoltage
  /-- The input is below 40 V for 1 ms, or (high) above 60 V for 10 µs (R401). -/
  | inputFaultOff (high : Bool)
  /-- The power die answers the outstanding request with ack or nak (R403). -/
  | powerLinkAnswer (ack : Bool)
  /-- The power die sends the over-power alert (R403, R418). -/
  | powerAlert
  /-- A request on the power link gets no answer in 20 µs (R404). -/
  | powerLinkTimeout
  /-- The power core tries the lost link again; answered: an answer comes (R404). -/
  | powerLinkRetry (answered : Bool)
  /-- The power die has had no frame for 5 ms; overLimit: its samples have exceeded 1,375 W for 100 µs since (R405). -/
  | powerDieFallback (overLimit : Bool)
  /-- The manager writes PWR_STATE_CMD with op 1 (R407). -/
  | toA0 (value : Word)
  /-- The manager writes PWR_STATE_CMD with op 2 (R408). -/
  | toA1 (value : Word)
  /-- Every bench is idle after op 2 (R408). -/
  | a1Entry
  /-- 100 ms have passed since op 2 (R408). -/
  | a1Timeout
  /-- Bench work is ready to start in A1 (R407). -/
  | autoA0
  /-- The manager writes PWR_STATE_CMD with op 3 (R409). -/
  | armS1 (value : Word)
  /-- The manager writes PWR_STATE_CMD with op 4 (R409). -/
  | armS2 (value : Word)
  /-- The manager writes PWR_STATE_CMD with op 5 (R409). -/
  | disarm (value : Word)
  /-- Both functions are in D3hot with S1 armed; linkLost: the power link is lost during the entry (R407). -/
  | s1Entry (linkLost : Bool)
  /-- Both links are in L2, or PERST# is asserted on both, with S2 armed; linkLost: the power link is lost during the entry (R407). -/
  | s2Entry (linkLost : Bool)
  /-- A wake, numbered as PWR_STATE.wake_src (R410). -/
  | wake (source : Nat)
  /-- PAD_RELEASE is written, by the power core or by a host (R413). -/
  | padRelease (core : Bool) (value : Word)
  /-- The meter's update: energy in µJ, power in W, voltage in mV, current in mA (R414). -/
  | energyUpdate (uj pin vin iin : Nat)
  /-- The cap loop takes its sample of p watts (R415). -/
  | capLoop (p : Nat)
  /-- The manager writes PHASE_CTRL (R416). -/
  | phaseCtrlWrite (value : Word)
  /-- Bench b of a stack has been idle for 1 ms (R416). -/
  | benchGateIdle (stack b : Nat)
  /-- The thermal loop: the junction temperature of each die in TEMP_STATUS order, and the hottest DRAM die of each stack, in °C
  (R419). -/
  | thermalLoop (dies dram : List Nat)
  /-- The bench rail of a stack falls 40 mV below its set voltage (R418). -/
  | droop (stack : Nat)
  /-- It stays above set minus 20 mV for 1 µs (R418). -/
  | droopClear (stack : Nat)
  /-- Samples stay below 1,100 W for 100 µs (R418). -/
  | overpowerClear
  /-- A junction reaches 125 °C (R420). -/
  | thermtrip
  /-- The boot ROM reads the flash, proves identity and counters, and verifies the firmware bundle (R421 to R424, R430, R436). -/
  | bootVerify (seen : BootSeen)
  /-- The security core verifies and applies the configuration image; content k is what the body in image slot k says (R425 to R428,
  log entry 8, DESIGN CHOICE). -/
  | imageApply (content0 content1 : Image)
  /-- The short hub test and the I/O dies' tests are over; failed: the units that failed (R433, R459, R461). -/
  | apprenticeServiceStart (failed : List PostUnit)
  /-- Training, self-test and zeroing are done; failed: the units that failed (R434, R461). -/
  | fullServiceStart (failed : List PostUnit)
  /-- The 2.5 s bound passes, or (full) the 45 s bound (R434). -/
  | bootLate (full : Bool)
  /-- The manager writes RESET_CTRL (R435). -/
  | resetCtrlWrite (value : Word)
  /-- The watchdog of a core expires: 0 security, 1 power, 2 scheduler, 3 to 10 hub, 11 to 22 control cores; handled: the
  descriptors a hub core was handling (R437). -/
  | watchdogExpiry (core : Nat) (handled : List Nat)
  /-- A restarted core runs again (R437, R110). -/
  | coreRestart (core : Nat)
  /-- Mailbox op 0x01 (R444). -/
  | flashWrite (value : Word)
  /-- Mailbox op 0x02 (R444). -/
  | flashErase (value : Word)
  /-- Mailbox op 0x03 (R438). -/
  | stageFirmware (value : Word)
  /-- Mailbox op 0x04 (R439, R440). -/
  | activateFirmware (value : Word)
  /-- No emergency has been active for 100 ms (R440). -/
  | activationResume
  /-- A core is not ready on the new image within 100 ms (R439). -/
  | activationTimeout
  /-- Mailbox op 0x05 (R441). -/
  | commitFirmware (value : Word)
  /-- Mailbox op 0x06; content: what the body in the slot says (R438, R428). -/
  | stageImage (value : Word) (content : Image)
  /-- Mailbox op 0x07 (R441). -/
  | commitImage (value : Word)
  /-- Mailbox op 0x08 (R431). -/
  | claimOwnership (value : Word)
  /-- Mailbox op 0x09 (R431). -/
  | transferOwnership (value : Word)
  /-- An SPDM request arrives on a transport (R442). -/
  | spdmRequest (transport : Nat) (req : SpdmReq)
  /-- A core reports ready on the new image (R439). -/
  | activationCoreReady (core : Nat)
  /-- Both devices are in full service with pairing enabled and the welt up (R447). -/
  | pairingStart (partner : Partner)
  /-- The standby holds a full copy of every enabled class (R447). -/
  | syncComplete
  /-- A welt lane fails (R445). -/
  | weltLaneFail (lane : Nat)
  /-- 100 µs have passed (R452); wake: a single device wakes its partner from S1 or S2 (R457). -/
  | heartbeatSend (wake : Bool)
  /-- A heartbeat of the partner arrives (R452). -/
  | heartbeatReceive (src : HeartbeatFrom)
  /-- The welt, or the heartbeat input, has been silent for 1 ms (R452). -/
  | heartbeatSilence (welt : Bool)
  /-- The probe is over: answered within 5 ms or not (R452). -/
  | probeTimeout (answered : Bool)
  /-- A synchronous or session update (R449, R450). -/
  | mirrorUpdate (what : MirrorStep)
  /-- The standby has acknowledged the next n session updates (R450). -/
  | sessionAck (n : Nat)
  /-- A bulk page is copied: the active sends its next one, or a page (number and bytes) arrives at the standby (R451). -/
  | bulkCopy (arrives : Option (Nat × List Byte))
  /-- PAIR_CMD op 1, or its hand-over at the standby (R456). -/
  | switchover (how : SwitchHow)
  /-- PAIR_CMD op 2 (R457). -/
  | rejoin (value : Word) (partner : Partner)
  /-- PAIR_CMD op 3, or the partner's leave (none) (R457). -/
  | leave (value : Option Word)
  /-- The welt completes training with a mask of good lanes (R445, R447). -/
  | weltLinkUp (lanes : Nat)
  /-- The test of a physical bench comes due, or its bench has become idle (R463, R109). -/
  | isstStart (stack bench : Nat)
  /-- The test of a stack ends; bad: the save or restore met uncorrectable data (R465, R466). -/
  | isstEnd (stack : Nat) (faults : List IsstFault) (bad : Bool)
  /-- A running test is abandoned (R465, R466). -/
  | isstAbandon (stack : Nat)
  /-- A bench has not been tested within its window (R463). -/
  | isstWindowLate (stack bench : Nat)
  /-- POST has waited 1 s for its conditions; untested: the parts that are left (R460). -/
  | postWaitTimeout (untested : List PostUnit)
  /-- A device fatal event of a cause of R468. -/
  | deviceFatal (cause : Nat)
  /-- A due test has waited 100 ms for its bench to be idle (R109). -/
  | isstDeferLimit (stack bench : Nat)
  /-- A millisecond of the timebase passes for the daybook's token buckets (R476). -/
  | daybookTokenRefill
  /-- The manager writes TALLY_SEL (R480). -/
  | tallySel (value : Word)
  /-- The manager writes TALLY_DUMP (R480). -/
  | tallyDump (value : Word)
  /-- A PLDM request arrives over MCTP (R481). -/
  | pldmRequest (req : PldmReq)
  /-- A PMBus command byte arrives (R482). -/
  | pmbusCommand (code : Nat)
  /-- PMBus CLEAR_FAULTS arrives (R482). -/
  | clearFaults
  /-- DEV_RESET_N has been low for a number of samples in succession (R496). -/
  | devResetNLow (samples : Nat)
  /-- PWR_EN goes low (R495). -/
  | pwrEnDeassert
  /-- PWRGOOD rises; the straps, TEST_MODE and DEV_RESET_N as they are then (R490, R494). -/
  | powerGood (straps : Nat) (testMode resetN : Bool)
  /-- The test access port shifts an instruction in: 0 IDCODE, 1 BYPASS, 2 SAMPLE/PRELOAD, 3 EXTEST, 4 EXTEST_PULSE, 5 EXTEST_TRAIN
  (R499). -/
  | tapInstruction (code : Nat)
  /-- DEV_RESET_N rises, and the boot ROM starts a warm reset. (R496) -/
  | devResetNRise
  deriving DecidableEq, Repr

end Sys2Proof
end

