-- ==== Sys2Proof/Config.lean ====
section
/-! DEFINITION. The free values: constants without a body, about which nothing can be proved. -/

namespace Sys2Proof

/-- Output n of a random source: DRBG output (R386), drawn with State.free. -/
opaque Config.random : Nat → BitVec 64

/-- A value the spec leaves undefined or does not state, drawn with State.free. -/
opaque Config.undefinedWord : Nat → BitVec 64

/-- The 256-bit device secret of the PUF (R430, derived at each boot), as bytes. -/
opaque Config.deviceSecret : Nat → BitVec 8

/-- The private scalar of the device identity key (R430). -/
opaque Config.identityScalar : Nat

/-- The hash of the Plovbera root public key held in the boot ROM (R424). -/
opaque Config.rootKeyHash : List (BitVec 8)

/-- The SHA-384 of the boot ROM (measurement 1 of R442). -/
opaque Config.romDigest : List (BitVec 8)

/-- The firmware supports a version of a section type (R426). -/
opaque Config.sectionSupported : Nat → Nat → Bool

end Sys2Proof
end

