-- ==== Sys2Proof/Machine/Tab.lean ====
section
/-! DEFINITION. Sparse tables: a list of (key, value) pairs with strictly rising keys. A table with a default value
lists no entry equal to the default, so equal tables are equal data. -/

namespace Sys2Proof.Machine

/-- A sparse table. -/
abbrev Tab (α : Type) := List (Nat × α)

/-- The entry at key k. -/
def Tab.find? {α : Type} : Tab α → Nat → Option α
  | [], _ => none
  | (k', v) :: t, k => if k = k' then some v else Tab.find? t k

/-- The table with the entry at key k set to v, keys kept rising. -/
def Tab.insert {α : Type} : Tab α → Nat → α → Tab α
  | [], k, v => [(k, v)]
  | (k', v') :: t, k, v =>
    if k < k' then (k, v) :: (k', v') :: t
    else if k = k' then (k, v) :: t
    else (k', v') :: Tab.insert t k v

/-- The table without an entry at key k. -/
def Tab.erase {α : Type} : Tab α → Nat → Tab α
  | [], _ => []
  | (k', v') :: t, k => if k = k' then t else (k', v') :: Tab.erase t k

/-- The entry at key k, or the default d. -/
def Tab.get {α : Type} (d : α) (t : Tab α) (k : Nat) : α := (Tab.find? t k).getD d

/-- Set key k to v in a table with default d. -/
def Tab.put {α : Type} [DecidableEq α] (d : α) (t : Tab α) (k : Nat) (v : α) : Tab α :=
  if v = d then Tab.erase t k else Tab.insert t k v

/-- Change the entry at key k of a table with default d. -/
def Tab.update {α : Type} [DecidableEq α] (d : α) (t : Tab α) (k : Nat) (f : α → α) : Tab α :=
  Tab.put d t k (f (Tab.get d t k))

/-- Change the entry at key k where there is one. -/
def Tab.modify {α : Type} (t : Tab α) (k : Nat) (f : α → α) : Tab α :=
  match Tab.find? t k with
  | some v => Tab.insert t k (f v)
  | none => t

/-- Every key of the table is above b, and the keys rise strictly. -/
def Tab.risingFrom {α : Type} : Nat → Tab α → Bool
  | _, [] => true
  | b, (k, _) :: t => decide (b ≤ k) && Tab.risingFrom (k + 1) t

/-- The keys of the table rise strictly. -/
def Tab.rising {α : Type} (t : Tab α) : Bool := Tab.risingFrom 0 t

/-- No entry equals the default. -/
def Tab.noDefault {α : Type} [DecidableEq α] (d : α) (t : Tab α) : Bool := t.all fun e => decide (e.2 ≠ d)

/-- The canonical form of a table with default d. -/
def Tab.wf {α : Type} [DecidableEq α] (d : α) (t : Tab α) : Bool := Tab.rising t && Tab.noDefault d t

/-- The keys in rising order. -/
def Tab.keys {α : Type} (t : Tab α) : List Nat := t.map Prod.fst

/-- Keep the entries that satisfy p. -/
def Tab.keep {α : Type} (t : Tab α) (p : Nat → α → Bool) : Tab α := t.filter fun e => p e.1 e.2

/-- Change every listed entry. -/
def Tab.mapVals {α : Type} (t : Tab α) (f : Nat → α → α) : Tab α := t.map fun e => (e.1, f e.1 e.2)

/-- The first key satisfying p. -/
def Tab.findKey? {α : Type} (t : Tab α) (p : Nat → α → Bool) : Option Nat :=
  (List.find? (fun e => p e.1 e.2) t).map Prod.fst

/-- The least natural below n that is no key of the table. -/
def Tab.firstFree? {α : Type} (t : Tab α) (n : Nat) : Option Nat :=
  (List.range n).find? fun k => (Tab.find? t k).isNone

end Sys2Proof.Machine
end

