-- ==== Sys2Proof/Machine/RegMap.lean ====
section
/-! DEFINITION. The register map of BAR0: the address of every register (R.<register>), the bit range of every
field (F.<register>_<field>), and per chapter the table of access types, reset values and clamps, written from the
register tables of spec/ (the chapters' sections "Registers", R6, R22). -/

namespace Sys2Proof.Machine

/-- A bit range, high and low bit, both inside (spec/00_scope.md, Notation). -/
abbrev Fld := Nat × Nat

/-- The access types of spec/00_scope.md. -/
inductive Access where
  | ro | rw | rw1c | wo | rwl
  deriving DecidableEq, Repr

/-- One field of a register: its bits, its type, its reset value, and the least and greatest value a write leaves
("above 10 reads as 10", "0 reads as 1"). -/
structure FieldDesc where
  hi : Nat
  lo : Nat
  ty : Access
  reset : Nat
  least : Nat
  most : Nat
  deriving DecidableEq, Repr

/-- One row of a register table: name, first address, the index dimensions (count, stride), the fields. -/
structure RegDesc where
  name : String
  base : Nat
  dims : List (Nat × Nat)
  fields : List FieldDesc
  deriving DecidableEq, Repr

/-! Addresses (byte offsets in BAR0). -/

def R.timebase : Nat := 0x10100
def R.timeRate : Nat := 0x10108
def R.timeStep : Nat := 0x10110
def R.timeSrc : Nat := 0x10118
def R.deviceIdent : Nat := 0x0
def R.hostIfRev : Nat := 0x8
def R.winVa (s k w : Nat) : Nat := 0x1008000 + s * 0x100000 + k * 0x200 + w * 0x20
def R.winPa (s k w : Nat) : Nat := 0x1008008 + s * 0x100000 + k * 0x200 + w * 0x20
def R.winSize (s k w : Nat) : Nat := 0x1008010 + s * 0x100000 + k * 0x200 + w * 0x20
def R.winCtrl (s k w : Nat) : Nat := 0x1008018 + s * 0x100000 + k * 0x200 + w * 0x20
def R.stackBarrier (s b : Nat) : Nat := 0x1003000 + s * 0x100000 + b * 0x8
def R.deviceBarrier (b : Nat) : Nat := 0x1003100 + b * 0x8
def R.stackStatus (s : Nat) : Nat := 0x1000000 + s * 0x100000
def R.benchStatus (s b : Nat) : Nat := 0x1000080 + s * 0x100000 + b * 0x8
def R.memLayout : Nat := 0x2000000
def R.stitchStatus : Nat := 0x2000008
def R.hbmStatus (s : Nat) : Nat := 0x2000100 + s * 0x8
def R.ddrChanStatus (c : Nat) : Nat := 0x2000200 + c * 0x8
def R.scrubStatus : Nat := 0x2000300
def R.zeroStatus : Nat := 0x2000500
def R.memErrAddr : Nat := 0x2000400
def R.memErrInfo : Nat := 0x2000408
def R.regionCmdBase : Nat := 0x2001000
def R.regionCmdSize : Nat := 0x2001008
def R.regionCmdAttr : Nat := 0x2001010
def R.regionCmdGo : Nat := 0x2001018
def R.regionState (r : Nat) : Nat := 0x2008018 + r * 0x20
def R.snapStatus : Nat := 0x2003000
def R.snapPages : Nat := 0x2003008
def R.stagingStatus : Nat := 0x2003010
def R.intakeStatus (j : Nat) : Nat := 0x2003100 + j * 0x8
def R.engineStatus (e : Nat) : Nat := 0x200000 + e * 0x10000
def R.engineErrAddr (e : Nat) : Nat := 0x200008 + e * 0x10000
def R.chanRing (e c : Nat) : Nat := 0x201000 + e * 0x10000 + c * 0x40
def R.chanCfg (e c : Nat) : Nat := 0x201008 + e * 0x10000 + c * 0x40
def R.chanTail (e c : Nat) : Nat := 0x201010 + e * 0x10000 + c * 0x40
def R.chanHead (e c : Nat) : Nat := 0x201018 + e * 0x10000 + c * 0x40
def R.chanCtrl (e c : Nat) : Nat := 0x201020 + e * 0x10000 + c * 0x40
def R.chanStatus (e c : Nat) : Nat := 0x201028 + e * 0x10000 + c * 0x40
def R.chanDone (e c : Nat) : Nat := 0x201030 + e * 0x10000 + c * 0x40
def R.msixTable (f i : Nat) : Nat := 0x100000 + f * 0x80000 + i * 0x8
def R.msixPba (f i : Nat) : Nat := 0x108000 + f * 0x80000 + i * 0x8
def R.epStatus (f : Nat) : Nat := 0x110000 + f * 0x80000
def R.tagStatus (f : Nat) : Nat := 0x110008 + f * 0x80000
def R.cplLateLog (f : Nat) : Nat := 0x110010 + f * 0x80000
def R.hbCfg (f : Nat) : Nat := 0x110018 + f * 0x80000
def R.hbCount (f : Nat) : Nat := 0x110020 + f * 0x80000
def R.intxPend (f : Nat) : Nat := 0x110028 + f * 0x80000
def R.wakeCfg (f : Nat) : Nat := 0x110030 + f * 0x80000
def R.wakeStatus (f : Nat) : Nat := 0x110038 + f * 0x80000
def R.sliceCmdGo : Nat := 0x3000000
def R.sliceBind (n : Nat) : Nat := 0x3010000 + n * 0x100
def R.slicePolicy (n : Nat) : Nat := 0x3010008 + n * 0x100
def R.sliceQuotaMem (n : Nat) : Nat := 0x3010010 + n * 0x100
def R.sliceQuotaQ (n : Nat) : Nat := 0x3010018 + n * 0x100
def R.sliceQuotaNet (n : Nat) : Nat := 0x3010020 + n * 0x100
def R.sliceQuotaServe (n : Nat) : Nat := 0x3010028 + n * 0x100
def R.sliceShare (n : Nat) : Nat := 0x3010030 + n * 0x100
def R.logCfg (n : Nat) : Nat := 0x3010038 + n * 0x100
def R.logBaseA (n : Nat) : Nat := 0x3010040 + n * 0x100
def R.logBaseB (n : Nat) : Nat := 0x3010048 + n * 0x100
def R.doorbellEntry (f p : Nat) : Nat := 0x3200000 + f * 0x20000 + p * 0x8
def R.aperBar (f a : Nat) : Nat := 0x3400000 + f * 0x20000 + a * 0x20
def R.aperPa (f a : Nat) : Nat := 0x3400008 + f * 0x20000 + a * 0x20
def R.aperSize (f a : Nat) : Nat := 0x3400010 + f * 0x20000 + a * 0x20
def R.aperCtrl (f a : Nat) : Nat := 0x3400018 + f * 0x20000 + a * 0x20
def R.bqRing (q : Nat) : Nat := 0x3600000 + q * 0x40
def R.bqCfg (q : Nat) : Nat := 0x3600008 + q * 0x40
def R.bqTail (q : Nat) : Nat := 0x3600010 + q * 0x40
def R.bqStatus (q : Nat) : Nat := 0x3600018 + q * 0x40
def R.crRing (r : Nat) : Nat := 0x3700000 + r * 0x20
def R.crCfg (r : Nat) : Nat := 0x3700008 + r * 0x20
def R.crHead (r : Nat) : Nat := 0x3700010 + r * 0x20
def R.crStatus (r : Nat) : Nat := 0x3700018 + r * 0x20
def R.dpStatus (p : Nat) : Nat := 0x400000 + p * 0x800
def R.dpCtrl (p : Nat) : Nat := 0x400008 + p * 0x800
def R.dpSlotCtrl (p : Nat) : Nat := 0x400010 + p * 0x800
def R.dpSlotStatus (p : Nat) : Nat := 0x400018 + p * 0x800
def R.dpCfgAddr (p : Nat) : Nat := 0x400020 + p * 0x800
def R.dpCfgData (p : Nat) : Nat := 0x400028 + p * 0x800
def R.dpDbBase (p : Nat) : Nat := 0x400030 + p * 0x800
def R.dpViolLog (p : Nat) : Nat := 0x400038 + p * 0x800
def R.iwBus (p w : Nat) : Nat := 0x400100 + p * 0x800 + w * 0x20
def R.iwPa (p w : Nat) : Nat := 0x400108 + p * 0x800 + w * 0x20
def R.iwSize (p w : Nat) : Nat := 0x400110 + p * 0x800 + w * 0x20
def R.iwCtrl (p w : Nat) : Nat := 0x400118 + p * 0x800 + w * 0x20
def R.storCfg : Nat := 0xa00000
def R.medRing : Nat := 0xa00010
def R.medPtr : Nat := 0xa00018
def R.medReply : Nat := 0xa00020
def R.medDw0 : Nat := 0xa00028
def R.nsMap (n : Nat) : Nat := 0xa10000 + n * 0x20
def R.nsSize (n : Nat) : Nat := 0xa10008 + n * 0x20
def R.nsLegs (n : Nat) : Nat := 0xa10010 + n * 0x20
def R.nsStatus (n : Nat) : Nat := 0xa10018 + n * 0x20
def R.beCfg (b : Nat) : Nat := 0xa40000 + b * 0x20
def R.beBase (b : Nat) : Nat := 0xa40008 + b * 0x20
def R.beOffset (b : Nat) : Nat := 0xa40010 + b * 0x20
def R.beStatus (b : Nat) : Nat := 0xa40018 + b * 0x20
def R.qpSq (q : Nat) : Nat := 0xa80000 + q * 0x40
def R.qpCq (q : Nat) : Nat := 0xa80008 + q * 0x40
def R.qpCfg (q : Nat) : Nat := 0xa80010 + q * 0x40
def R.qpStatus (q : Nat) : Nat := 0xa80018 + q * 0x40
def R.netCfg : Nat := 0x600000
def R.netPortStatus (n : Nat) : Nat := 0x600100 + n * 0x8
def R.netPortLat (n : Nat) : Nat := 0x600140 + n * 0x8
def R.ptpCfg : Nat := 0x600200
def R.servoStatus : Nat := 0x600208
def R.pipeCfg : Nat := 0x600300
def R.excCfg : Nat := 0x600308
def R.lookupList (k : Nat) : Nat := 0x600310 + k * 0x8
def R.tmCfg : Nat := 0x600328
def R.objCmd : Nat := 0x600400
def R.objData (i : Nat) : Nat := 0x600480 + i * 0x8
def R.pnA (n : Nat) : Nat := 0x601000 + n * 0x20
def R.pnB (n : Nat) : Nat := 0x601008 + n * 0x20
def R.pnT01 (n : Nat) : Nat := 0x601010 + n * 0x20
def R.pnT23 (n : Nat) : Nat := 0x601018 + n * 0x20
def R.spreadCfg (s : Nat) : Nat := 0x608000 + s * 0x40
def R.spreadKey (s i : Nat) : Nat := 0x608008 + s * 0x40 + i * 0x8
def R.indir (s i : Nat) : Nat := 0x700000 + s * 0x1000 + i * 0x8
def R.prRing (r : Nat) : Nat := 0x640000 + r * 0x20
def R.prCfg (r : Nat) : Nat := 0x640008 + r * 0x20
def R.prTail (r : Nat) : Nat := 0x640010 + r * 0x20
def R.prStatus (r : Nat) : Nat := 0x640018 + r * 0x20
def R.transportCfg : Nat := 0x800000
def R.spillCfg : Nat := 0x800008
def R.mrTable : Nat := 0x800010
def R.mrInval : Nat := 0x800018
def R.connCmd : Nat := 0x800100
def R.connData (i : Nat) : Nat := 0x800180 + i * 0x8
def R.sceranCfg : Nat := 0x800300
def R.sceranStatus : Nat := 0x800308
def R.sceranStore : Nat := 0x800310
def R.scNode (n : Nat) : Nat := 0x810000 + n * 0x20
def R.scAddr (n i : Nat) : Nat := 0x810008 + n * 0x20 + i * 0x8
def R.cipherCfg : Nat := 0xc00000
def R.rngStatus : Nat := 0xc00008
def R.keyTable : Nat := 0xc00010
def R.keyCmd : Nat := 0xc00100
def R.keyAttr : Nat := 0xc00108
def R.keySalt : Nat := 0xc00110
def R.keyCtr : Nat := 0xc00118
def R.keyLimit : Nat := 0xc00120
def R.keyData (i : Nat) : Nat := 0xc00140 + i * 0x8
def R.cqRing (q : Nat) : Nat := 0xc10000 + q * 0x20
def R.cqCfg (q : Nat) : Nat := 0xc10008 + q * 0x20
def R.cqTail (q : Nat) : Nat := 0xc10010 + q * 0x20
def R.cqStatus (q : Nat) : Nat := 0xc10018 + q * 0x20
def R.pwrState : Nat := 0x20000
def R.pwrStateCmd : Nat := 0x20008
def R.pwrCfg : Nat := 0x20010
def R.wakeMac : Nat := 0x20018
def R.wakeTimer : Nat := 0x20020
def R.capCfg : Nat := 0x20100
def R.capStatus : Nat := 0x20108
def R.energy : Nat := 0x20110
def R.powerNow : Nat := 0x20118
def R.phaseCtrl : Nat := 0x20200
def R.phaseStatus : Nat := 0x20208
def R.opPoint (p : Nat) : Nat := 0x20210 + p * 0x8
def R.emergStatus : Nat := 0x20300
def R.tempStatus : Nat := 0x20308
def R.padStatus : Nat := 0x20400
def R.padRelease : Nat := 0x20408
def R.offCause : Nat := 0x20410
def R.plinkStatus : Nat := 0x20500
def R.bootStatus : Nat := 0x10000
def R.resetCtrl : Nat := 0x10008
def R.fwVersion : Nat := 0x10010
def R.wdogStatus : Nat := 0x10018
def R.mboxCmd : Nat := 0x80000
def R.mboxArg0 : Nat := 0x80008
def R.mboxArg1 : Nat := 0x80010
def R.mboxCfg : Nat := 0x80018
def R.mboxBuf (i : Nat) : Nat := 0x81000 + i * 0x8
def R.pairCfg : Nat := 0xe00000
def R.pairSlices (i : Nat) : Nat := 0xe00010 + i * 0x8
def R.pairAnnAddr : Nat := 0xe00030
def R.pairAnnCtrl : Nat := 0xe00038
def R.pairStatus : Nat := 0xe00100
def R.pairCmd : Nat := 0xe00108
def R.pairLag : Nat := 0xe00110
def R.weltStatus : Nat := 0xe00118
def R.postStatus : Nat := 0x10020
def R.fatalStatus : Nat := 0x10028
def R.isstCfg (s : Nat) : Nat := 0x1000400 + s * 0x100000
def R.isstStatus (s : Nat) : Nat := 0x1000408 + s * 0x100000
def R.isstLast (s : Nat) : Nat := 0x1000410 + s * 0x100000
def R.dbStatus : Nat := 0x40000
def R.dbSeq : Nat := 0x40008
def R.dbOverwrite : Nat := 0x40010
def R.dbRate : Nat := 0x40018
def R.dbWindow : Nat := 0x40020
def R.tallySel : Nat := 0x40100
def R.tallyVal : Nat := 0x40108
def R.tallyDump : Nat := 0x40110
def R.tallyDumpAddr : Nat := 0x40118
def R.tallyDir (b i : Nat) : Nat := 0x41000 + b * 0x200 + i * 0x8
def R.dbWin (i : Nat) : Nat := 0x48000 + i * 0x8
def R.quietSlots (i : Nat) : Nat := 0x200 + i * 0x8
def R.regionBase (r : Nat) : Nat := 0x2008000 + r * 0x20
def R.regionSize (r : Nat) : Nat := 0x2008008 + r * 0x20
def R.regionAttr (r : Nat) : Nat := 0x2008010 + r * 0x20
/-- Base of a repair map: present +0x00, fenced +0x08, substitution +0x10 (R6). -/
def R.repairStack : Nat := 0x100
/-- Base of a repair map: present +0x00, fenced +0x08, substitution +0x10 (R6). -/
def R.repairLink (k : Nat) : Nat := 0x18000 + k * 0x20
/-- Base of a repair map: present +0x00, fenced +0x08, substitution +0x10 (R6). -/
def R.repairGroup (g : Nat) : Nat := 0x40f000 + g * 0x20
/-- Base of a repair map: present +0x00, fenced +0x08, substitution +0x10 (R6). -/
def R.repairBench (s : Nat) : Nat := 0x1001000 + s * 0x100000
/-- Base of a repair map: present +0x00, fenced +0x08, substitution +0x10 (R6). -/
def R.repairEngine (s b : Nat) : Nat := 0x1001100 + s * 0x100000 + b * 0x20
/-- Base of a repair map: present +0x00, fenced +0x08, substitution +0x10 (R6). -/
def R.repairLane (s u : Nat) : Nat := 0x1002000 + s * 0x100000 + u * 0x20

/-! Fields. -/

def F.timebase_ticks : Fld := (63, 0)
def F.timeRate_rate_adj : Fld := (31, 0)
def F.timeStep_step : Fld := (63, 0)
def F.timeSrc_src : Fld := (1, 0)
def F.deviceIdent_part_number : Fld := (47, 32)
def F.deviceIdent_stepping : Fld := (31, 24)
def F.deviceIdent_package_variant : Fld := (23, 16)
def F.hostIfRev_major : Fld := (31, 16)
def F.hostIfRev_minor : Fld := (15, 0)
def F.winVa_va_base : Fld := (47, 12)
def F.winPa_pa_base : Fld := (51, 12)
def F.winSize_pages : Fld := (35, 0)
def F.winCtrl_valid : Fld := (63, 63)
def F.winCtrl_owner : Fld := (55, 48)
def F.winCtrl_x : Fld := (2, 2)
def F.winCtrl_w : Fld := (1, 1)
def F.winCtrl_r : Fld := (0, 0)
def F.stackBarrier_generation : Fld := (63, 48)
def F.stackBarrier_broken : Fld := (47, 47)
def F.stackBarrier_owner : Fld := (39, 32)
def F.stackBarrier_arrived : Fld := (31, 16)
def F.stackBarrier_expected : Fld := (15, 0)
def F.deviceBarrier_generation : Fld := (63, 48)
def F.deviceBarrier_broken : Fld := (47, 47)
def F.deviceBarrier_owner : Fld := (39, 32)
def F.deviceBarrier_arrived : Fld := (31, 16)
def F.deviceBarrier_expected : Fld := (15, 0)
def F.stackStatus_isst_bench : Fld := (23, 16)
def F.stackStatus_ramp_rate : Fld := (8, 2)
def F.stackStatus_ramp_active : Fld := (1, 1)
def F.stackStatus_in_service : Fld := (0, 0)
def F.benchStatus_running_slice : Fld := (23, 16)
def F.benchStatus_free_pages : Fld := (15, 8)
def F.benchStatus_logical_pos : Fld := (4, 2)
def F.benchStatus_under_test : Fld := (1, 1)
def F.benchStatus_busy : Fld := (0, 0)
def F.memLayout_ddr7_use : Fld := (41, 40)
def F.memLayout_staging_gib : Fld := (39, 32)
def F.memLayout_ddr7_res_gib : Fld := (23, 16)
def F.memLayout_stitched_gib : Fld := (4, 0)
def F.stitchStatus_lost_stacks : Fld := (27, 16)
def F.stitchStatus_tolerance : Fld := (3, 2)
def F.stitchStatus_lost : Fld := (1, 1)
def F.stitchStatus_degraded : Fld := (0, 0)
def F.hbmStatus_temp_c : Fld := (47, 40)
def F.hbmStatus_spare_rows : Fld := (31, 16)
def F.hbmStatus_refresh_x2 : Fld := (2, 2)
def F.hbmStatus_trained : Fld := (1, 1)
def F.hbmStatus_mem_in_service : Fld := (0, 0)
def F.ddrChanStatus_capacity_gib : Fld := (41, 32)
def F.ddrChanStatus_rate : Fld := (23, 16)
def F.ddrChanStatus_dimms : Fld := (3, 2)
def F.ddrChanStatus_trained : Fld := (1, 1)
def F.ddrChanStatus_in_service : Fld := (0, 0)
def F.scrubStatus_passes : Fld := (63, 32)
def F.scrubStatus_progress : Fld := (7, 0)
def F.zeroStatus_backlog : Fld := (31, 0)
def F.memErrAddr_addr : Fld := (51, 6)
def F.memErrInfo_valid : Fld := (63, 63)
def F.memErrInfo_slice : Fld := (55, 48)
def F.memErrInfo_tier : Fld := (42, 40)
def F.memErrInfo_source : Fld := (34, 32)
def F.regionCmdBase_base : Fld := (51, 21)
def F.regionCmdSize_granules : Fld := (31, 0)
def F.regionCmdAttr_owner : Fld := (15, 8)
def F.regionCmdAttr_bulk_mirror : Fld := (4, 4)
def F.regionCmdAttr_tier : Fld := (2, 0)
def F.regionCmdGo_busy : Fld := (63, 63)
def F.regionCmdGo_status : Fld := (47, 32)
def F.regionCmdGo_op : Fld := (15, 12)
def F.regionCmdGo_index : Fld := (11, 0)
def F.regionState_state : Fld := (1, 0)
def F.snapStatus_active : Fld := (63, 63)
def F.snapStatus_slice : Fld := (55, 48)
def F.snapStatus_job : Fld := (35, 32)
def F.snapStatus_shards_sent : Fld := (15, 0)
def F.snapPages_total : Fld := (63, 32)
def F.snapPages_copied : Fld := (31, 0)
def F.stagingStatus_high_water : Fld := (41, 21)
def F.stagingStatus_in_use : Fld := (20, 0)
def F.intakeStatus_job_error : Fld := (63, 63)
def F.intakeStatus_arrived : Fld := (16, 0)
def F.engineStatus_stopped : Fld := (63, 63)
def F.engineStatus_ckpt : Fld := (62, 62)
def F.engineStatus_stop_code : Fld := (47, 32)
def F.engineErrAddr_addr : Fld := (63, 0)
def F.chanRing_base : Fld := (63, 12)
def F.chanRing_space : Fld := (4, 4)
def F.chanRing_size : Fld := (3, 0)
def F.chanCfg_enable : Fld := (63, 63)
def F.chanCfg_leave : Fld := (62, 62)
def F.chanCfg_owner : Fld := (55, 48)
def F.chanCfg_classes : Fld := (39, 36)
def F.chanCfg_pasid : Fld := (19, 0)
def F.chanTail_tail : Fld := (15, 0)
def F.chanHead_head : Fld := (15, 0)
def F.chanCtrl_clear_error : Fld := (2, 2)
def F.chanCtrl_squash : Fld := (1, 1)
def F.chanCtrl_pause : Fld := (0, 0)
def F.chanStatus_state : Fld := (63, 61)
def F.chanStatus_late_error : Fld := (60, 60)
def F.chanStatus_err_code : Fld := (47, 32)
def F.chanStatus_index : Fld := (15, 0)
def F.chanDone_bytes : Fld := (31, 0)
def F.msixTable_entry : Fld := (63, 0)
def F.msixPba_pending : Fld := (63, 0)
def F.epStatus_host_lost : Fld := (31, 31)
def F.epStatus_flr_busy : Fld := (30, 30)
def F.epStatus_bme : Fld := (29, 29)
def F.epStatus_d_state : Fld := (28, 27)
def F.epStatus_flit : Fld := (26, 26)
def F.epStatus_width : Fld := (20, 16)
def F.epStatus_speed : Fld := (15, 12)
def F.epStatus_low_power : Fld := (1, 1)
def F.epStatus_link_up : Fld := (0, 0)
def F.tagStatus_quarantined : Fld := (45, 32)
def F.tagStatus_outstanding : Fld := (13, 0)
def F.cplLateLog_valid : Fld := (63, 63)
def F.cplLateLog_tag : Fld := (45, 32)
def F.cplLateLog_late_us : Fld := (31, 0)
def F.hbCfg_enable : Fld := (63, 63)
def F.hbCfg_period_ms : Fld := (13, 0)
def F.hbCount_count : Fld := (63, 0)
def F.intxPend_pending : Fld := (63, 0)
def F.wakeCfg_timer : Fld := (3, 3)
def F.wakeCfg_pair : Fld := (2, 2)
def F.wakeCfg_hotplug : Fld := (1, 1)
def F.wakeCfg_net : Fld := (0, 0)
def F.wakeStatus_source : Fld := (3, 0)
def F.sliceCmdGo_busy : Fld := (63, 63)
def F.sliceCmdGo_status : Fld := (47, 32)
def F.sliceCmdGo_op : Fld := (11, 8)
def F.sliceCmdGo_slice : Fld := (7, 0)
def F.sliceBind_state : Fld := (63, 61)
def F.sliceBind_function : Fld := (24, 24)
def F.sliceBind_quiet : Fld := (23, 22)
def F.sliceBind_pasid_en : Fld := (20, 20)
def F.sliceBind_pasid : Fld := (19, 0)
def F.slicePolicy_drive_ports : Fld := (63, 48)
def F.slicePolicy_acc_ports : Fld := (47, 40)
def F.slicePolicy_classes : Fld := (39, 36)
def F.slicePolicy_vec_count : Fld := (21, 11)
def F.slicePolicy_vec_base : Fld := (10, 0)
def F.sliceQuotaMem_ddr_gib : Fld := (47, 32)
def F.sliceQuotaMem_hbm_gib : Fld := (8, 0)
def F.sliceQuotaQ_cq_rings : Fld := (63, 48)
def F.sliceQuotaQ_nvme_qps : Fld := (47, 32)
def F.sliceQuotaQ_dma_channels : Fld := (31, 16)
def F.sliceQuotaQ_bench_queues : Fld := (15, 0)
def F.sliceQuotaNet_key_slots : Fld := (48, 32)
def F.sliceQuotaNet_connections : Fld := (24, 0)
def F.sliceQuotaServe_sequences : Fld := (44, 32)
def F.sliceQuotaServe_kv_frames : Fld := (22, 0)
def F.sliceShare_net_min_gbps : Fld := (43, 32)
def F.sliceShare_bench_share : Fld := (7, 0)
def F.logCfg_active : Fld := (63, 63)
def F.logCfg_buffer : Fld := (62, 62)
def F.logCfg_overflow : Fld := (61, 61)
def F.logCfg_limit_gib : Fld := (15, 0)
def F.logBaseA_base : Fld := (63, 12)
def F.logBaseB_base : Fld := (63, 12)
def F.doorbellEntry_valid : Fld := (63, 63)
def F.doorbellEntry_kind : Fld := (50, 48)
def F.doorbellEntry_slice : Fld := (47, 40)
def F.doorbellEntry_queue : Fld := (23, 0)
def F.aperBar_bar_base : Fld := (38, 21)
def F.aperPa_pa_base : Fld := (51, 21)
def F.aperSize_units : Fld := (17, 0)
def F.aperCtrl_valid : Fld := (63, 63)
def F.aperCtrl_slice : Fld := (15, 8)
def F.aperCtrl_w : Fld := (1, 1)
def F.aperCtrl_r : Fld := (0, 0)
def F.bqRing_base : Fld := (63, 12)
def F.bqRing_space : Fld := (4, 4)
def F.bqRing_size : Fld := (3, 0)
def F.bqCfg_enable : Fld := (63, 63)
def F.bqCfg_owner : Fld := (55, 48)
def F.bqTail_tail : Fld := (15, 0)
def F.bqStatus_state : Fld := (63, 61)
def F.bqStatus_head : Fld := (15, 0)
def F.crRing_base : Fld := (63, 12)
def F.crRing_space : Fld := (4, 4)
def F.crRing_size : Fld := (3, 0)
def F.crCfg_enable : Fld := (63, 63)
def F.crCfg_owner : Fld := (55, 48)
def F.crCfg_irq : Fld := (12, 11)
def F.crCfg_vector : Fld := (10, 0)
def F.crHead_head : Fld := (15, 0)
def F.crStatus_phase : Fld := (63, 63)
def F.crStatus_full : Fld := (62, 62)
def F.crStatus_tail : Fld := (15, 0)
def F.dpStatus_state : Fld := (31, 29)
def F.dpStatus_flit : Fld := (28, 28)
def F.dpStatus_width : Fld := (20, 16)
def F.dpStatus_speed : Fld := (15, 12)
def F.dpStatus_owner : Fld := (7, 0)
def F.dpCtrl_hot_reset : Fld := (5, 5)
def F.dpCtrl_port_enable : Fld := (4, 4)
def F.dpCtrl_cpl_timeout : Fld := (3, 0)
def F.dpSlotCtrl_event_en : Fld := (15, 8)
def F.dpSlotCtrl_pwr_ind : Fld := (4, 3)
def F.dpSlotCtrl_attn_ind : Fld := (2, 1)
def F.dpSlotCtrl_power_ctrl : Fld := (0, 0)
def F.dpSlotStatus_presence : Fld := (8, 8)
def F.dpSlotStatus_train_fail : Fld := (7, 7)
def F.dpSlotStatus_cpl_timeout : Fld := (6, 6)
def F.dpSlotStatus_err_msg : Fld := (5, 5)
def F.dpSlotStatus_inbound_viol : Fld := (4, 4)
def F.dpSlotStatus_link_down : Fld := (3, 3)
def F.dpSlotStatus_power_fault : Fld := (2, 2)
def F.dpSlotStatus_attn_pressed : Fld := (1, 1)
def F.dpSlotStatus_presence_changed : Fld := (0, 0)
def F.dpCfgAddr_reg : Fld := (11, 0)
def F.dpCfgData_function : Fld := (34, 32)
def F.dpCfgData_data : Fld := (31, 0)
def F.dpDbBase_base : Fld := (63, 12)
def F.dpDbBase_enable : Fld := (0, 0)
def F.dpViolLog_addr : Fld := (63, 0)
def F.iwBus_bus_base : Fld := (63, 21)
def F.iwPa_pa_base : Fld := (51, 21)
def F.iwSize_units : Fld := (17, 0)
def F.iwCtrl_valid : Fld := (63, 63)
def F.iwCtrl_w : Fld := (1, 1)
def F.iwCtrl_r : Fld := (0, 0)
def F.storCfg_apprentice : Fld := (8, 8)
def F.storCfg_backend_timeout : Fld := (7, 0)
def F.medRing_base : Fld := (63, 12)
def F.medRing_size : Fld := (3, 0)
def F.medPtr_head : Fld := (31, 16)
def F.medPtr_tail : Fld := (15, 0)
def F.medReply_status : Fld := (63, 48)
def F.medReply_tag : Fld := (31, 0)
def F.medDw0_dw0 : Fld := (31, 0)
def F.nsMap_valid : Fld := (63, 63)
def F.nsMap_owner : Fld := (55, 48)
def F.nsMap_nsid : Fld := (40, 32)
def F.nsMap_lba_4k : Fld := (0, 0)
def F.nsSize_lbas : Fld := (47, 0)
def F.nsLegs_leg1 : Fld := (31, 16)
def F.nsLegs_leg0 : Fld := (15, 0)
def F.nsStatus_state : Fld := (63, 61)
def F.nsStatus_atomic64 : Fld := (60, 60)
def F.nsStatus_failed : Fld := (59, 58)
def F.nsStatus_rearm : Fld := (57, 57)
def F.nsStatus_resync_pct : Fld := (7, 0)
def F.beCfg_valid : Fld := (63, 63)
def F.beCfg_kind : Fld := (57, 56)
def F.beCfg_port : Fld := (51, 48)
def F.beCfg_conn : Fld := (47, 24)
def F.beCfg_nsid : Fld := (23, 0)
def F.beBase_base : Fld := (63, 0)
def F.beOffset_lba : Fld := (47, 0)
def F.beStatus_state : Fld := (63, 61)
def F.beStatus_awupf : Fld := (31, 16)
def F.beStatus_boundary : Fld := (15, 0)
def F.qpSq_base : Fld := (63, 12)
def F.qpCq_base : Fld := (63, 12)
def F.qpCfg_enable : Fld := (63, 63)
def F.qpCfg_owner : Fld := (55, 48)
def F.qpCfg_sq_size : Fld := (47, 32)
def F.qpCfg_cq_size : Fld := (31, 16)
def F.qpCfg_irq : Fld := (11, 11)
def F.qpCfg_vector : Fld := (10, 0)
def F.qpStatus_phase : Fld := (63, 63)
def F.qpStatus_cq_full : Fld := (62, 62)
def F.qpStatus_cq_tail : Fld := (47, 32)
def F.qpStatus_sq_tail : Fld := (31, 16)
def F.qpStatus_sq_head : Fld := (15, 0)
def F.netCfg_mode : Fld := (1, 0)
def F.netPortStatus_paused : Fld := (31, 24)
def F.netPortStatus_an_done : Fld := (1, 1)
def F.netPortStatus_link_up : Fld := (0, 0)
def F.netPortLat_egress_ps : Fld := (31, 16)
def F.netPortLat_ingress_ps : Fld := (15, 0)
def F.ptpCfg_domain : Fld := (47, 40)
def F.ptpCfg_step_us : Fld := (31, 24)
def F.ptpCfg_port : Fld := (18, 16)
def F.ptpCfg_transport : Fld := (9, 8)
def F.ptpCfg_pps_out : Fld := (1, 1)
def F.ptpCfg_enable : Fld := (0, 0)
def F.servoStatus_offset_ns : Fld := (63, 32)
def F.servoStatus_holdover : Fld := (2, 2)
def F.servoStatus_pps_seen : Fld := (1, 1)
def F.servoStatus_locked : Fld := (0, 0)
def F.pipeCfg_recirc_kib : Fld := (59, 48)
def F.pipeCfg_slow_kib : Fld := (43, 32)
def F.pipeCfg_recirc_start : Fld := (31, 24)
def F.pipeCfg_start_host : Fld := (23, 16)
def F.pipeCfg_start_net : Fld := (15, 8)
def F.pipeCfg_recirc_share : Fld := (2, 0)
def F.excCfg_drop_malformed : Fld := (63, 63)
def F.excCfg_ring : Fld := (45, 32)
def F.excCfg_limit : Fld := (31, 0)
def F.lookupList_tables : Fld := (63, 0)
def F.tmCfg_l3_field : Fld := (4, 0)
def F.objCmd_busy : Fld := (63, 63)
def F.objCmd_status : Fld := (47, 32)
def F.objCmd_op : Fld := (31, 28)
def F.objCmd_kind : Fld := (27, 24)
def F.objCmd_index : Fld := (23, 0)
def F.objData_data : Fld := (63, 0)
def F.pnA_valid : Fld := (63, 63)
def F.pnA_default_next : Fld := (56, 48)
def F.pnA_rec_field : Fld := (47, 40)
def F.pnA_layer : Fld := (39, 39)
def F.pnA_check : Fld := (38, 36)
def F.pnA_ttl_check : Fld := (35, 35)
def F.pnA_sel_off : Fld := (31, 26)
def F.pnA_sel_wide : Fld := (25, 25)
def F.pnA_min_len : Fld := (23, 16)
def F.pnA_sel_mask : Fld := (15, 0)
def F.pnB_len_off : Fld := (31, 26)
def F.pnB_lshift : Fld := (25, 24)
def F.pnB_rshift : Fld := (23, 21)
def F.pnB_len_mask : Fld := (15, 8)
def F.pnB_len_add : Fld := (7, 0)
def F.pnT01_valid1 : Fld := (63, 63)
def F.pnT01_next1 : Fld := (56, 48)
def F.pnT01_value1 : Fld := (47, 32)
def F.pnT01_valid0 : Fld := (31, 31)
def F.pnT01_next0 : Fld := (24, 16)
def F.pnT01_value0 : Fld := (15, 0)
def F.pnT23_valid3 : Fld := (63, 63)
def F.pnT23_next3 : Fld := (56, 48)
def F.pnT23_value3 : Fld := (47, 32)
def F.pnT23_valid2 : Fld := (31, 31)
def F.pnT23_next2 : Fld := (24, 16)
def F.pnT23_value2 : Fld := (15, 0)
def F.spreadCfg_l4_field : Fld := (15, 11)
def F.spreadCfg_l3_field : Fld := (10, 6)
def F.spreadCfg_proto : Fld := (2, 2)
def F.spreadCfg_l4 : Fld := (1, 1)
def F.spreadCfg_alg : Fld := (0, 0)
def F.spreadKey_key : Fld := (63, 0)
def F.indir_valid0 : Fld := (15, 15)
def F.indir_ring0 : Fld := (13, 0)
def F.indir_valid1 : Fld := (31, 31)
def F.indir_ring1 : Fld := (29, 16)
def F.indir_valid2 : Fld := (47, 47)
def F.indir_ring2 : Fld := (45, 32)
def F.indir_valid3 : Fld := (63, 63)
def F.indir_ring3 : Fld := (61, 48)
def F.prRing_base : Fld := (63, 12)
def F.prRing_space : Fld := (4, 4)
def F.prRing_size : Fld := (3, 0)
def F.prCfg_enable : Fld := (63, 63)
def F.prCfg_dir : Fld := (62, 62)
def F.prCfg_owner : Fld := (55, 48)
def F.prCfg_cq : Fld := (11, 0)
def F.prTail_tail : Fld := (15, 0)
def F.prStatus_state : Fld := (63, 61)
def F.prStatus_head : Fld := (15, 0)
def F.transportCfg_rx_ring : Fld := (63, 50)
def F.transportCfg_l3_field : Fld := (49, 45)
def F.transportCfg_lifetime_ms : Fld := (39, 32)
def F.transportCfg_cnp_us : Fld := (31, 16)
def F.spillCfg_base : Fld := (63, 12)
def F.spillCfg_host : Fld := (1, 1)
def F.spillCfg_active : Fld := (0, 0)
def F.mrTable_base : Fld := (51, 12)
def F.mrTable_log2_entries : Fld := (11, 0)
def F.mrInval_busy : Fld := (63, 63)
def F.mrInval_index : Fld := (19, 0)
def F.connCmd_busy : Fld := (63, 63)
def F.connCmd_status : Fld := (47, 32)
def F.connCmd_op : Fld := (31, 28)
def F.connCmd_conn : Fld := (23, 0)
def F.connData_data : Fld := (63, 0)
def F.sceranCfg_node : Fld := (63, 32)
def F.sceranCfg_port : Fld := (15, 0)
def F.sceranStatus_records : Fld := (31, 0)
def F.sceranStore_base : Fld := (51, 12)
def F.scNode_valid : Fld := (63, 63)
def F.scNode_ipv6 : Fld := (62, 62)
def F.scNode_net_port : Fld := (50, 48)
def F.scNode_queue : Fld := (47, 32)
def F.scNode_node : Fld := (31, 0)
def F.scAddr_addr : Fld := (63, 0)
def F.cipherCfg_fenced_units : Fld := (15, 8)
def F.cipherCfg_job_cores : Fld := (3, 0)
def F.rngStatus_failures : Fld := (31, 16)
def F.rngStatus_failed : Fld := (1, 1)
def F.rngStatus_ok : Fld := (0, 0)
def F.keyTable_base : Fld := (51, 12)
def F.keyCmd_busy : Fld := (63, 63)
def F.keyCmd_status : Fld := (47, 32)
def F.keyCmd_op : Fld := (31, 28)
def F.keyCmd_slot : Fld := (15, 0)
def F.keyAttr_owner : Fld := (55, 48)
def F.keyAttr_wrap_slot : Fld := (47, 32)
def F.keyAttr_nonce_hw : Fld := (11, 11)
def F.keyAttr_allow_dec : Fld := (10, 10)
def F.keyAttr_allow_enc : Fld := (9, 9)
def F.keyAttr_check : Fld := (8, 8)
def F.keyAttr_state : Fld := (5, 4)
def F.keyAttr_kind : Fld := (3, 0)
def F.keySalt_salt : Fld := (31, 0)
def F.keyCtr_counter : Fld := (63, 0)
def F.keyLimit_limit : Fld := (63, 0)
def F.keyData_data : Fld := (63, 0)
def F.cqRing_base : Fld := (63, 12)
def F.cqRing_space : Fld := (4, 4)
def F.cqRing_size : Fld := (3, 0)
def F.cqCfg_enable : Fld := (63, 63)
def F.cqCfg_owner : Fld := (55, 48)
def F.cqCfg_cq : Fld := (11, 0)
def F.cqTail_tail : Fld := (15, 0)
def F.cqStatus_state : Fld := (63, 61)
def F.cqStatus_head : Fld := (15, 0)
def F.pwrState_last_status : Fld := (47, 32)
def F.pwrState_wake_src : Fld := (23, 20)
def F.pwrState_busy : Fld := (7, 7)
def F.pwrState_armed : Fld := (6, 4)
def F.pwrState_state : Fld := (2, 0)
def F.pwrStateCmd_op : Fld := (3, 0)
def F.pwrCfg_auto_a0 : Fld := (0, 0)
def F.wakeMac_mac : Fld := (47, 0)
def F.wakeTimer_at : Fld := (63, 0)
def F.capCfg_cap_w : Fld := (9, 0)
def F.capStatus_unmet : Fld := (63, 63)
def F.capStatus_stale : Fld := (62, 62)
def F.capStatus_cap_rate : Fld := (22, 16)
def F.energy_uj : Fld := (63, 0)
def F.powerNow_iin_ma : Fld := (63, 48)
def F.powerNow_vin_mv : Fld := (47, 32)
def F.powerNow_pin_w : Fld := (15, 0)
def F.phaseCtrl_phase : Fld := (34, 32)
def F.phaseCtrl_stacks : Fld := (11, 0)
def F.phaseStatus_phases : Fld := (47, 0)
def F.opPoint_gate_idle : Fld := (16, 16)
def F.opPoint_vbench_off : Fld := (15, 8)
def F.opPoint_rate_max : Fld := (6, 0)
def F.emergStatus_droop_stacks : Fld := (47, 36)
def F.emergStatus_dram_stacks : Fld := (35, 24)
def F.emergStatus_emerg_rate : Fld := (13, 7)
def F.emergStatus_link_lost : Fld := (5, 5)
def F.emergStatus_input_low : Fld := (4, 4)
def F.emergStatus_overpower : Fld := (3, 3)
def F.emergStatus_droop : Fld := (2, 2)
def F.emergStatus_thermal : Fld := (1, 1)
def F.emergStatus_active : Fld := (0, 0)
def F.tempStatus_hottest_die : Fld := (47, 40)
def F.tempStatus_dram_max : Fld := (15, 8)
def F.tempStatus_tj_max : Fld := (7, 0)
def F.padStatus_held : Fld := (2, 0)
def F.padRelease_release : Fld := (2, 0)
def F.offCause_valid : Fld := (8, 8)
def F.offCause_cause : Fld := (7, 0)
def F.plinkStatus_link_ok : Fld := (0, 0)
def F.bootStatus_fail_code : Fld := (47, 32)
def F.bootStatus_image_fallback : Fld := (23, 23)
def F.bootStatus_fw_fallback : Fld := (22, 22)
def F.bootStatus_owned : Fld := (21, 21)
def F.bootStatus_late : Fld := (20, 20)
def F.bootStatus_stage : Fld := (3, 0)
def F.resetCtrl_warm : Fld := (15, 0)
def F.fwVersion_security_version : Fld := (63, 32)
def F.fwVersion_power_pending : Fld := (31, 31)
def F.fwVersion_at_reset : Fld := (30, 30)
def F.fwVersion_deferred : Fld := (29, 29)
def F.fwVersion_staged : Fld := (28, 28)
def F.fwVersion_active_slot : Fld := (24, 24)
def F.wdogStatus_control : Fld := (22, 11)
def F.wdogStatus_hub : Fld := (10, 3)
def F.wdogStatus_scheduler : Fld := (2, 2)
def F.wdogStatus_power : Fld := (1, 1)
def F.wdogStatus_security : Fld := (0, 0)
def F.mboxCmd_busy : Fld := (63, 63)
def F.mboxCmd_status : Fld := (47, 32)
def F.mboxCmd_op : Fld := (7, 0)
def F.mboxArg0_arg : Fld := (63, 0)
def F.mboxArg1_arg : Fld := (63, 0)
def F.mboxCfg_record : Fld := (12, 12)
def F.mboxCfg_cq : Fld := (11, 0)
def F.mboxBuf_data : Fld := (63, 0)
def F.pairCfg_enable : Fld := (63, 63)
def F.pairCfg_prefer_active : Fld := (62, 62)
def F.pairCfg_pair_time : Fld := (61, 60)
def F.pairCfg_classes : Fld := (51, 48)
def F.pairCfg_partner_node : Fld := (31, 0)
def F.pairSlices_mirrored : Fld := (63, 0)
def F.pairAnnAddr_addr : Fld := (51, 6)
def F.pairAnnCtrl_ports : Fld := (23, 16)
def F.pairAnnCtrl_length : Fld := (13, 0)
def F.pairStatus_state : Fld := (63, 61)
def F.pairStatus_role : Fld := (60, 60)
def F.pairStatus_welt_up : Fld := (59, 59)
def F.pairStatus_pin_ok : Fld := (58, 58)
def F.pairStatus_fallback : Fld := (57, 57)
def F.pairStatus_last_status : Fld := (47, 32)
def F.pairCmd_busy : Fld := (63, 63)
def F.pairCmd_status : Fld := (47, 32)
def F.pairCmd_op : Fld := (3, 0)
def F.pairLag_bulk_kib : Fld := (63, 32)
def F.pairLag_hold_ns : Fld := (31, 0)
def F.weltStatus_lanes : Fld := (63, 56)
def F.weltStatus_width : Fld := (3, 0)
def F.postStatus_done : Fld := (63, 63)
def F.postStatus_short_done : Fld := (62, 62)
def F.postStatus_mem_out : Fld := (47, 36)
def F.postStatus_bench_out : Fld := (35, 24)
def F.postStatus_fenced_any : Fld := (23, 12)
def F.postStatus_io_lane : Fld := (1, 1)
def F.postStatus_waited : Fld := (0, 0)
def F.fatalStatus_fatal : Fld := (63, 63)
def F.fatalStatus_cause : Fld := (7, 0)
def F.isstCfg_enable : Fld := (16, 16)
def F.isstCfg_period_s : Fld := (15, 0)
def F.isstStatus_late : Fld := (63, 63)
def F.isstStatus_last_result : Fld := (9, 8)
def F.isstStatus_last_bench : Fld := (2, 0)
def F.isstLast_time : Fld := (63, 0)
def F.dbStatus_frozen : Fld := (63, 63)
def F.dbStatus_entries : Fld := (48, 32)
def F.dbStatus_head : Fld := (16, 0)
def F.dbSeq_next : Fld := (31, 0)
def F.dbOverwrite_count : Fld := (63, 0)
def F.dbRate_burst : Fld := (15, 8)
def F.dbRate_per_ms : Fld := (7, 0)
def F.dbWindow_base : Fld := (16, 0)
def F.tallySel_block : Fld := (31, 24)
def F.tallySel_item : Fld := (23, 16)
def F.tallySel_instance : Fld := (15, 0)
def F.tallyVal_value : Fld := (63, 0)
def F.tallyDump_busy : Fld := (63, 63)
def F.tallyDump_status : Fld := (47, 32)
def F.tallyDump_cq : Fld := (27, 16)
def F.tallyDump_count : Fld := (12, 0)
def F.tallyDumpAddr_addr : Fld := (51, 3)
def F.tallyDir_unit : Fld := (23, 16)
def F.tallyDir_instances : Fld := (15, 0)
def F.dbWin_word : Fld := (63, 0)
def F.quietSlots_slots : Fld := (63, 0)
def F.regionBase_base : Fld := (51, 21)
def F.regionSize_granules : Fld := (31, 0)
def F.regionAttr_owner : Fld := (15, 8)
def F.regionAttr_bulk_mirror : Fld := (4, 4)
def F.regionAttr_tier : Fld := (2, 0)
def F.repairSubst_entry1_valid : Fld := (63, 63)
def F.repairSubst_entry1_unit : Fld := (55, 44)
def F.repairSubst_entry1_pos : Fld := (43, 32)
def F.repairSubst_entry0_valid : Fld := (31, 31)
def F.repairSubst_entry0_unit : Fld := (23, 12)
def F.repairSubst_entry0_pos : Fld := (11, 0)

/-! The tables, a list per chapter. -/

/-- Registers of the chapter on architecture (spec/01_*.md). R22 gives QUIET_SLOTS no reset value: every byte resets to 0xFF, an open
slot (log entry 184, DESIGN CHOICE). -/
def regTable01 : List RegDesc := [
  ⟨"TIMEBASE", 0x10100, [], [⟨63, 0, .ro, 0, 0, 18446744073709551615⟩]⟩,
  ⟨"TIME_RATE", 0x10108, [], [⟨31, 0, .rw, 0, 0, 4294967295⟩]⟩,
  ⟨"TIME_STEP", 0x10110, [], [⟨63, 0, .wo, 0, 0, 18446744073709551615⟩]⟩,
  ⟨"TIME_SRC", 0x10118, [], [⟨1, 0, .rw, 0, 0, 3⟩]⟩,
  ⟨"DEVICE_IDENT", 0x0, [], [⟨47, 32, .ro, 17152, 0, 65535⟩, ⟨31, 24, .ro, 0, 0, 255⟩, ⟨23, 16, .ro, 1, 0, 255⟩]⟩,
  ⟨"HOST_IF_REV", 0x8, [], [⟨31, 16, .ro, 1, 0, 65535⟩, ⟨15, 0, .ro, 0, 0, 65535⟩]⟩,
  ⟨"QUIET_SLOTS", 0x200, [(8, 0x8)], [⟨63, 0, .rwl, 18446744073709551615, 0, 18446744073709551615⟩]⟩,
  ⟨"REPAIR_PRESENT", 0x100, [], [⟨63, 0, .ro, 0xfff, 0, 0xFFFFFFFFFFFFFFFF⟩]⟩,
  ⟨"REPAIR_FENCED", 0x108, [], [⟨63, 0, .ro, 0, 0, 0xFFFFFFFFFFFFFFFF⟩]⟩,
  ⟨"REPAIR_SUBST", 0x110, [], [⟨63, 63, .ro, 0, 0, 1⟩, ⟨55, 44, .ro, 0, 0, 0xFFF⟩, ⟨43, 32, .ro, 0, 0, 0xFFF⟩, ⟨31, 31, .ro, 0, 0, 1⟩, ⟨23, 12, .ro, 0, 0, 0xFFF⟩, ⟨11, 0, .ro, 0, 0, 0xFFF⟩]⟩,
  ⟨"REPAIR_PRESENT", 0x18000, [(12, 0x20)], [⟨63, 0, .ro, 0xc000000000000003, 0, 0xFFFFFFFFFFFFFFFF⟩]⟩,
  ⟨"REPAIR_FENCED", 0x18008, [(12, 0x20)], [⟨63, 0, .ro, 0, 0, 0xFFFFFFFFFFFFFFFF⟩]⟩,
  ⟨"REPAIR_SUBST", 0x18010, [(12, 0x20)], [⟨63, 63, .ro, 0, 0, 1⟩, ⟨55, 44, .ro, 0, 0, 0xFFF⟩, ⟨43, 32, .ro, 0, 0, 0xFFF⟩, ⟨31, 31, .ro, 0, 0, 1⟩, ⟨23, 12, .ro, 0, 0, 0xFFF⟩, ⟨11, 0, .ro, 0, 0, 0xFFF⟩]⟩,
  ⟨"REPAIR_PRESENT", 0x18180, [(2, 0x20)], [⟨63, 0, .ro, 0xc00000000000000f, 0, 0xFFFFFFFFFFFFFFFF⟩]⟩,
  ⟨"REPAIR_FENCED", 0x18188, [(2, 0x20)], [⟨63, 0, .ro, 0, 0, 0xFFFFFFFFFFFFFFFF⟩]⟩,
  ⟨"REPAIR_SUBST", 0x18190, [(2, 0x20)], [⟨63, 63, .ro, 0, 0, 1⟩, ⟨55, 44, .ro, 0, 0, 0xFFF⟩, ⟨43, 32, .ro, 0, 0, 0xFFF⟩, ⟨31, 31, .ro, 0, 0, 1⟩, ⟨23, 12, .ro, 0, 0, 0xFFF⟩, ⟨11, 0, .ro, 0, 0, 0xFFF⟩]⟩,
  ⟨"REPAIR_PRESENT", 0x181c0, [], [⟨63, 0, .ro, 0xc000000000000007, 0, 0xFFFFFFFFFFFFFFFF⟩]⟩,
  ⟨"REPAIR_FENCED", 0x181c8, [], [⟨63, 0, .ro, 0, 0, 0xFFFFFFFFFFFFFFFF⟩]⟩,
  ⟨"REPAIR_SUBST", 0x181d0, [], [⟨63, 63, .ro, 0, 0, 1⟩, ⟨55, 44, .ro, 0, 0, 0xFFF⟩, ⟨43, 32, .ro, 0, 0, 0xFFF⟩, ⟨31, 31, .ro, 0, 0, 1⟩, ⟨23, 12, .ro, 0, 0, 0xFFF⟩, ⟨11, 0, .ro, 0, 0, 0xFFF⟩]⟩,
  ⟨"REPAIR_PRESENT", 0x40f000, [(12, 0x20)], [⟨63, 0, .ro, 0x1ffff, 0, 0xFFFFFFFFFFFFFFFF⟩]⟩,
  ⟨"REPAIR_FENCED", 0x40f008, [(12, 0x20)], [⟨63, 0, .ro, 0, 0, 0xFFFFFFFFFFFFFFFF⟩]⟩,
  ⟨"REPAIR_SUBST", 0x40f010, [(12, 0x20)], [⟨63, 63, .ro, 0, 0, 1⟩, ⟨55, 44, .ro, 0, 0, 0xFFF⟩, ⟨43, 32, .ro, 0, 0, 0xFFF⟩, ⟨31, 31, .ro, 0, 0, 1⟩, ⟨23, 12, .ro, 0, 0, 0xFFF⟩, ⟨11, 0, .ro, 0, 0, 0xFFF⟩]⟩,
  ⟨"REPAIR_PRESENT", 0x1001000, [(12, 0x100000)], [⟨63, 0, .ro, 0x7f, 0, 0xFFFFFFFFFFFFFFFF⟩]⟩,
  ⟨"REPAIR_FENCED", 0x1001008, [(12, 0x100000)], [⟨63, 0, .ro, 0, 0, 0xFFFFFFFFFFFFFFFF⟩]⟩,
  ⟨"REPAIR_SUBST", 0x1001010, [(12, 0x100000)], [⟨63, 63, .ro, 0, 0, 1⟩, ⟨55, 44, .ro, 0, 0, 0xFFF⟩, ⟨43, 32, .ro, 0, 0, 0xFFF⟩, ⟨31, 31, .ro, 0, 0, 1⟩, ⟨23, 12, .ro, 0, 0, 0xFFF⟩, ⟨11, 0, .ro, 0, 0, 0xFFF⟩]⟩,
  ⟨"REPAIR_PRESENT", 0x1001100, [(12, 0x100000), (7, 0x20)], [⟨63, 0, .ro, 0x1ff, 0, 0xFFFFFFFFFFFFFFFF⟩]⟩,
  ⟨"REPAIR_FENCED", 0x1001108, [(12, 0x100000), (7, 0x20)], [⟨63, 0, .ro, 0, 0, 0xFFFFFFFFFFFFFFFF⟩]⟩,
  ⟨"REPAIR_SUBST", 0x1001110, [(12, 0x100000), (7, 0x20)], [⟨63, 63, .ro, 0, 0, 1⟩, ⟨55, 44, .ro, 0, 0, 0xFFF⟩, ⟨43, 32, .ro, 0, 0, 0xFFF⟩, ⟨31, 31, .ro, 0, 0, 1⟩, ⟨23, 12, .ro, 0, 0, 0xFFF⟩, ⟨11, 0, .ro, 0, 0, 0xFFF⟩]⟩,
  ⟨"REPAIR_PRESENT", 0x1002000, [(12, 0x100000), (63, 0x20)], [⟨63, 0, .ro, 0x1ffffffff, 0, 0xFFFFFFFFFFFFFFFF⟩]⟩,
  ⟨"REPAIR_FENCED", 0x1002008, [(12, 0x100000), (63, 0x20)], [⟨63, 0, .ro, 0, 0, 0xFFFFFFFFFFFFFFFF⟩]⟩,
  ⟨"REPAIR_SUBST", 0x1002010, [(12, 0x100000), (63, 0x20)], [⟨63, 63, .ro, 0, 0, 1⟩, ⟨55, 44, .ro, 0, 0, 0xFFF⟩, ⟨43, 32, .ro, 0, 0, 0xFFF⟩, ⟨31, 31, .ro, 0, 0, 1⟩, ⟨23, 12, .ro, 0, 0, 0xFFF⟩, ⟨11, 0, .ro, 0, 0, 0xFFF⟩]⟩]

/-- Registers of the chapter on benches (spec/03_*.md). -/
def regTable03 : List RegDesc := [
  ⟨"WIN_VA", 0x1008000, [(12, 0x100000), (64, 0x200), (16, 0x20)], [⟨47, 12, .rw, 0, 0, 68719476735⟩]⟩,
  ⟨"WIN_PA", 0x1008008, [(12, 0x100000), (64, 0x200), (16, 0x20)], [⟨51, 12, .rw, 0, 0, 1099511627775⟩]⟩,
  ⟨"WIN_SIZE", 0x1008010, [(12, 0x100000), (64, 0x200), (16, 0x20)], [⟨35, 0, .rw, 0, 0, 68719476735⟩]⟩,
  ⟨"WIN_CTRL", 0x1008018, [(12, 0x100000), (64, 0x200), (16, 0x20)], [⟨63, 63, .rw, 0, 0, 1⟩, ⟨55, 48, .rw, 0, 0, 255⟩, ⟨2, 2, .rw, 0, 0, 1⟩, ⟨1, 1, .rw, 0, 0, 1⟩, ⟨0, 0, .rw, 0, 0, 1⟩]⟩,
  ⟨"STACK_BARRIER", 0x1003000, [(12, 0x100000), (16, 0x8)], [⟨63, 48, .ro, 0, 0, 65535⟩, ⟨47, 47, .ro, 0, 0, 1⟩, ⟨39, 32, .rw, 0, 0, 255⟩, ⟨31, 16, .ro, 0, 0, 65535⟩, ⟨15, 0, .ro, 0, 0, 65535⟩]⟩,
  ⟨"DEVICE_BARRIER", 0x1003100, [(16, 0x8)], [⟨63, 48, .ro, 0, 0, 65535⟩, ⟨47, 47, .ro, 0, 0, 1⟩, ⟨39, 32, .rw, 0, 0, 255⟩, ⟨31, 16, .ro, 0, 0, 65535⟩, ⟨15, 0, .ro, 0, 0, 65535⟩]⟩,
  ⟨"STACK_STATUS", 0x1000000, [(12, 0x100000)], [⟨23, 16, .ro, 255, 0, 255⟩, ⟨8, 2, .ro, 0, 0, 127⟩, ⟨1, 1, .ro, 0, 0, 1⟩, ⟨0, 0, .ro, 0, 0, 1⟩]⟩,
  ⟨"BENCH_STATUS", 0x1000080, [(12, 0x100000)], [⟨23, 16, .ro, 0, 0, 255⟩, ⟨15, 8, .ro, 60, 0, 255⟩, ⟨4, 2, .ro, 0, 0, 7⟩, ⟨1, 1, .ro, 0, 0, 1⟩, ⟨0, 0, .ro, 0, 0, 1⟩]⟩,
  ⟨"BENCH_STATUS", 0x1000088, [(12, 0x100000)], [⟨23, 16, .ro, 0, 0, 255⟩, ⟨15, 8, .ro, 60, 0, 255⟩, ⟨4, 2, .ro, 1, 0, 7⟩, ⟨1, 1, .ro, 0, 0, 1⟩, ⟨0, 0, .ro, 0, 0, 1⟩]⟩,
  ⟨"BENCH_STATUS", 0x1000090, [(12, 0x100000)], [⟨23, 16, .ro, 0, 0, 255⟩, ⟨15, 8, .ro, 60, 0, 255⟩, ⟨4, 2, .ro, 2, 0, 7⟩, ⟨1, 1, .ro, 0, 0, 1⟩, ⟨0, 0, .ro, 0, 0, 1⟩]⟩,
  ⟨"BENCH_STATUS", 0x1000098, [(12, 0x100000)], [⟨23, 16, .ro, 0, 0, 255⟩, ⟨15, 8, .ro, 60, 0, 255⟩, ⟨4, 2, .ro, 3, 0, 7⟩, ⟨1, 1, .ro, 0, 0, 1⟩, ⟨0, 0, .ro, 0, 0, 1⟩]⟩,
  ⟨"BENCH_STATUS", 0x10000a0, [(12, 0x100000)], [⟨23, 16, .ro, 0, 0, 255⟩, ⟨15, 8, .ro, 60, 0, 255⟩, ⟨4, 2, .ro, 4, 0, 7⟩, ⟨1, 1, .ro, 0, 0, 1⟩, ⟨0, 0, .ro, 0, 0, 1⟩]⟩,
  ⟨"BENCH_STATUS", 0x10000a8, [(12, 0x100000)], [⟨23, 16, .ro, 0, 0, 255⟩, ⟨15, 8, .ro, 60, 0, 255⟩, ⟨4, 2, .ro, 5, 0, 7⟩, ⟨1, 1, .ro, 0, 0, 1⟩, ⟨0, 0, .ro, 0, 0, 1⟩]⟩,
  ⟨"BENCH_STATUS", 0x10000b0, [(12, 0x100000)], [⟨23, 16, .ro, 0, 0, 255⟩, ⟨15, 8, .ro, 60, 0, 255⟩, ⟨4, 2, .ro, 7, 0, 7⟩, ⟨1, 1, .ro, 0, 0, 1⟩, ⟨0, 0, .ro, 0, 0, 1⟩]⟩]

/-- Registers of the chapter on memory (spec/05_*.md). -/
def regTable05 : List RegDesc := [
  ⟨"MEM_LAYOUT", 0x2000000, [], [⟨41, 40, .rwl, 0, 0, 3⟩, ⟨39, 32, .rwl, 0, 0, 255⟩, ⟨23, 16, .rwl, 0, 0, 255⟩, ⟨4, 0, .rwl, 0, 0, 31⟩]⟩,
  ⟨"STITCH_STATUS", 0x2000008, [], [⟨27, 16, .ro, 0, 0, 4095⟩, ⟨3, 2, .ro, 2, 0, 3⟩, ⟨1, 1, .ro, 0, 0, 1⟩, ⟨0, 0, .ro, 0, 0, 1⟩]⟩,
  ⟨"HBM_STATUS", 0x2000100, [(12, 0x8)], [⟨47, 40, .ro, 0, 0, 255⟩, ⟨31, 16, .ro, 0, 0, 65535⟩, ⟨2, 2, .ro, 0, 0, 1⟩, ⟨1, 1, .ro, 0, 0, 1⟩, ⟨0, 0, .ro, 0, 0, 1⟩]⟩,
  ⟨"DDR_CHAN_STATUS", 0x2000200, [(8, 0x8)], [⟨41, 32, .ro, 0, 0, 1023⟩, ⟨23, 16, .ro, 0, 0, 255⟩, ⟨3, 2, .ro, 0, 0, 3⟩, ⟨1, 1, .ro, 0, 0, 1⟩, ⟨0, 0, .ro, 0, 0, 1⟩]⟩,
  ⟨"SCRUB_STATUS", 0x2000300, [], [⟨63, 32, .ro, 0, 0, 4294967295⟩, ⟨7, 0, .ro, 0, 0, 255⟩]⟩,
  ⟨"ZERO_STATUS", 0x2000500, [], [⟨31, 0, .ro, 0, 0, 4294967295⟩]⟩,
  ⟨"MEM_ERR_ADDR", 0x2000400, [], [⟨51, 6, .ro, 0, 0, 70368744177663⟩]⟩,
  ⟨"MEM_ERR_INFO", 0x2000408, [], [⟨63, 63, .rw1c, 0, 0, 1⟩, ⟨55, 48, .ro, 0, 0, 255⟩, ⟨42, 40, .ro, 0, 0, 7⟩, ⟨34, 32, .ro, 0, 0, 7⟩]⟩,
  ⟨"REGION_CMD_BASE", 0x2001000, [], [⟨51, 21, .rw, 0, 0, 2147483647⟩]⟩,
  ⟨"REGION_CMD_SIZE", 0x2001008, [], [⟨31, 0, .rw, 0, 0, 4294967295⟩]⟩,
  ⟨"REGION_CMD_ATTR", 0x2001010, [], [⟨15, 8, .rw, 0, 0, 255⟩, ⟨4, 4, .rw, 0, 0, 1⟩, ⟨2, 0, .rw, 0, 0, 7⟩]⟩,
  ⟨"REGION_CMD_GO", 0x2001018, [], [⟨63, 63, .ro, 0, 0, 1⟩, ⟨47, 32, .ro, 0, 0, 65535⟩, ⟨15, 12, .wo, 0, 0, 15⟩, ⟨11, 0, .rw, 0, 0, 4095⟩]⟩,
  ⟨"REGION_STATE", 0x2008018, [(4096, 0x20)], [⟨1, 0, .ro, 0, 0, 3⟩]⟩,
  ⟨"REGION_BASE", 0x2008000, [(4096, 0x20)], [⟨51, 21, .ro, 0, 0, 2147483647⟩]⟩,
  ⟨"REGION_SIZE", 0x2008008, [(4096, 0x20)], [⟨31, 0, .ro, 0, 0, 4294967295⟩]⟩,
  ⟨"REGION_ATTR", 0x2008010, [(4096, 0x20)], [⟨15, 8, .ro, 0, 0, 255⟩, ⟨4, 4, .ro, 0, 0, 1⟩, ⟨2, 0, .ro, 0, 0, 7⟩]⟩]

/-- Registers of the chapter on training (spec/07_*.md). -/
def regTable07 : List RegDesc := [
  ⟨"SNAP_STATUS", 0x2003000, [], [⟨63, 63, .ro, 0, 0, 1⟩, ⟨55, 48, .ro, 0, 0, 255⟩, ⟨35, 32, .ro, 0, 0, 15⟩, ⟨15, 0, .ro, 0, 0, 65535⟩]⟩,
  ⟨"SNAP_PAGES", 0x2003008, [], [⟨63, 32, .ro, 0, 0, 4294967295⟩, ⟨31, 0, .ro, 0, 0, 4294967295⟩]⟩,
  ⟨"STAGING_STATUS", 0x2003010, [], [⟨41, 21, .ro, 0, 0, 2097151⟩, ⟨20, 0, .ro, 0, 0, 2097151⟩]⟩,
  ⟨"INTAKE_STATUS", 0x2003100, [(16, 0x8)], [⟨63, 63, .ro, 0, 0, 1⟩, ⟨16, 0, .ro, 0, 0, 131071⟩]⟩]

/-- Registers of the chapter on DMA (spec/08_*.md). -/
def regTable08 : List RegDesc := [
  ⟨"ENGINE_STATUS", 0x200000, [(16, 0x10000)], [⟨63, 63, .ro, 0, 0, 1⟩, ⟨62, 62, .ro, 0, 0, 1⟩, ⟨47, 32, .ro, 0, 0, 65535⟩]⟩,
  ⟨"ENGINE_ERR_ADDR", 0x200008, [(16, 0x10000)], [⟨63, 0, .ro, 0, 0, 18446744073709551615⟩]⟩,
  ⟨"CHAN_RING", 0x201000, [(16, 0x10000), (64, 0x40)], [⟨63, 12, .rw, 0, 0, 4503599627370495⟩, ⟨4, 4, .rw, 0, 0, 1⟩, ⟨3, 0, .rw, 0, 0, 10⟩]⟩,
  ⟨"CHAN_CFG", 0x201008, [(16, 0x10000), (64, 0x40)], [⟨63, 63, .rw, 0, 0, 1⟩, ⟨62, 62, .rw, 0, 0, 1⟩, ⟨55, 48, .rw, 0, 0, 255⟩, ⟨39, 36, .rw, 8, 0, 15⟩, ⟨19, 0, .rw, 0, 0, 1048575⟩]⟩,
  ⟨"CHAN_TAIL", 0x201010, [(16, 0x10000), (64, 0x40)], [⟨15, 0, .rw, 0, 0, 65535⟩]⟩,
  ⟨"CHAN_HEAD", 0x201018, [(16, 0x10000), (64, 0x40)], [⟨15, 0, .ro, 0, 0, 65535⟩]⟩,
  ⟨"CHAN_CTRL", 0x201020, [(16, 0x10000), (64, 0x40)], [⟨2, 2, .wo, 0, 0, 1⟩, ⟨1, 1, .wo, 0, 0, 1⟩, ⟨0, 0, .rw, 0, 0, 1⟩]⟩,
  ⟨"CHAN_STATUS", 0x201028, [(16, 0x10000), (64, 0x40)], [⟨63, 61, .ro, 0, 0, 7⟩, ⟨60, 60, .rw1c, 0, 0, 1⟩, ⟨47, 32, .ro, 0, 0, 65535⟩, ⟨15, 0, .ro, 0, 0, 65535⟩]⟩,
  ⟨"CHAN_DONE", 0x201030, [(16, 0x10000), (64, 0x40)], [⟨31, 0, .ro, 0, 0, 4294967295⟩]⟩]

/-- Registers of the chapter on host endpoint (spec/09_*.md). -/
def regTable09 : List RegDesc := [
  ⟨"MSIX_ADDR", 0x100000, [(2, 0x80000), (2048, 0x10)], [⟨63, 0, .rw, 0, 0, 18446744073709551615⟩]⟩,
  ⟨"MSIX_DATA", 0x100008, [(2, 0x80000), (2048, 0x10)], [⟨63, 0, .rw, 0x100000000, 0, 18446744073709551615⟩]⟩,
  ⟨"MSIX_PBA", 0x108000, [(2, 0x80000), (32, 0x8)], [⟨63, 0, .ro, 0, 0, 18446744073709551615⟩]⟩,
  ⟨"EP_STATUS", 0x110000, [(2, 0x80000)], [⟨31, 31, .ro, 0, 0, 1⟩, ⟨30, 30, .ro, 0, 0, 1⟩, ⟨29, 29, .ro, 0, 0, 1⟩, ⟨28, 27, .ro, 0, 0, 3⟩, ⟨26, 26, .ro, 0, 0, 1⟩, ⟨20, 16, .ro, 0, 0, 31⟩, ⟨15, 12, .ro, 0, 0, 15⟩, ⟨1, 1, .ro, 0, 0, 1⟩, ⟨0, 0, .ro, 0, 0, 1⟩]⟩,
  ⟨"TAG_STATUS", 0x110008, [(2, 0x80000)], [⟨45, 32, .ro, 0, 0, 16383⟩, ⟨13, 0, .ro, 0, 0, 16383⟩]⟩,
  ⟨"CPL_LATE_LOG", 0x110010, [(2, 0x80000)], [⟨63, 63, .rw1c, 0, 0, 1⟩, ⟨45, 32, .ro, 0, 0, 16383⟩, ⟨31, 0, .ro, 0, 0, 4294967295⟩]⟩,
  ⟨"HB_CFG", 0x110018, [(2, 0x80000)], [⟨63, 63, .rw, 0, 0, 1⟩, ⟨13, 0, .rw, 1000, 0, 10000⟩]⟩,
  ⟨"HB_COUNT", 0x110020, [(2, 0x80000)], [⟨63, 0, .rw, 0, 0, 18446744073709551615⟩]⟩,
  ⟨"INTX_PEND", 0x110028, [(2, 0x80000)], [⟨63, 0, .rw1c, 0, 0, 18446744073709551615⟩]⟩,
  ⟨"WAKE_CFG", 0x110030, [(2, 0x80000)], [⟨3, 3, .rw, 0, 0, 1⟩, ⟨2, 2, .rw, 0, 0, 1⟩, ⟨1, 1, .rw, 0, 0, 1⟩, ⟨0, 0, .rw, 0, 0, 1⟩]⟩,
  ⟨"WAKE_STATUS", 0x110038, [(2, 0x80000)], [⟨3, 0, .rw1c, 0, 0, 15⟩]⟩]

/-- Registers of the chapter on slices (spec/10_*.md). -/
def regTable10 : List RegDesc := [
  ⟨"SLICE_CMD_GO", 0x3000000, [], [⟨63, 63, .ro, 0, 0, 1⟩, ⟨47, 32, .ro, 0, 0, 65535⟩, ⟨11, 8, .wo, 0, 0, 15⟩, ⟨7, 0, .rw, 0, 0, 255⟩]⟩,
  ⟨"SLICE_BIND", 0x3010000, [(256, 0x100)], [⟨63, 61, .ro, 0, 0, 7⟩, ⟨24, 24, .rw, 0, 0, 1⟩, ⟨23, 22, .rw, 0, 0, 3⟩, ⟨20, 20, .rw, 0, 0, 1⟩, ⟨19, 0, .rw, 0, 0, 1048575⟩]⟩,
  ⟨"SLICE_POLICY", 0x3010008, [(256, 0x100)], [⟨55, 48, .rw, 0, 0, 255⟩, ⟨47, 40, .rw, 0, 0, 255⟩, ⟨39, 36, .rw, 10, 0, 15⟩, ⟨21, 11, .rw, 0, 0, 2047⟩, ⟨10, 0, .rw, 0, 0, 2047⟩]⟩,
  ⟨"SLICE_QUOTA_MEM", 0x3010010, [(256, 0x100)], [⟨47, 32, .rw, 0, 0, 65535⟩, ⟨8, 0, .rw, 0, 0, 511⟩]⟩,
  ⟨"SLICE_QUOTA_Q", 0x3010018, [(256, 0x100)], [⟨63, 48, .rw, 0, 0, 65535⟩, ⟨47, 32, .rw, 0, 0, 65535⟩, ⟨31, 16, .rw, 0, 0, 65535⟩, ⟨15, 0, .rw, 0, 0, 65535⟩]⟩,
  ⟨"SLICE_QUOTA_NET", 0x3010020, [(256, 0x100)], [⟨48, 32, .rw, 0, 0, 131071⟩, ⟨24, 0, .rw, 0, 0, 33554431⟩]⟩,
  ⟨"SLICE_QUOTA_SERVE", 0x3010028, [(256, 0x100)], [⟨44, 32, .rw, 0, 0, 8191⟩, ⟨22, 0, .rw, 0, 0, 8388607⟩]⟩,
  ⟨"SLICE_SHARE", 0x3010030, [(256, 0x100)], [⟨43, 32, .rw, 0, 0, 4095⟩, ⟨7, 0, .rw, 0, 0, 255⟩]⟩,
  ⟨"LOG_CFG", 0x3010038, [(256, 0x100)], [⟨63, 63, .ro, 0, 0, 1⟩, ⟨62, 62, .ro, 0, 0, 1⟩, ⟨61, 61, .ro, 0, 0, 1⟩, ⟨15, 0, .rw, 0, 0, 65535⟩]⟩,
  ⟨"LOG_BASE_A", 0x3010040, [(256, 0x100)], [⟨63, 12, .rw, 0, 0, 4503599627370495⟩]⟩,
  ⟨"LOG_BASE_B", 0x3010048, [(256, 0x100)], [⟨63, 12, .rw, 0, 0, 4503599627370495⟩]⟩,
  ⟨"DOORBELL_ENTRY", 0x3200000, [(2, 0x20000), (16384, 0x8)], [⟨63, 63, .rw, 0, 0, 1⟩, ⟨50, 48, .rw, 0, 0, 7⟩, ⟨47, 40, .rw, 0, 0, 255⟩, ⟨23, 0, .rw, 0, 0, 16777215⟩]⟩,
  ⟨"APER_BAR", 0x3400000, [(2, 0x20000), (4096, 0x20)], [⟨38, 21, .rw, 0, 0, 262143⟩]⟩,
  ⟨"APER_PA", 0x3400008, [(2, 0x20000), (4096, 0x20)], [⟨51, 21, .rw, 0, 0, 2147483647⟩]⟩,
  ⟨"APER_SIZE", 0x3400010, [(2, 0x20000), (4096, 0x20)], [⟨17, 0, .rw, 0, 0, 262143⟩]⟩,
  ⟨"APER_CTRL", 0x3400018, [(2, 0x20000), (4096, 0x20)], [⟨63, 63, .rw, 0, 0, 1⟩, ⟨15, 8, .rw, 0, 0, 255⟩, ⟨1, 1, .rw, 0, 0, 1⟩, ⟨0, 0, .rw, 0, 0, 1⟩]⟩,
  ⟨"BQ_RING", 0x3600000, [(1024, 0x40)], [⟨63, 12, .rw, 0, 0, 4503599627370495⟩, ⟨4, 4, .rw, 0, 0, 1⟩, ⟨3, 0, .rw, 0, 0, 10⟩]⟩,
  ⟨"BQ_CFG", 0x3600008, [(1024, 0x40)], [⟨63, 63, .rw, 0, 0, 1⟩, ⟨55, 48, .rw, 0, 0, 255⟩]⟩,
  ⟨"BQ_TAIL", 0x3600010, [(1024, 0x40)], [⟨15, 0, .rw, 0, 0, 65535⟩]⟩,
  ⟨"BQ_STATUS", 0x3600018, [(1024, 0x40)], [⟨63, 61, .ro, 0, 0, 7⟩, ⟨15, 0, .ro, 0, 0, 65535⟩]⟩,
  ⟨"CR_RING", 0x3700000, [(4096, 0x20)], [⟨63, 12, .rw, 0, 0, 4503599627370495⟩, ⟨4, 4, .rw, 0, 0, 1⟩, ⟨3, 0, .rw, 0, 0, 10⟩]⟩,
  ⟨"CR_CFG", 0x3700008, [(4096, 0x20)], [⟨63, 63, .rw, 0, 0, 1⟩, ⟨55, 48, .rw, 0, 0, 255⟩, ⟨12, 11, .rw, 0, 0, 3⟩, ⟨10, 0, .rw, 0, 0, 2047⟩]⟩,
  ⟨"CR_HEAD", 0x3700010, [(4096, 0x20)], [⟨15, 0, .rw, 0, 0, 65535⟩]⟩,
  ⟨"CR_STATUS", 0x3700018, [(4096, 0x20)], [⟨63, 63, .ro, 1, 0, 1⟩, ⟨62, 62, .ro, 0, 0, 1⟩, ⟨15, 0, .ro, 0, 0, 65535⟩]⟩]

/-- Registers of the chapter on downstream ports (spec/11_*.md). -/
def regTable11 : List RegDesc := [
  ⟨"DP_STATUS", 0x400000, [(16, 0x800)], [⟨31, 29, .ro, 0, 0, 7⟩, ⟨28, 28, .ro, 0, 0, 1⟩, ⟨20, 16, .ro, 0, 0, 31⟩, ⟨15, 12, .ro, 0, 0, 15⟩, ⟨7, 0, .ro, 0, 0, 255⟩]⟩,
  ⟨"DP_CTRL", 0x400008, [(16, 0x800)], [⟨5, 5, .wo, 0, 0, 1⟩, ⟨4, 4, .rw, 0, 0, 1⟩, ⟨3, 0, .rw, 0, 0, 15⟩]⟩,
  ⟨"DP_SLOT_CTRL", 0x400010, [(16, 0x800)], [⟨15, 8, .rw, 0, 0, 255⟩, ⟨4, 3, .rw, 3, 0, 3⟩, ⟨2, 1, .rw, 3, 0, 3⟩, ⟨0, 0, .rw, 0, 0, 1⟩]⟩,
  ⟨"DP_SLOT_STATUS", 0x400018, [(16, 0x800)], [⟨8, 8, .ro, 0, 0, 1⟩, ⟨7, 7, .rw1c, 0, 0, 1⟩, ⟨6, 6, .rw1c, 0, 0, 1⟩, ⟨5, 5, .rw1c, 0, 0, 1⟩, ⟨4, 4, .rw1c, 0, 0, 1⟩, ⟨3, 3, .rw1c, 0, 0, 1⟩, ⟨2, 2, .rw1c, 0, 0, 1⟩, ⟨1, 1, .rw1c, 0, 0, 1⟩, ⟨0, 0, .rw1c, 0, 0, 1⟩]⟩,
  ⟨"DP_CFG_ADDR", 0x400020, [(16, 0x800)], [⟨11, 0, .rw, 0, 0, 4095⟩]⟩,
  ⟨"DP_CFG_DATA", 0x400028, [(16, 0x800)], [⟨34, 32, .rw, 0, 0, 7⟩, ⟨31, 0, .rw, 0, 0, 4294967295⟩]⟩,
  ⟨"DP_DB_BASE", 0x400030, [(16, 0x800)], [⟨63, 12, .rw, 0, 0, 4503599627370495⟩, ⟨0, 0, .rw, 0, 0, 1⟩]⟩,
  ⟨"DP_VIOL_LOG", 0x400038, [(16, 0x800)], [⟨63, 0, .ro, 0, 0, 18446744073709551615⟩]⟩,
  ⟨"IW_BUS", 0x400100, [(16, 0x800), (16, 0x20)], [⟨63, 21, .rw, 0, 0, 8796093022207⟩]⟩,
  ⟨"IW_PA", 0x400108, [(16, 0x800), (16, 0x20)], [⟨51, 21, .rw, 0, 0, 2147483647⟩]⟩,
  ⟨"IW_SIZE", 0x400110, [(16, 0x800), (16, 0x20)], [⟨17, 0, .rw, 0, 0, 262143⟩]⟩,
  ⟨"IW_CTRL", 0x400118, [(16, 0x800), (16, 0x20)], [⟨63, 63, .rw, 0, 0, 1⟩, ⟨1, 1, .rw, 0, 0, 1⟩, ⟨0, 0, .rw, 0, 0, 1⟩]⟩]

/-- Registers of the chapter on storage (spec/12_*.md). -/
def regTable12 : List RegDesc := [
  ⟨"STOR_CFG", 0xa00000, [], [⟨8, 8, .ro, 1, 0, 1⟩, ⟨7, 0, .rwl, 8, 1, 255⟩]⟩,
  ⟨"MED_RING", 0xa00010, [], [⟨63, 12, .rw, 0, 0, 4503599627370495⟩, ⟨3, 0, .rw, 0, 0, 15⟩]⟩,
  ⟨"MED_PTR", 0xa00018, [], [⟨31, 16, .rw, 0, 0, 65535⟩, ⟨15, 0, .ro, 0, 0, 65535⟩]⟩,
  ⟨"MED_REPLY", 0xa00020, [], [⟨63, 48, .wo, 0, 0, 65535⟩, ⟨31, 0, .wo, 0, 0, 4294967295⟩]⟩,
  ⟨"MED_DW0", 0xa00028, [], [⟨31, 0, .rw, 0, 0, 4294967295⟩]⟩,
  ⟨"NS_MAP", 0xa10000, [(4096, 0x20)], [⟨63, 63, .rw, 0, 0, 1⟩, ⟨55, 48, .rw, 0, 0, 255⟩, ⟨40, 32, .rw, 0, 0, 511⟩, ⟨0, 0, .rw, 0, 0, 1⟩]⟩,
  ⟨"NS_SIZE", 0xa10008, [(4096, 0x20)], [⟨47, 0, .rw, 0, 0, 281474976710655⟩]⟩,
  ⟨"NS_LEGS", 0xa10010, [(4096, 0x20)], [⟨31, 16, .rw, 65535, 0, 65535⟩, ⟨15, 0, .rw, 65535, 0, 65535⟩]⟩,
  ⟨"NS_STATUS", 0xa10018, [(4096, 0x20)], [⟨63, 61, .ro, 0, 0, 7⟩, ⟨60, 60, .ro, 0, 0, 1⟩, ⟨59, 58, .ro, 0, 0, 3⟩, ⟨57, 57, .wo, 0, 0, 1⟩, ⟨7, 0, .ro, 0, 0, 255⟩]⟩,
  ⟨"BE_CFG", 0xa40000, [(1024, 0x20)], [⟨63, 63, .rw, 0, 0, 1⟩, ⟨57, 56, .rw, 0, 0, 3⟩, ⟨51, 48, .rw, 0, 0, 15⟩, ⟨47, 24, .rw, 0, 0, 16777215⟩, ⟨23, 0, .rw, 0, 0, 16777215⟩]⟩,
  ⟨"BE_BASE", 0xa40008, [(1024, 0x20)], [⟨63, 0, .rw, 0, 0, 18446744073709551615⟩]⟩,
  ⟨"BE_OFFSET", 0xa40010, [(1024, 0x20)], [⟨47, 0, .rw, 0, 0, 281474976710655⟩]⟩,
  ⟨"BE_STATUS", 0xa40018, [(1024, 0x20)], [⟨63, 61, .ro, 0, 0, 7⟩, ⟨31, 16, .ro, 0, 0, 65535⟩, ⟨15, 0, .ro, 0, 0, 65535⟩]⟩,
  ⟨"QP_SQ", 0xa80000, [(4352, 0x40)], [⟨63, 12, .rw, 0, 0, 4503599627370495⟩]⟩,
  ⟨"QP_CQ", 0xa80008, [(4352, 0x40)], [⟨63, 12, .rw, 0, 0, 4503599627370495⟩]⟩,
  ⟨"QP_CFG", 0xa80010, [(4352, 0x40)], [⟨63, 63, .rw, 0, 0, 1⟩, ⟨55, 48, .rw, 0, 0, 255⟩, ⟨47, 32, .rw, 0, 0, 65535⟩, ⟨31, 16, .rw, 0, 0, 65535⟩, ⟨11, 11, .rw, 0, 0, 1⟩, ⟨10, 0, .rw, 0, 0, 2047⟩]⟩,
  ⟨"QP_STATUS", 0xa80018, [(4352, 0x40)], [⟨63, 63, .ro, 1, 0, 1⟩, ⟨62, 62, .ro, 0, 0, 1⟩, ⟨47, 32, .ro, 0, 0, 65535⟩, ⟨31, 16, .ro, 0, 0, 65535⟩, ⟨15, 0, .ro, 0, 0, 65535⟩]⟩]

/-- Registers of the chapter on packet pipeline (spec/13_*.md). -/
def regTable13 : List RegDesc := [
  ⟨"NET_CFG", 0x600000, [], [⟨1, 0, .rwl, 2, 0, 3⟩]⟩,
  ⟨"NET_PORT_STATUS", 0x600100, [(8, 0x8)], [⟨31, 24, .ro, 0, 0, 255⟩, ⟨1, 1, .ro, 0, 0, 1⟩, ⟨0, 0, .ro, 0, 0, 1⟩]⟩,
  ⟨"NET_PORT_LAT", 0x600140, [(8, 0x8)], [⟨31, 16, .rw, 0, 0, 65535⟩, ⟨15, 0, .rw, 0, 0, 65535⟩]⟩,
  ⟨"PTP_CFG", 0x600200, [], [⟨47, 40, .rw, 0, 0, 255⟩, ⟨31, 24, .rw, 100, 1, 255⟩, ⟨18, 16, .rw, 0, 0, 7⟩, ⟨9, 8, .rw, 0, 0, 3⟩, ⟨1, 1, .rwl, 0, 0, 1⟩, ⟨0, 0, .rw, 0, 0, 1⟩]⟩,
  ⟨"SERVO_STATUS", 0x600208, [], [⟨63, 32, .ro, 0, 0, 4294967295⟩, ⟨2, 2, .ro, 0, 0, 1⟩, ⟨1, 1, .ro, 0, 0, 1⟩, ⟨0, 0, .ro, 0, 0, 1⟩]⟩,
  ⟨"PIPE_CFG", 0x600300, [], [⟨59, 48, .rwl, 0, 0, 4095⟩, ⟨43, 32, .rwl, 0, 0, 4095⟩, ⟨31, 24, .rw, 0, 0, 255⟩, ⟨23, 16, .rw, 0, 0, 255⟩, ⟨15, 8, .rw, 0, 0, 255⟩, ⟨2, 0, .rw, 2, 0, 4⟩]⟩,
  ⟨"EXC_CFG", 0x600308, [], [⟨63, 63, .rw, 0, 0, 1⟩, ⟨45, 32, .rw, 0, 0, 16383⟩, ⟨31, 0, .rw, 0, 0, 4294967295⟩]⟩,
  ⟨"LOOKUP_LIST", 0x600310, [(3, 0x8)], [⟨63, 0, .rw, 18446744073709551615, 0, 18446744073709551615⟩]⟩,
  ⟨"TM_CFG", 0x600328, [], [⟨4, 0, .rw, 0, 0, 31⟩]⟩,
  ⟨"OBJ_CMD", 0x600400, [], [⟨63, 63, .ro, 0, 0, 1⟩, ⟨47, 32, .ro, 0, 0, 65535⟩, ⟨31, 28, .wo, 0, 0, 15⟩, ⟨27, 24, .rw, 0, 0, 15⟩, ⟨23, 0, .rw, 0, 0, 16777215⟩]⟩,
  ⟨"OBJ_DATA", 0x600480, [(16, 0x8)], [⟨63, 0, .rw, 0, 0, 18446744073709551615⟩]⟩,
  ⟨"PN_A", 0x601000, [(256, 0x20)], [⟨63, 63, .rw, 0, 0, 1⟩, ⟨56, 48, .rw, 0, 0, 511⟩, ⟨47, 40, .rw, 0, 0, 255⟩, ⟨39, 39, .rw, 0, 0, 1⟩, ⟨38, 36, .rw, 0, 0, 7⟩, ⟨35, 35, .rw, 0, 0, 1⟩, ⟨31, 26, .rw, 0, 0, 63⟩, ⟨25, 25, .rw, 0, 0, 1⟩, ⟨23, 16, .rw, 0, 0, 255⟩, ⟨15, 0, .rw, 0, 0, 65535⟩]⟩,
  ⟨"PN_B", 0x601008, [(256, 0x20)], [⟨31, 26, .rw, 0, 0, 63⟩, ⟨25, 24, .rw, 0, 0, 3⟩, ⟨23, 21, .rw, 0, 0, 7⟩, ⟨15, 8, .rw, 0, 0, 255⟩, ⟨7, 0, .rw, 0, 0, 255⟩]⟩,
  ⟨"PN_T01", 0x601010, [(256, 0x20)], [⟨63, 63, .rw, 0, 0, 1⟩, ⟨56, 48, .rw, 0, 0, 511⟩, ⟨47, 32, .rw, 0, 0, 65535⟩, ⟨31, 31, .rw, 0, 0, 1⟩, ⟨24, 16, .rw, 0, 0, 511⟩, ⟨15, 0, .rw, 0, 0, 65535⟩]⟩,
  ⟨"PN_T23", 0x601018, [(256, 0x20)], [⟨63, 63, .rw, 0, 0, 1⟩, ⟨56, 48, .rw, 0, 0, 511⟩, ⟨47, 32, .rw, 0, 0, 65535⟩, ⟨31, 31, .rw, 0, 0, 1⟩, ⟨24, 16, .rw, 0, 0, 511⟩, ⟨15, 0, .rw, 0, 0, 65535⟩]⟩,
  ⟨"SPREAD_CFG", 0x608000, [(256, 0x40)], [⟨15, 11, .rw, 0, 0, 31⟩, ⟨10, 6, .rw, 0, 0, 31⟩, ⟨2, 2, .rw, 0, 0, 1⟩, ⟨1, 1, .rw, 0, 0, 1⟩, ⟨0, 0, .rw, 0, 0, 1⟩]⟩,
  ⟨"SPREAD_KEY", 0x608008, [(256, 0x40), (5, 0x8)], [⟨63, 0, .rw, 0, 0, 18446744073709551615⟩]⟩,
  ⟨"INDIR", 0x700000, [(256, 0x1000), (512, 0x8)], [⟨15, 15, .rw, 0, 0, 1⟩, ⟨13, 0, .rw, 0, 0, 16383⟩, ⟨31, 31, .rw, 0, 0, 1⟩, ⟨29, 16, .rw, 0, 0, 16383⟩, ⟨47, 47, .rw, 0, 0, 1⟩, ⟨45, 32, .rw, 0, 0, 16383⟩, ⟨63, 63, .rw, 0, 0, 1⟩, ⟨61, 48, .rw, 0, 0, 16383⟩]⟩,
  ⟨"PR_RING", 0x640000, [(16384, 0x20)], [⟨63, 12, .rw, 0, 0, 4503599627370495⟩, ⟨4, 4, .rw, 0, 0, 1⟩, ⟨3, 0, .rw, 0, 0, 10⟩]⟩,
  ⟨"PR_CFG", 0x640008, [(16384, 0x20)], [⟨63, 63, .rw, 0, 0, 1⟩, ⟨62, 62, .rw, 0, 0, 1⟩, ⟨55, 48, .rw, 0, 0, 255⟩, ⟨11, 0, .rw, 0, 0, 4095⟩]⟩,
  ⟨"PR_TAIL", 0x640010, [(16384, 0x20)], [⟨15, 0, .rw, 0, 0, 65535⟩]⟩,
  ⟨"PR_STATUS", 0x640018, [(16384, 0x20)], [⟨63, 61, .ro, 0, 0, 7⟩, ⟨15, 0, .ro, 0, 0, 65535⟩]⟩]

/-- Registers of the chapter on transport (spec/14_*.md). -/
def regTable14 : List RegDesc := [
  ⟨"TRANSPORT_CFG", 0x800000, [], [⟨63, 50, .rwl, 0, 0, 16383⟩, ⟨49, 45, .rwl, 0, 0, 31⟩, ⟨39, 32, .rwl, 50, 0, 50⟩, ⟨31, 16, .rw, 50, 0, 65535⟩]⟩,
  ⟨"SPILL_CFG", 0x800008, [], [⟨63, 12, .rwl, 0, 0, 4503599627370495⟩, ⟨1, 1, .rwl, 0, 0, 1⟩, ⟨0, 0, .ro, 0, 0, 1⟩]⟩,
  ⟨"MR_TABLE", 0x800010, [], [⟨51, 12, .rwl, 0, 0, 1099511627775⟩, ⟨11, 0, .rwl, 0, 0, 4095⟩]⟩,
  ⟨"MR_INVAL", 0x800018, [], [⟨63, 63, .ro, 0, 0, 1⟩, ⟨19, 0, .wo, 0, 0, 1048575⟩]⟩,
  ⟨"CONN_CMD", 0x800100, [], [⟨63, 63, .ro, 0, 0, 1⟩, ⟨47, 32, .ro, 0, 0, 65535⟩, ⟨31, 28, .wo, 0, 0, 15⟩, ⟨23, 0, .rw, 0, 0, 16777215⟩]⟩,
  ⟨"CONN_DATA", 0x800180, [(12, 0x8)], [⟨63, 0, .rw, 0, 0, 18446744073709551615⟩]⟩,
  ⟨"SCERAN_CFG", 0x800300, [], [⟨63, 32, .rwl, 0, 0, 4294967295⟩, ⟨15, 0, .rwl, 50592, 0, 65535⟩]⟩,
  ⟨"SCERAN_STATUS", 0x800308, [], [⟨31, 0, .ro, 0, 0, 4294967295⟩]⟩,
  ⟨"SCERAN_STORE", 0x800310, [], [⟨51, 12, .rwl, 0, 0, 1099511627775⟩]⟩,
  ⟨"SC_NODE", 0x810000, [(4096, 0x20)], [⟨63, 63, .rw, 0, 0, 1⟩, ⟨62, 62, .rw, 0, 0, 1⟩, ⟨50, 48, .rw, 0, 0, 7⟩, ⟨47, 32, .rw, 0, 0, 65535⟩, ⟨31, 0, .rw, 0, 0, 4294967295⟩]⟩,
  ⟨"SC_ADDR", 0x810008, [(4096, 0x20), (2, 0x8)], [⟨63, 0, .rw, 0, 0, 18446744073709551615⟩]⟩]

/-- Registers of the chapter on cipher (spec/15_*.md). -/
def regTable15 : List RegDesc := [
  ⟨"CIPHER_CFG", 0xc00000, [], [⟨15, 8, .ro, 0, 0, 255⟩, ⟨3, 0, .rwl, 0, 0, 8⟩]⟩,
  ⟨"RNG_STATUS", 0xc00008, [], [⟨31, 16, .ro, 0, 0, 65535⟩, ⟨1, 1, .ro, 0, 0, 1⟩, ⟨0, 0, .ro, 0, 0, 1⟩]⟩,
  ⟨"KEY_TABLE", 0xc00010, [], [⟨51, 12, .rwl, 0, 0, 1099511627775⟩]⟩,
  ⟨"KEY_CMD", 0xc00100, [], [⟨63, 63, .ro, 0, 0, 1⟩, ⟨47, 32, .ro, 0, 0, 65535⟩, ⟨31, 28, .wo, 0, 0, 15⟩, ⟨15, 0, .rw, 0, 0, 65535⟩]⟩,
  ⟨"KEY_ATTR", 0xc00108, [], [⟨55, 48, .rw, 0, 0, 255⟩, ⟨47, 32, .rw, 0, 0, 65535⟩, ⟨11, 11, .rw, 0, 0, 1⟩, ⟨10, 10, .rw, 0, 0, 1⟩, ⟨9, 9, .rw, 0, 0, 1⟩, ⟨8, 8, .rw, 0, 0, 1⟩, ⟨5, 4, .ro, 0, 0, 3⟩, ⟨3, 0, .rw, 0, 0, 15⟩]⟩,
  ⟨"KEY_SALT", 0xc00110, [], [⟨31, 0, .rw, 0, 0, 4294967295⟩]⟩,
  ⟨"KEY_CTR", 0xc00118, [], [⟨63, 0, .rw, 0, 0, 18446744073709551615⟩]⟩,
  ⟨"KEY_LIMIT", 0xc00120, [], [⟨63, 0, .rw, 18446744073709551615, 0, 18446744073709551615⟩]⟩,
  ⟨"KEY_DATA", 0xc00140, [(8, 0x8)], [⟨63, 0, .wo, 0, 0, 18446744073709551615⟩]⟩,
  ⟨"CQ_RING", 0xc10000, [(1024, 0x20)], [⟨63, 12, .rw, 0, 0, 4503599627370495⟩, ⟨4, 4, .rw, 0, 0, 1⟩, ⟨3, 0, .rw, 0, 0, 10⟩]⟩,
  ⟨"CQ_CFG", 0xc10008, [(1024, 0x20)], [⟨63, 63, .rw, 0, 0, 1⟩, ⟨55, 48, .rw, 0, 0, 255⟩, ⟨11, 0, .rw, 0, 0, 4095⟩]⟩,
  ⟨"CQ_TAIL", 0xc10010, [(1024, 0x20)], [⟨15, 0, .rw, 0, 0, 65535⟩]⟩,
  ⟨"CQ_STATUS", 0xc10018, [(1024, 0x20)], [⟨63, 61, .ro, 0, 0, 7⟩, ⟨15, 0, .ro, 0, 0, 65535⟩]⟩]

/-- Registers of the chapter on power (spec/16_*.md). -/
def regTable16 : List RegDesc := [
  ⟨"PWR_STATE", 0x20000, [], [⟨47, 32, .ro, 0, 0, 65535⟩, ⟨23, 20, .ro, 0, 0, 15⟩, ⟨7, 7, .ro, 0, 0, 1⟩, ⟨6, 4, .ro, 0, 0, 7⟩, ⟨2, 0, .ro, 0, 0, 7⟩]⟩,
  ⟨"PWR_STATE_CMD", 0x20008, [], [⟨3, 0, .wo, 0, 0, 15⟩]⟩,
  ⟨"PWR_CFG", 0x20010, [], [⟨0, 0, .rw, 1, 0, 1⟩]⟩,
  ⟨"WAKE_MAC", 0x20018, [], [⟨47, 0, .rw, 0, 0, 281474976710655⟩]⟩,
  ⟨"WAKE_TIMER", 0x20020, [], [⟨63, 0, .rw, 0, 0, 18446744073709551615⟩]⟩,
  ⟨"CAP_CFG", 0x20100, [], [⟨9, 0, .rw, 1000, 500, 1000⟩]⟩,
  ⟨"CAP_STATUS", 0x20108, [], [⟨63, 63, .ro, 0, 0, 1⟩, ⟨62, 62, .ro, 0, 0, 1⟩, ⟨22, 16, .ro, 64, 0, 127⟩]⟩,
  ⟨"ENERGY", 0x20110, [], [⟨63, 0, .ro, 0, 0, 18446744073709551615⟩]⟩,
  ⟨"POWER_NOW", 0x20118, [], [⟨63, 48, .ro, 0, 0, 65535⟩, ⟨47, 32, .ro, 0, 0, 65535⟩, ⟨15, 0, .ro, 0, 0, 65535⟩]⟩,
  ⟨"PHASE_CTRL", 0x20200, [], [⟨34, 32, .wo, 0, 0, 7⟩, ⟨11, 0, .wo, 0, 0, 4095⟩]⟩,
  ⟨"PHASE_STATUS", 0x20208, [], [⟨47, 0, .ro, 0, 0, 281474976710655⟩]⟩,
  ⟨"OP_POINT", 0x20210, [], [⟨16, 16, .rwl, 0, 0, 1⟩, ⟨15, 8, .rwl, 0, 0, 255⟩, ⟨6, 0, .rwl, 64, 1, 64⟩]⟩,
  ⟨"OP_POINT", 0x20218, [], [⟨16, 16, .rwl, 0, 0, 1⟩, ⟨15, 8, .rwl, 246, 0, 255⟩, ⟨6, 0, .rwl, 32, 1, 64⟩]⟩,
  ⟨"OP_POINT", 0x20220, [], [⟨16, 16, .rwl, 0, 0, 1⟩, ⟨15, 8, .rwl, 246, 0, 255⟩, ⟨6, 0, .rwl, 32, 1, 64⟩]⟩,
  ⟨"OP_POINT", 0x20228, [], [⟨16, 16, .rwl, 1, 0, 1⟩, ⟨15, 8, .rwl, 236, 0, 255⟩, ⟨6, 0, .rwl, 16, 1, 64⟩]⟩,
  ⟨"OP_POINT", 0x20230, [], [⟨16, 16, .rwl, 1, 0, 1⟩, ⟨15, 8, .rwl, 236, 0, 255⟩, ⟨6, 0, .rwl, 8, 1, 64⟩]⟩,
  ⟨"EMERG_STATUS", 0x20300, [], [⟨47, 36, .ro, 0, 0, 4095⟩, ⟨35, 24, .ro, 0, 0, 4095⟩, ⟨13, 7, .ro, 64, 0, 127⟩, ⟨5, 5, .ro, 0, 0, 1⟩, ⟨4, 4, .ro, 0, 0, 1⟩, ⟨3, 3, .ro, 0, 0, 1⟩, ⟨2, 2, .ro, 0, 0, 1⟩, ⟨1, 1, .ro, 0, 0, 1⟩, ⟨0, 0, .ro, 0, 0, 1⟩]⟩,
  ⟨"TEMP_STATUS", 0x20308, [], [⟨47, 40, .ro, 0, 0, 255⟩, ⟨15, 8, .ro, 0, 0, 255⟩, ⟨7, 0, .ro, 0, 0, 255⟩]⟩,
  ⟨"PAD_STATUS", 0x20400, [], [⟨2, 0, .ro, 0, 0, 7⟩]⟩,
  ⟨"PAD_RELEASE", 0x20408, [], [⟨2, 0, .wo, 0, 0, 7⟩]⟩,
  ⟨"OFF_CAUSE", 0x20410, [], [⟨8, 8, .rw1c, 0, 0, 1⟩, ⟨7, 0, .ro, 0, 0, 255⟩]⟩,
  ⟨"PLINK_STATUS", 0x20500, [], [⟨0, 0, .ro, 0, 0, 1⟩]⟩]

/-- Registers of the chapter on boot (spec/17_*.md). -/
def regTable17 : List RegDesc := [
  ⟨"BOOT_STATUS", 0x10000, [], [⟨47, 32, .ro, 0, 0, 65535⟩, ⟨23, 23, .ro, 0, 0, 1⟩, ⟨22, 22, .ro, 0, 0, 1⟩, ⟨21, 21, .ro, 0, 0, 1⟩, ⟨20, 20, .ro, 0, 0, 1⟩, ⟨3, 0, .ro, 0, 0, 15⟩]⟩,
  ⟨"RESET_CTRL", 0x10008, [], [⟨15, 0, .wo, 0, 0, 65535⟩]⟩,
  ⟨"FW_VERSION", 0x10010, [], [⟨63, 32, .ro, 0, 0, 4294967295⟩, ⟨31, 31, .ro, 0, 0, 1⟩, ⟨30, 30, .ro, 0, 0, 1⟩, ⟨29, 29, .ro, 0, 0, 1⟩, ⟨28, 28, .ro, 0, 0, 1⟩, ⟨24, 24, .ro, 0, 0, 1⟩]⟩,
  ⟨"WDOG_STATUS", 0x10018, [], [⟨22, 11, .rw1c, 0, 0, 4095⟩, ⟨10, 3, .rw1c, 0, 0, 255⟩, ⟨2, 2, .rw1c, 0, 0, 1⟩, ⟨1, 1, .rw1c, 0, 0, 1⟩, ⟨0, 0, .rw1c, 0, 0, 1⟩]⟩,
  ⟨"MBOX_CMD", 0x80000, [], [⟨63, 63, .ro, 0, 0, 1⟩, ⟨47, 32, .ro, 0, 0, 65535⟩, ⟨7, 0, .wo, 0, 0, 255⟩]⟩,
  ⟨"MBOX_ARG0", 0x80008, [], [⟨63, 0, .rw, 0, 0, 18446744073709551615⟩]⟩,
  ⟨"MBOX_ARG1", 0x80010, [], [⟨63, 0, .rw, 0, 0, 18446744073709551615⟩]⟩,
  ⟨"MBOX_CFG", 0x80018, [], [⟨12, 12, .rw, 0, 0, 1⟩, ⟨11, 0, .rw, 0, 0, 4095⟩]⟩,
  ⟨"MBOX_BUF", 0x81000, [(512, 0x8)], [⟨63, 0, .rw, 0, 0, 18446744073709551615⟩]⟩]

/-- Registers of the chapter on mirrored pair (spec/18_*.md). -/
def regTable18 : List RegDesc := [
  ⟨"PAIR_CFG", 0xe00000, [], [⟨63, 63, .rwl, 0, 0, 1⟩, ⟨62, 62, .rwl, 0, 0, 1⟩, ⟨61, 60, .rwl, 0, 0, 3⟩, ⟨51, 48, .rwl, 0, 0, 15⟩, ⟨31, 0, .rwl, 0, 0, 4294967295⟩]⟩,
  ⟨"PAIR_SLICES", 0xe00010, [(4, 0x8)], [⟨63, 0, .rwl, 0, 0, 18446744073709551615⟩]⟩,
  ⟨"PAIR_ANN_ADDR", 0xe00030, [], [⟨51, 6, .rwl, 0, 0, 70368744177663⟩]⟩,
  ⟨"PAIR_ANN_CTRL", 0xe00038, [], [⟨23, 16, .rwl, 0, 0, 255⟩, ⟨13, 0, .rwl, 0, 0, 16383⟩]⟩,
  ⟨"PAIR_STATUS", 0xe00100, [], [⟨63, 61, .ro, 0, 0, 7⟩, ⟨60, 60, .ro, 0, 0, 1⟩, ⟨59, 59, .ro, 0, 0, 1⟩, ⟨58, 58, .ro, 0, 0, 1⟩, ⟨57, 57, .ro, 0, 0, 1⟩, ⟨47, 32, .ro, 0, 0, 65535⟩]⟩,
  ⟨"PAIR_CMD", 0xe00108, [], [⟨63, 63, .ro, 0, 0, 1⟩, ⟨47, 32, .ro, 0, 0, 65535⟩, ⟨3, 0, .wo, 0, 0, 15⟩]⟩,
  ⟨"PAIR_LAG", 0xe00110, [], [⟨63, 32, .ro, 0, 0, 4294967295⟩, ⟨31, 0, .ro, 0, 0, 4294967295⟩]⟩,
  ⟨"WELT_STATUS", 0xe00118, [], [⟨63, 56, .ro, 0, 0, 255⟩, ⟨3, 0, .ro, 0, 0, 15⟩]⟩]

/-- Registers of the chapter on self-test (spec/19_*.md). -/
def regTable19 : List RegDesc := [
  ⟨"POST_STATUS", 0x10020, [], [⟨63, 63, .ro, 0, 0, 1⟩, ⟨62, 62, .ro, 0, 0, 1⟩, ⟨47, 36, .ro, 0, 0, 4095⟩, ⟨35, 24, .ro, 0, 0, 4095⟩, ⟨23, 12, .ro, 0, 0, 4095⟩, ⟨1, 1, .ro, 0, 0, 1⟩, ⟨0, 0, .ro, 0, 0, 1⟩]⟩,
  ⟨"FATAL_STATUS", 0x10028, [], [⟨63, 63, .ro, 0, 0, 1⟩, ⟨7, 0, .ro, 0, 0, 255⟩]⟩,
  ⟨"ISST_CFG", 0x1000400, [(12, 0x100000)], [⟨16, 16, .rw, 1, 0, 1⟩, ⟨15, 0, .rw, 600, 1, 65535⟩]⟩,
  ⟨"ISST_STATUS", 0x1000408, [(12, 0x100000)], [⟨63, 63, .rw1c, 0, 0, 1⟩, ⟨9, 8, .ro, 0, 0, 3⟩, ⟨2, 0, .ro, 0, 0, 7⟩]⟩,
  ⟨"ISST_LAST", 0x1000410, [(12, 0x100000)], [⟨63, 0, .ro, 0, 0, 18446744073709551615⟩]⟩]

/-- Registers of the chapter on daybook and tally (spec/20_*.md). -/
def regTable20 : List RegDesc := [
  ⟨"DB_STATUS", 0x40000, [], [⟨63, 63, .ro, 0, 0, 1⟩, ⟨48, 32, .ro, 32768, 0, 131071⟩, ⟨16, 0, .ro, 0, 0, 131071⟩]⟩,
  ⟨"DB_SEQ", 0x40008, [], [⟨31, 0, .ro, 0, 0, 4294967295⟩]⟩,
  ⟨"DB_OVERWRITE", 0x40010, [], [⟨63, 0, .ro, 0, 0, 18446744073709551615⟩]⟩,
  ⟨"DB_RATE", 0x40018, [], [⟨15, 8, .rw, 64, 1, 255⟩, ⟨7, 0, .rw, 16, 1, 255⟩]⟩,
  ⟨"DB_WINDOW", 0x40020, [], [⟨16, 0, .rw, 0, 0, 131071⟩]⟩,
  ⟨"TALLY_SEL", 0x40100, [], [⟨31, 24, .rw, 0, 0, 255⟩, ⟨23, 16, .rw, 0, 0, 255⟩, ⟨15, 0, .rw, 0, 0, 65535⟩]⟩,
  ⟨"TALLY_VAL", 0x40108, [], [⟨63, 0, .ro, 0, 0, 18446744073709551615⟩]⟩,
  ⟨"TALLY_DUMP", 0x40110, [], [⟨63, 63, .ro, 0, 0, 1⟩, ⟨47, 32, .ro, 0, 0, 65535⟩, ⟨27, 16, .rw, 0, 0, 4095⟩, ⟨12, 0, .wo, 0, 0, 8191⟩]⟩,
  ⟨"TALLY_DUMP_ADDR", 0x40118, [], [⟨51, 3, .rw, 0, 0, 562949953421311⟩]⟩,
  ⟨"TALLY_DIR", 0x41000, [(19, 0x200), (64, 0x8)], [⟨23, 16, .ro, 0, 0, 255⟩, ⟨15, 0, .ro, 0, 0, 65535⟩]⟩,
  ⟨"DB_WIN", 0x48000, [(4096, 0x8)], [⟨63, 0, .ro, 0, 0, 18446744073709551615⟩]⟩]

end Sys2Proof.Machine
end

