-- ==== Sys2Proof/Machine/State.lean ====
section
/-! DEFINITION. The state of the device: plain data, holding every register, buffer, table, queue and mode of the
spec, with the value of each at reset. -/

namespace Sys2Proof.Machine

/-- The timebase (R11, R12, R13): ticks, the fraction of a tick the rate correction has gathered, the step that waits for
the next cycle, and the latch of the upper half. -/
structure Clock where
  ticks : Word
  /-- In 2⁻⁴⁰ tick, below 2⁴⁰ (TIME_RATE.rate_adj). -/
  frac : Nat
  step : Word
  latch : BitVec 32
  /-- The root PLL has lock (R11). -/
  pllLocked : Bool
  /-- The 100 MHz reference is present (R11). -/
  refclk : Bool
  /-- The AON domain runs on the internal ring oscillator (R11). -/
  aonRing : Bool
  /-- Cycles of the 1.6 GHz clock, without correction or steps (CYCLE, R134). -/
  cycles : Word
  deriving DecidableEq, Repr

/-- Where a die-to-die link stands (R5). -/
inductive LinkPhase where
  | up
  | retrain
  | waitRetry
  | fenced
  deriving DecidableEq, Repr

/-- A die-to-die link (R5): its phase, the CRC failures in succession, whether a replay is awaited, flits delivered, which is
the number of the flit that is delivered next. -/
structure Link where
  phase : LinkPhase
  crcFails : Nat
  replay : Bool
  delivered : Nat
  deriving DecidableEq, Repr

/-- A target port of the hub fabric (R16): the tokens of classes 0 to 3 in eighths of a beat, the last initiator served in
each class, the beats left of the packet in progress, and the buffer credits left in the pool of each class, in beats. -/
structure FabricPort where
  tok0 : Nat
  tok1 : Nat
  tok2 : Nat
  tok3 : Nat
  last0 : Nat
  last1 : Nat
  last2 : Nat
  last3 : Nat
  left : Nat
  cred0 : Nat
  cred1 : Nat
  cred2 : Nat
  cred3 : Nat
  deriving DecidableEq, Repr

/-- The credits of a class's pool at a target port, in beats (log entry 174, DESIGN CHOICE). -/
def creditPool : Nat := 64

/-- A port with full buckets and nothing in progress. -/
def FabricPort.idle : FabricPort := ⟨512, 8192, 2048, 2048, 0, 0, 0, 0, 0, creditPool, creditPool, creditPool, creditPool⟩

/-- An entry of the daybook (R474); detail holds bytes 20 to 31, byte 20 least significant. -/
structure DbEntry where
  time : Word
  seq : Nat
  source : Nat
  inst : Nat
  code : Nat
  slice : Nat
  severity : Nat
  status : Nat
  detail : Nat
  deriving DecidableEq, Repr

/-- The token bucket of a source class and what it has suppressed (R476). -/
structure Bucket where
  tokens : Nat
  suppressed : Nat
  firstCode : Nat
  deriving DecidableEq, Repr

/-- A bucket as it is at reset (DB_RATE.burst tokens; log entry 5, DESIGN CHOICE). -/
def Bucket.full : Bucket := ⟨64, 0, 0⟩

/-- The daybook ring by index, the bucket of each source class, and the PLDM events queued for polling (R472, R481). -/
structure Daybook where
  ring : Tab DbEntry
  buckets : Tab Bucket
  events : List DbEntry
  deriving DecidableEq, Repr

/-- A completion record before its phase bit (the table under R29). -/
structure Rec where
  status : Nat
  queue : Nat
  kind : Nat
  /-- Flags without bit 0, the phase. -/
  flags : Nat
  slice : Nat
  tag : Nat
  byteCount : Nat
  time : Word
  word : Nat
  /-- The descriptor asked for an interrupt (R282). -/
  irq : Bool
  deriving DecidableEq, Repr

/-- A region entry (R151, R152): base and size in bytes, owner, tier, bulk_mirror; state 1 active, 2 zeroing, 3 lost;
whether a create (and not a destroy) waits for the zeroing. -/
structure Region where
  base : Nat
  size : Nat
  owner : Nat
  tier : Nat
  bulk : Bool
  state : Nat
  creating : Bool
  deriving DecidableEq, Repr

/-- The fields of a slice entry that a create or an apply has taken into force (R276). -/
structure SliceForce where
  policy : Word
  quotaMem : Word
  quotaQ : Word
  quotaNet : Word
  quotaServe : Word
  share : Word
  /-- LOG_CFG, for its limit, and the bases of the bitmaps A and B (R276, R283). -/
  log : Word
  logA : Word
  logB : Word
  /-- An apply or create has happened: for slice 0 the first apply (R502). -/
  applied : Bool
  deriving DecidableEq, Repr

/-- A host write that dirty logging still has to record: the slice, the page, the buffer, the function and the first byte of that
buffer's bitmap (R284). -/
structure DirtyPage where
  slice : Nat
  page : Nat
  buffer : Nat
  fn : Nat
  base : Nat
  deriving DecidableEq, Repr

/-- The forms of an accumulator entry (R51). -/
inductive Form where
  | exact
  | binned
  | fast
  deriving DecidableEq, Repr

/-- An accumulator entry or a bin set. val: in exact form T × 2¹⁹², in binned form V of R61, in fast form the FP32 lane sum.
anchor: A of a binned form. groups: contributions since it was set up (R56). -/
structure Entry where
  form : Form
  val : Int
  anchor : Int
  flags : Nat
  groups : Nat
  deriving DecidableEq, Repr

/-- An entry cleared to exact form. -/
def Entry.zero : Entry := ⟨.exact, 0, 0, 0, 0⟩

/-- A cleared bin set: binned form with anchor 1 (R132). -/
def Entry.bins : Entry := ⟨.binned, 0, 1, 0, 0⟩

/-- Where a sub-part stands. -/
inductive SubPhase where
  | waiting
  | running
  | ended
  deriving DecidableEq, Repr

/-- A bench sub-part (R84): stack, logical position, phase, the physical bench that runs it and the others that run units of it
(R106); its code; whether it was re-run; whether its share of the work is done, and what the share came to: the OR of its flags, its
outputs with flags, its bytes. -/
structure SubPart where
  stack : Nat
  pos : Nat
  phase : SubPhase
  bench : Nat
  also : List Nat
  code : Nat
  rerun : Bool
  did : Bool
  flags : Nat
  flagged : Nat
  bytes : Nat
  deriving DecidableEq, Repr

/-- A sub-part that has not started. -/
def SubPart.fresh (stack pos : Nat) : SubPart := ⟨stack, pos, .waiting, 0, [], 0, false, false, 0, 0, 0⟩

/-- A descriptor in flight: its queue, its 128 bytes, its sub-parts; of an operation without sub-parts, whether it was performed, its
failure code, the OR of its flags, the outputs with flags, the bytes produced; whether a part was retried.
gens: for each masked stack and position the generation of the barrier it waits on when it was read (R98). -/
structure Desc where
  queue : Nat
  raw : List Byte
  slice : Nat
  subs : List SubPart
  performed : Bool
  code : Nat
  flags : Nat
  flagged : Nat
  bytes : Nat
  retried : Bool
  gens : List (Nat × Nat × Nat)
  deriving DecidableEq, Repr

/-- Where an instance of a launch stands (R93, R94). -/
inductive InstPhase where
  | waiting
  | running (core : Nat)
  | ended (code exit : Nat)
  deriving DecidableEq, Repr

/-- A launch (R92, R94): its instances by index; on which stack each that has started, or was to start, is one: index to stack. -/
structure Launch where
  insts : List InstPhase
  on : Tab Nat
  deriving DecidableEq, Repr

/-- An engine's operand buffers, scale stores and accumulator file (R73); bytes not listed are 0. -/
structure Engine where
  bufA : Tab Byte
  bufB : Tab Byte
  sclA : Tab Byte
  sclB : Tab Byte
  acc : Tab Entry
  deriving DecidableEq, Repr

/-- A cleared engine (R77). -/
def Engine.clear : Engine := ⟨[], [], [], [], []⟩

/-- The issue rate of a logical engine in 64ths, whether it is idle and whether it ramps (R101 to R103). -/
structure EngRate where
  rate : Nat
  idle : Bool
  ramping : Bool
  deriving DecidableEq, Repr

/-- An idle engine. -/
def EngRate.rest : EngRate := ⟨0, true, false⟩

/-- The mark of a position's optimize journal (R86): the descriptor, the chunks of its sub-part marked done, whether the next one is
marked open. -/
structure Journal where
  desc : Nat
  chunks : Nat
  isOpen : Bool
  deriving DecidableEq, Repr

/-- The benches' and the scheduler's state that no register shows. -/
structure Benches where
  /-- Descriptors in flight by number, and the next number. -/
  descs : Tab Desc
  next : Nat
  launches : Tab Launch
  /-- Bench-scope barriers, keyed (stack × 7 + bench) × 16 + number, laid out as the registers of R100. -/
  barriers : Tab Word
  /-- Engines, keyed (stack × 7 + bench) × 9 + physical engine. -/
  engines : Tab Engine
  /-- Scratch bytes, keyed (stack × 7 + bench) × 2²² + offset. -/
  scratch : Tab Byte
  /-- Scratch words that are uncorrectable, keyed (stack × 7 + bench) × 2¹⁹ + offset / 8 (R161, R166). -/
  badScratch : Tab Unit
  /-- Scratch pages being zeroed, keyed as pages: the slice whose instance left them (R76, R289). -/
  leftBy : Tab Nat
  /-- Scratch pages not free, keyed (stack × 7 + bench) × 64 + page: 1 allocated, 2 being zeroed. -/
  pages : Tab Nat
  /-- Issue rates, keyed stack × 48 + engine. -/
  rates : Tab EngRate
  /-- The times at which engines of a stack left idle in the last 250 ns, keyed stack (R102). -/
  leaves : Tab (List Word)
  /-- Spares substituted and not yet in service: engines and lanes keyed (stack × 7 + bench) × 9 + engine, benches keyed
  2²⁰ + stack × 7 + bench (R105). -/
  entering : Tab Unit
  /-- Verified kernel digests, newest first: slice and digest, at most 256 (R97). -/
  digests : List (Nat × List Byte)
  /-- The marks of the optimize journals of R86, keyed stack × 6 + position. -/
  journal : Tab Journal
  /-- Stacks whose control core is restarting: no dispatch, stack barriers wait (R110). -/
  stalled : Tab Unit
  /-- Barriers that a participant broke while the core that keeps them restarts, keyed stack × 16 + number, 12 for the device
  (R110, R437). -/
  breaks : Tab Unit
  /-- The work that benches ended in the last 10 ms: stack × 256 + slice, when it began and when it ended (R81). -/
  used : List (Nat × Word × Word)
  /-- When the work on a busy bench began. -/
  began : Tab Word
  /-- Idle engines that a stack's or the device's barrier has released, keyed as rates: they ramp when they leave idle (R102). -/
  released : Tab Unit
  deriving DecidableEq, Repr

/-- Nothing in flight. -/
def Benches.idle : Benches := ⟨[], 0, [], [], [], [], [], [], [], [], [], [], [], [], [], [], [], [], []⟩

/-- A coprocessor operation issued and not complete (R129): func, the literal or register rc, the operands and RMODE, SR_SEED,
SR_TENSOR and SR_STEP as they stood. -/
structure CopOp where
  func : Nat
  rc : Nat
  a : Word
  b : Word
  c : Word
  rmode : Word
  seed : Word
  tensor : Word
  step : Word
  deriving DecidableEq, Repr

/-- What a coprocessor holds for the next WAIT (R130): its queue, oldest first, the flags, the lowest failure code or 0. -/
structure Cop where
  queue : List CopOp
  flags : Nat
  code : Nat
  deriving DecidableEq, Repr

/-- A coprocessor with nothing to report. -/
def Cop.idle : Cop := ⟨[], 0, 0⟩

/-- What a core runs: nothing (halted or free), firmware, a kernel instance of a launch, a packet action. -/
inductive CoreRole where
  | free
  | firmware
  | kernel (desc idx : Nat)
  | action (packet : Nat)
  deriving DecidableEq, Repr

/-- Why a core stands still: the bundle at its program counter stalls, in WAIT, WFI or an issue (R124, R129, R130); it waits at a barrier
whose result goes to register rd (R124), or its EXIT waits for what is outstanding (R139). -/
inductive Stall where
  | none
  | held
  | bar (scope : BarScope) (n rd : Nat)
  | exiting (value : Nat)
  deriving DecidableEq, Repr

/-- A Zenza core: general registers, predicates (bit k is pk), program counter, the CSRs of R134, its coprocessors, the hash
context of coprocessor 6 (kind, bytes), the bin sets of coprocessor 2, the stores that failed and are still to be taken
(address, bus error; R136), and for an action core the program slot, the header window with the bytes of it that lie in the
frame body, and the metadata. -/
structure Core where
  role : CoreRole
  halted : Bool
  stall : Stall
  g : Tab Word
  p : Nat
  pc : Word
  retired : Word
  flags : Word
  rmode : Word
  srSeed : Word
  srTensor : Word
  srStep : Word
  position : Word
  status : Word
  tvec : Word
  epc : Word
  cause : Word
  tval : Word
  ienable : Word
  ipend : Word
  scratch0 : Word
  cops : Tab Cop
  hash : Option (Nat × List Byte)
  bins : Tab Entry
  fails : List (Word × Bool)
  prog : Nat
  hw : List Byte
  hwLen : Nat
  fields : Tab Word
  /-- Kernel: entry, window set, scratch pages (the pages in order), slice; firmware and actions: 0. -/
  entry : Word
  winSet : Nat
  pages : List Nat
  slice : Nat
  /-- Bundles since the program began (R335). -/
  bundles : Nat
  /-- The address of the bundle executed last, in which a core at a barrier or in EXIT still stands (R136, R139). -/
  here : Word
  /-- The header window before the bundle of an EXIT (R140). -/
  kept : List Byte
  /-- A failure of its stores became known while its bundle stalled, and is taken at the next bundle boundary (R136). -/
  due : Bool
  deriving DecidableEq, Repr

/-- A core with every register 0 (R77, R93). -/
def Core.clear : Core :=
  ⟨.free, false, .none, [], 1, 0, 0, 0, 0, 0, 0, 0, 0, 0, 0, 0, 0, 0, 0, 0, 0, [], none, [], [], 0, [], 0, [], 0, 0, [], 0, 0, 0, [], false⟩

/-- The DDR5 tier as training left it (R147, R149): the channels kept, in rising order; the capacity C and the reserved
size res in bytes; the channels fenced since. -/
structure Ddr where
  kept : List Nat
  capacity : Nat
  res : Nat
  fenced : List Nat
  deriving DecidableEq, Repr

/-- What waits on a locked stripe of the stitched range (R158): a write, or a read that needs reconstruction. -/
inductive StripeReq where
  | write (source slice a : Nat) (data : List Byte)
  | read (source slice a len : Nat)
  deriving DecidableEq, Repr

/-- A DRAM row that has given corrections (R145): the scrub passes in which it did, and the times of the last hour. -/
structure RowErrs where
  passes : List Nat
  times : List Word
  deriving DecidableEq, Repr

/-- Patrol scrub (R169): the words of the HBM pass and the units of the DDR5 pass done, and the rows with corrections, keyed
stack × 2³² + row. -/
structure Scrub where
  hbm : Nat
  ddr : Nat
  rows : Tab RowErrs
  deriving DecidableEq, Repr

/-- A bound model last (R172, R173): its 128-byte record and its 32-byte layer entries. -/
structure LastRec where
  raw : List Byte
  layers : List (List Byte)
  deriving DecidableEq, Repr

/-- A KV arena (R174): its last, its region's size, the bytes of a frame. Arenas are keyed by their region's base. -/
structure Arena where
  last : Nat
  size : Nat
  frame : Nat
  deriving DecidableEq, Repr

/-- A KV frame that is not free (R175, R176): allocated to a sequence of a slice, or being zeroed, with its size in
bytes. Keyed by address. -/
structure Frame where
  seq : Nat
  slice : Nat
  zeroing : Bool
  bytes : Nat
  deriving DecidableEq, Repr

/-- Where a sequence stands (the table under R176). -/
inductive SeqState where
  | active
  | parked
  | lost
  | zeroing
  deriving DecidableEq, Repr

/-- A sequence (R175 to R179): its stack list, its tokens by layer, its pages keyed layer × 1024 + page: a frame's address, or
while parked an address in the cold tier. -/
structure Seqn where
  state : SeqState
  slice : Nat
  last : Nat
  seed : Nat
  stackIds : List Nat
  lens : Tab Nat
  pages : Tab Nat
  deriving DecidableEq, Repr

/-- A feed (R181 to R183): its buffers, output area, ring (address, entries, tail, phase), the buffer and ticket waiting behind
the running batch, and whether it is in error or to close when its batch ends. -/
structure FeedBind where
  slice : Nat
  port : Nat
  last : Nat
  capacity : Nat
  buf0 : Nat
  buf1 : Nat
  out : Nat
  ring : Nat
  entries : Nat
  tail : Nat
  phase : Nat
  waiting : Option (Nat × Nat)
  error : Bool
  closing : Option Nat
  deriving DecidableEq, Repr

/-- What the parts of a batch have formed for one entry (R189 to R192): per head the maximum score (FP32 code) and the sums L,
per V block or column the anchor value X or M, per output channel the sum N; per head whether it gives NaN; flags. -/
structure RowAcc where
  m : List Nat
  x : List Int
  l : List Int
  n : List Int
  nan : List Bool
  flags : Nat
  deriving DecidableEq, Repr

/-- An attend batch that hub intake has accepted (R185). desc: its descriptor; or feed, buffer and ticket. entries: sequence,
no_append. undo: sequence and length before the batch; frames: allocated for it. counts: tokens each entry attends over. parts:
stacks; those whose maxima and sums are in, and those run again after a fault. takers: for a sequence and a stack that stores pages of it,
the part that takes them, as formed at the start; homes: the home parts (R187). failed: the parts that failed, with their codes (R194). -/
structure Batch where
  desc : Option Nat
  feed : Option (Nat × Nat × Nat)
  slice : Nat
  last : Nat
  layer : Nat
  entries : List (Nat × Bool)
  q : Nat
  kv : Nat
  out : Nat
  started : Bool
  undo : List (Nat × Nat)
  frames : List Nat
  counts : List Nat
  parts : List Nat
  maxDone : List Nat
  merged : List Nat
  reruns : List Nat
  rows : List RowAcc
  takers : List (Nat × Nat × Nat)
  homes : List Nat
  failed : List (Nat × Nat)
  deriving DecidableEq, Repr

/-- The serving state. cold: the slots of the cold tier in use, by address, with their bytes (R179). -/
structure Serving where
  lasts : Tab LastRec
  arenas : Tab Arena
  frames : Tab Frame
  seqs : Tab Seqn
  feeds : Tab FeedBind
  batches : Tab Batch
  next : Nat
  cold : Tab Nat
  deriving DecidableEq, Repr

/-- Nothing bound and nothing open. -/
def Serving.idle : Serving := ⟨[], [], [], [], [], [], 0, []⟩

/-- An open job (R201, R202, R207): its slice, its 128-byte record, its arrival bitmap, job_error. -/
structure Job where
  slice : Nat
  raw : List Byte
  bits : Tab Unit
  error : Bool
  deriving DecidableEq, Repr

/-- A shard of a checkpoint (R223). -/
structure Shard where
  addr : Nat
  bytes : Nat
  kind : Nat
  poolOff : Nat
  elemBase : Nat
  deriving DecidableEq, Repr

/-- A write that waits for the copy of pages of the epoch (R225). -/
structure CowWrite where
  source : Nat
  slice : Nat
  addr : Nat
  data : List Byte
  deriving DecidableEq, Repr

/-- A snapshot epoch (R224 to R226), pages numbered in list order: pages copied; staged pages with their bytes; pages sent and
not yet hashed, with their bytes; the number sent; digests of the finished shards; pages copied before write; pages being
copied; writes that wait. -/
structure Snap where
  job : Nat
  slice : Nat
  shards : List Shard
  copied : Tab Unit
  staged : Tab (List Byte)
  sent : Tab (List Byte)
  sentCount : Nat
  cow : Nat
  copying : List Nat
  waiting : List CowWrite
  deriving DecidableEq, Repr

/-- A checkpoint of a job from its start to its outcome (R223 to R228): its descriptor, the job record as it was, N, its
manifest entries once it has sent its shards, its bytes, the pages it copied before write. -/
structure Ckpt where
  desc : Nat
  raw : List Byte
  gen : Nat
  entries : List (List Byte)
  bytes : Nat
  cow : Nat
  deriving DecidableEq, Repr

/-- What a committer holds (R227): the entries of the ranks heard; the failure code a rank sent before this device's own op 1 began;
whether the manifest's write waits for the pool's acknowledgement, and whether the compare-and-swap is issued. -/
structure Commit where
  got : Tab (List (List Byte))
  failed : Option Nat
  writing : Bool
  swapping : Bool
  deriving DecidableEq, Repr

/-- Training: open jobs; immediates handed over and local copies done that are still to be taken in (slice, immediate word,
R207); scatters' writes that are not acknowledged, by descriptor; checkpoints and commits by job slot. -/
structure Training where
  jobs : Tab Job
  handed : List (Nat × Nat)
  scatters : Tab Nat
  ckpts : Tab Ckpt
  commits : Tab Commit
  deriving DecidableEq, Repr

/-- Nothing heard. -/
def Commit.empty : Commit := ⟨[], none, false, false⟩

/-- No job. -/
def Training.idle : Training := ⟨[], [], [], [], []⟩

/-- A descriptor that a DMA channel has fetched and not completed (R238): its number in the channel, its ring index, its bytes, the
bytes written, the bytes whose reads are requested, data read that wait for earlier bytes by offset, whether all its writes are issued,
whether they are acknowledged, whether its leave-mode record is written (R242), and the code it ends with. -/
structure DmaWork where
  num : Nat
  index : Nat
  raw : List Byte
  done : Nat
  asked : Nat
  held : Tab (List Byte)
  issued : Bool
  acked : Bool
  left : Bool
  code : Nat
  deriving DecidableEq, Repr

/-- A descriptor as it is fetched; c: the code of the check it fails, or 0 (R239). -/
def DmaWork.fetched (num index : Nat) (raw : List Byte) (c : Nat) : DmaWork := ⟨num, index, raw, 0, 0, [], c != 0, false, false, c⟩

/-- The part of a function's configuration space and endpoint that no BAR0 register shows (R251, R256 to R265). -/
structure Ep where
  memSpace : Bool
  intDisable : Bool
  msixEnable : Bool
  funcMask : Bool
  pmeEn : Bool
  pmeStatus : Bool
  /-- Completion Timeout Value of Device Control 2 (R261). -/
  cplTimeout : Nat
  /-- Max_Payload_Size and Max_Read_Request_Size codes of Device Control (PCIe reset values 0 and 2). -/
  mps : Nat
  mrrs : Nat
  /-- AER uncorrectable status, its severity (1 fatal) and correctable status bits (PCIe bit numbers). -/
  aerUnc : Nat
  aerSev : Nat
  aerCor : Nat
  /-- BAR address registers 0, 2 and 4, and the Resizable BAR size code of BAR4 (64 GiB at reset). -/
  bar0 : Nat
  bar2 : Nat
  bar4 : Nat
  bar4Size : Nat
  /-- Link Control ASPM field. -/
  aspm : Nat
  /-- L1 PM Substates Control 1, the latencies of LTR, PASID Control (PCIe layout). -/
  l1ss : Nat
  ltr : Nat
  pasidCtl : Nat
  /-- LTR Mechanism Enable of Device Control 2. -/
  ltrOn : Bool
  /-- The idle state entered: 0 none, 1 L1, 2 L1.1, 3 L0p, 4 L2. -/
  linkPm : Nat
  /-- PERST# is asserted; Assert_INTA was sent last (R256); WAKE# is asserted. -/
  perst : Bool
  inta : Bool
  /-- INTX_PEND became nonzero in D3hot, so that Assert_INTA is still to be sent (R256, R257). -/
  intaOwed : Bool
  wakeAsserted : Bool
  /-- When HB_COUNT last changed (R270). -/
  lastBeat : Word
  /-- A host-loss drain runs, since when (R271). -/
  draining : Bool
  drainStart : Word
  deriving DecidableEq, Repr

/-- A function after reset (PCIe reset values). -/
def Ep.reset : Ep :=
  ⟨false, false, false, false, false, false, 0, 0, 2, 0, 0x462030, 0, 0, 0, 0, 16, 0, 0, 0, 0, false, 0, true, false, false, false, 0,
   false, 0⟩

/-- A read request that waits for its completions (R261): the DMA channel that made it, when its header was sent, the number of its
descriptor, the byte of it the read starts at, its length (0: the read that follows the last posted write, R242), the bytes
received. -/
structure TagUse where
  who : Nat
  sent : Word
  num : Nat
  off : Nat
  len : Nat
  got : Nat
  deriving DecidableEq, Repr

/-- A tag in quarantine (R264): since when, and the last completion discarded on it. -/
structure TagQuar where
  since : Word
  last : Word
  deriving DecidableEq, Repr

/-- The slot sideband of the downstream ports (R299): each port's SDataIn bits of the last frame and as accepted; the outputs driven:
power, attention and power indicators. errors: the AER Root Error Status of each port, bit by severity (R291). -/
structure Slots where
  last : Tab (BitVec 8)
  accepted : Tab (BitVec 8)
  driven : Tab (BitVec 8)
  errors : Tab Nat
  /-- AER of each port as a Root Port: uncorrectable and correctable status, PCIe bit numbers (R291). -/
  unc : Tab Nat
  cor : Tab Nat
  deriving DecidableEq, Repr

/-- A piece of an I/O command (R313): first LBA of the namespace, LBAs, byte offset in the buffer; the legs that have not
completed it; the leg of the first try of a read. -/
structure NvmePiece where
  lba : Nat
  count : Nat
  off : Nat
  legs : List Nat
  retriedFrom : Option Nat
  deriving DecidableEq, Repr

/-- An NVMe command the front end has fetched (R307, R314): queue pair, slice, the 64 bytes of its entry, namespace, its host
buffer as address and length pairs, pieces not complete, the first failure's status and do-not-retry bit. started: it was
performed, or waits for earlier writes (a flush) or for a reply. fate: 0 normal, 1 its queue was deleted, 2 its slice was
reset, 3 squashed. -/
structure NvmeCmd where
  queue : Nat
  slice : Nat
  raw : List Byte
  ns : Option Nat
  buf : List (Nat × Nat)
  pieces : List NvmePiece
  status : Nat
  dnr : Bool
  started : Bool
  fate : Nat
  deriving DecidableEq, Repr

/-- A command passed to a backend (R313, R319): the command it serves, none for the write of a leg's clean flag; piece, leg, backend, opcode,
LBA on the backend, LBAs. -/
structure BackCmd where
  cmd : Option Nat
  piece : Nat
  ns : Nat
  leg : Nat
  backend : Nat
  op : Nat
  lba : Nat
  count : Nat
  deriving DecidableEq, Repr

/-- A completion queue entry before its phase tag: dword 0, the submission queue head and identifier, the command identifier,
the status field, the do-not-retry bit. -/
structure NvmeCqe where
  dw0 : Nat
  sqHead : Nat
  sqId : Nat
  cid : Nat
  status : Nat
  dnr : Bool
  deriving DecidableEq, Repr

/-- The feature values and the asynchronous events of a slice's controller (R308): arbitration, event configuration, keep-alive
timer; the commands that wait for an event; events that wait for a command, as dword 0; namespaces changed since the log page
was read; the event types masked until their log page is read. -/
structure NvmeCtl where
  arbitration : Nat
  events : Nat
  keepAlive : Nat
  waiting : List Nat
  queued : List Nat
  changed : List Nat
  masked : List Nat
  deriving DecidableEq, Repr

/-- A controller as it is before a feature is set: every asynchronous event enabled (log entry 40, PRESUMED). -/
def NvmeCtl.fresh : NvmeCtl := ⟨0, 0x1FF, 0, [], [], [], []⟩

/-- The storage front end (R305 to R320): commands by acceptance number; backend commands by identifier; the next of both;
completion queue heads by queue pair; entries that wait for room; submission ring slots whose commands an Abort removed, keyed
queue × 2¹⁶ + index; queue pairs being deleted; forwarded commands by mediation tag, the next tag, held replies (tag, status,
dword 0); controllers by slice; mirrored namespaces whose clean flag is set; resynchronisations, the good leg and the next LBA;
backends whose clean flag was read clear; the queue pair of each slice that had the last turn (R307); backends whose LBAs are of
4 KiB (R312); namespaces written since their last flush (R317); queue pairs in error (R25); backends whose atomic boundaries do not
start at LBA 0, by that offset (R312); commands of a namespace that wait for its clean flag to be cleared (R317). -/
structure Storage where
  cmds : Tab NvmeCmd
  nextCmd : Nat
  backs : Tab BackCmd
  nextBack : Nat
  cqHead : Tab Nat
  waiting : Tab (List NvmeCqe)
  removed : Tab Unit
  deleting : Tab Unit
  med : Tab Nat
  nextTag : Nat
  held : List (Nat × Nat × Nat)
  ctl : Tab NvmeCtl
  clean : Tab Unit
  resync : Tab (Nat × Nat)
  unclean : Tab Unit
  turn : Tab Nat
  lba4k : Tab Unit
  unflushed : Tab Unit
  errored : Tab Unit
  nabo : Tab Nat
  flagging : Tab (List Nat)
  deriving DecidableEq, Repr

/-- No command. -/
def Storage.idle : Storage := ⟨[], 0, [], 0, [], [], [], [], [], 0, [], [], [], [], [], [], [], [], [], [], []⟩

/-- A loaded action program (R335): its code, its action-local memory image, whether the slot is enabled, the addresses it was loaded
from. -/
structure Prog where
  code : List Byte
  image : List Byte
  enabled : Bool
  codeAt : Word
  imageAt : Word
  deriving DecidableEq, Repr

/-- A packet (R328): its frame body, metadata, arrival number, parse pipeline, priority of a received frame, transmit descriptor
(ring and number) of a host frame, the program slot that ran in this pass. -/
structure Packet where
  body : List Byte
  fields : Tab Word
  order : Nat
  pipe : Nat
  prio : Nat
  tx : Option (Nat × Nat)
  prog : Nat
  deriving DecidableEq, Repr

/-- What a packet leaves the action stage with: a verdict word, or the slow path's reason and exception cause (R334, R335, R339). -/
inductive StageEnd where
  | verdict (v : Nat)
  | slow (reason cause : Nat)
  deriving DecidableEq, Repr

/-- A packet whose pass is done and that waits for earlier frames of its port to leave the action stage (R327), with what reads of host
receive descriptors bring. -/
structure Leaving where
  pipe : Nat
  packet : Packet
  fin : StageEnd
  descs : List Got
  deriving DecidableEq, Repr

/-- A frame of the transport or of Sceran as the traffic manager holds it (R355, R379). -/
inductive NetFrame where
  | request (conn path : Nat) (pkt : RocePkt)
  | answer (conn : Nat) (answer : RoceAnswer)
  | sceran (dest : ScDest) (id : Nat) (op : ScOp)
  | sceranRelease (dest : ScDest) (id : Nat)
  | sceranAnswer (node : Nat) (epoch : Word) (id status old : Nat) (data : List Byte)
  | sceranBusy (node : Nat) (epoch : Word) (id : Nat)
  deriving DecidableEq, Repr

/-- What a frame in a traffic manager queue holds: a frame body, or a typed frame of the transport with its emitted length. -/
inductive TmBody where
  | frame (body : List Byte)
  | net (frame : NetFrame) (len : Nat)
  deriving DecidableEq, Repr

/-- A frame in a traffic manager queue (R344): its body, whether it is stamped at egress, its transmit descriptor, the port and
priority of a received frame. -/
structure TmFrame where
  body : TmBody
  stamp : Bool
  tx : Option (Nat × Nat)
  src : Option (Nat × Nat)
  deriving DecidableEq, Repr

/-- A traffic manager queue: words 0 and 1 of its object, its frames, first in first out. -/
structure TmQueue where
  w0 : Word
  w1 : Word
  frames : List TmFrame
  deriving DecidableEq, Repr

/-- A queue that nothing has written. -/
def TmQueue.fresh : TmQueue := ⟨0, 0, []⟩

/-- A token bucket (R348, R350): burst in bytes, rate in Mb/s, tokens in bits, the write held until the next refill. -/
structure Shaper where
  burst : Nat
  rate : Nat
  tokens : Int
  held : Option (Nat × Nat)
  deriving DecidableEq, Repr

/-- A shaper that nothing has written. -/
def Shaper.fresh : Shaper := ⟨0, 0, 0, none⟩

/-- A policer (R349): its committed and peak buckets. -/
structure Policer where
  c : Shaper
  p : Shaper
  deriving DecidableEq, Repr

/-- A policer that nothing has written. -/
def Policer.fresh : Policer := ⟨Shaper.fresh, Shaper.fresh⟩

/-- A group object (R346, R351): words 0 and 1, the tokens of its minimum bucket, a burst held until the next refill. -/
structure TmGroup where
  w0 : Word
  w1 : Word
  tokens : Int
  held : Option Nat
  deriving DecidableEq, Repr

/-- A group that nothing has written. -/
def TmGroup.fresh : TmGroup := ⟨0, 0, 0, none⟩

/-- A deficit round robin (R347): the member in turn, the active members in order, the deficits. -/
structure Sched where
  cur : Option Nat
  active : List Nat
  deficit : Tab Int
  deriving DecidableEq, Repr

/-- No member. -/
def Sched.idle : Sched := ⟨none, [], []⟩

/-- An entry of a classification table (R331, R333). -/
structure TabEntry where
  key : List Byte
  mask : List Byte
  plen : Nat
  prio : Nat
  result : List Byte
  deriving DecidableEq, Repr

/-- A classification table: words 0 to 2 of its object, the default entry's result, its entries by index. -/
structure LookTable where
  w0 : Word
  w1 : Word
  w2 : Word
  dflt : List Byte
  entries : Tab TabEntry
  deriving DecidableEq, Repr

/-- A table that nothing has written. -/
def LookTable.fresh : LookTable := ⟨0, 0, 0, [], []⟩

/-- A transmit descriptor whose record is not written (R343): its number, its tag, whether its record asks nothing yet or is decided:
status, outcome, bytes, time. -/
structure TxJob where
  num : Nat
  tag : Nat
  done : Option (Nat × Nat × Nat × Word)
  deriving DecidableEq, Repr

/-- The PTP clock and servo (R325, R326): the last Sync's origin time and ingress stamp in units of 2⁻¹⁶ ns, a two-step Sync that
waits for its Follow_Up, the egress stamp of the Delay_Req, consecutive good offsets, the timebase at the last edge of the PPS land. -/
structure Ptp where
  t1 : Int
  t2 : Int
  twoStep : Bool
  ready : Bool
  t3 : Int
  asked : Bool
  good : Nat
  edge : Nat
  deriving DecidableEq, Repr

/-- A clock that has heard nothing. -/
def Ptp.idle : Ptp := ⟨0, 0, false, false, 0, false, 0, 0⟩

/-- The packet pipelines and the traffic manager: received, recirculated and host packets by pipeline, oldest first; packets in
the action stage by core; packets whose pass is done and that wait for earlier frames of their port; slots given and recirculated in the running sixteen, by pipeline; the next arrival number; transmit
descriptors by ring, and the next number; queues, shapers, policers, groups, tables; the deficit round robins of queues by
group, and of groups by port in the two tiers; exception frames of the running millisecond; frames held by received priority
that PFC was sent for; the servo; the tokens of each port's shaper in apprentice service, in bits. -/
structure Packets where
  rx : Tab (List Packet)
  again : Tab (List Packet)
  host : Tab (List Packet)
  stage : Tab Packet
  leaving : List Leaving
  slots : Tab (Nat × Nat)
  order : Nat
  txs : Tab (List TxJob)
  nextTx : Nat
  queues : Tab TmQueue
  shapers : Tab Shaper
  policers : Tab Policer
  groups : Tab TmGroup
  tables : Tab LookTable
  qs : Tab Sched
  minTier : Tab Sched
  allTier : Tab Sched
  excMs : Nat
  excCount : Nat
  ptp : Ptp
  portTokens : Tab Int
  deriving DecidableEq, Repr

/-- No packet. -/
def Packets.idle : Packets := ⟨[], [], [], [], [], [], 0, [], 0, [], [], [], [], [], [], [], [], 0, 0, Ptp.idle, []⟩

/-- Whose message a connection sends: a work request with its tag, a scatter (descriptor), the manifest of a job's checkpoint (job slot),
the storage front end (command). -/
inductive MsgOwner where
  | request (tag : Nat) (signalled : Bool)
  | scatter (d : Nat)
  | manifest (job : Nat)
  | storage (id : Nat)
  deriving DecidableEq, Repr

/-- A message issued on a connection and not complete (R361): opcode, bytes, its first and last PSN, where READ or atomic data
go, the packets of READ data placed, by their distance from the first. -/
structure Msg where
  owner : MsgOwner
  op : Nat
  length : Nat
  firstPsn : Nat
  lastPsn : Nat
  local_ : Nat
  space : Nat
  got : List Nat
  answered : Bool
  deriving DecidableEq, Repr

/-- A packet sent and not acknowledged (R367 to R372): its path, the times of its first and latest transmission, how often it
was sent, whether a bitmap reported it received. -/
structure TxPkt where
  pkt : RocePkt
  path : Nat
  first : Word
  sent : Word
  times : Nat
  reported : Bool
  deriving DecidableEq, Repr

/-- A receive request (R361). -/
structure RecvReq where
  tag : Nat
  length : Nat
  local_ : Nat
  space : Nat
  deriving DecidableEq, Repr

/-- A message being received (R371): its first PSN, its last once known, whether it is a WRITE, the bytes placed, its
immediate, the receive request it consumed, the address the next packet of a plain connection goes to. -/
structure RxMsg where
  firstPsn : Nat
  lastPsn : Option Nat
  isWrite : Bool
  bytes : Nat
  imm : Option Nat
  recv : Option RecvReq
  va : Nat
  rkey : Nat
  /-- Bytes of a SEND that arrived before its receive request was known, by message offset. -/
  held : List (Nat × List Byte)
  deriving DecidableEq, Repr

/-- A connection (R357 to R376): its context words 0 to 9 as CONN_DATA lays them out, its state and PSNs, ring indices, send
side, congestion window, receive side. -/
structure Conn where
  ctx : List Word
  state : Nat
  sendPsn : Nat
  expPsn : Nat
  sqHead : Nat
  sqTail : Nat
  rqHead : Nat
  rqTail : Nat
  msgs : List Msg
  txq : List RocePkt
  unacked : List TxPkt
  retries : Nat
  rnrs : Nat
  rnrWait : Bool
  w : Nat
  srtt : Nat
  lastCut : Nat
  ceSeen : Bool
  /-- A CE-marked packet arrived since the last ACK sent. -/
  ceEcho : Bool
  nextPath : Nat
  /-- Per path: timer expiries in succession; suspended paths, as a mask. -/
  expiries : Tab Nat
  suspended : Nat
  nakSent : Bool
  ahead : List Nat
  rx : List RxMsg
  recvs : List RecvReq
  atomics : List (Nat × Nat)
  sinceAck : Nat
  cnpAt : Option Word
  deriving DecidableEq, Repr

/-- What waits for the context of a spilled connection (R359). -/
inductive NetWait where
  | packet (p : RocePkt) (malformed : Bool) (host : Got)
  | bell (receive : Bool) (index : Nat)
  deriving DecidableEq, Repr

/-- A Sceran request sent and not answered (R381): when it was first sent, the retransmissions. -/
structure ScSent where
  dest : ScDest
  op : ScOp
  first : Word
  tries : Nat
  deriving DecidableEq, Repr

/-- An entry of the Sceran index (R382): the hash of the key, the record number, 1 executed, 2 released. -/
structure ScIndex where
  hash : Nat
  number : Nat
  state : Nat
  deriving DecidableEq, Repr

/-- The transport: connections that exist by number; resident contexts, latest used first; what waits for spilled ones; cached
memory region entries and the index being invalidated; Sceran: source epoch, next identifier, requests sent by identifier, the
index of the deduplication store. -/
structure Net where
  conns : Tab Conn
  resident : List Nat
  waits : Tab (List NetWait)
  mrs : Tab (List Byte)
  inval : Option Nat
  epoch : Word
  nextId : Nat
  sent : Tab ScSent
  index : Tab ScIndex
  deriving DecidableEq, Repr

/-- No connection and no message. -/
def Net.idle : Net := ⟨[], [], [], [], none, 0, 0, [], []⟩

/-- A key slot (R388, R390, R391): state 0 empty, 1 loaded, 2 exhausted; the attributes, salt, counter, limit; the key, and the
128 bytes of its wrapped entry in the key table. -/
structure KeySlot where
  state : Nat
  kind : Nat
  owner : Nat
  inverse : Bool
  enc : Bool
  dec : Bool
  nonceHw : Bool
  salt : Nat
  counter : Word
  limit : Word
  key : List Byte
  wrapped : List Byte
  deriving DecidableEq, Repr

/-- An empty slot. -/
def KeySlot.empty : KeySlot := ⟨0, 0, 0, false, false, false, false, 0, 0, 0, [], []⟩

/-- A job that has started and waits for a key (R388, R395): its descriptor, the counter it drew. -/
structure CipherJob where
  raw : List Byte
  drawn : Option Nat
  deriving DecidableEq, Repr

/-- Keys and block units. cache: for each pipeline the unwrapped slots with what the unwrap came to, newest first (R388);
wanted: pipeline × 2¹⁶ + slot of misses that wait. hits: for each block unit the times of its mismatches (R385). jobs: the job
of each cipher queue that has started. requests: DRBG requests since the reseed at a time; the key of the mask generator (R387);
failures of the repeated start-up test in a row. -/
structure Cipher where
  slots : Tab KeySlot
  cache : Tab (List (Nat × Nat))
  wanted : Tab Unit
  hits : Tab (List Word)
  fenced : List Nat
  jobs : Tab CipherJob
  requests : Nat
  reseeded : Word
  maskKey : Word
  rngFails : Nat
  deriving DecidableEq, Repr

/-- No key loaded. -/
def Cipher.idle : Cipher := ⟨[], [], [], [], [], [], 0, 0, 0, 0⟩

/-- A request on the power link that waits for its answer (R403, R404): the state command it serves (1 to A0, 2 to A1; 0 a
rail or meter request of the loops), and whether it was resent. -/
structure PlinkReq where
  op : Nat
  resent : Bool
  deriving DecidableEq, Repr

/-- What the AON SRAM holds across S1 and S2 (R411): registers, region entries, slice fields in force, the last daybook
entries with their numbers. -/
structure AonSave where
  deep : Bool
  regs : Tab Word
  regions : Tab Region
  force : Tab SliceForce
  entries : List DbEntry
  deriving DecidableEq, Repr

/-- Power, thermal and droop state that no register shows. -/
structure Power where
  /-- The device is in OFF. -/
  off : Bool
  /-- The thermal rate and its last raise (R419). -/
  therm : Nat
  thermRaise : Word
  /-- The DRAM thermal rates, by stack, 64 where not listed, and their last raises. -/
  dram : Tab Nat
  dramRaise : Tab Word
  /-- Samples in succession with cap_rate 1 above the cap; what the loop has taken off the rate of quiet partitions (R415). -/
  capOver : Nat
  quietCut : Nat
  request : Option PlinkReq
  /-- Op 2 waits for the benches to be idle (R408). -/
  stopping : Bool
  /-- Benches powered down by gate_idle, keyed stack × 7 + bench (R416). -/
  gated : Tab Unit
  saved : Option AonSave
  /-- The power die guards the input on its own (R405). -/
  fallback : Bool
  /-- Domains whose state differs from A0's, by number in the order of the table under R402: 1 retention, 2 off (R406). -/
  rails : Tab Nat
  /-- The emergencies cleared last, for R440: the time the last one ended. -/
  lastEmergency : Word
  /-- Updates of the energy meter: the sample count of READ_EIN (R482). -/
  samples : Nat
  deriving DecidableEq, Repr

/-- Power state at reset. -/
def Power.reset : Power := ⟨false, 64, 0, [], [], 0, 0, none, false, [], none, false, [], 0, 0⟩

/-- The boot header of the flash (R422): active slots, and the slots marked for trial at the next start (R436, R438, R440). -/
structure BootHeader where
  fwActive : Nat
  imgActive : Nat
  fwTrial : Option Nat
  imgTrial : Option Nat
  deriving DecidableEq, Repr

/-- The attached flash (R421 to R423): bytes by address (an address not listed is erased, 0xFF), boot header, RPMC counters 0 to
3, and its size. -/
structure Flash where
  bytes : Tab Byte
  header : BootHeader
  counters : List Nat
  size : Nat
  /-- The write-once RPMC root register holds the device's key (R423). -/
  rooted : Bool
  deriving DecidableEq, Repr

/-- A flash with nothing written: erased, slots 0 active, counters 0, 128 MiB, no RPMC root key. -/
def Flash.blank : Flash := ⟨[], ⟨0, 0, none, none⟩, [0, 0, 0, 0], 0x8000000, false⟩

/-- What staging keeps of a bundle (R438): slot, security version, host_if_rev, SHA-384 of the container. -/
structure StagedFw where
  slot : Nat
  version : Nat
  hostIf : Nat
  digest : List Byte
  deriving DecidableEq, Repr

/-- An activation in progress (R439): the cores still to switch, the first one switching now unless held; those switched, latest
first; whether an emergency holds the next step (R440); whether a mailbox command waits for it. -/
structure Activation where
  queue : List Nat
  switched : List Nat
  held : Bool
  waits : Bool
  deriving DecidableEq, Repr

/-- Boot and firmware state (R421 to R444). -/
structure Boot where
  flash : Flash
  /-- Memory training has been done since the start (R434). -/
  trained : Bool
  /-- The slots the running start took, and whether each was marked for trial. -/
  fwSlot : Nat
  imgSlot : Nat
  fwTrying : Bool
  imgTrying : Bool
  /-- A trial failed, so this start uses the previous slots (R436). -/
  fwFell : Bool
  imgFell : Bool
  /-- The running bundle and the applied image: SHA-384 of the container; the image's security version (R441, R442). -/
  fwDigest : List Byte
  imgDigest : List Byte
  imgVersion : Nat
  /-- The calibration record's signature verified (R443). -/
  calibrated : Bool
  staged : Option StagedFw
  act : Option Activation
  /-- The last watchdog expiry of each core (R437). -/
  expiries : Tab Word
  /-- The cores that are restarting or halted. -/
  down : Tab Unit
  /-- The transports on which SHA-384 and brainpool P-384 are agreed (R442). -/
  spdm : Tab Unit
  deriving DecidableEq, Repr

/-- Boot state at power-on. -/
def Boot.reset : Boot := ⟨Flash.blank, false, 0, 0, false, false, false, false, [], [], 0, false, none, none, [], [], []⟩

/-- An acknowledgement that waits for the standby (R450): a transport answer, a Sceran response, an NVMe completion queue entry. -/
inductive HeldAck where
  | answer (conn queue : Nat) (a : RoceAnswer)
  | sceran (node : Nat) (epoch : Word) (id status old : Nat) (data : List Byte)
  | cqe (queue : Nat) (e : NvmeCqe)
  deriving DecidableEq, Repr

/-- The pair (R445 to R458): whether the welt and the heartbeat input are live; whether a probe is out; acknowledgements held, oldest
first, with the time each was held; the bulk backlog in order of first write, as first page and count; bulk suspended; the
standby's answers to come (the model's own field, R449); failed welt lanes as a mask; the NVMe commands accepted and not completed
that mirror state tells of, keyed queue × 2¹⁶ + cid (R454). -/
structure Pair where
  weltLive : Bool
  pinLive : Bool
  probing : Bool
  held : List (Word × HeldAck)
  bulk : List (Nat × Nat)
  bulkStopped : Bool
  verdicts : List Nat
  badLanes : Nat
  untrained : Nat
  owed : Tab Unit
  deriving DecidableEq, Repr

/-- No pair. -/
def Pair.single : Pair := ⟨false, false, false, [], [], false, [], 0, 0, []⟩

/-- In-service test (R463): the bench tested last, by stack (6 where not listed, so that bench 0 is next); benches to which dispatch
has stopped for a due test, keyed stack × 7 + bench (R109). -/
structure Isst where
  last : Tab Nat
  draining : Tab Unit
  deriving DecidableEq, Repr

/-- The pins the spec gives the device (chapter on package and lands). -/
structure Pins where
  pwrEn : Bool
  pwrGood : Bool
  devResetN : Bool
  /-- DEV_RESET_N has been low since power-good, so that its rise starts the first boot (R494). -/
  firstStart : Bool
  thermtripN : Bool
  /-- DPERST of ports 0 to 15: a 1 is asserted. -/
  portPerst : Nat
  /-- The PAIR_HB_OUT land is driven as a heartbeat, and its level. -/
  heartbeat : Bool
  hbOut : Bool
  smbAlertN : Bool
  testMode : Bool
  straps : Nat
  /-- The instruction the test access port holds. -/
  tap : Nat
  deriving DecidableEq, Repr

/-- The pins at reset: the device powered off, downstream PERST# asserted, nothing driven. -/
def Pins.reset : Pins := ⟨false, false, true, false, true, 0xFFFF, false, false, true, false, 0, 0⟩

/-- What leaves the device: requests, messages, frames and answers, newest first in State.out (the model's own field). -/
inductive Out where
  /-- The answer to an inbound read or AtomicOp: successful, with data. -/
  | tlpData (fn : Nat) (data : List Byte)
  /-- The answer to an inbound non-posted request: Unsupported Request. -/
  | tlpUr (fn : Nat)
  /-- The answer to an inbound non-posted request: Completer Abort. -/
  | tlpCa (fn : Nat)
  /-- The answer to a configuration request: Request Retry Status. -/
  | tlpRrs (fn : Nat)
  /-- A memory write to a host. -/
  | hostWrite (fn : Nat) (pasid : Option Nat) (addr : Nat) (data : List Byte)
  /-- A memory write below a downstream port. -/
  | portWrite (port addr : Nat) (data : List Byte)
  /-- An MSI-X message (R255). -/
  | msix (fn : Nat) (pasid : Option Nat) (vector : Nat)
  /-- Assert_INTA (true) or Deassert_INTA (R256). -/
  | inta (on : Bool)
  /-- An error message logged in AER of a function. -/
  | aer (fn : Nat) (error : Nat)
  /-- A PM_PME message. -/
  | pme (fn : Nat)
  /-- WAKE# of a function. -/
  | wakePin (fn : Nat) (asserted : Bool)
  /-- A flit is asked for again on a die-to-die link (R5). -/
  | linkReplay (k : Nat)
  /-- The answer to a register read. -/
  | regData (value : Word)
  /-- A grant of a target port: class, initiator, beats (R16). -/
  | grant (port cls initiator beats : Nat)
  /-- A store of a firmware core, to memory the spec does not lay out. -/
  | coreStore (core addr : Nat) (data : List Byte)
  /-- What a read of the stitched range brings, or its failure code. -/
  | stitchData (got : Got)
  /-- What a write to the stitched range comes to: 0 or its failure code. -/
  | stitchDone (code : Nat)
  /-- A DRAM die at 95 °C or above is reported to the power core (R144). -/
  | dramHot (stack temp : Nat)
  /-- The answer to PME_Turn_Off: PME_TO_Ack (R258). -/
  | pmeToAck (fn : Nat)
  /-- A memory read request to a host, of so many bytes (R254, R261). -/
  | hostRead (fn : Nat) (pasid : Option Nat) (addr len : Nat)
  /-- A memory read request below a downstream port. -/
  | portRead (port addr len : Nat)
  /-- The answer to a non-posted request below a downstream port: Unsupported Request. -/
  | portUr (port : Nat)
  /-- The answer to a read or AtomicOp below a downstream port: successful, with data. -/
  | portData (port : Nat) (data : List Byte)
  /-- The answer to a non-posted request below a downstream port: Completer Abort. -/
  | portCa (port : Nat)
  /-- A configuration request below a port: function, register offset, and the data of a write (R292). -/
  | portConfig (port fn reg : Nat) (data : Option Nat)
  /-- A command is passed to a backend with an identifier: NVMe opcode, LBA on the backend, LBAs, and its
flags: bits 30 (FUA) and 25 (Deallocate) of dword 12, of Dataset Management its attributes, dword 11 (R311, R313). -/
  | backend (id b op lba n flags : Nat)
  /-- The PRP list of a command to a local drive: addresses in the proxy range of its port (R315). -/
  | backendPrp (id : Nat) (entries : List Nat)
  /-- Bytes of a slice's memory go to an NVMe-oF target for a command (R315). -/
  | backendData (id : Nat) (data : List Byte)
  /-- The front end initialises a drive's controller through its BAR0 at a bus address below a port (R312). -/
  | driveInit (b port base : Nat)
  /-- A backend command is aborted on its drive (R319). -/
  | backendAbort (id : Nat)
  /-- The clean flag in a leg's metadata area is written (R317). -/
  | cleanFlag (ns leg : Nat) (clean : Bool)
  /-- A frame leaves a network port, from destination address through FCS, with its egress stamp if it is stamped (R324, R337,
  R346). -/
  | netFrame (port : Nat) (frame : List Byte) (stamp : Option Word)
  /-- A frame is handed to the transport (R354), with the outer L3 offset. -/
  | toTransport (body : List Byte) (l3 : Nat)
  /-- PFC is sent on a port for a priority, on or released (R351). -/
  | pfc (port prio : Nat) (on : Bool)
  /-- A Delay_Req leaves the PTP port, in its domain, by its transport: 0 Ethernet, 1 UDP over IPv4, 2 UDP over IPv6 (R325). -/
  | delayReq (port domain transport : Nat)
  /-- The PPS land pulses (R326). -/
  | ppsPulse
  /-- A request packet leaves through a traffic manager queue on a path (R355, R370). -/
  | roce (conn queue path : Nat) (pkt : RocePkt)
  /-- An answer of a responder leaves through the ack_queue (R355). -/
  | roceAnswer (conn queue : Nat) (answer : RoceAnswer)
  /-- A Sceran request leaves, with its identifier (R379, R381). -/
  | sceran (dest : ScDest) (id : Nat) (op : ScOp)
  /-- A Sceran release leaves (R381). -/
  | sceranRelease (dest : ScDest) (id : Nat)
  /-- A Sceran response: node, epoch, identifier, status, outcome, data (R382). -/
  | sceranAnswer (node : Nat) (epoch : Word) (id status old : Nat) (data : List Byte)
  /-- A Sceran request is answered with busy (R382). -/
  | sceranBusy (node : Nat) (epoch : Word) (id : Nat)
  /-- A Sceran message of slice 0 is delivered. -/
  | sceranMessage (node : Nat) (op : ScOp)
  /-- A write to the memory pool over a connection (R224, R227). -/
  | poolWrite (conn addr : Nat) (data : List Byte)
  /-- An SPDM answer: the digest of certificate slot 0's chain, or a part of the chain. -/
  | spdmVersion (transport : Nat)
  | spdmCapabilities (transport : Nat)
  | spdmAlgorithms (transport : Nat) (sha384 brainpool : Bool)
  | spdmDigests (transport : Nat)
  | spdmCertificate (transport slot offset length : Nat)
  | spdmChallengeAuth (transport slot : Nat)
  /-- The measurements by index, signed by the identity key or not. -/
  | spdmMeasurements (transport : Nat) (blocks : List (Nat × List Byte)) (signed : Bool)
  | spdmChunk (transport handle chunk : Nat)
  /-- An SPDM ERROR: code 0x03 Busy, 0x07 UnsupportedRequest, 0x01 InvalidRequest. -/
  | spdmError (transport code : Nat)
  /-- A heartbeat on the welt with the timebase value (R452). -/
  | weltHeartbeat (time : Word)
  /-- The level of the heartbeat output land (R452, R457). -/
  | pairPin (level : Bool)
  /-- A Sceran probe to the partner's node (R452). -/
  | pairProbe (node : Nat)
  /-- An update for the standby (R449, R450). -/
  | mirror (u : MirrorUpd)
  /-- The standby's answer to an update (R449, R450). -/
  | mirrorAck (status : Nat)
  /-- A bulk page for the standby: its 4 KiB page number (R451). -/
  | mirrorBulk (page : Nat) (data : List Byte)
  /-- The active hands over (R456). -/
  | pairHandover
  /-- The pair is left (R457). -/
  | pairLeave
  /-- A PLDM answer: completion code and data. -/
  | pldm (code : Nat) (data : List Nat)
  /-- A PMBus read answer. -/
  | pmbus (data : List Byte)
  /-- A PMBus command is not acknowledged. -/
  | pmbusNack
  /-- What the test access port's data register holds after an instruction: IDCODE or the bypass bit (R499). -/
  | tapIdcode (value : Nat)
  deriving DecidableEq, Repr

/-- Why the machine would stop. R25 gives every violation a defined answer, so no meaning raises one. -/
inductive Fault where
  /-- No command raises it; it is here so that the type is not empty. Safe: the machine stops. -/
  | none
  deriving DecidableEq, Repr

/-- Why a command has no meaning. -/
inductive Refusal where
  /-- Raised by exec's arm for a command that has no meaning yet. Safe: the machine stops. -/
  | notModelled (mnemonic : String)
  deriving DecidableEq, Repr

/-- The whole state of the device. -/
structure State where
  /-- The commands that wait, first in first out (the block's queue). -/
  pending : List Instr
  /-- The BAR0 registers by address; an address not listed holds its reset value. -/
  regs : Tab Word
  /-- The timebase and its sources (R11 to R14). -/
  clock : Clock
  /-- The die-to-die links; not listed: up, with no failure (R5). -/
  links : Tab Link
  /-- The target ports of the hub fabric; not listed: idle (R16). -/
  fabric : Tab FabricPort
  /-- The running slot of the quiet-partition schedule (R22). -/
  quietSlot : Nat
  /-- Device memory by device physical address; an address not listed reads 0 (R150, R168). -/
  mem : List Host.Cell
  /-- The uncorrectable words of memory (R164, R165). -/
  bad : Tab Unit
  /-- The region entries that are not free (R151). -/
  regions : Tab Region
  /-- The slice fields in force (R276). -/
  force : Tab SliceForce
  /-- Logged host writes whose bits are still to be written, oldest first (R284). -/
  dirty : List DirtyPage
  /-- The records that wait for room in a full completion ring, oldest first (R282). -/
  ringWait : Tab (List Rec)
  /-- The daybook (R472). -/
  daybook : Daybook
  /-- The tally counters, keyed as TALLY_SEL names them (R479). -/
  tally : Tab Word
  /-- What left the device, newest first (the model's own field). -/
  out : List Out
  /-- The applied configuration image (R427). -/
  image : Option Image
  /-- Benches, work descriptors and kernels. -/
  bench : Benches
  /-- The Zenza cores; not listed: Core.clear. -/
  cores : Tab Core
  /-- The counter of free values drawn (the model's own field; log entry 2, DESIGN CHOICE). -/
  free : Nat
  /-- The bytes that firmware cores stored, keyed core × 2⁶⁴ + address (R122). -/
  stored : Tab Byte
  /-- The locked stripes of the stitched range and what waits on each (R158). -/
  stripes : Tab (List StripeReq)
  /-- Patrol scrub (R169). -/
  scrub : Scrub
  /-- The DDR5 tier as training left it (R147 to R149). -/
  ddr : Ddr
  /-- The 64-byte units of device memory, by address / 64, whose data reach their next reader with a byte-parity error, or from an uncorrectable word of a buffer (R164). -/
  flawed : Tab Unit
  /-- Lasts, arenas, KV frames, sequences, feeds and attend batches. -/
  serve : Serving
  /-- Training jobs and checkpoints. -/
  train : Training
  /-- The snapshot epoch (R224). -/
  snap : Option Snap
  /-- The descriptors in flight of the DMA channels, oldest first (R240). -/
  dma : Tab (List DmaWork)
  /-- By engine × 4 + fabric class: the channel served and the bytes of its 4 KiB unit moved (R240). -/
  dmaTurn : Tab (Nat × Nat)
  /-- The functions' configuration state; not listed: Ep.reset. -/
  ep : Tab Ep
  /-- The outstanding non-posted requests, keyed function × 2¹⁴ + tag (R261). -/
  tags : Tab TagUse
  /-- The quarantined tags, keyed the same way (R264). -/
  quarantine : Tab TagQuar
  /-- The slice command in progress: op and slice (R275). -/
  sliceCmd : Option (Nat × Nat)
  /-- The slot sideband of the downstream ports (R299). -/
  slots : Slots
  /-- The storage front end. -/
  store : Storage
  /-- The action programs by slot (R335). -/
  progs : Tab Prog
  /-- The packet pipelines, the traffic manager and the servo. -/
  pkt : Packets
  /-- The remote memory transport and Sceran. -/
  net : Net
  /-- Key slots, key caches and block units. -/
  cipher : Cipher
  /-- Power, thermal and droop state. -/
  power : Power
  /-- Boot, firmware, flash and ownership. -/
  boot : Boot
  /-- The mirrored pair. -/
  pair : Pair
  /-- In-service test. -/
  isst : Isst
  /-- The pins. -/
  pins : Pins
  deriving DecidableEq, Repr

/-- The device right after reset: every register at its reset value, everything else empty or idle
(log entries 4 and 161, DESIGN CHOICE). -/
def State.reset : State where
  pending := []
  regs := []
  clock := ⟨0, 0, 0, 0, true, true, false, 0⟩
  links := []
  fabric := []
  quietSlot := 0
  mem := []
  bad := []
  regions := []
  force := []
  dirty := []
  ringWait := []
  daybook := ⟨[], [], []⟩
  tally := []
  out := []
  image := none
  bench := Benches.idle
  cores := []
  free := 0
  stored := []
  stripes := []
  scrub := ⟨0, 0, []⟩
  ddr := ⟨[], 0, 0, []⟩
  flawed := []
  serve := Serving.idle
  train := Training.idle
  snap := none
  dma := []
  dmaTurn := []
  ep := []
  tags := []
  quarantine := []
  sliceCmd := none
  slots := ⟨[], [], [], [], [], []⟩
  store := Storage.idle
  progs := []
  pkt := Packets.idle
  net := Net.idle
  cipher := Cipher.idle
  power := Power.reset
  boot := Boot.reset
  pair := Pair.single
  isst := ⟨[], []⟩
  pins := Pins.reset

end Sys2Proof.Machine
end

