-- ==== Sys2Proof/Machine/Ops.lean ====
section
/-! DEFINITION. The named operations that the meanings share: bit fields and bytes, registers, tally and daybook,
messages, device memory, completion records, repair maps. -/

namespace Sys2Proof.Machine

/-! ## Bits and bytes -/

/-- The number of bits of a field. -/
def Fld.width (f : Fld) : Nat := f.1 + 1 - f.2

/-- The mask of a field in a 64-bit word. -/
def fldMask (f : Fld) : Word := BitVec.ofNat 64 (2 ^ Fld.width f - 1) <<< f.2

/-- The value of a field of a word. -/
def getBits (w : Word) (f : Fld) : Nat := (w >>> f.2).toNat % 2 ^ Fld.width f

/-- The word with a field set to a value (modulo the field's width). -/
def setBits (w : Word) (f : Fld) (v : Nat) : Word :=
  (w &&& ~~~ fldMask f) ||| (BitVec.ofNat 64 (v % 2 ^ Fld.width f) <<< f.2)

/-- Bits hi to lo of a natural. -/
def natBits (n hi lo : Nat) : Nat := n / 2 ^ lo % 2 ^ (hi + 1 - lo)

/-- Bit i of a natural. -/
def natBit (n i : Nat) : Bool := n / 2 ^ i % 2 == 1

/-- A Boolean as one bit. -/
def bit (b : Bool) : Nat := if b then 1 else 0

/-- The two's-complement value of the low n bits of v. -/
def signed (n v : Nat) : Int :=
  let u := v % 2 ^ n
  if 2 * u < 2 ^ n then (u : Int) else (u : Int) - (2 ^ n : Nat)

/-- The low n bits of an integer's two's-complement form. -/
def wrap (n : Nat) (i : Int) : Nat := (i % ((2 ^ n : Nat) : Int)).toNat

/-- The n low bytes of v, least significant first (all multi-byte fields are little-endian). -/
def bytesLE : Nat → Nat → List Byte
  | 0, _ => []
  | n + 1, v => BitVec.ofNat 8 v :: bytesLE n (v / 256)

/-- The natural a little-endian byte list spells. -/
def leNat : List Byte → Nat
  | [] => 0
  | b :: l => b.toNat + 256 * leNat l

/-- The n low bytes of v, most significant first. -/
def bytesBE (n v : Nat) : List Byte := (bytesLE n v).reverse

/-- The natural a big-endian byte list spells. -/
def beNat (l : List Byte) : Nat := leNat l.reverse

/-- The field of width bytes at a byte offset of a little-endian record. -/
def fieldLE (l : List Byte) (off width : Nat) : Nat := leNat ((l.drop off).take width)

/-- n zero bytes. -/
def zeros (n : Nat) : List Byte := List.replicate n 0

/-- The list cut or padded with zeros to n bytes. -/
def padTo (n : Nat) (l : List Byte) : List Byte := l.take n ++ zeros (n - l.length)

/-- The list cut into pieces of n elements; fuel bounds the number of pieces. -/
def chunks {α : Type} (n : Nat) : Nat → List α → List (List α)
  | 0, _ => []
  | fuel + 1, l => if l.isEmpty then [] else l.take n :: chunks n fuel (l.drop n)

/-- Elementwise exclusive or. -/
def xorBytes (a b : List Byte) : List Byte := (a.zip b).map fun p => p.1 ^^^ p.2

/-! ## Registers -/

/-- The register tables that may hold BAR0 address a (the manager BAR0 map). -/
def tablesAt (a : Nat) : List RegDesc :=
  if a < 0x10000 then regTable01
  else if a < 0x20000 then regTable01 ++ regTable17 ++ regTable19
  else if a < 0x40000 then regTable16
  else if a < 0x80000 then regTable20
  else if a < 0x100000 then regTable17
  else if a < 0x200000 then regTable09
  else if a < 0x400000 then regTable08
  else if a < 0x600000 then regTable11 ++ regTable01
  else if a < 0x800000 then regTable13
  else if a < 0xA00000 then regTable14
  else if a < 0xC00000 then regTable12
  else if a < 0xE00000 then regTable15
  else if a < 0x1000000 then regTable18
  else if a < 0x2000000 then regTable03 ++ regTable19 ++ regTable01
  else if a < 0x3000000 then regTable05 ++ regTable07
  else regTable10

/-- Offset off is one of a register's index positions. -/
def dimsHit : List (Nat × Nat) → Nat → Bool
  | [], off => off == 0
  | (count, stride) :: ds, off => decide (off / stride < count) && dimsHit ds (off % stride)

/-- The register described by d stands at address a. -/
def RegDesc.covers (d : RegDesc) (a : Nat) : Bool := decide (d.base ≤ a) && dimsHit d.dims (a - d.base)

/-- The description of the register at an 8-byte aligned address of BAR0, if one is assigned. -/
def regAt (a : Nat) : Option RegDesc := (tablesAt a).find? fun d => d.covers a

/-- The reset value of a register (log entry 4, DESIGN CHOICE). -/
def RegDesc.resetWord (d : RegDesc) : Word :=
  d.fields.foldl (fun w f => setBits w (f.hi, f.lo) f.reset) 0

/-- Items numbered 0, 1, … of equal unit 0 (events), one for each number of instances. -/
def eventItems (l : List Nat) : List (Nat × Nat) := l.map fun n => (0, n)

/-- The tally items of a block: unit (0 events, 1 bytes, 2 µs, 3 pages) and number of instances, in the order of its chapter's
closing count list, then the items that other rules count (R479; log entry 6, DESIGN CHOICE). -/
def tallyItems : Nat → List (Nat × Nat)
  | 0x01 => eventItems [10, 1, 1, 1, 1, 23, 15, 15]
  | 0x02 => eventItems [4, 6, 1, 12, 1, 1, 7]
  | 0x04 => eventItems [2, 2, 2, 2, 2, 2, 2, 2, 2]
  | 0x05 => eventItems [256, 256, 256, 256] ++ [(3, 256)] ++ eventItems [256, 256, 256, 256, 256, 256, 256, 256, 256, 256, 256, 256, 256, 256]
  | 0x06 => [(0, 16), (1, 16)] ++ eventItems [16, 16, 16]
  | 0x07 => eventItems [16, 16, 16, 16, 16, 16, 16]
  | 0x08 => [(0, 256), (1, 1)] ++ eventItems [1, 1, 1, 1, 1, 1, 1]
  | 0x09 => [(0, 8), (1, 8), (0, 65535), (1, 65535), (0, 256), (1, 256)] ++ eventItems [4, 4, 4, 4, 3]
  | 0x0A => [(0, 2), (1, 2)] ++ eventItems [8, 8, 5, 8, 8, 8, 8, 8, 8, 8, 8, 8, 8]
  | 0x0B => eventItems [2, 5, 5, 5, 5, 16, 5, 5] ++ [(1, 5), (0, 5)]
  | 0x0C => eventItems [1, 1, 1, 1, 1, 1] ++ [(1, 1)]
  | 0x0D => eventItems [256, 256, 256, 256, 256, 256, 12]
  | 0x0E => eventItems [12, 12, 12, 12, 12, 12]
  | 0x10 => eventItems [16, 16, 16, 16, 16]
  | 0x11 => eventItems [12, 12, 12, 12, 12, 6, 6, 12]
  | _ => []

/-- TALLY_DIR of item i of block b: unit and instances, 0 for no item; item 63 counts partner violations in every block whose
partners R25 names, item 62 the bytes of completed descriptors where the closing list has no item for them (R32)
(log entry 6, DESIGN CHOICE). -/
def tallyDirWord (b i : Nat) : Word :=
  let e :=
    if i = 63 then (0, if [0x04, 0x05, 0x07, 0x08, 0x09, 0x0A, 0x0C, 0x0E].contains b then 256 else 0)
    else if i = 62 then (1, if [0x0E, 0x0F, 0x10].contains b then 1 else 0)
    else (tallyItems b).getD i (0, 0)
  setBits (setBits 0 F.tallyDir_unit e.1) F.tallyDir_instances e.2

/-- The reset value of the register at address a; 0 where none is assigned (R1). TALLY_DIR reads per item (R479). -/
def resetOf (a : Nat) : Word :=
  if 0x41000 ≤ a ∧ a < 0x43600 ∧ a % 8 = 0 then tallyDirWord ((a - 0x41000) / 0x200) ((a - 0x41000) % 0x200 / 8)
  else
    match regAt a with
    | some d => d.resetWord
    | none => 0

/-- The value a register holds. -/
def State.reg (s : State) (a : Nat) : Word := (Tab.find? s.regs a).getD (resetOf a)

/-- Set a register; a register at its reset value is not listed. -/
def State.setReg (s : State) (a : Nat) (v : Word) : State :=
  { s with regs := Tab.put (resetOf a) s.regs a v }

/-- A bench-rail offset of OP_POINT clamped to −20 to +20 mV (R416). -/
def clampOffset (v : Nat) : Nat := wrap 8 (max (-20) (min 20 (signed 8 v)))

/-- What a register reads as after a value is put into it: OP_POINT's offset is clamped, kv_frames 0x7F_FFFF reads as 4,194,304
(log entry 162, DESIGN CHOICE). -/
def readsAs (a : Nat) (v : Word) : Word :=
  if 0x20210 ≤ a ∧ a < 0x20238 then setBits v F.opPoint_vbench_off (clampOffset (getBits v F.opPoint_vbench_off))
  else if 0x3010028 ≤ a ∧ a < 0x3020000 ∧ a % 0x100 = 0x28 ∧ getBits v F.sliceQuotaServe_kv_frames = 0x7FFFFF then
    setBits v F.sliceQuotaServe_kv_frames 4194304
  else v

/-- The value of a field of a register. -/
def State.getF (s : State) (a : Nat) (f : Fld) : Nat := getBits (s.reg a) f

/-- Set a field of a register. -/
def State.setF (s : State) (a : Nat) (f : Fld) (v : Nat) : State := s.setReg a (setBits (s.reg a) f v)

/-- Set bit i of a register. -/
def State.setBit (s : State) (a i : Nat) : State := s.setF a (i, i) 1

/-- Clear bit i of a register. -/
def State.clrBit (s : State) (a i : Nat) : State := s.setF a (i, i) 0

/-- Put an output in the log (log entry 3, DESIGN CHOICE). -/
def State.emit (s : State) (o : Out) : State := { s with out := o :: s.out }

/-- The present time (R12). -/
def State.now (s : State) : Word := s.clock.ticks

/-- Ticks of the timebase in a number of microseconds (0.625 ns each). -/
def usTicks (us : Nat) : Nat := 1600 * us

/-- Ticks since time t, modulo 2⁶⁴. -/
def State.since (s : State) (t : Word) : Nat := (s.clock.ticks - t).toNat

/-! ## Tally and daybook -/

/-- The key of a tally counter, as TALLY_SEL spells it (R480) (log entry 6, DESIGN CHOICE). -/
def tallyKey (block item inst : Nat) : Nat := block * 2 ^ 24 + item * 2 ^ 16 + inst

/-- Add n to a tally counter, modulo 2⁶⁴ (R479). -/
def State.count (s : State) (block item inst n : Nat) : State :=
  { s with tally := Tab.update 0 s.tally (tallyKey block item inst) (fun v => v + BitVec.ofNat 64 n) }

/-- What is to be recorded in the daybook (R474, R475). -/
structure DbEvent where
  source : Nat
  inst : Nat
  code : Nat
  slice : Nat := 0
  severity : Nat := 0
  status : Nat := 0
  detail : Nat := 0
  deriving DecidableEq, Repr

/-- The entry written for an event, with its time and number (log entry 27, DESIGN CHOICE). -/
def DbEvent.entry (e : DbEvent) (time : Word) (seq : Nat) : DbEntry :=
  ⟨time, seq, e.source, e.inst, e.code, e.slice, e.severity, e.status, e.detail⟩

/-- Write one entry at the head of the ring (R472, R473); the number of entries N is DB_STATUS.entries. -/
def State.dbWrite (s : State) (e : DbEvent) : State :=
  let n := s.getF R.dbStatus F.dbStatus_entries
  let head := s.getF R.dbStatus F.dbStatus_head
  let seq := s.getF R.dbSeq F.dbSeq_next
  let old := (Tab.find? s.daybook.ring head).isSome
  let ent := e.entry s.now seq
  let polled : List DbEntry :=
    if e.code = 0x0030 ∨ e.code = 0x0031 ∨ e.code = 0x00FF then
      let l := s.daybook.events ++ [ent]
      l.drop (l.length - 64)
    else s.daybook.events
  let s := { s with daybook := { s.daybook with ring := Tab.insert s.daybook.ring head ent, events := polled } }
  let s := s.setF R.dbStatus F.dbStatus_head ((head + 1) % n)
  let s := s.setF R.dbSeq F.dbSeq_next (seq + 1)
  if old then s.setReg R.dbOverwrite (s.reg R.dbOverwrite + 1) else s

/-- The codes that take no token (R476). -/
def noToken (code : Nat) : Bool := code == 0x0030 || code == 0x0031 || code == 0x0040 || code == 0x00FF

/-- Write an event after the entry that tells what its source had suppressed (R476). -/
def State.dbWriteAfter (s : State) (e : DbEvent) (b : Bucket) : State :=
  if b.suppressed = 0 then s.dbWrite e
  else (s.dbWrite { source := e.source, inst := e.inst, code := 0x00F0,
                    detail := b.suppressed + b.firstCode % 256 * 2 ^ 32 }).dbWrite e

/-- Set the bucket of a source class. -/
def State.setBucket (s : State) (src : Nat) (b : Bucket) : State :=
  { s with daybook := { s.daybook with buckets := Tab.put Bucket.full s.daybook.buckets src b } }

/-- Record an event in the daybook (R475 to R477) (log entry 5, DESIGN CHOICE). -/
def State.record (s : State) (e : DbEvent) : State :=
  if s.getF R.dbStatus F.dbStatus_frozen = 1 then s
  else
    let b := Tab.get Bucket.full s.daybook.buckets e.source
    let tokens := min b.tokens (max 1 (s.getF R.dbRate F.dbRate_burst))
    if noToken e.code then
      (s.dbWriteAfter e b).setBucket e.source { b with suppressed := 0, firstCode := 0 }
    else if tokens = 0 then
      s.setBucket e.source
        { b with tokens := 0, suppressed := min (b.suppressed + 1) (2 ^ 32 - 1),
                 firstCode := if b.suppressed = 0 then e.code else b.firstCode }
    else
      (s.dbWriteAfter e b).setBucket e.source { tokens := tokens - 1, suppressed := 0, firstCode := 0 }

/-- A value at a byte offset of an entry's detail (bytes 20 to 31). -/
def dAt (off v : Nat) : Nat := v * 2 ^ (8 * (off - 20))

/-- A register write that is ignored: code 0x0001 (R3, R475). -/
def State.writeIgnored (s : State) (source inst addr : Nat) (v : Word) : State :=
  s.record { source := source, inst := inst, code := 0x0001, detail := dAt 20 (addr % 2 ^ 32) + dAt 24 v.toNat }

/-- A command that is refused: code 0x0002, with the object's index and the op (R26, R475) (log entry 26, DEDUCED). -/
def State.cmdRefused (s : State) (source inst slice index op status : Nat) : State :=
  s.record { source := source, inst := inst, code := 0x0002, slice := slice, status := status,
             detail := dAt 20 (index % 2 ^ 32) + dAt 24 (op % 256) }

/-- A partner's protocol violation: counted, in item 63 of its block (log entry 6, DESIGN CHOICE), and recorded under code 0x0003
(R25, R475). -/
def State.violation (s : State) (source inst addr partner : Nat) : State :=
  (s.count source 63 inst 1).record { source := source, inst := inst, code := 0x0003, severity := 5,
                                      detail := dAt 20 (addr % 2 ^ 64) + dAt 28 (partner % 2 ^ 16) }

/-- A change of state: code 0x0050 with its kind, the old and the new value (R475). -/
def State.changed (s : State) (source inst kind old new extra : Nat) : State :=
  s.record { source := source, inst := inst, code := 0x0050,
             detail := dAt 20 kind + dAt 21 (old % 256) + dAt 22 (new % 256) + dAt 24 (extra % 2 ^ 64) }

/-! ## The timebase -/

/-- The rate correction in force: rate_adj clamped to ±549,755,814 in 2⁻⁴⁰ tick per tick (R13). -/
def State.rateAdj (s : State) : Int :=
  max (-549755814) (min 549755814 (signed 32 (s.getF R.timeRate F.timeRate_rate_adj)))

/-! ## Slices -/

/-- Slice n's state: 0 free, 1 active, 2 quiesced, 3 resetting, 4 zeroing. -/
def State.sliceState (s : State) (n : Nat) : Nat := s.getF (R.sliceBind n) F.sliceBind_state

/-- The function a slice's host requests leave through; slice 0's is function 0 (R273, R502). -/
def State.sliceFn (s : State) (n : Nat) : Nat := if n = 0 then 0 else s.getF (R.sliceBind n) F.sliceBind_function

/-- The PASID a slice's host requests carry, if they carry one (R273, R502). -/
def State.slicePasid (s : State) (n : Nat) : Option Nat :=
  if n = 0 then none
  else if s.getF (R.sliceBind n) F.sliceBind_pasid_en = 1 then some (s.getF (R.sliceBind n) F.sliceBind_pasid)
  else none

/-- The device is in A0 or A1: in S1 and S2 the hub's logic is off (R406) (log entry 251, DEDUCED). -/
def State.awake (s : State) : Bool := decide (s.getF R.pwrState F.pwrState_state < 2)

/-- The queues of a slice fetch: it is active, the device is awake, and no host-loss drain of its function runs (R271, the table under R274). -/
def State.fetches (s : State) (n : Nat) : Bool :=
  s.sliceState n == 1 && s.awake && (n == 0 || !(Tab.get Ep.reset s.ep (s.sliceFn n)).draining)

/-- The fields in force of a slice that no create or apply has touched: SLICE_POLICY at its reset value, quotas 0. -/
def SliceForce.none : SliceForce := ⟨resetOf (R.slicePolicy 0), 0, 0, 0, 0, 0, 0, 0, 0, false⟩

/-- The fields of slice n in force (R276). -/
def State.forceOf (s : State) (n : Nat) : SliceForce := (Tab.find? s.force n).getD SliceForce.none

/-- What the image's policy section gives slice n, or the defaults of R500. -/
def State.policyOf (s : State) (n : Nat) : ImgPolicy :=
  let dflt : ImgPolicy :=
    ⟨n, [384, 2048, 1024, 4096, 1024, 4096, 16777216, 65536, 4096, 4194304], n == 0, n == 0, n == 0,
      if n = 0 then 15 else 10, false, 0xFFFFFFFF⟩
  match s.image with
  | some i => (i.policies.find? fun p => p.slice == n).getD dflt
  | none => dflt

/-- The quiet partition of a slice, if the image declares the slice in one (R21). -/
def State.quietOf (s : State) (n : Nat) : Option Nat :=
  match s.image with
  | some i => i.quiet.findIdx? fun q => q.slices.contains n
  | none => none

/-- The stacks of a quiet partition, as a mask. -/
def State.quietStacks (s : State) (q : Nat) : Nat :=
  match s.image with
  | some i => match i.quiet[q]? with
    | some p => p.stackIds
    | none => 0
  | none => 0

/-- A quiet partition of the image holds a stack for itself alone (R21). -/
def State.quietHolds (s : State) (st : Nat) : Bool :=
  match s.image with
  | some i => i.quiet.any fun q => natBit q.stackIds st
  | none => false

/-- A slice may use a resource of which the quiet partitions hold the units that sel names: its own partition's, or none's
(R21, R27). -/
def State.quietAllows (s : State) (slice : Nat) (sel : ImgQuiet → Bool) : Bool :=
  match s.image with
  | none => true
  | some i => match s.quietOf slice with
    | some q => (i.quiet[q]?).any sel
    | none => !i.quiet.any sel

/-- A slice may use a stack: none that a quiet partition of others holds (R21). -/
def State.mayUseStack (s : State) (n st : Nat) : Bool := s.quietAllows n fun q => natBit q.stackIds st

/-- BOOT_STATUS.stage. -/
def State.stage (s : State) : Nat := s.getF R.bootStatus F.bootStatus_stage

/-- The BAR0 blocks beyond the management path, and BAR2, answer: apprentice or full service (R432), outside S1 and S2. -/
def State.serving (s : State) : Bool := (s.stage == 3 || s.stage == 4) && s.awake

/-- Full service (R434), outside S1 and S2. -/
def State.full (s : State) : Bool := s.stage == 4 && s.awake

/-! ## Host requests and messages -/

/-- Function fn can send a request: its path is up, Bus Master Enable is set, it is in D0 and no FLR runs
(R257, R267, R268). -/
def State.hostPath (s : State) (fn : Nat) : Bool :=
  s.getF (R.epStatus fn) F.epStatus_bme == 1 && s.getF (R.epStatus fn) F.epStatus_d_state == 0 &&
  s.getF (R.epStatus fn) F.epStatus_flr_busy == 0 && s.getF (R.epStatus fn) F.epStatus_link_up == 1

/-- Memory requests to the BARs of function fn are performed: Memory Space Enable is set, the function is in D0 and in no FLR
(R257, R268, R272). -/
def State.barOpen (s : State) (fn : Nat) : Bool :=
  (Tab.get Ep.reset s.ep fn).memSpace && s.getF (R.epStatus fn) F.epStatus_d_state == 0 &&
  s.getF (R.epStatus fn) F.epStatus_flr_busy == 0

/-- The code of a host access of function fn that cannot go out: 0x0014 where the function is closed with its link up (R267), else the
code of the failed path. -/
def State.pathCode (s : State) (fn code : Nat) : Nat := if s.getF (R.epStatus fn) F.epStatus_link_up = 1 then 0x14 else code

/-- Whether a vector's mask bit is set in the MSI-X table (PCIe layout: bit 0 of the vector control word). -/
def State.vectorMasked (s : State) (fn v : Nat) : Bool := natBit (s.reg (R.msixTable fn (2 * v + 1))).toNat 32

/-- Set the pending bit of a vector. -/
def State.setPending (s : State) (fn v : Nat) : State := s.setBit (R.msixPba fn (v / 64)) (v % 64)

/-- Change a function's configuration state. -/
def State.epSet (s : State) (fn : Nat) (f : Ep → Ep) : State := { s with ep := Tab.update Ep.reset s.ep fn f }

/-- INTx of function 0 is active (R256). -/
def State.intxActive (s : State) : Bool := !(Tab.get Ep.reset s.ep 0).msixEnable && !(Tab.get Ep.reset s.ep 0).intDisable

/-- INTX_PEND takes a value: while INTx is active Assert_INTA is sent when it changes from zero to nonzero (R256); in D3hot the
function sends no message (R257). -/
def State.intaSync (s : State) : State :=
  let on := s.intxActive && s.reg (R.intxPend 0) != 0
  if on = (Tab.get Ep.reset s.ep 0).inta ∨ s.getF (R.epStatus 0) F.epStatus_d_state ≠ 0 then s
  else (s.epSet 0 fun e => { e with inta := on }).emit (.inta on)

/-- Deassert_INTA where it stands asserted and INTx is active no more or INTX_PEND is zero (R256). -/
def State.intaDrop (s : State) : State :=
  if s.intxActive && s.reg (R.intxPend 0) != 0 then s else s.intaSync

/-- Events set bits of INTX_PEND: Assert_INTA where it was zero (R256). -/
def State.intxSet (s : State) (b : Nat) : State :=
  let was := s.reg (R.intxPend 0) != 0
  let s := s.setBit (R.intxPend 0) b
  if was then s
  else if s.intxActive && s.getF (R.epStatus 0) F.epStatus_d_state != 0 then s.epSet 0 fun e => { e with intaOwed := true }
  else s.intaSync

/-- Traffic of a function takes its link out of L1 or L1.1 (R258). -/
def State.linkWake (s : State) (fn : Nat) : State :=
  let e := Tab.get Ep.reset s.ep fn
  if e.linkPm = 1 ∨ e.linkPm = 2 then
    (s.epSet fn fun e => { e with linkPm := 0 }).setF (R.epStatus fn) F.epStatus_low_power 0
  else s

/-- The pieces of [a, a + n) between multiples of a size: addresses and lengths. -/
def piecesAt (size : Nat) : Nat → Nat → Nat → List (Nat × Nat)
  | 0, _, _ => []
  | k + 1, a, n => if n = 0 then [] else let m := min n (size - a % size); (a, m) :: piecesAt size k (a + m) (n - m)

/-- Write requests of function fn leave it, none longer than Max Payload Size (R251) (log entry 204, DESIGN CHOICE). -/
def State.emitWrites (s : State) (fn : Nat) (pasid : Option Nat) (a : Nat) (l : List Byte) : State :=
  let size := 128 * 2 ^ (Tab.get Ep.reset s.ep fn).mps
  (piecesAt size (l.length / size + 2) a l.length).foldl
    (fun s p => s.emit (.hostWrite fn pasid p.1 ((l.drop (p.1 - a)).take p.2))) (s.linkWake fn)

/-- Write requests leave a downstream port, none longer than its Max Payload Size of 512 bytes (R291) (log entry 204, DESIGN
CHOICE). -/
def State.emitPortWrites (s : State) (p a : Nat) (l : List Byte) : State :=
  (piecesAt 512 (l.length / 512 + 2) a l.length).foldl
    (fun s e => s.emit (.portWrite p e.1 ((l.drop (e.1 - a)).take e.2))) s

/-- Read requests of function fn leave it, none longer than Max Read Request Size (R251, R254). -/
def State.emitReads (s : State) (fn : Nat) (pasid : Option Nat) (a n : Nat) : State :=
  let size := 128 * 2 ^ (Tab.get Ep.reset s.ep fn).mrrs
  let l := if n = 0 then [(a, 0)] else piecesAt size (n / size + 2) a n
  l.foldl (fun s p => s.emit (.hostRead fn pasid p.1 p.2)) (s.linkWake fn)

/-- The PASID that a message of a vector carries: that of the slice whose range the vector lies in (R273) (log entry 206, DEDUCED). -/
def State.vectorPasid (s : State) (fn v : Nat) : Option Nat :=
  (List.find? (fun (e : Nat × SliceForce) => e.1 != 0 && s.sliceFn e.1 == fn &&
    decide (getBits e.2.policy F.slicePolicy_vec_base ≤ v) &&
    decide (v < getBits e.2.policy F.slicePolicy_vec_base + getBits e.2.policy F.slicePolicy_vec_count)) s.force).bind fun e =>
      s.slicePasid e.1

/-- Raise vector v of function fn: an MSI-X message, or its pending bit while it is withheld (R255), or an INTx source of
function 0 (R256). -/
def State.raise (s : State) (fn v : Nat) : State :=
  let e := Tab.get Ep.reset s.ep fn
  if e.msixEnable then
    if s.hostPath fn && !s.vectorMasked fn v && !e.funcMask then (s.linkWake fn).emit (.msix fn (s.vectorPasid fn v) v)
    else s.setPending fn v
  else if fn = 0 ∧ ¬ e.intDisable then s.intxSet (min v 63)
  else s.setPending fn v

/-- The pages of a host write enter the slice's log; a write that reaches the limit sets overflow and logs nothing (R284)
(log entry 234, DEDUCED). -/
def State.logPages (s : State) (n addr len : Nat) : State :=
  if s.getF (R.logCfg n) F.logCfg_active = 1 ∧ len > 0 then
    let first := addr / 4096
    let last := (addr + len - 1) / 4096
    let f := s.forceOf n
    let buf := s.getF (R.logCfg n) F.logCfg_buffer
    if last ≥ getBits f.log F.logCfg_limit_gib * 2 ^ 18 then
      (s.setF (R.logCfg n) F.logCfg_overflow 1).count 0x05 5 n 1
    else
      let base := (if buf = 0 then getBits f.logA F.logBaseA_base else getBits f.logB F.logBaseB_base) * 4096
      let pages := (below (last + 1 - first)).map fun i => (⟨n, first + i, buf, s.sliceFn n, base⟩ : DirtyPage)
      { s with dirty := s.dirty ++ pages }.count 0x05 4 n pages.length
  else s

/-- A write to host memory for slice n, logged where logging is active (R273, R283). -/
def State.hostWrite (s : State) (n addr : Nat) (data : List Byte) : State :=
  (s.emitWrites (s.sliceFn n) (s.slicePasid n) addr data).logPages n addr data.length


/-! ## Device memory -/

/-- Where a device physical address lies (R150): the offset within its range, or within the stack. -/
inductive Place where
  | plain (stack off : Nat)
  | stitched (off : Nat)
  | main (off : Nat)
  | ddr7 (off : Nat)
  | unmapped
  deriving DecidableEq, Repr

/-- One GiB. -/
def gib : Nat := 2 ^ 30

/-- S of R150: bytes of each stack in the stitched range. -/
def State.stitchedSize (s : State) : Nat := s.getF R.memLayout F.memLayout_stitched_gib * gib

/-- The size of the main DDR5 region (R149): N × (C − res) + (N − 1) × res. -/
def State.mainSize (s : State) : Nat :=
  let n := s.ddr.kept.length
  if n = 0 then 0 else n * (s.ddr.capacity - s.ddr.res) + (n - 1) * s.ddr.res

/-- The size of the staging region at the top of the main region (R149). -/
def State.stagingSize (s : State) : Nat := s.getF R.memLayout F.memLayout_staging_gib * gib

/-- The place of an address (R150). -/
def State.place (s : State) (a : Nat) : Place :=
  if a < 12 * 2 ^ 35 then
    if a % 2 ^ 35 < 2 ^ 35 - s.stitchedSize then .plain (a / 2 ^ 35) (a % 2 ^ 35) else .unmapped
  else if 0x8000000000 ≤ a ∧ a < 0x8000000000 + 10 * s.stitchedSize then .stitched (a - 0x8000000000)
  else if 0x10000000000 ≤ a ∧ a < 0x10000000000 + s.mainSize then .main (a - 0x10000000000)
  else if 0x40000000000 ≤ a ∧ a < 0x40000000000 + s.ddr.res then .ddr7 (a - 0x40000000000)
  else .unmapped

/-- The channel and channel offset of an offset in the main DDR5 region (R149). -/
def State.mainDecode (s : State) (o : Nat) : Nat × Nat :=
  let n := s.ddr.kept.length
  let low := n * (s.ddr.capacity - s.ddr.res)
  if o < low then
    let g := o / 4096
    (s.ddr.kept.getD (g % n) 0, g / n * 4096 + o % 4096)
  else
    let g := (o - low) / 4096
    let k := s.ddr.kept.filter fun c => c != 7
    (k.getD (g % (n - 1)) 0, (s.ddr.capacity - s.ddr.res) + g / (n - 1) * 4096 + o % 4096)

/-- Where a byte of the stitched range and its check units lie (R154). -/
structure StitchPlace where
  stripe : Nat
  unit : Nat
  byte : Nat
  dataStack : Nat
  pStack : Nat
  qStack : Nat
  x : Nat
  deriving DecidableEq, Repr

/-- The decode of an offset in the stitched range for a stitched size of sz bytes per stack (R154). -/
def stitchDecode (sz o : Nat) : StitchPlace :=
  let n := o / 40960
  let j := o % 40960 / 4096
  let b := o % 4096
  ⟨n, j, b, (n + 2 + j) % 12, n % 12, (n + 1) % 12, (2 ^ 35 - sz) + n * 4096 + b⟩

/-- The pseudo-channel that serves a stack-local offset (R143). -/
def pseudoChannel (x : Nat) : Nat := ((x >>> 8) ^^^ (x >>> 13) ^^^ (x >>> 18)) % 32

/-- The memory of stack n is in service (R146). -/
def State.stackMem (s : State) (n : Nat) : Bool := s.getF (R.hbmStatus n) F.hbmStatus_mem_in_service == 1

/-- The stacks whose memory is lost to the stitched range (STITCH_STATUS.lost_stacks). -/
def State.lostStacks (s : State) : Nat := s.getF R.stitchStatus F.stitchStatus_lost_stacks

/-- The number of set bits among the low n bits. -/
def popCount (n v : Nat) : Nat := ((below n).filter fun i => natBit v i).length

/-- The region entry that holds an address. -/
def State.regionOf (s : State) (a : Nat) : Option (Nat × Region) :=
  List.find? (fun e => decide (e.2.base ≤ a) && decide (a < e.2.base + e.2.size)) s.regions

/-- The first addresses of the 2 MiB blocks that [a, a + len) touches, each cut to the range. -/
def blockStarts (a len : Nat) : List Nat :=
  if len = 0 then []
  else (below ((a + len - 1) / 2 ^ 21 - a / 2 ^ 21 + 1)).map fun i => max a ((a / 2 ^ 21 + i) * 2 ^ 21)

/-- Why an access of a slice to one 2 MiB block is refused: 0x0011 unmapped (R150), 0x0003 stitched for a quiet slice (R23, R160),
0x0008 not its owner (R19), 0x0015 lost or out of service (R5, R148, R160). -/
def State.blockCode (s : State) (slice a : Nat) : Option Nat :=
  match s.place a with
  | .unmapped => some 0x0011
  | p =>
    if (match p with | .stitched _ => (s.quietOf slice).isSome | _ => false) then some 0x0003
    else match s.regionOf a with
    | none => some 0x0008
    | some (_, r) =>
      if r.owner ≠ slice then some 0x0008
      else if r.state = 2 then some 0x0008
      else if r.state = 3 then some 0x0015
      else match p with
        | .plain st _ => if s.stackMem st then none else some 0x0015
        | _ => none

/-- Some 4 KiB page of [a, a + len) lies on a fenced DDR5 channel (R148). -/
def State.ddrFenced (s : State) (a len : Nat) : Bool :=
  if s.ddr.fenced.isEmpty ∨ len = 0 then false
  else (below ((a + len - 1) / 4096 - a / 4096 + 1)).any fun i =>
    match s.place ((a / 4096 + i) * 4096) with
    | .main o => s.ddr.fenced.contains (s.mainDecode o).1
    | .ddr7 _ => s.ddr.fenced.contains 7
    | _ => false

/-- The refusals of the blocks of [a, a + len), with the first address each concerns. -/
def State.blockCodes (s : State) (slice a len : Nat) : List (Nat × Nat) :=
  (blockStarts a len).filterMap fun b => (s.blockCode slice b).map fun c => (c, b)

/-- Why an access of a slice to [a, a + len) is refused, with the first address it concerns: in apprentice service the memory tiers
are not accessible (R168, R433); a range that leaves the slice's regions is refused for that before anything else
(log entry 176, DEDUCED). -/
def State.accessCode (s : State) (slice a len : Nat) : Option (Nat × Nat) :=
  if s.stage = 3 ∧ len > 0 then some (0x0008, a)
  else
    let l := s.blockCodes slice a len
    match (l.find? fun c => c.1 == 0x0008).or l.head? with
    | some r => some r
    | none => if s.ddrFenced a len then some (0x0015, a) else none

/-- Record a blocked access: code 0x0004, with status 0x0008 or 0x0011 (R19, R150, R475). -/
def State.recordBlocked (s : State) (source inst slice code addr : Nat) : State :=
  let owner := if code = 0x0011 then 0xFF else match s.regionOf addr with
    | some (_, r) => r.owner
    | none => 0xFF
  if code = 0x0008 ∨ code = 0x0011 then
    (s.record { source := source, inst := inst, code := 0x0004, slice := slice, status := code,
                detail := dAt 20 addr + dAt 28 owner }).count 0x05 7 slice 1
  else s

/-- A blocked use of a barrier, ring, queue or window set of another slice, which has no address (R19). -/
def State.blockedName (s : State) (source inst slice : Nat) : State :=
  (s.record { source := source, inst := inst, code := 0x0004, slice := slice, status := 0x0008 }).count 0x05 7 slice 1

/-- The key of the 32-byte HBM word at stack-local offset x. -/
def badHbm (stack x : Nat) : Nat := stack * 2 ^ 30 + x / 32

/-- The key of the 64-byte DDR5 unit at device address a. -/
def badDdr (a : Nat) : Nat := 2 ^ 40 + a / 64

/-- Address and length of an uncorrectable word outside the stitched range; for a stack's stitched part the stripe's data
unit, or none for a check unit. -/
def State.badRange (s : State) (k : Nat) : Option (Nat × Nat) :=
  if k ≥ 2 ^ 40 then some ((k - 2 ^ 40) * 64, 64)
  else
    let st := k / 2 ^ 30
    let x := k % 2 ^ 30 * 32
    let base := 2 ^ 35 - s.stitchedSize
    if x < base then some (st * 2 ^ 35 + x, 32)
    else
      let n := (x - base) / 4096
      let j := (st + 24 - n % 12 - 2) % 12
      if j < 10 then some (0x8000000000 + n * 40960 + j * 4096 + (x - base) % 4096, 32) else none

/-- The uncorrectable words that overlap [a, a + len). -/
def State.badIn (s : State) (a len : Nat) : List Nat :=
  (Tab.keys s.bad).filter fun k => match s.badRange k with
    | some (b, n) => decide (b < a + len) && decide (a < b + n)
    | none => false

/-- The 64-byte unit of a stack at stack-local offset x (a multiple of 64) is missing: the stack is lost, or holds an
uncorrectable word there (R159). -/
def State.unitMissing (s : State) (x st : Nat) : Bool :=
  natBit s.lostStacks st || (Tab.find? s.bad (badHbm st x)).isSome || (Tab.find? s.bad (badHbm st (x + 32))).isSome

/-- The number of missing units of a column. -/
def State.columnMissing (s : State) (x : Nat) : Nat := ((below 12).filter (s.unitMissing x)).length

/-- Nothing of the stitched range is missing. -/
def State.stitchWhole (s : State) : Bool := s.bad.isEmpty && s.lostStacks == 0

/-- The first addresses of the 64-byte pieces that [a, a + len) touches. -/
def pieceStarts (a len : Nat) : List Nat :=
  if len = 0 then [] else (below ((a + len - 1) / 64 - a / 64 + 1)).map fun i => (a / 64 + i) * 64

/-- The place of a stitched piece. -/
def State.stitchAt (s : State) (p : Nat) : StitchPlace := stitchDecode s.stitchedSize (p - 0x8000000000)

/-- The pieces of a stitched range whose own unit is missing: a read rebuilds them (R159). -/
def State.missingPieces (s : State) (a len : Nat) : List Nat :=
  if s.stitchWhole then []
  else (pieceStarts a len).filter fun p => s.unitMissing (s.stitchAt p).x (s.stitchAt p).dataStack

/-- The missing pieces of a stitched range that the code cannot rebuild: more than two units of their column are missing
(R160; log entry 177, DEDUCED). -/
def State.deadPieces (s : State) (a len : Nat) : List Nat :=
  (s.missingPieces a len).filter fun p => decide (s.columnMissing (s.stitchAt p).x > 2)

/-- The first address at which a read of [a, a + len) meets what the codes cannot give: an uncorrectable word outside the stitched
range, a piece of it beyond recovery (R159, R164). -/
def State.uncorrectableAt (s : State) (a len : Nat) : Option Nat :=
  match s.place a with
  | .stitched _ => (s.deadPieces a len).head?
  | _ => match s.badIn a len with
    | k :: _ => some ((s.badRange k).getD (a, 0)).1
    | [] => none

/-- A read of [a, a + len) meets a word that the codes cannot give. -/
def State.uncorrectable (s : State) (a len : Nat) : Bool := (s.uncorrectableAt a len).isSome

/-- The tier code of a place (R151); 4 is told by the region. -/
def Place.tier : Place → Nat
  | .plain .. => 0
  | .stitched _ => 1
  | .main _ => 2
  | .ddr7 _ => 3
  | .unmapped => 0

/-- The daybook instance of memory at an address: stack, DDR5 channel 12–19, or 0xFF for the stitch unit (R474). -/
def State.memInst (s : State) (a : Nat) : Nat :=
  match s.place a with
  | .plain st _ => st
  | .main o => 12 + (s.mainDecode o).1
  | .ddr7 _ => 19
  | _ => 0xFF

/-- Log an uncorrectable event: MEM_ERR_LOG, the tally, the daybook (R166). -/
def State.logUncorrectable (s : State) (slice source a : Nat) : State :=
  let tier := match s.regionOf a with
    | some (_, r) => r.tier
    | none => (s.place a).tier
  let s := s.setReg R.memErrAddr (setBits 0 F.memErrAddr_addr (a / 64))
  let s := s.setReg R.memErrInfo
    (setBits (setBits (setBits (setBits 0 F.memErrInfo_valid 1) F.memErrInfo_slice slice) F.memErrInfo_tier tier)
      F.memErrInfo_source source)
  let s := s.count 0x0D 1 (s.memInst a) 1
  s.record { source := 0x0D, inst := s.memInst a, code := 0x0010, slice := slice, severity := 2, status := 0x0010,
             detail := dAt 20 a + dAt 28 tier + dAt 29 source }

/-- The words of a stack's 64-byte unit at x are written anew: they are correctable again (R159, R165). -/
def State.mendUnit (s : State) (x st : Nat) : State :=
  { s with bad := Tab.erase (Tab.erase s.bad (badHbm st x)) (badHbm st (x + 32)) }

/-- What a stitched read rebuilds under R155, each piece counted; the unit of a present stack is rewritten (R159). -/
def State.rebuild (s : State) (a len : Nat) : State :=
  match s.place a with
  | .stitched _ =>
    let ps := s.missingPieces a len
    if ps.isEmpty then s
    else (ps.foldl (fun s p => s.mendUnit (s.stitchAt p).x (s.stitchAt p).dataStack) s).count 0x0D 4 0xFF ps.length
  | _ => s

/-- The address of 64-byte piece c of data unit j of stripe n. -/
def stripePiece (n j c : Nat) : Nat := 0x8000000000 + n * 40960 + j * 4096 + c * 64

/-- How a write changes one column of a stripe (R157): the units written, the units read, whether it goes by
read-modify-write. -/
structure ColumnWrite where
  touched : List Nat
  reads : List Nat
  rmw : Bool
  deriving DecidableEq, Repr

/-- The method for column c of stripe n of a write to [a, a + len) (R157): with t units touched, read-modify-write of the old pieces
where t + 2 ≤ 10 − t, else reconstruct-write from the untouched ones, with the old piece where one is covered in part. Old
pieces that are missing make it reconstruct-write (log entry 178, DEDUCED). -/
def State.columnWrite (s : State) (a len n c : Nat) : ColumnWrite :=
  let x := 2 ^ 35 - s.stitchedSize + n * 4096 + c * 64
  let data (j : Nat) : Nat := (n + 2 + j) % 12
  let touched := (below 10).filter fun j => decide (stripePiece n j c < a + len) && decide (a < stripePiece n j c + 64)
  let cut := touched.filter fun j => decide (stripePiece n j c < a) || decide (a + len < stripePiece n j c + 64)
  let checksOk := [n % 12, (n + 1) % 12].all fun st => natBit s.lostStacks st || !s.unitMissing x st
  let rmw := decide (touched.length + 2 ≤ 10 - touched.length) && touched.all (fun j => !s.unitMissing x (data j)) && checksOk
  ⟨touched, if rmw then touched else ((below 10).filter fun j => !touched.contains j) ++ cut, rmw⟩

/-- The old pieces of a column that a write must rebuild first, as data units. -/
def State.columnNeeds (s : State) (a len n c : Nat) : List Nat :=
  let w := s.columnWrite a len n c
  if w.touched.isEmpty then []
  else w.reads.filter fun j => s.unitMissing (2 ^ 35 - s.stitchedSize + n * 4096 + c * 64) ((n + 2 + j) % 12)

/-- The stripe and column of every column of [a, a + len). -/
def columnsOf (a len : Nat) : List (Nat × Nat) :=
  if len = 0 then []
  else
    let n0 := (a - 0x8000000000) / 40960
    let n1 := (a + len - 1 - 0x8000000000) / 40960
    (below (n1 - n0 + 1)).flatMap fun i => (below 64).map fun c => (n0 + i, c)

/-- The first piece that a stitched write needs and the code cannot rebuild: the stripe stays unchanged (R160). -/
def State.stitchWriteBad (s : State) (a len : Nat) : Option Nat :=
  if s.stitchWhole then none
  else (columnsOf a len).findSome? fun e =>
    if s.columnMissing (2 ^ 35 - s.stitchedSize + e.1 * 4096 + e.2 * 64) > 2 then
      ((s.columnNeeds a len e.1 e.2).head?).map fun j => stripePiece e.1 j e.2
    else none

/-- A write of one column is made: missing old pieces were rebuilt and counted, and every unit written, P and Q among them, is
correctable again (R157, R159, R165). -/
def State.columnDone (s : State) (a len n c : Nat) : State :=
  let x := 2 ^ 35 - s.stitchedSize + n * 4096 + c * 64
  let w := s.columnWrite a len n c
  if w.touched.isEmpty then s
  else
    let needs := s.columnNeeds a len n c
    let s := (w.touched ++ needs).foldl (fun s j => s.mendUnit x ((n + 2 + j) % 12)) s
    let s := (s.mendUnit x (n % 12)).mendUnit x ((n + 1) % 12)
    if needs.isEmpty then s else s.count 0x0D 4 0xFF needs.length

/-- What a write to [a, a + len) makes correctable again: whole words outside the stitched range, columns in it. -/
def State.mend (s : State) (a len : Nat) : State :=
  match s.place a with
  | .stitched _ => if s.stitchWhole then s else (columnsOf a len).foldl (fun s e => s.columnDone a len e.1 e.2) s
  | _ => { s with bad := (s.badIn a len).foldl (fun b k => Tab.erase b k) s.bad }

/-- The stripes of the stitched range that a write to [a, a + len) covers in part (R157). -/
def partialStripes (a len : Nat) : Nat :=
  if len = 0 then 0
  else
    let o := a - 0x8000000000
    let first := o / 40960
    let last := (o + len - 1) / 40960
    if first = last then (if len = 40960 then 0 else 1)
    else bit (o % 40960 != 0) + bit ((o + len) % 40960 != 0)

/-- Count the partial-stripe writes of a write (R157). -/
def State.countPartial (s : State) (a len : Nat) : State :=
  match s.place a with
  | .stitched _ => if partialStripes a len = 0 then s else s.count 0x0D 5 0xFF (partialStripes a len)
  | _ => s

/-- The byte of memory at an address; one that nothing has written reads 0 (R168) (log entry 29, DESIGN CHOICE). -/
def State.byteAt (s : State) (a : Nat) : Byte := Tab.get 0 s.mem a

/-- The bytes of [a, a + len). -/
def State.bytesAt (s : State) (a len : Nat) : List Byte := (below len).map fun i => s.byteAt (a + i)

/-- Store one byte. -/
def State.putByte (s : State) (a : Nat) (b : Byte) : State := { s with mem := Tab.put 0 s.mem a b }

/-- Store bytes from an address on. -/
def putCells : List Host.Cell → Nat → List Byte → List Host.Cell
  | m, _, [] => m
  | m, a, b :: l => putCells (Tab.put 0 m a b) (a + 1) l

/-- Store bytes from an address on. -/
def State.putBytes (s : State) (a : Nat) (l : List Byte) : State := { s with mem := putCells s.mem a l }

/-- Set [a, a + len) to 0. -/
def State.zeroRange (s : State) (a len : Nat) : State :=
  { s with mem := s.mem.filter fun c => decide (c.1 < a) || decide (a + len ≤ c.1) }

/-- The words that [a, a + len) covers whole are made anew, so they are correctable again; of stripes of the stitched range that it
covers whole, the words of the check units too (R157, R165). -/
def State.mendWhole (s : State) (a len : Nat) : State :=
  let whole (k : Nat) : Bool := match s.badRange k with
    | some (b, n) => decide (a ≤ b) && decide (b + n ≤ a + len)
    | none => match s.place a with
      | .stitched o =>
        let x := k % 2 ^ 30 * 32
        let n := (x - (2 ^ 35 - s.stitchedSize)) / 4096
        decide (k < 2 ^ 40) && decide (2 ^ 35 - s.stitchedSize ≤ x) && decide (o ≤ n * 40960) && decide ((n + 1) * 40960 ≤ o + len)
      | _ => false
  { s with bad := Tab.keep s.bad fun k _ => !whole k }

/-- Store bytes from an address on, whole words anew (R165). -/
def State.storeAnew (s : State) (a : Nat) (l : List Byte) : State := (s.mendWhole a l.length).putBytes a l

/-- Set [a, a + len) to 0, whole words anew (R165, R167). -/
def State.zeroAnew (s : State) (a len : Nat) : State := (s.mendWhole a len).zeroRange a len

/-- The 64-byte units of [a, a + len) whose data reach their next reader in error (R164). -/
def State.flawedIn (s : State) (a len : Nat) : List Nat :=
  (Tab.keys s.flawed).filter fun u => decide (u * 64 < a + len) && decide (a < u * 64 + 64) && decide (len > 0)

/-- A read of device memory for a slice as it is performed: the bytes, or the code of its failure with what it leaves recorded. source is
the daybook source and inst its instance; err the MEM_ERR_INFO source. -/
def State.memReadNow (s : State) (source inst err slice a len : Nat) : Got × State :=
  match s.accessCode slice a len with
  | some (c, b) => (.fail c, s.recordBlocked source inst slice c b)
  | none =>
    match s.uncorrectableAt a len, s.flawedIn a len with
    | some b, _ => (.fail 0x0010, s.logUncorrectable slice err b)
    | none, u :: us =>
      (.fail 0x0010, { s with flawed := Tab.keep s.flawed fun k _ => !(u :: us).contains k }.logUncorrectable slice err (u * 64))
    | none, [] => (.bytes (s.bytesAt a len), s.rebuild a len)

/-- The first address at which a write to [a, a + len) meets what it may not replace: an uncorrectable word it covers in part (R165),
a stitched piece it needs and the code cannot rebuild (R160). -/
def State.writeBadAt (s : State) (a len : Nat) : Option Nat :=
  match s.place a with
  | .stitched _ => s.stitchWriteBad a len
  | _ => (s.badIn a len).findSome? fun k => match s.badRange k with
    | some (b, n) => if b < a ∨ a + len < b + n then some b else none
    | none => none

/-- Pages of 64 KiB of a shard. -/
def Shard.pages (x : Shard) : Nat := x.bytes / 65536

/-- The number of the epoch's page that holds an address, counting the shards in list order from n. -/
def shardPage (a : Nat) : Nat → List Shard → Option Nat
  | _, [] => none
  | n, x :: xs => if x.addr ≤ a ∧ a < x.addr + x.bytes then some (n + (a - x.addr) / 65536) else shardPage a (n + x.pages) xs

/-- The pages of an epoch that [a, a + len) touches and whose copied bit is clear (R225). -/
def Snap.uncopied (p : Snap) (a len : Nat) : List Nat :=
  if len = 0 then []
  else ((below ((a + len - 1) / 65536 - a / 65536 + 1)).filterMap fun i => shardPage ((a / 65536 + i) * 65536) 0 p.shards).filter
    fun i => (Tab.find? p.copied i).isNone

/-- The address of page i of the shards. -/
def pageAddr : Nat → List Shard → Nat
  | _, [] => 0
  | i, x :: xs => if i < x.pages then x.addr + i * 65536 else pageAddr (i - x.pages) xs

/-- SNAP_PAGES.copied and STAGING_STATUS follow the epoch. -/
def State.snapRefresh (s : State) : State :=
  let n := match s.snap with
    | some p => p.staged.length + p.copying.length
    | none => 0
  let s := match s.snap with
    | some p => s.setF R.snapPages F.snapPages_copied p.copied.length
    | none => s
  let s := s.setF R.stagingStatus F.stagingStatus_in_use n
  if n > s.getF R.stagingStatus F.stagingStatus_high_water then s.setF R.stagingStatus F.stagingStatus_high_water n else s

/-- Page i is copied before a write: its bytes go to staging, its copied bit is set (R225). -/
def State.stagePage (s : State) (p : Snap) (i : Nat) : Snap :=
  { p with copied := Tab.insert p.copied i (), staged := Tab.insert p.staged i (s.bytesAt (pageAddr i p.shards) 65536),
           cow := p.cow + 1, copying := p.copying.filter (· != i) }

/-- The pages of staging. -/
def State.stagingPages (s : State) : Nat := s.stagingSize / 65536

/-- A field of the job record a checkpoint copied. -/
def Ckpt.field (c : Ckpt) (off width : Nat) : Nat := fieldLE c.raw off width

/-- The pool address of the shard area of a generation (R220). -/
def Ckpt.areaAt (c : Ckpt) (g : Nat) : Nat := c.field 80 8 + 0x210000 + g % 2 * c.field 88 8

/-- The shard that page i of the epoch belongs to: its index and the number of its first page. -/
def shardIndex : Nat → Nat → Nat → List Shard → Nat × Nat
  | _, k, first, [] => (k, first)
  | i, k, first, x :: xs => if i < first + x.pages then (k, first) else shardIndex i (k + 1) (first + x.pages) xs

/-- Page i with bytes l goes to the pool and is acknowledged; its staged page is freed (R224). -/
def State.pageSent (s : State) (p : Snap) (i : Nat) (l : List Byte) : State :=
  let s := match Tab.find? s.train.ckpts p.job with
    | some c =>
      let k := shardIndex i 0 0 p.shards
      s.emit (.poolWrite (c.field 104 4) (c.areaAt (c.gen + 1) + ((p.shards.getD k.1 ⟨0, 0, 0, 0, 0⟩).poolOff) + (i - k.2) * 65536) l)
    | none => s
  { s with snap := some { p with copied := Tab.insert p.copied i (), staged := Tab.erase p.staged i,
                                 sent := Tab.insert p.sent i l, sentCount := p.sentCount + 1 } }

/-- Copies of the pages that writes wait for start while staging has room, at most four at once (R225). -/
def Snap.startCopies (p : Snap) (staging : Nat) : Snap :=
  let want := (p.waiting.flatMap fun w => p.uncopied w.addr w.data.length).eraseDups.filter fun i => !p.copying.contains i
  let room := min (4 - p.copying.length) (staging - (p.staged.length + p.copying.length))
  { p with copying := p.copying ++ want.take room }

/-- Page i is copied before a write of a command. Where staging has no free page the write waits until the sender has sent the lowest
staged page, which frees it; the wait is counted (R226) (log entry 70, DESIGN CHOICE). -/
def State.copyPage (s : State) (i : Nat) : State :=
  match s.snap with
  | none => s
  | some p =>
    if (Tab.find? p.copied i).isSome then s
    else
      let s := s.count 0x10 2 p.job 1
      let others := p.copying.filter (· != i)
      if p.staged.length + others.length < s.stagingPages then { s with snap := some (s.stagePage p i) }
      else
        let s := s.count 0x10 3 p.job 1
        let p := match p.staged, others with
          | [], k :: _ => s.stagePage p k
          | _, _ => p
        let s := match p.staged with
          | e :: _ => s.pageSent p e.1 e.2
          | [] => s
        match s.snap with
        | some p => { s with snap := some (s.stagePage p i) }
        | none => s

/-- The pages a write touches are copied before it (R225); the wait for the copies is the write's own time. -/
def State.copyBefore (s : State) (a len : Nat) : State :=
  match s.snap with
  | none => s
  | some p =>
    let is := p.uncopied a len
    if is.isEmpty then s else (is.foldl State.copyPage s).snapRefresh

/-! ## What the pair mirrors (R448 to R451) -/

/-- PAIR_STATUS.state. -/
def State.pairState (s : State) : Nat := s.getF R.pairStatus F.pairStatus_state

/-- This device is the active one of its pair. -/
def State.pairActive (s : State) : Bool := s.getF R.pairStatus F.pairStatus_role == 1

/-- The pair time in force: PAIR_CFG.pair_time while pairing, syncing or paired, else 0 (R458). -/
def State.pairTime (s : State) : Nat :=
  if 1 ≤ s.pairState ∧ s.pairState ≤ 3 then s.getF R.pairCfg F.pairCfg_pair_time else 0

/-- The standby's servo follows the active in place of TIME_SRC (R458). -/
def State.followsPair (s : State) : Bool := s.pairTime != 0 && !s.pairActive

/-- The pair mirrors a slice: slice 0 and the slices of PAIR_SLICES (log entry 151, DEDUCED). -/
def State.mirroredSlice (s : State) (slice : Nat) : Bool :=
  slice == 0 || natBit (s.reg (R.pairSlices (slice / 64))).toNat (slice % 64)

/-- The active replicates a class (3 config, 2 job, 1 session, 0 bulk) of a slice: in state 3 (R448). -/
def State.replicates (s : State) (cls slice : Nat) : Bool :=
  s.pairState == 3 && s.pairActive && natBit (s.getF R.pairCfg F.pairCfg_classes) cls && s.mirroredSlice slice

/-- The active sends an update of a class of a slice to the standby (R449, R450). -/
def State.tell (s : State) (cls slice : Nat) (u : MirrorUpd) : State := if s.replicates cls slice then s.emit (.mirror u) else s

/-- What the standby answers to a synchronous operation (R449): 0 where it applies it, and on a device that does not replicate. -/
def State.standbySays (s : State) (cls slice : Nat) : Nat × State :=
  match s.replicates cls slice, s.pair.verdicts with
  | true, c :: cs => (c, { s with pair := { s.pair with verdicts := cs } })
  | _, _ => (0, s)

/-- A page joins the bulk backlog, unless it waits in it (R451). -/
def addPage (l : List (Nat × Nat)) (p : Nat) : List (Nat × Nat) :=
  if l.any fun e => decide (e.1 ≤ p) && decide (p < e.1 + e.2) then l else l ++ [(p, 1)]

/-- PAIR_LAG.bulk_kib tells the backlog (log entry 156, DEDUCED). -/
def State.lagRefresh (s : State) : State :=
  s.setF R.pairLag F.pairLag_bulk_kib (min (2 ^ 32 - 1) (4 * s.pair.bulk.foldl (fun n e => n + e.2) 0))

/-- The 4 KiB pages a write touches in a region mirrored as bulk join the backlog, while syncing or paired (R451). -/
def State.bulkDirty (s : State) (a len : Nat) : State :=
  match s.regionOf a with
  | some (_, r) =>
    if r.bulk ∧ 2 ≤ s.pairState ∧ s.pairState ≤ 3 ∧ s.pairActive ∧ natBit (s.getF R.pairCfg F.pairCfg_classes) 0 ∧
        s.mirroredSlice r.owner ∧ len > 0 then
      let pages := (below ((a + len - 1) / 4096 - a / 4096 + 1)).map fun i => a / 4096 + i
      ({ s with pair := { s.pair with bulk := pages.foldl addPage s.pair.bulk } }).lagRefresh
    else s
  | none => s

/-- The active holds an acknowledgement of a slice until the standby has the session update that covers it (R450). -/
def State.holdAck (s : State) (u : MirrorUpd) (a : HeldAck) : State :=
  (({ s with pair := { s.pair with held := s.pair.held ++ [(s.now, a)] } }).emit (.mirror u)).count 0x0C 5 0 1

/-- A write of device memory for a slice whose pages need no copy: none, or the code of its failure (R19, R150, R165)
(log entry 30, DEDUCED). -/
def State.memWriteBare (s : State) (source inst err slice a : Nat) (l : List Byte) : Option Nat × State :=
  match s.accessCode slice a l.length with
  | some (c, b) => (some c, s.recordBlocked source inst slice c b)
  | none =>
    match s.writeBadAt a l.length with
    | some b => (some 0x0010, s.logUncorrectable slice err b)
    | none => (none, (((s.mend a l.length).putBytes a l).countPartial a l.length).bulkDirty a l.length)

/-- The writes that waited for copies whose pages are all copied go on, oldest first; the others wait on, and copies start for them
(R225). -/
def State.releaseWrites (s : State) : State :=
  match s.snap with
  | none => s
  | some p =>
    let ready := p.waiting.filter fun w => (p.uncopied w.addr w.data.length).isEmpty
    let rest := p.waiting.filter fun w => !(p.uncopied w.addr w.data.length).isEmpty
    let s := { s with snap := some (Snap.startCopies { p with waiting := rest } s.stagingPages) }
    (ready.foldl (fun s w => (s.memWriteBare 0x0D 0xFF w.source w.slice w.addr w.data).2) s).snapRefresh

/-- A write of device memory for a slice as it is performed: the pages of a snapshot epoch it touches are copied first, and the
earlier writes that waited for them go before it (R225). -/
def State.memWriteNow (s : State) (source inst err slice a : Nat) (l : List Byte) : Option Nat × State :=
  match s.snap with
  | none => s.memWriteBare source inst err slice a l
  | some _ =>
    if (s.accessCode slice a l.length).isSome ∨ (s.writeBadAt a l.length).isSome then s.memWriteBare source inst err slice a l
    else (s.copyBefore a l.length).releaseWrites.memWriteBare source inst err slice a l

/-- The stripe of a stitched address. -/
def stripeOf (a : Nat) : Nat := (a - 0x8000000000) / 40960

/-- The locked stripes that [a, a + len) touches. -/
def State.lockedIn (s : State) (a len : Nat) : List Nat :=
  if len = 0 ∨ a < 0x8000000000 then []
  else (Tab.keys s.stripes).filter fun n => decide (stripeOf a ≤ n) && decide (n ≤ stripeOf (a + len - 1))

/-- A read of the range needs reconstruction: a piece on a lost stack, or an uncorrectable word (R159). -/
def State.needsRebuild (s : State) (a len : Nat) : Bool := !(s.missingPieces a len).isEmpty

/-- A request that waited on a stripe is performed: a write, or a read of the latest written content, which waits on where it needs
reconstruction and another stripe of it is locked. -/
def State.stripeServe (s : State) : StripeReq → State
  | .write source slice a data =>
    match s.memWriteNow 0x0D 0xFF source slice a data with
    | (some c, s) => s.emit (.stitchDone c)
    | (none, s) => s.emit (.stitchDone 0)
  | .read source slice a len =>
    match s.needsRebuild a len, s.lockedIn a len with
    | true, n :: _ => { s with stripes := Tab.insert s.stripes n (Tab.get [] s.stripes n ++ [.read source slice a len]) }
    | _, _ =>
      let r := s.memReadNow 0x0D 0xFF source slice a len
      r.2.emit (.stitchData r.1)

/-- The lock of a stripe ends: its holder's write is acknowledged, and what waited is performed in arrival order (R158). -/
def State.stripeDrain (s : State) (n : Nat) : State :=
  let l := Tab.get [] s.stripes n
  l.foldl State.stripeServe ({ s with stripes := Tab.erase s.stripes n }.emit (.stitchDone 0))

/-- A write of device memory for a slice: it waits for the locks of the stripes it touches, behind what waits there already
(R158), and is performed: none, or the code of its failure (log entry 179, DESIGN CHOICE). -/
def State.memWrite (s : State) (source inst err slice a : Nat) (l : List Byte) : Option Nat × State :=
  ((s.lockedIn a l.length).foldl State.stripeDrain s).memWriteNow source inst err slice a l

/-- A read of device memory for a slice: where it needs reconstruction, it waits for the locks of the stripes it touches (R158), and is
performed (log entry 179, DESIGN CHOICE). -/
def State.memRead (s : State) (source inst err slice a len : Nat) : Got × State :=
  (if s.needsRebuild a len then (s.lockedIn a len).foldl State.stripeDrain s else s).memReadNow source inst err slice a len

/-- The refusals of accesses that an operation would make, recorded as blocked (R19); with one in 0x0008 the operation has no side
effect (R33) (log entry 188, DEDUCED). -/
def State.refusals (s : State) (source inst slice : Nat) : List (Nat × Nat) → List Nat × State
  | [] => ([], s)
  | (a, n) :: rs =>
    match s.accessCode slice a n with
    | none => s.refusals source inst slice rs
    | some (c, b) =>
      let r := (s.recordBlocked source inst slice c b).refusals source inst slice rs
      (c :: r.1, r.2)

/-! ## Completion records -/

/-- A status code as a completion reports it (R33): a code of the table as it is, what no unit of the device gives as other
(log entry 186, DESIGN CHOICE). -/
def statusKept (other c : Nat) : Nat :=
  if [0, 1, 2, 3, 4, 5, 8, 0x10, 0x11, 0x12, 0x13, 0x14, 0x15, 0x16, 0x17, 0x20, 0x21, 0x22, 0x23, 0x30, 0x40].contains c then c
  else other

/-- The 32 bytes of a record with its phase bit (the table under R29, R30). -/
def Rec.bytes (r : Rec) (phase : Nat) : List Byte :=
  bytesLE 2 (statusKept 0x11 r.status) ++ bytesLE 2 r.queue ++ bytesLE 1 r.kind ++ bytesLE 1 (r.flags / 2 * 2 + phase) ++
  bytesLE 1 r.slice ++ bytesLE 1 0 ++ bytesLE 4 r.tag ++ bytesLE 4 r.byteCount ++ bytesLE 8 r.time.toNat ++
  bytesLE 8 r.word

/-- byte_count of R32: exact below 4 GiB, else 0xFFFF_FFFF. -/
def byteCount32 (n : Nat) : Nat := if n < 2 ^ 32 then n else 0xFFFFFFFF

/-- The size of completion ring r. -/
def State.crSize (s : State) (r : Nat) : Nat := 2 ^ (min (s.getF (R.crRing r) F.crRing_size) 10 + 6)

/-- The slot after the tail of ring r is the head: the ring is full (R282). -/
def State.crFull (s : State) (r : Nat) : Bool :=
  (s.getF (R.crStatus r) F.crStatus_tail + 1) % s.crSize r == s.getF (R.crHead r) F.crHead_head

/-- Ring r exists and is owned by the slice (R83). -/
def State.crOwned (s : State) (r slice : Nat) : Bool := decide (r < 4096) && s.getF (R.crCfg r) F.crCfg_owner == slice

/-- Ring r exists, is enabled and is owned by the slice (R282). -/
def State.crOpen (s : State) (r slice : Nat) : Bool := s.crOwned r slice && s.getF (R.crCfg r) F.crCfg_enable == 1

/-- A record is lost or discarded: counted, and in the daybook under 0x0002 with the ring's index (R31, R282). -/
def State.recordLost (s : State) (r : Nat) (x : Rec) : State :=
  (s.record { source := 0x05, inst := x.slice, code := 0x0002, slice := x.slice, status := x.status,
              detail := dAt 20 r + dAt 24 x.kind }).count 0x05 6 x.slice 1

/-- The absolute vector of a vector relative to a slice's range; slice 0's are absolute until its first apply (R502). -/
def State.sliceVector (s : State) (slice v : Nat) : Nat :=
  let f := s.forceOf slice
  if slice = 0 ∧ ¬ f.applied then v else getBits f.policy F.slicePolicy_vec_base + v

/-- Move the tail of ring r by one, inverting the phase at the wrap (R30). -/
def State.crAdvance (s : State) (r : Nat) : State :=
  let tail := s.getF (R.crStatus r) F.crStatus_tail
  let next := (tail + 1) % s.crSize r
  let s := s.setF (R.crStatus r) F.crStatus_tail next
  if next = 0 then
    s.setF (R.crStatus r) F.crStatus_phase (1 - s.getF (R.crStatus r) F.crStatus_phase)
  else s

/-- Write a record to ring r, which has room, and the interrupt message that follows it (R30, R31, R282). -/
def State.crWrite (s : State) (r : Nat) (x : Rec) : State :=
  let a := s.getF (R.crRing r) F.crRing_base * 4096 + s.getF (R.crStatus r) F.crStatus_tail * 32
  let data := x.bytes (s.getF (R.crStatus r) F.crStatus_phase)
  let irq := s.getF (R.crCfg r) F.crCfg_irq
  let v := s.sliceVector x.slice (s.getF (R.crCfg r) F.crCfg_vector)
  let wantIrq := irq == 1 || (irq == 2 && x.irq)
  if s.getF (R.crRing r) F.crRing_space = 1 then
    if s.hostPath (s.sliceFn x.slice) then
      let s := (s.hostWrite x.slice a data).crAdvance r
      if wantIrq then s.raise (s.sliceFn x.slice) v else s
    else s.recordLost r x
  else
    match s.memWrite 0x05 x.slice 6 x.slice a data with
    | (none, s) =>
      let s := s.crAdvance r
      if wantIrq then s.raise (s.sliceFn x.slice) v else s
    | (some _, s) => s.recordLost r x

/-- Deliver a record to ring r: written, held while the ring is full, or discarded (R282). -/
def State.post (s : State) (r : Nat) (x : Rec) : State :=
  if s.crOpen r x.slice then
    if s.crFull r ∨ ¬ (Tab.get [] s.ringWait r).isEmpty then
      ({ s with ringWait := Tab.put [] s.ringWait r (Tab.get [] s.ringWait r ++ [x]) }).setF
        (R.crStatus r) F.crStatus_full 1
    else s.crWrite r x
  else s.recordLost r x

/-- A source holds a record for ring r, so the queue that named it starts no further work (R282). -/
def State.ringBlocked (s : State) (r : Nat) : Bool := !(Tab.get [] s.ringWait r).isEmpty

/-! ## Repair maps -/

/-- The three registers of a repair map stand at base, base + 8 and base + 16 (R6). -/
structure RepairLevel where
  /-- The map's base. -/
  base : Nat
  /-- The spare units, in the order they are used. -/
  spares : List Nat
  /-- The bit of REPAIR_PRESENT and REPAIR_FENCED that describes a unit. -/
  bitOf : List (Nat × Nat)
  /-- Daybook source and instance, the level's tally instance, and the tally block of fences (R474). -/
  source : Nat
  inst : Nat
  level : Nat
  deriving DecidableEq, Repr

/-- The bit of a unit in a level's masks. -/
def RepairLevel.bitFor (l : RepairLevel) (unit : Nat) : Nat := ((l.bitOf.find? fun p => p.1 == unit).map Prod.snd).getD unit

/-- Entry i of a substitution register: valid, unit, position. -/
def substEntry (w : Word) (i : Nat) : Bool × Nat × Nat :=
  (natBit w.toNat (32 * i + 31), natBits w.toNat (32 * i + 23) (32 * i + 12), natBits w.toNat (32 * i + 11) (32 * i))

/-- Set entry i of a substitution register. -/
def setSubst (w : Word) (i : Nat) (valid : Bool) (unit pos : Nat) : Word :=
  setBits (setBits (setBits w (32 * i + 31, 32 * i + 31) (bit valid)) (32 * i + 23, 32 * i + 12) unit)
    (32 * i + 11, 32 * i) pos

/-- The number of entries a level uses: entry 0 only with one spare (R7). -/
def RepairLevel.entries (l : RepairLevel) : Nat := if l.spares.length ≤ 1 then 1 else 2

/-- The unit that serves a position: the one a valid entry names, else the unit of the same number (R7). -/
def State.servingUnit (s : State) (l : RepairLevel) (pos : Nat) : Nat :=
  let w := s.reg (l.base + 16)
  match (below l.entries).find? fun i => (substEntry w i).1 && (substEntry w i).2.2 == pos with
  | some i => (substEntry w i).2.1
  | none => pos

/-- Unit u is fenced. -/
def State.unitFenced (s : State) (l : RepairLevel) (u : Nat) : Bool := natBit (s.reg (l.base + 8)).toNat (l.bitFor u)

/-- Unit u exists and passed the power-on self-test. -/
def State.unitPresent (s : State) (l : RepairLevel) (u : Nat) : Bool := natBit (s.reg l.base).toNat (l.bitFor u)

/-- A position is in service: the unit that serves it is present and not fenced (R8). -/
def State.posInService (s : State) (l : RepairLevel) (pos : Nat) : Bool :=
  let u := s.servingUnit l pos
  s.unitPresent l u && !s.unitFenced l u

/-- A spare that is present, not fenced and named by no valid entry. -/
def State.freeSpare (s : State) (l : RepairLevel) : Option Nat :=
  l.spares.find? fun u => s.unitPresent l u && !s.unitFenced l u &&
    !(below l.entries).any fun i => (substEntry (s.reg (l.base + 16)) i).1 && (substEntry (s.reg (l.base + 16)) i).2.1 == u

/-- The position a unit serves: the one of a valid entry that names it, else, for a unit that is no spare and whose
position no entry gives away, its own number. -/
def State.posOfUnit (s : State) (l : RepairLevel) (u : Nat) : Option Nat :=
  let w := s.reg (l.base + 16)
  match (below l.entries).find? fun i => (substEntry w i).1 && (substEntry w i).2.1 == u with
  | some i => some (substEntry w i).2.2
  | none => if l.spares.contains u ∨ s.servingUnit l u ≠ u then none else some u

/-- What a repair came to: the position now served by a spare, the position left out of service, or no position concerned. -/
inductive Repaired where
  | substituted (pos spare : Nat)
  | out (pos : Nat)
  | idleUnit
  deriving DecidableEq, Repr

/-- Fence a unit of a level and substitute a free spare for it: the fenced bit first, then the entry of the unit cleared,
then the lowest invalid entry filled (R7, R8, R9), with the daybook entries and counts. -/
def State.fenceUnit (s : State) (l : RepairLevel) (u : Nat) : Repaired × State :=
  let pos := s.posOfUnit l u
  let s := s.setBit (l.base + 8) (l.bitFor u)
  let s := s.record { source := l.source, inst := l.inst, code := 0x0020, severity := 3,
                      detail := dAt 20 l.base + dAt 24 (u % 256) }
  let s := s.count 0x11 5 l.level 1
  match pos with
  | none => (.idleUnit, s)
  | some p =>
    let w := s.reg (l.base + 16)
    let w := (below l.entries).foldl
      (fun w i => if (substEntry w i).1 && (substEntry w i).2.1 == u then setSubst w i false 0 0 else w) w
    let s := s.setReg (l.base + 16) w
    let slot := (below l.entries).find? fun i => !(substEntry w i).1
    match s.freeSpare l, slot with
    | some sp, some i =>
      let s := s.setReg (l.base + 16) (setSubst w i true sp p)
      let s := s.record { source := l.source, inst := l.inst, code := 0x0021, severity := 3,
                          detail := dAt 20 l.base + dAt 24 (sp % 256) + dAt 25 (p % 256) }
      (.substituted p sp, s.count 0x11 6 l.level 1)
    | _, _ =>
      (.out p, s.record { source := l.source, inst := l.inst, code := 0x0022, severity := 4,
                          detail := dAt 20 l.base + dAt 24 (u % 256) })

/-- Fence a unit without a substitution. -/
def State.fenceOnly (s : State) (l : RepairLevel) (u : Nat) : State :=
  let s := s.setBit (l.base + 8) (l.bitFor u)
  let s := s.record { source := l.source, inst := l.inst, code := 0x0020, severity := 3,
                      detail := dAt 20 l.base + dAt 24 (u % 256) }
  s.count 0x11 5 l.level 1

/-- The lanes of physical engine e of bench b of stack st (R6). -/
def laneLevel (st b e : Nat) : RepairLevel := ⟨R.repairLane st (9 * b + e), [32], [], 0x0E, st, 0⟩

/-- The engines of physical bench b of stack st. -/
def engineLevel (st b : Nat) : RepairLevel := ⟨R.repairEngine st b, [8], [], 0x0E, st, 1⟩

/-- The benches of stack st. -/
def benchLevel (st : Nat) : RepairLevel := ⟨R.repairBench st, [6], [], 0x0E, st, 2⟩

/-- The stacks. -/
def stackLevel : RepairLevel := ⟨R.repairStack, [], [], 0x0E, 0xFF, 3⟩

/-- PCIe lane group g. -/
def groupLevel (g : Nat) : RepairLevel := ⟨R.repairGroup g, [16], [], 0x11, 0xFF, 5⟩

/-- The modules of die-to-die link k: 2 for a bench die, 4 for a PCIe I/O die, 3 for the network I/O die (R6)
(log entry 16, DEDUCED). -/
def linkModules (k : Nat) : Nat := if k < 12 then 2 else if k < 14 then 4 else 3

/-- The lanes of die-to-die link k; a module lane shows in its module's bit, the spares in bits 62 and 63 (R6). -/
def linkLevel (k : Nat) : RepairLevel :=
  let m := linkModules k
  ⟨R.repairLink k, [64 * m, 64 * m + 1],
    (below (64 * m)).map (fun i => (i, i / 64)) ++ [(64 * m, 62), (64 * m + 1, 63)], 0x01, 0, 4⟩

end Sys2Proof.Machine
end

