-- ==== Sys2Proof/Machine/Crypto.lean ====
section
/-! DEFINITION. The cipher and hash primitives the spec names by their standards: AES and its modes, GHASH, SHA-256 and
SHA-384, HMAC, ECDSA on brainpool P-384 with RFC 6979, the CRCs and the Toeplitz hash. -/

namespace Sys2Proof.Machine

/-! ## Helpers -/

/-- Apply f n times. -/
def iter {α : Type} : Nat → (α → α) → α → α
  | 0, _, x => x
  | n + 1, f, x => iter n f (f x)

/-- The integer cube root of n, bit by bit from bit i down. -/
def icbrtFrom (n : Nat) : Nat → Nat → Nat
  | 0, r => if (r + 1) ^ 3 ≤ n then r + 1 else r
  | i + 1, r => icbrtFrom n i (if (r + 2 ^ (i + 1)) ^ 3 ≤ n then r + 2 ^ (i + 1) else r)

/-- The integer square root, bit by bit. -/
def isqrtBits (n : Nat) : Nat → Nat → Nat
  | 0, r => if (r + 1) * (r + 1) ≤ n then r + 1 else r
  | i + 1, r => isqrtBits n i (if (r + 2 ^ (i + 1)) * (r + 2 ^ (i + 1)) ≤ n then r + 2 ^ (i + 1) else r)

/-- n has no divisor among 2 to k + 1. -/
def noDivisor (n k : Nat) : Bool := (List.range k).all fun i => decide (n % (i + 2) ≠ 0) || decide (n ≤ i + 2)

/-- The primes below 410: the first 80. -/
def primes80 : List Nat := (List.range 410).filter fun n => decide (2 ≤ n) && noDivisor n 19

/-! ## SHA-2 (FIPS 180-4) -/

/-- The round constants of SHA-384: 64 fraction bits of the cube roots of the first 80 primes. -/
def sha512K : List Nat := primes80.map fun p => icbrtFrom (p * 2 ^ 192) 68 0 % 2 ^ 64

/-- The round constants of SHA-256: 32 fraction bits of the cube roots of the first 64 primes. -/
def sha256K : List Nat := (sha512K.take 64).map fun k => k / 2 ^ 32

/-- The initial value of SHA-256: 32 fraction bits of the square roots of the first 8 primes. -/
def sha256H : List Nat := (primes80.take 8).map fun p => isqrtBits (p * 2 ^ 64) 36 0 % 2 ^ 32

/-- The initial value of SHA-384: 64 fraction bits of the square roots of the 9th to 16th primes. -/
def sha384H : List Nat := ((primes80.drop 8).take 8).map fun p => isqrtBits (p * 2 ^ 128) 68 0 % 2 ^ 64

/-- The sizes and rotations of a SHA-2 function. -/
structure ShaKind where
  bits : Nat
  k : List Nat
  h : List Nat
  bigA : List Nat
  bigE : List Nat
  small0 : Nat × Nat × Nat
  small1 : Nat × Nat × Nat
  out : Nat
  deriving DecidableEq, Repr

/-- SHA-256. -/
def sha256Kind : ShaKind := ⟨32, sha256K, sha256H, [2, 13, 22], [6, 11, 25], (7, 18, 3), (17, 19, 10), 32⟩

/-- SHA-384. -/
def sha384Kind : ShaKind := ⟨64, sha512K, sha384H, [28, 34, 39], [14, 18, 41], (1, 8, 7), (19, 61, 6), 48⟩

/-- Rotate right within n bits. -/
def rotr (n x k : Nat) : Nat := (x / 2 ^ k) ||| (x % 2 ^ k * 2 ^ (n - k))

/-- A big sigma function. -/
def bigSigma (n : Nat) (rs : List Nat) (x : Nat) : Nat := rs.foldl (fun a r => a ^^^ rotr n x r) 0

/-- A small sigma function. -/
def smallSigma (n : Nat) (r : Nat × Nat × Nat) (x : Nat) : Nat := rotr n x r.1 ^^^ rotr n x r.2.1 ^^^ (x / 2 ^ r.2.2)

/-- Extend the message schedule by one word; w holds the latest 16, newest first. -/
def scheduleStep (s : ShaKind) (w : List Nat) : Nat :=
  (smallSigma s.bits s.small1 (w.getD 1 0) + w.getD 6 0 + smallSigma s.bits s.small0 (w.getD 14 0) + w.getD 15 0) %
    2 ^ s.bits

/-- The message schedule, newest first. -/
def schedule (s : ShaKind) (block : List Nat) : List Nat :=
  iter (s.k.length - 16) (fun w => scheduleStep s w :: w) block.reverse

/-- One round. -/
def shaRound (s : ShaKind) (v : List Nat) (kw : Nat × Nat) : List Nat :=
  match v with
  | [a, b, c, d, e, f, g, h] =>
    let m := 2 ^ s.bits
    let ch := (e &&& f) ^^^ ((m - 1 - e) &&& g)
    let maj := (a &&& b) ^^^ (a &&& c) ^^^ (b &&& c)
    let t1 := (h + bigSigma s.bits s.bigE e + ch + kw.1 + kw.2) % m
    let t2 := (bigSigma s.bits s.bigA a + maj) % m
    [(t1 + t2) % m, a, b, c, (d + t1) % m, e, f, g]
  | v => v

/-- Compress one block. -/
def shaBlock (s : ShaKind) (h : List Nat) (block : List Byte) : List Nat :=
  let ws := (chunks (s.bits / 8) 16 block).map beNat
  let v := (s.k.zip (schedule s ws).reverse).foldl (shaRound s) h
  (h.zip v).map fun p => (p.1 + p.2) % 2 ^ s.bits

/-- The padding of an n-byte message. -/
def shaPad (s : ShaKind) (n : Nat) : List Byte :=
  let b := s.bits * 2
  let l := s.bits / 4
  [0x80] ++ zeros ((b - (n + 1 + l) % b) % b) ++ bytesBE l (8 * n)

/-- The digest of a message. -/
def sha (s : ShaKind) (m : List Byte) : List Byte :=
  let padded := m ++ shaPad s m.length
  let h := (chunks (s.bits * 2) (m.length + 2) padded).foldl (shaBlock s) s.h
  ((h.map (bytesBE (s.bits / 8))).flatten).take s.out

/-- SHA-256. -/
def sha256 (m : List Byte) : List Byte := sha sha256Kind m

/-- SHA-384. -/
def sha384 (m : List Byte) : List Byte := sha sha384Kind m

/-- HMAC with SHA-384 (RFC 2104). -/
def hmac384 (key m : List Byte) : List Byte :=
  let k := padTo 128 (if key.length > 128 then sha384 key else key)
  sha384 (k.map (· ^^^ 0x5C) ++ sha384 (k.map (· ^^^ 0x36) ++ m))

/-! ## AES (FIPS 197) -/

/-- Multiply by x in GF(2⁸) with polynomial 0x11B. -/
def xtime (a : Nat) : Nat := if a ≥ 128 then (2 * a - 256) ^^^ 0x1B else 2 * a

/-- Multiply in GF(2⁸) with polynomial 0x11B. -/
def gf8 (a b : Nat) : Nat :=
  ((List.range 8).foldl (fun (acc : Nat × Nat) i => (if natBit b i then acc.1 ^^^ acc.2 else acc.1, xtime acc.2)) (0, a)).1

/-- The inverse in GF(2⁸), 0 for 0: the 254th power. -/
def gf8Inv (a : Nat) : Nat :=
  let a2 := gf8 a a
  let a4 := gf8 a2 a2
  let a8 := gf8 a4 a4
  let a16 := gf8 a8 a8
  let a32 := gf8 a16 a16
  let a64 := gf8 a32 a32
  let a128 := gf8 a64 a64
  gf8 a128 (gf8 a64 (gf8 a32 (gf8 a16 (gf8 a8 (gf8 a4 a2)))))

/-- Rotate a byte left. -/
def rotl8 (a k : Nat) : Nat := (a * 2 ^ k) % 256 ||| a / 2 ^ (8 - k)

/-- The S-box. -/
def sbox (a : Nat) : Nat :=
  let b := gf8Inv a
  b ^^^ rotl8 b 1 ^^^ rotl8 b 2 ^^^ rotl8 b 3 ^^^ rotl8 b 4 ^^^ 0x63

/-- The S-box table. -/
def sboxTable : List Nat := (List.range 256).map sbox

/-- The inverse S-box table. -/
def invSboxTable : List Nat := (List.range 256).map fun y => sboxTable.findIdx fun v => v == y

/-- Expand the key by one word; w newest first, i the index of the new word, nk the key's words. -/
def keyStep (nk : Nat) (w : List (List Nat)) (i : Nat) : List Nat :=
  let prev := w.getD 0 []
  let old := w.getD (nk - 1) []
  let sub := prev.map fun b => sboxTable.getD b 0
  let t :=
    if i % nk = 0 then
      let r := sub.drop 1 ++ sub.take 1
      match r with
      | a :: l => (a ^^^ iter (i / nk - 1) xtime 1) :: l
      | [] => []
    else if nk > 6 ∧ i % nk = 4 then sub
    else prev
  (old.zip t).map fun p => p.1 ^^^ p.2

/-- The round keys, 16 bytes each. -/
def keySchedule (key : List Byte) : List (List Nat) :=
  let nk := key.length / 4
  let nr := nk + 6
  let w0 := (chunks 4 nk (key.map BitVec.toNat)).reverse
  let ws := (List.range (4 * (nr + 1) - nk)).foldl (fun w j => keyStep nk w (nk + j) :: w) w0
  (chunks 4 (nr + 1) ws.reverse).map List.flatten

/-- Elementwise exclusive or of naturals. -/
def xorNats (a b : List Nat) : List Nat := (a.zip b).map fun p => p.1 ^^^ p.2

/-- ShiftRows: byte r + 4c comes from column c + r. -/
def shiftRows (dir : Nat) (s : List Nat) : List Nat :=
  (List.range 16).map fun i => s.getD (i % 4 + 4 * ((i / 4 + dir * (i % 4)) % 4)) 0

/-- MixColumns with a coefficient row. -/
def mixColumns (m : List Nat) (s : List Nat) : List Nat :=
  (List.range 16).map fun i =>
    (List.range 4).foldl (fun a j => a ^^^ gf8 (m.getD ((j + 4 - i % 4) % 4) 0) (s.getD (i / 4 * 4 + j) 0)) 0

/-- Encrypt one block. -/
def aesEnc (key block : List Byte) : List Byte :=
  let ks := keySchedule key
  let n := ks.length
  let s0 := xorNats (block.map BitVec.toNat) (ks.headD [])
  let s := (List.range (n - 1)).foldl (fun s i =>
    let t := shiftRows 1 (s.map fun b => sboxTable.getD b 0)
    let t := if i + 2 = n then t else mixColumns [2, 3, 1, 1] t
    xorNats t (ks.getD (i + 1) [])) s0
  s.map (BitVec.ofNat 8)

/-- Decrypt one block. -/
def aesDec (key block : List Byte) : List Byte :=
  let ks := (keySchedule key).reverse
  let n := ks.length
  let s0 := xorNats (block.map BitVec.toNat) (ks.headD [])
  let s := (List.range (n - 1)).foldl (fun s i =>
    let t := (shiftRows 3 s).map fun b => invSboxTable.getD b 0
    let t := xorNats t (ks.getD (i + 1) [])
    if i + 2 = n then t else mixColumns [14, 11, 13, 9] t) s0
  s.map (BitVec.ofNat 8)

/-! ## GCM, CTR, XTS, key wrap -/

/-- The product of two blocks in GF(2¹²⁸), bit order of SP 800-38D: bit 0 is the most significant bit of byte 0. -/
def gfMul128 (x y : List Byte) : List Byte :=
  let xn := beNat x
  let v0 := beNat y
  let r := 0xE1 * 2 ^ 120
  let z := (List.range 128).foldl (fun (a : Nat × Nat) i =>
    (if natBit xn (127 - i) then a.1 ^^^ a.2 else a.1, if a.2 % 2 = 1 then (a.2 / 2) ^^^ r else a.2 / 2)) (0, v0)
  bytesBE 16 z.1

/-- Pad with zeros to whole blocks. -/
def pad16 (l : List Byte) : List Byte := l ++ zeros ((16 - l.length % 16) % 16)

/-- GHASH under h. -/
def ghash (h l : List Byte) : List Byte :=
  (chunks 16 (l.length / 16) l).foldl (fun y b => gfMul128 (xorBytes y b) h) (zeros 16)

/-- The counter block with its low 32 bits advanced by n (R396). -/
def inc32 (b : List Byte) (n : Nat) : List Byte := b.take 12 ++ bytesBE 4 (beNat (b.drop 12) + n)

/-- The counter block advanced as a 128-bit integer (R397). -/
def inc128 (b : List Byte) (n : Nat) : List Byte := bytesBE 16 (beNat b + n)

/-- Exclusive or of data with the key stream of counter blocks from first on. -/
def ctrCrypt (key : List Byte) (counter : Nat → List Byte) (l : List Byte) : List Byte :=
  let bs := chunks 16 (l.length / 16 + 1) l
  ((bs.zip (List.range bs.length)).map fun p => xorBytes p.1 (aesEnc key (counter p.2))).flatten

/-- The GCM tag of a ciphertext (R396). -/
def gcmTag (key nonce aad ct : List Byte) : List Byte :=
  let h := aesEnc key (zeros 16)
  let j0 := nonce ++ bytesBE 4 1
  xorBytes (aesEnc key j0)
    (ghash h (pad16 aad ++ pad16 ct ++ bytesBE 8 (8 * aad.length) ++ bytesBE 8 (8 * ct.length)))

/-- GCM's data transform, the same both ways (R396). -/
def gcmCrypt (key nonce l : List Byte) : List Byte := ctrCrypt key (fun b => inc32 (nonce ++ bytesBE 4 1) (b + 1)) l

/-- The tweak times x, as IEEE 1619 has it. -/
def xtsDouble (t : List Byte) : List Byte :=
  let n := leNat t * 2
  bytesLE 16 (if n ≥ 2 ^ 128 then (n % 2 ^ 128) ^^^ 0x87 else n)

/-- One XTS block under tweak t. -/
def xtsBlock (f : List Byte → List Byte) (t b : List Byte) : List Byte := xorBytes (f (xorBytes b t)) t

/-- XTS on the whole blocks of a data unit. -/
def xtsBlocks (f : List Byte → List Byte) : List (List Byte) → List Byte → List Byte
  | [], _ => []
  | b :: bs, t => xtsBlock f t b ++ xtsBlocks f bs (xtsDouble t)

/-- One data unit of XTS with its number, with ciphertext stealing where it is no whole number of blocks (R398). -/
def xtsUnit (enc : Bool) (k1 k2 : List Byte) (number : Nat) (l : List Byte) : List Byte :=
  let t0 := aesEnc k2 (bytesLE 16 number)
  let f := if enc then aesEnc k1 else aesDec k1
  let n := l.length / 16
  let rest := l.length % 16
  if rest = 0 then xtsBlocks f (chunks 16 n l) t0
  else
    let head := l.take (16 * (n - 1))
    let last := (l.drop (16 * (n - 1))).take 16
    let tail := l.drop (16 * n)
    let tA := iter (n - 1) xtsDouble t0
    let tB := iter n xtsDouble t0
    let t1 := if enc then tA else tB
    let t2 := if enc then tB else tA
    let cc := xtsBlock f t1 last
    xtsBlocks f (chunks 16 (n - 1) head) t0 ++ xtsBlock f t2 (tail ++ cc.drop rest) ++ cc.take rest

/-- AES key unwrap (SP 800-38F, KW): the key, or none where the integrity check fails. -/
def keyUnwrap (kek blob : List Byte) : Option (List Byte) :=
  let n := blob.length / 8 - 1
  let r0 := chunks 8 n (blob.drop 8)
  let res := (List.range (6 * n)).foldl (fun (a : List Byte × List (List Byte)) i =>
    let t := 6 * n - i
    let idx := (t - 1) % n
    let b := aesDec kek (bytesBE 8 (beNat a.1 ^^^ t) ++ a.2.getD idx [])
    (b.take 8, a.2.set idx (b.drop 8))) (blob.take 8, r0)
  if res.1 = List.replicate 8 0xA6 then some res.2.flatten else none

/-! ## ECDSA on brainpool P-384 (RFC 5639, RFC 6979) -/

/-- The field prime. -/
def bpP : Nat := 0x8CB91E82A3386D280F5D6F7E50E641DF152F7109ED5456B412B1DA197FB71123ACD3A729901D1A71874700133107EC53
/-- Coefficient A. -/
def bpA : Nat := 0x7BC382C63D8C150C3C72080ACE05AFA0C2BEA28E4FB22787139165EFBA91F90F8AA5814A503AD4EB04A8C7DD22CE2826
/-- Coefficient B. -/
def bpB : Nat := 0x04A8C7DD22CE28268B39B55416F0447C2FB77DE107DCD2A62E880EA53EEB62D57CB4390295DBC9943AB78696FA504C11
/-- The generator. -/
def bpG : Nat × Nat :=
  (0x1D1C64F068CF45FFA2A63A81B7C13F6B8847A3E77EF14FE3DB7FCAFE0CBD10E8E826E03436D646AAEF87B2E247D4AF1E,
   0x8ABE1D7520F9C2A45CB1EB8E95CFD55262B70B29FEEC5864E19C054FF99129280E4646217791811142820341263C5315)
/-- The order. -/
def bpN : Nat := 0x8CB91E82A3386D280F5D6F7E50E641DF152F7109ED5456B31F166E6CAC0425A7CF3AB6AF6B7FC3103B883202E9046565

/-- b^e mod m over the n low bits of e. -/
def powMod (m b e : Nat) : Nat → Nat
  | 0 => 1 % m
  | n + 1 => let r := powMod m b (e / 2) n; let s := r * r % m; if e % 2 = 1 then s * b % m else s

/-- The inverse modulo a prime. -/
def invMod (m a : Nat) : Nat := powMod m (a % m) (m - 2) 384

/-- A curve point; none is the point at infinity. -/
abbrev Pt := Option (Nat × Nat)

/-- Point addition. -/
def ptAdd (p q : Pt) : Pt :=
  match p, q with
  | none, q => q
  | p, none => p
  | some (x1, y1), some (x2, y2) =>
    if x1 = x2 ∧ (y1 + y2) % bpP = 0 then none
    else
      let l := if x1 = x2 then (3 * x1 * x1 + bpA) * invMod bpP (2 * y1) % bpP
        else (y2 + bpP - y1) * invMod bpP (x2 + bpP - x1) % bpP
      let x := (l * l + 2 * bpP - x1 - x2) % bpP
      some (x, (l * (x1 + bpP - x) + bpP - y1) % bpP)

/-- k × P over the n low bits of k. -/
def ptMul (k : Nat) (p : Pt) : Nat → Pt
  | 0 => none
  | n + 1 => let h := ptMul (k / 2) p n; let d := ptAdd h h; if k % 2 = 1 then ptAdd d p else d

/-- The point lies on the curve. -/
def onCurve (p : Nat × Nat) : Bool :=
  decide (p.1 < bpP) && decide (p.2 < bpP) && decide (p.2 * p.2 % bpP = (p.1 * p.1 * p.1 + bpA * p.1 + bpB) % bpP)

/-- The public point of a scalar. -/
def publicPoint (d : Nat) : Pt := ptMul d (some bpG) 384

/-- The 97-byte uncompressed form. -/
def ptBytes (p : Pt) : List Byte :=
  match p with
  | some (x, y) => [0x04] ++ bytesBE 48 x ++ bytesBE 48 y
  | none => zeros 97

/-- The point a 97-byte uncompressed form names, if it is one. -/
def ptOfBytes (l : List Byte) : Option (Nat × Nat) :=
  let p := (beNat ((l.drop 1).take 48), beNat ((l.drop 49).take 48))
  if l.headD 0 = 0x04 ∧ l.length = 97 ∧ onCurve p then some p else none

/-- r ‖ s verifies over a digest under a public key (R400). -/
def ecdsaVerify (q : Nat × Nat) (digest sig : List Byte) : Bool :=
  let r := beNat (sig.take 48)
  let s := beNat ((sig.drop 48).take 48)
  if r = 0 ∨ s = 0 ∨ r ≥ bpN ∨ s ≥ bpN then false
  else
    let w := invMod bpN s
    let z := beNat digest % bpN
    match ptAdd (ptMul (z * w % bpN) (some bpG) 384) (ptMul (r * w % bpN) (some q) 384) with
    | some (x, _) => decide (x % bpN = r)
    | none => false

/-- The candidates for k of RFC 6979 with HMAC-SHA-384, tried in turn. -/
def rfc6979 (fuel : Nat) (k v : List Byte) (ok : Nat → Option (List Byte)) : List Byte :=
  match fuel with
  | 0 => []
  | n + 1 =>
    let v := hmac384 k v
    let c := beNat v
    match (if 0 < c ∧ c < bpN then ok c else none) with
    | some r => r
    | none =>
      let k := hmac384 k (v ++ [0x00])
      rfc6979 n k (hmac384 k v) ok

/-- Sign a digest with scalar d: r ‖ s (R400). -/
def ecdsaSign (d : Nat) (digest : List Byte) : List Byte :=
  let z := beNat digest % bpN
  let x := bytesBE 48 d
  let h := bytesBE 48 z
  let v := List.replicate 48 (0x01 : Byte)
  let k := List.replicate 48 (0x00 : Byte)
  let k := hmac384 k (v ++ [0x00] ++ x ++ h)
  let v := hmac384 k v
  let k := hmac384 k (v ++ [0x01] ++ x ++ h)
  let v := hmac384 k v
  rfc6979 64 k v fun c =>
    match ptMul c (some bpG) 384 with
    | some (px, _) =>
      let r := px % bpN
      let s := invMod bpN c * (z + r * d) % bpN
      if r = 0 ∨ s = 0 then none else some (bytesBE 48 r ++ bytesBE 48 s)
    | none => none

/-! ## CRCs and Toeplitz -/

/-- A non-reflected CRC of n bits with a polynomial and an initial value. -/
def crc (n poly init : Nat) (l : List Byte) : Nat :=
  l.foldl (fun c b =>
    (List.range 8).foldl (fun c i =>
      let top := natBit c (n - 1) != natBit b.toNat (7 - i)
      let c := c * 2 % 2 ^ n
      if top then c ^^^ poly else c) c) init

/-- The CRC-64 of a die-to-die flit (R5), initial value 0 (log entry 10, DEDUCED). -/
def crc64 (l : List Byte) : Nat := crc 64 0x42F0E1EBA9EA3693 0 l

/-- The CRC-8 of the HBM address check byte (R162). -/
def crc8 (l : List Byte) : Nat := crc 8 0x07 0 l

/-- CRC-32C, reflected, with initial value and final inversion of all ones. -/
def crc32c (l : List Byte) : Nat :=
  let c := l.foldl (fun c b =>
    (List.range 8).foldl (fun c _ => if c % 2 = 1 then (c / 2) ^^^ 0x82F63B78 else c / 2) (c ^^^ b.toNat)) (2 ^ 32 - 1)
  c ^^^ (2 ^ 32 - 1)

/-- The Ethernet CRC-32, reflected, with initial value and final inversion of all ones. -/
def crc32 (l : List Byte) : Nat :=
  let c := l.foldl (fun c b =>
    (List.range 8).foldl (fun c _ => if c % 2 = 1 then (c / 2) ^^^ 0xEDB88320 else c / 2) (c ^^^ b.toNat)) (2 ^ 32 - 1)
  c ^^^ (2 ^ 32 - 1)

/-- The Toeplitz hash of data under a key: 32 bits. -/
def toeplitz (key data : List Byte) : Nat :=
  let kn := beNat key
  let kb := 8 * key.length
  (List.range (8 * data.length)).foldl (fun a i =>
    if natBit (data.getD (i / 8) 0).toNat (7 - i % 8) then a ^^^ (kn / 2 ^ (kb - 32 - i) % 2 ^ 32) else a) 0

/-- Multiply in GF(2⁸) with polynomial 0x11D (R155). -/
def gmul (a b : Nat) : Nat :=
  ((List.range 8).foldl (fun (acc : Nat × Nat) i =>
    (if natBit b i then acc.1 ^^^ acc.2 else acc.1, if acc.2 ≥ 128 then (2 * acc.2 - 256) ^^^ 0x1D else 2 * acc.2)) (0, a)).1

/-- 2^j in the field of R155. -/
def gpow (j : Nat) : Nat := iter j (fun a => gmul a 2) 1

/-- The inverse in the field of R155. -/
def ginv (a : Nat) : Nat := iter 7 (fun r => gmul (gmul r r) a) 1 |> fun r => gmul r r

/-- Division in the field of R155. -/
def gdiv (a b : Nat) : Nat := gmul a (ginv b)

/-- The device identifier (R430): the SHA-384 of the identity public key. -/
def deviceId : List Byte := sha384 (ptBytes (publicPoint Config.identityScalar))

end Sys2Proof.Machine
end

