-- ==== Sys2Proof/Machine/Numbers.lean ====
section
/-! DEFINITION. The number formats, the one rounding function, Philox, the conversions and the elementwise operations of
the chapter on arithmetic (R36 to R50, R70). Values are exact until the single rounding. -/

namespace Sys2Proof.Machine

/-! ## Formats -/

/-- How a format uses its largest exponent field: infinities and NaNs, one NaN per sign (E4M3), or only finite values. -/
inductive Specials where
  | ieee
  | e4m3
  | finite
  deriving DecidableEq, Repr

/-- A floating-point format: exponent bits, mantissa bits, bias, specials, canonical NaN (R36, R39). -/
structure Fmt where
  ebits : Nat
  mbits : Nat
  bias : Nat
  specials : Specials
  nan : Nat
  deriving DecidableEq, Repr

/-- FP32. -/
def fp32 : Fmt := ⟨8, 23, 127, .ieee, 0x7FC00000⟩
/-- BF16. -/
def bf16 : Fmt := ⟨8, 7, 127, .ieee, 0x7FC0⟩
/-- FP16. -/
def fp16 : Fmt := ⟨5, 10, 15, .ieee, 0x7E00⟩
/-- FP8 E4M3. -/
def e4m3 : Fmt := ⟨4, 3, 7, .e4m3, 0x7F⟩
/-- FP8 E5M2. -/
def e5m2 : Fmt := ⟨5, 2, 15, .ieee, 0x7F⟩
/-- FP6 E3M2. -/
def e3m2 : Fmt := ⟨3, 2, 3, .finite, 0⟩
/-- FP6 E2M3. -/
def e2m3 : Fmt := ⟨2, 3, 1, .finite, 0⟩
/-- FP4 E2M1. -/
def e2m1 : Fmt := ⟨2, 1, 1, .finite, 0⟩

/-- Bits of a code. -/
def Fmt.bits (f : Fmt) : Nat := 1 + f.ebits + f.mbits

/-- The value a code stands for: (−1)^neg × mag × 2^exp, an infinity, or NaN. -/
inductive Num where
  | fin (neg : Bool) (mag : Nat) (exp : Int)
  | inf (neg : Bool)
  | nan
  deriving DecidableEq, Repr

/-- The value of a code (R36); in E4M3 only S.1111.111 is NaN. -/
def Fmt.decode (f : Fmt) (code : Nat) : Num :=
  let m := code % 2 ^ f.mbits
  let e := code / 2 ^ f.mbits % 2 ^ f.ebits
  let neg := code / 2 ^ (f.mbits + f.ebits) % 2 == 1
  let value : Num :=
    if e = 0 then .fin neg m (1 - (f.bias : Int) - f.mbits)
    else .fin neg (2 ^ f.mbits + m) ((e : Int) - f.bias - f.mbits)
  match f.specials with
  | .ieee => if e + 1 = 2 ^ f.ebits then (if m = 0 then .inf neg else .nan) else value
  | .e4m3 => if e + 1 = 2 ^ f.ebits ∧ m + 1 = 2 ^ f.mbits then .nan else value
  | .finite => value

/-- The code of ±max finite. -/
def Fmt.maxCode (f : Fmt) (neg : Bool) : Nat :=
  let s := bit neg * 2 ^ (f.ebits + f.mbits)
  match f.specials with
  | .ieee => s + (2 ^ f.ebits - 1) * 2 ^ f.mbits - 1
  | .e4m3 => s + 2 ^ (f.ebits + f.mbits) - 2
  | .finite => s + 2 ^ (f.ebits + f.mbits) - 1

/-- The code of ±infinity; E4M3 gives its NaN, and a format of finite values only its max finite (R43). -/
def Fmt.infCode (f : Fmt) (neg : Bool) : Nat :=
  match f.specials with
  | .ieee => bit neg * 2 ^ (f.ebits + f.mbits) + (2 ^ f.ebits - 1) * 2 ^ f.mbits
  | .e4m3 => f.nan
  | .finite => f.maxCode neg

/-- A format of finite values only always saturates (R43). -/
def Fmt.saturates (f : Fmt) (sat : Bool) : Bool := sat || f.specials == .finite

/-! ## Flags of R67 -/

/-- range_high. -/
def flRangeHigh : Nat := 1
/-- range_low. -/
def flRangeLow : Nat := 2
/-- bound_exceeded. -/
def flBound : Nat := 4
/-- has_nan. -/
def flNan : Nat := 8
/-- has_pos_inf. -/
def flPosInf : Nat := 16
/-- has_neg_inf. -/
def flNegInf : Nat := 32
/-- saturated. -/
def flSat : Nat := 64
/-- special_in_block. -/
def flSpecial : Nat := 128
/-- excess_clipped. -/
def flClipped : Nat := 256

/-- The flags make the operation complete with 0x0030 (R67). -/
def rangeFlagged (fl : Nat) : Bool := fl % 8 != 0

/-! ## Philox and stochastic rounding -/

/-- One round of Philox4x32 on counter and key (R49). -/
def philoxRound (c : Nat × Nat × Nat × Nat) (k : Nat × Nat) : Nat × Nat × Nat × Nat :=
  let p0 := 0xD2511F53 * c.1
  let p1 := 0xCD9E8D57 * c.2.2.1
  ((p1 / 2 ^ 32) ^^^ c.2.1 ^^^ k.1, p1 % 2 ^ 32, (p0 / 2 ^ 32) ^^^ c.2.2.2 ^^^ k.2, p0 % 2 ^ 32)

/-- n rounds of Philox4x32 with the key bump between them (R49). -/
def philoxRounds : Nat → Nat × Nat × Nat × Nat → Nat × Nat → Nat × Nat × Nat × Nat
  | 0, c, _ => c
  | n + 1, c, k =>
    philoxRounds n (philoxRound c k) ((k.1 + 0x9E3779B9) % 2 ^ 32, (k.2 + 0xBB67AE85) % 2 ^ 32)

/-- Philox4x32-10 (R49). -/
def philox (c : Nat × Nat × Nat × Nat) (k : Nat × Nat) : Nat × Nat × Nat × Nat := philoxRounds 10 c k

/-- Output word i of four. -/
def word4 (w : Nat × Nat × Nat × Nat) (i : Nat) : Nat :=
  match i % 4 with
  | 0 => w.1
  | 1 => w.2.1
  | 2 => w.2.2.1
  | _ => w.2.2.2

/-- What selects random words: the job seed, the tensor identifier, the step (R48). -/
structure SrKey where
  seed : Nat
  tensor : Nat
  step : Nat
  deriving DecidableEq, Repr

/-- The random word of element i (R48). -/
def srWord (k : SrKey) (i : Nat) : Nat :=
  let j := i / 4
  word4 (philox (j % 2 ^ 32, j / 2 ^ 32 % 2 ^ 32, k.step % 2 ^ 32, k.step / 2 ^ 32 % 2 ^ 32)
    (k.seed % 2 ^ 32, (k.seed / 2 ^ 32 % 2 ^ 32) ^^^ (k.tensor % 2 ^ 32))) i

/-- A rounding: mode of R42 (0 RNE, 1 RTZ, 2 SR), the random word of SR, the saturation bit. -/
structure Rnd where
  mode : Nat
  r : Nat
  sat : Bool
  deriving DecidableEq, Repr

/-- Round to nearest even without saturation. -/
def rne : Rnd := ⟨0, 0, false⟩

/-- The rounding of element i under mode, sat and key. -/
def rndAt (mode : Nat) (sat : Bool) (k : SrKey) (i : Nat) : Rnd := ⟨mode, if mode = 2 then srWord k i else 0, sat⟩

/-! ## The one rounding -/

/-- A positive magnitude: mag × 2^exp exactly, or strictly between that and (mag + 1) × 2^exp when sticky. -/
structure Mag where
  mag : Nat
  exp : Int
  sticky : Bool
  deriving DecidableEq, Repr

/-- floor(log2 m) for m > 0. -/
def log2f (m : Nat) : Nat := m.log2

/-- m × 2^e for e ≥ 0, its floor otherwise. -/
def shiftNat (m : Nat) (e : Int) : Nat := if e ≥ 0 then m * 2 ^ e.toNat else m / 2 ^ (-e).toNat

/-- The integer that a magnitude rounds to in units of 2^q (R42, R50). -/
def roundUnits (m : Mag) (q : Int) (rd : Rnd) : Nat :=
  let d := m.exp - q
  let k := shiftNat m.mag d
  if d ≥ 0 then k
  else
    let n := (-d).toNat
    let rem := m.mag % 2 ^ n
    let half := 2 ^ (n - 1)
    match rd.mode with
    | 0 =>
      if rem > half ∨ (rem = half ∧ (m.sticky ∨ k % 2 = 1)) then k + 1 else k
    | 2 => if rd.r < rem * 2 ^ 32 / 2 ^ n then k + 1 else k
    | _ => k

/-- The lsb weight, as a power of 2, of the binade of a magnitude in a format; subnormals share the least (R36, R40). -/
def Fmt.quantum (f : Fmt) (m : Mag) : Int :=
  max ((log2f m.mag : Int) + m.exp) (1 - (f.bias : Int)) - f.mbits

/-- The code of a whole number of units of 2^q, with sign, before overflow is considered. -/
def Fmt.assemble (f : Fmt) (neg : Bool) (k : Nat) (q : Int) : Nat :=
  let s := bit neg * 2 ^ (f.ebits + f.mbits)
  if k < 2 ^ f.mbits then s + k
  else
    let up := log2f k - f.mbits
    let e := (q + up + f.bias + f.mbits).toNat
    s + e * 2 ^ f.mbits + (k / 2 ^ up - 2 ^ f.mbits)

/-- k × 2^q is above the largest finite magnitude of the format. -/
def Fmt.above (f : Fmt) (k : Nat) (q : Int) : Bool :=
  match f.decode (f.maxCode false) with
  | .fin _ m e => if q ≥ e then decide (k * 2 ^ (q - e).toNat > m) else decide (k > m * 2 ^ (e - q).toNat)
  | _ => false

/-- Round a magnitude with a sign to a format: code and flags (R42, R43, R50). -/
def Fmt.round (f : Fmt) (neg : Bool) (m : Mag) (rd : Rnd) : Nat × Nat :=
  if m.mag = 0 ∧ ¬ m.sticky then (bit neg * 2 ^ (f.ebits + f.mbits), 0)
  else
    let q := f.quantum m
    let k := roundUnits m q rd
    if f.above k q then
      if rd.mode = 1 then (f.maxCode neg, 0)
      else if f.saturates rd.sat then (f.maxCode neg, flSat)
      else (f.infCode neg, 0)
    else (f.assemble neg k q, 0)

/-- Convert a value to a format: code and flags (R43); a NaN to a format without NaN gives +0 (log entry 9, DEDUCED). -/
def Fmt.convert (f : Fmt) (v : Num) (rd : Rnd) : Nat × Nat :=
  match v with
  | .nan => (f.nan, flNan)
  | .inf neg => if f.saturates rd.sat then (f.maxCode neg, flSat) else (f.infCode neg, 0)
  | .fin neg m e => f.round neg ⟨m, e, false⟩ rd

/-- Convert a value to an n-bit two's-complement integer: code and flags (R45). -/
def convertInt (n : Nat) (v : Num) (rd : Rnd) : Nat × Nat :=
  let lo := 2 ^ (n - 1)
  match v with
  | .nan => (0, flNan)
  | .inf neg => (if neg then lo else lo - 1, flSat)
  | .fin neg m e =>
    let k := roundUnits ⟨m, e, false⟩ 0 rd
    if neg then (if k > lo then (lo, flSat) else ((2 ^ n - k) % 2 ^ n, 0))
    else if k > lo - 1 then (lo - 1, flSat) else (k, 0)

/-! ## Exact values as integers -/

/-- A finite value as an integer multiple of 2^u, where u is at most its exponent. -/
def Num.scaled (v : Num) (u : Int) : Int :=
  match v with
  | .fin neg m e => let k : Int := m * (2 ^ (e - u).toNat : Nat); if neg then -k else k
  | _ => 0

/-- The value of an integer multiple of 2^u; zero is +0 (R41). -/
def ofScaled (n : Int) (u : Int) : Num := .fin (n < 0) n.natAbs u

/-- Product of two values; infinity × 0 is NaN. -/
def Num.mul : Num → Num → Num
  | .nan, _ => .nan
  | _, .nan => .nan
  | .inf a, .inf b => .inf (a != b)
  | .inf a, .fin b m _ => if m = 0 then .nan else .inf (a != b)
  | .fin a m _, .inf b => if m = 0 then .nan else .inf (a != b)
  | .fin a m e, .fin b n d => .fin (a != b) (m * n) (e + d)

/-- A value times 2^e. -/
def Num.scale (v : Num) (e : Int) : Num :=
  match v with
  | .fin a m d => .fin a m (d + e)
  | w => w

/-- Negation. -/
def Num.neg : Num → Num
  | .fin a m e => .fin (!a) m e
  | .inf a => .inf (!a)
  | .nan => .nan

/-- The value is NaN. -/
def Num.isNan : Num → Bool
  | .nan => true
  | _ => false

/-- The value is finite. -/
def Num.isFin : Num → Bool
  | .fin .. => true
  | _ => false

/-- The value is a zero. -/
def Num.isZero : Num → Bool
  | .fin _ m _ => m == 0
  | _ => false

/-- The exact sum of two values under IEEE 754: zero of both signs as the signs agree, else +0. -/
def Num.add : Num → Num → Num
  | .nan, _ => .nan
  | _, .nan => .nan
  | .inf a, .inf b => if a = b then .inf a else .nan
  | .inf a, _ => .inf a
  | _, .inf b => .inf b
  | .fin a m e, .fin b n d =>
    let u := min e d
    let t := (Num.fin a m e).scaled u + (Num.fin b n d).scaled u
    if t = 0 then .fin (a && b) 0 u else ofScaled t u

/-- x < y for values that are no NaN, with −0 below +0 (R70). -/
def Num.lt : Num → Num → Bool
  | .inf true, .inf true => false
  | .inf true, _ => true
  | _, .inf true => false
  | .inf false, _ => false
  | _, .inf false => true
  | .fin a m e, .fin b n d =>
    let u := min e d
    let x := (Num.fin a m e).scaled u
    let y := (Num.fin b n d).scaled u
    if x = y then a && !b else decide (x < y)
  | _, _ => false

/-! ## Elementwise FP32 operations (R70) -/

/-- The FP32 result of an operation: an exact infinity stays one, anything else is rounded once (R43, R70). -/
def f32Result (v : Num) (rd : Rnd) : Nat × Nat :=
  match v with
  | .inf neg => (fp32.infCode neg, 0)
  | w => fp32.convert w rd

/-- FP32 add. -/
def f32Add (a b : Nat) (rd : Rnd) : Nat × Nat := f32Result ((fp32.decode a).add (fp32.decode b)) rd

/-- FP32 subtract. -/
def f32Sub (a b : Nat) (rd : Rnd) : Nat × Nat := f32Result ((fp32.decode a).add (fp32.decode b).neg) rd

/-- FP32 multiply. -/
def f32Mul (a b : Nat) (rd : Rnd) : Nat × Nat := f32Result ((fp32.decode a).mul (fp32.decode b)) rd

/-- FP32 fused multiply-add a × b + c. -/
def f32Fma (a b c : Nat) (rd : Rnd) : Nat × Nat :=
  f32Result (((fp32.decode a).mul (fp32.decode b)).add (fp32.decode c)) rd

/-- The quotient of two positive magnitudes with 96 bits beyond the leading one. -/
def divMag (m : Nat) (e : Int) (n : Nat) (d : Int) : Mag :=
  let sh := 96 + log2f n + 1
  let q := m * 2 ^ sh / n
  ⟨q, e - d - sh, m * 2 ^ sh % n != 0⟩

/-- The quotient of two values rounded to FP32. -/
def numDiv (x y : Num) (rd : Rnd) : Nat × Nat :=
  match x, y with
  | .nan, _ => (fp32.nan, flNan)
  | _, .nan => (fp32.nan, flNan)
  | .inf _, .inf _ => (fp32.nan, flNan)
  | .inf a, .fin b _ _ => f32Result (.inf (a != b)) rd
  | .fin a _ _, .inf b => (bit (a != b) * 2 ^ 31, 0)
  | .fin a m e, .fin b n d =>
    if n = 0 then (if m = 0 then (fp32.nan, flNan) else f32Result (.inf (a != b)) rd)
    else if m = 0 then (bit (a != b) * 2 ^ 31, 0)
    else fp32.round (a != b) (divMag m e n d) rd

/-- FP32 divide. -/
def f32Div (a b : Nat) (rd : Rnd) : Nat × Nat := numDiv (fp32.decode a) (fp32.decode b) rd

/-- The integer square root of n, bit by bit from bit i down. -/
def isqrtFrom (n : Nat) : Nat → Nat → Nat
  | 0, r => if (r + 1) * (r + 1) ≤ n then r + 1 else r
  | i + 1, r => isqrtFrom n i (if (r + 2 ^ (i + 1)) * (r + 2 ^ (i + 1)) ≤ n then r + 2 ^ (i + 1) else r)

/-- The integer square root of n. -/
def isqrt (n : Nat) : Nat := isqrtFrom n (n.log2 / 2 + 1) 0

/-- The square root of a positive magnitude, to at least 96 bits. -/
def sqrtMag (m : Nat) (e : Int) : Mag :=
  let e' := if e % 2 = 0 then e else e - 1
  let m' := if e % 2 = 0 then m else 2 * m
  let n := m' * 2 ^ 192
  let r := isqrt n
  ⟨r, e' / 2 - 96, r * r != n⟩

/-- FP32 square root. -/
def f32Sqrt (a : Nat) (rd : Rnd) : Nat × Nat :=
  match fp32.decode a with
  | .nan => (fp32.nan, flNan)
  | .inf neg => if neg then (fp32.nan, flNan) else f32Result (.inf false) rd
  | .fin neg m e =>
    if m = 0 then (bit neg * 2 ^ 31, 0)
    else if neg then (fp32.nan, flNan)
    else fp32.round false (sqrtMag m e) rd

/-- FP32 minimum: NaN when either input is NaN, −0 below +0. -/
def f32Min (a b : Nat) : Nat × Nat :=
  let x := fp32.decode a
  let y := fp32.decode b
  if x.isNan || y.isNan then (fp32.nan, flNan) else if y.lt x then (b, 0) else (a, 0)

/-- FP32 maximum: NaN when either input is NaN, −0 below +0. -/
def f32Max (a b : Nat) : Nat × Nat :=
  let x := fp32.decode a
  let y := fp32.decode b
  if x.isNan || y.isNan then (fp32.nan, flNan) else if x.lt y then (b, 0) else (a, 0)

/-! ## Formats by number -/

/-- The source formats of quantize and reduce: 0 FP32, 1 BF16, 2 FP16. -/
def plainFmt (i : Nat) : Fmt := if i = 0 then fp32 else if i = 1 then bf16 else fp16

/-- The operand formats of coprocessor 0 (R131) that are floating point. -/
def engineFmt (i : Nat) : Fmt :=
  match i with
  | 0 => e4m3
  | 1 => e5m2
  | 2 => e3m2
  | 3 => e2m3
  | 4 => e2m1
  | 7 => bf16
  | 8 => fp16
  | _ => fp32

/-- Operand format i is INT8 or INT4. -/
def engineInt (i : Nat) : Bool := i == 5 || i == 6

/-- Operand format i is BF16, FP16 or FP32 (R66). -/
def engineWide (i : Nat) : Bool := decide (7 ≤ i) && decide (i ≤ 9)

/-- The bits of an element of operand format i. -/
def engineBits (i : Nat) : Nat :=
  match i with
  | 0 => 8
  | 1 => 8
  | 2 => 6
  | 3 => 6
  | 4 => 4
  | 5 => 8
  | 6 => 4
  | 7 => 16
  | 8 => 16
  | _ => 32

/-- The value of an element code of operand format i (R36, R38). -/
def engineValue (i code : Nat) : Num :=
  if engineInt i then
    let n := engineBits i
    ofScaled (signed n code) 0
  else (engineFmt i).decode code

/-- Element k of bits width in a packed little-endian byte list (R37). -/
def packedElem (bits : Nat) (l : List Byte) (k : Nat) : Nat :=
  let b := bits * k / 8
  fieldLE l b 5 / 2 ^ (bits * k % 8) % 2 ^ bits

/-- Pack element codes of a bit width little-endian into bytes (R37). -/
def packElems (bits : Nat) (codes : List Nat) : List Byte :=
  let n := codes.foldr (fun c acc => acc * 2 ^ bits + c % 2 ^ bits) 0
  bytesLE ((bits * codes.length + 7) / 8) n

/-! ## MX blocks (R37, R46, R47) -/

/-- Element format of MX target i of R90, 0 to 4. -/
def mxFmt (i : Nat) : Fmt :=
  match i with
  | 0 => e4m3
  | 1 => e5m2
  | 2 => e3m2
  | 3 => e2m3
  | _ => e2m1

/-- emax of R46. -/
def mxEmax (i : Nat) : Int :=
  match i with
  | 0 => 8
  | 1 => 15
  | 2 => 4
  | _ => 2

/-- floor(log2 |v|) of a nonzero finite value. -/
def Num.floorLog2 : Num → Int
  | .fin _ m e => (log2f m : Int) + e
  | _ => 0

/-- The larger of two magnitudes. -/
def maxMag (a b : Num) : Num :=
  match a, b with
  | .fin _ m e, .fin _ n d => if (Num.fin false m e).lt (.fin false n d) then .fin false n d else .fin false m e
  | x, _ => x

/-- Quantize up to 32 values to an MX block: the scale byte, the element codes and their flags (R46). -/
def quantizeBlock (i : Nat) (vs : List Num) (rds : List Rnd) : Nat × List (Nat × Nat) :=
  let f := mxFmt i
  if vs.any fun v => !v.isFin then
    let fl := flSpecial + (if vs.any Num.isNan then flNan else 0)
    (0xFF, vs.map fun _ => (0, fl))
  else
    let amax := vs.foldl maxMag (.fin false 0 0)
    if amax.isZero then (0x7F, vs.map fun v => f.convert v rne)
    else
      let x := max (-127) (min 127 (amax.floorLog2 - mxEmax i))
      ((x + 127).toNat, (vs.zip rds).map fun p => f.convert (p.1.scale (-x)) { p.2 with sat := true })

/-- Dequantize an MX element of target i under a scale byte to FP32 (R47). -/
def dequantize (i scale code : Nat) (rd : Rnd) : Nat × Nat :=
  if scale = 0xFF then (fp32.nan, flNan)
  else fp32.convert (((mxFmt i).decode code).scale ((scale : Int) - 127)) rd

/-- Convert a value to plain target i of R90, 5 to 9: code, flags. -/
def quantizePlain (i : Nat) (v : Num) (rd : Rnd) : Nat × Nat :=
  match i with
  | 5 => e4m3.convert v rd
  | 6 => e5m2.convert v rd
  | 7 => bf16.convert v rd
  | 8 => convertInt 8 v rd
  | _ => convertInt 4 v rd

/-- Bits of an element of target i of R90. -/
def targetBits (i : Nat) : Nat :=
  match i with
  | 0 => 8
  | 1 => 8
  | 2 => 6
  | 3 => 6
  | 4 => 4
  | 5 => 8
  | 6 => 8
  | 7 => 16
  | 8 => 8
  | _ => 4

end Sys2Proof.Machine
end

