-- ==== Sys2Proof/Machine/Special.lean ====
section
/-! DEFINITION. The special functions, correctly rounded (R68, R69): each is evaluated in fixed point with 192 fraction
bits and an error bound, which is far below the distance at which an FP32 rounding could change. -/

namespace Sys2Proof.Machine

/-- Fraction bits of the fixed-point evaluation. -/
def fxBits : Nat := 192

/-- One in fixed point. -/
def fxOne : Nat := 2 ^ fxBits

/-- Sum of t_i for i from 1 to n, where t_i = t_(i-1) × r / i (the Taylor terms of exp), r in fixed point. -/
def fxExpTerms : Nat → Nat → Nat → Nat → Nat
  | 0, _, _, _ => 0
  | n + 1, i, t, r =>
    let t' := t * r / (i * fxOne)
    t' + fxExpTerms n (i + 1) t' r

/-- exp(r) for 0 ≤ r < 1 in fixed point. -/
def fxExp (r : Nat) : Nat := fxOne + fxExpTerms 64 1 fxOne r

/-- Sum of z^(2i+1) / (2i+1) from i on: the terms of artanh, with z2 = z² and p = z^(2i+1) in fixed point. -/
def fxAtanhTerms : Nat → Nat → Nat → Nat → Nat
  | 0, _, _, _ => 0
  | n + 1, i, p, z2 => p / (2 * i + 1) + fxAtanhTerms n (i + 1) (p * z2 / fxOne) z2

/-- artanh(z) for 0 ≤ z ≤ 1/3 in fixed point. -/
def fxAtanh (z : Nat) : Nat := fxAtanhTerms 80 0 z (z * z / fxOne)

/-- ln 2 in fixed point. -/
def fxLn2 : Nat := 2 * fxAtanh (fxOne / 3)

/-- A fixed-point value v × 2^(k − 192) as a magnitude cut to 120 fraction bits, never exact. -/
def fxMag (v : Nat) (k : Int) : Mag := ⟨v / 2 ^ 72, k - 120, true⟩

/-- A magnitude below every format's smallest subnormal. -/
def tinyMag : Mag := ⟨1, -400, true⟩

/-- exp of a nonzero finite value as a magnitude; beyond ±200 its exact size does not matter. -/
def expMag (v : Num) : Mag :=
  match v with
  | .fin neg m e =>
    let big := decide ((log2f m : Int) + e ≥ 8)
    if big then (if neg then tinyMag else ⟨1, 400, true⟩)
    else
      let a := shiftNat m (e + fxBits)
      if neg then
        -- −|v| = −(k + 1) ln 2 + r with 0 ≤ r < ln 2
        let k := a / fxLn2
        fxMag (fxExp ((k + 1) * fxLn2 - a)) (-(k + 1 : Nat))
      else
        let k := a / fxLn2
        fxMag (fxExp (a - k * fxLn2)) k
  | _ => tinyMag

/-- exp2 of a finite value: exact at integers. -/
def exp2Mag (v : Num) : Mag :=
  match v with
  | .fin neg m e =>
    if (log2f m : Int) + e ≥ 10 then (if neg then tinyMag else ⟨1, 400, true⟩)
    else
      let a := shiftNat m (e + fxBits)
      let whole := a % fxOne = 0 ∧ (e ≥ -192 ∨ m % 2 ^ (-e).toNat = 0)
      if whole then ⟨1, if neg then -((a / fxOne : Nat) : Int) else ((a / fxOne : Nat) : Int), false⟩
      else if neg then
        let k := a / fxOne
        fxMag (fxExp (((k + 1) * fxOne - a) * fxLn2 / fxOne)) (-(k + 1 : Nat))
      else
        let k := a / fxOne
        fxMag (fxExp ((a - k * fxOne) * fxLn2 / fxOne)) k
  | _ => tinyMag

/-- log2 of a positive finite value: sign and magnitude; exact at powers of 2. -/
def log2Num (m : Nat) (e : Int) : Bool × Mag :=
  let l := log2f m
  let k : Int := (l : Int) + e
  if m = 2 ^ l then (decide (k < 0), ⟨k.natAbs, 0, false⟩)
  else
    let z := (m - 2 ^ l) * fxOne / (m + 2 ^ l)
    let f := 2 * fxAtanh z * fxOne / fxLn2
    let t : Int := k * (fxOne : Int) + f
    if t < 0 then (true, fxMag t.natAbs 0) else (false, fxMag t.natAbs 0)

/-- The reciprocal square root of a positive finite value. -/
def rsqMag (m : Nat) (e : Int) : Mag :=
  let e' := if e % 2 = 0 then e else e - 1
  let m' := if e % 2 = 0 then m else 2 * m
  -- 1 / sqrt(m' × 2^e') = sqrt(2^(2n) / m') × 2^(−n − e'/2)
  let n := 96 + (log2f m' + 1) / 2 + 1
  let q := 2 ^ (2 * n) / m'
  let r := isqrt q
  ⟨r, -(n : Int) - e' / 2, r * r * m' != 2 ^ (2 * n)⟩

/-- Special function fn (0 EXP, 1 EXP2, 2 LOG2, 3 RCP, 4 RSQ) of an FP32 code: code and flags (R67, R68, R69). -/
def special (fn a : Nat) (rd : Rnd) : Nat × Nat :=
  let v := fp32.decode a
  match fn, v with
  | _, .nan => (fp32.nan, flNan)
  | 0, .inf neg => if neg then (0, 0) else f32Result (.inf false) rd
  | 0, .fin _ m _ => if m = 0 then (0x3F800000, 0) else fp32.round false (expMag v) rd
  | 1, .inf neg => if neg then (0, 0) else f32Result (.inf false) rd
  | 1, .fin _ m _ => if m = 0 then (0x3F800000, 0) else fp32.round false (exp2Mag v) rd
  | 2, .inf neg => if neg then (fp32.nan, flNan) else f32Result (.inf false) rd
  | 2, .fin neg m e =>
    if m = 0 then f32Result (.inf true) rd
    else if neg then (fp32.nan, flNan)
    else
      let r := log2Num m e
      if r.2.mag = 0 ∧ ¬ r.2.sticky then (0, 0) else fp32.round r.1 r.2 rd
  | 3, .inf neg => (bit neg * 2 ^ 31, 0)
  | 3, .fin neg m e =>
    if m = 0 then f32Result (.inf neg) rd else numDiv (.fin false 1 0) (.fin neg m e) rd
  | _, .inf neg => if neg then (fp32.nan, flNan) else (0, 0)
  | _, .fin neg m e =>
    if m = 0 then f32Result (.inf neg) rd
    else if neg then (fp32.nan, flNan)
    else fp32.round false (rsqMag m e) rd

end Sys2Proof.Machine
end

