-- ==== Sys2Proof/Machine/Sums.lean ====
section
/-! DEFINITION. Exact accumulation, fast sums and the reproducible sum: entries, their records, their outputs
(R51 to R66). -/

namespace Sys2Proof.Machine

/-! ## Records (R51) -/

/-- The 320-bit acc field of an exact sum, taken as signed. -/
def accOf (t : Int) : Int := signed 320 (wrap 320 t)

/-- The excess of an exact sum (R54). -/
def excessOf (t : Int) : Int := (t - accOf t) / (2 ^ 320 : Nat)

/-- The excess fits the 32-bit field of a record. -/
def excessFits (t : Int) : Bool := decide (-(2 ^ 31 : Int) ≤ excessOf t) && decide (excessOf t < 2 ^ 31)

/-- The flags of an entry: in exact form range_high exactly when the excess is nonzero (R51, R54). -/
def Entry.flagsNow (e : Entry) : Nat :=
  match e.form with
  | .exact => e.flags / 2 * 2 + bit (excessOf e.val != 0)
  | _ => e.flags

/-- The four words of a normalised bin set: bin2, bin1, bin0, carry (R61). -/
def binsOf (v : Int) : Nat × Nat × Nat × Nat :=
  let m : Int := (2 ^ 52 : Nat)
  ((v % m).toNat, (v / m % m).toNat, (v / (m * m) % m).toNat, wrap 64 (v / (m * m * m)))

/-- The flags an entry's record carries (R51). -/
def Entry.recordFlags (e : Entry) : Nat :=
  match e.form with
  | .exact => e.flagsNow % 256 + (if excessFits e.val then 0 else flClipped)
  | _ => e.flags

/-- The 48-byte state record of an entry (R51). -/
def Entry.record (e : Entry) : List Byte :=
  match e.form with
  | .exact =>
    let fits := excessFits e.val
    let x : Int := if fits then excessOf e.val else if e.val < 0 then -(2 ^ 31 : Int) else 2 ^ 31 - 1
    bytesLE 40 (wrap 320 e.val) ++ bytesLE 4 (wrap 32 x) ++
      bytesLE 2 e.recordFlags ++ [1, 0]
  | .binned =>
    let b := binsOf e.val
    bytesLE 8 b.1 ++ bytesLE 8 b.2.1 ++ bytesLE 8 b.2.2.1 ++ bytesLE 8 b.2.2.2 ++
      bytesLE 8 (wrap 16 e.anchor) ++ bytesLE 4 0 ++ bytesLE 2 e.flags ++ [2, 0]
  | .fast => bytesLE 4 e.val.toNat ++ zeros 40 ++ bytesLE 2 e.flags ++ [3, 0]

/-- The entry a 48-byte record describes; none for an undefined form (R51). range_high is told by the excess; a bin set's
words are signed and may be unnormalised (R62); the three range flags never arise in fast form (R58), whose NaN is canonical (R39). -/
def entryOfRecord (l : List Byte) : Option Entry :=
  let flags := fieldLE l 44 2
  match fieldLE l 46 1 with
  | 1 =>
    let t : Int := signed 320 (fieldLE l 0 40) + signed 32 (fieldLE l 40 4) * (2 ^ 320 : Nat)
    some ⟨.exact, t, 0, flags / 2 % 256 * 2 % 512, 1⟩
  | 2 =>
    let m : Int := (2 ^ 52 : Nat)
    let v : Int := signed 64 (fieldLE l 0 8) + signed 64 (fieldLE l 8 8) * m + signed 64 (fieldLE l 16 8) * (m * m) +
      signed 64 (fieldLE l 24 8) * (m * m * m)
    some ⟨.binned, v, signed 16 (fieldLE l 32 2), flags % 512, 1⟩
  | 3 =>
    let sum := if fp32.decode (fieldLE l 0 4) = .nan then fp32.nan else fieldLE l 0 4
    some ⟨.fast, (sum : Nat), 0, flags % 512 / 8 * 8, 1⟩
  | _ => none

/-! ## Reproducible sum (R59 to R65) -/

/-- e(x) of R59; none for an infinity or NaN. -/
def binExp (v : Num) : Option Int :=
  match v with
  | .fin _ m e => if m = 0 then some (-126) else some (max (-126) ((log2f m : Int) + e))
  | _ => none

/-- The flags a special term sets (R59, R67). -/
def specialFlags (v : Num) : Nat :=
  match v with
  | .nan => flNan
  | .inf false => flPosInf
  | .inf true => flNegInf
  | _ => 0

/-- Pass one: M over the finite terms and the flags of the others; M is −126 where no term is finite (R59). -/
def passOne (terms : List Num) : Int × Nat :=
  terms.foldl (fun a v => match binExp v with
    | some e => (max a.1 e, a.2)
    | none => (a.1, a.2 ||| specialFlags v)) (-126, 0)

/-- Add one term to a bin set (R60, R64): its bits of weight 2^(A−156) and above with its sign. -/
def Entry.addTerm (b : Entry) (v : Num) : Entry :=
  match v with
  | .fin neg m e =>
    if m ≠ 0 ∧ (log2f m : Int) + e ≥ b.anchor then { b with flags := b.flags ||| flBound }
    else
      let k : Int := (shiftNat m (e - (b.anchor - 156)) : Nat)
      { b with val := b.val + (if neg then -k else k) }
  | w => { b with flags := b.flags ||| specialFlags w }

/-- An empty bin set with anchor A. -/
def binsAt (a : Int) : Entry := ⟨.binned, 0, a, 0, 0⟩

/-- A bin set that a bound or an anchor mismatch has spoilt: anchor 0, zero bins, bound_exceeded (R89). -/
def binsSpoilt (flags : Nat) : Entry := ⟨.binned, 0, 0, flags ||| flBound, 0⟩

/-- Merge a record into a bin set of the same anchor; another anchor spoils it (R62, R89). -/
def Entry.mergeBins (a b : Entry) : Entry :=
  if a.anchor = b.anchor then { a with val := a.val + b.val, flags := a.flags ||| b.flags }
  else binsSpoilt (a.flags ||| b.flags)

/-- The result of a bin set, times the scale 2^0 × s (R63, R66): code and flags. A bound alone is no NaN among the inputs, so it
does not set has_nan unless the NaN meets an integer target (R45, R67) (log entry 169, DEDUCED). An infinity stays one whatever
sat, so it goes through convInf, the conversion without sat. -/
def Entry.binResult (b : Entry) (s : Num) (conv convInf : Num → Nat × Nat) : Nat × Nat :=
  let nanIn := b.flags / 8 % 2 = 1 ∨ (b.flags / 16 % 2 = 1 ∧ b.flags / 32 % 2 = 1)
  if nanIn ∨ b.flags / 4 % 2 = 1 then
    let r := conv .nan
    (r.1, if nanIn ∨ r.1 = 0 then b.flags ||| r.2 else b.flags)
  else if b.flags / 16 % 2 = 1 then
    let r := convInf (.inf false)
    (r.1, b.flags ||| r.2)
  else if b.flags / 32 % 2 = 1 then
    let r := convInf (.inf true)
    (r.1, b.flags ||| r.2)
  else if b.val = 0 then
    let r := conv (.fin false 0 0)
    (r.1, b.flags ||| r.2)
  else
    let r := conv ((ofScaled b.val (b.anchor - 156)).mul s)
    (r.1, b.flags ||| r.2)

/-! ## Exact and fast accumulation (R52 to R58) -/

/-- An operand element with the scale byte of its MX block, 127 (2⁰) for a plain operand. -/
structure Operand where
  value : Num
  scale : Nat
  deriving DecidableEq, Repr

/-- The flags of one product in exact mode (R55); a NaN scale makes its elements NaN (R37). -/
def productFlags (a b : Operand) : Nat :=
  if a.scale = 0xFF ∨ b.scale = 0xFF then flNan
  else specialFlags (a.value.mul b.value)

/-- The exact integer sum of a group's element products, infinities and NaNs left out (R52), in units of 2⁻¹⁶⁰: the least product of
exact form is that of INT8 or INT4 and an FP32 subnormal, a multiple of 2⁻¹⁴⁹. -/
def groupSum (g : List (Operand × Operand)) : Int :=
  g.foldl (fun t p => t + (match p.1.value.mul p.2.value with
    | .fin n m e => (Num.fin n m e).scaled (-160)
    | _ => 0)) 0

/-- A value n × 2^k truncated toward zero to an integer, and whether bits were lost (R53). -/
def truncShift (n : Int) (k : Int) : Int × Bool :=
  if k ≥ 0 then (n * (2 ^ k.toNat : Nat), false)
  else
    let d := 2 ^ (-k).toNat
    let q : Int := (n.natAbs / d : Nat)
    (if n < 0 then -q else q, n.natAbs % d != 0)

/-- Add one group to an exact-form entry: one contribution (R52, R53, R55). -/
def Entry.addExact (en : Entry) (g : List (Operand × Operand)) : Entry :=
  let fl := g.foldl (fun f p => f ||| productFlags p.1 p.2) en.flags
  match g with
  | [] => en
  | p :: _ =>
    if p.1.scale = 0xFF ∨ p.2.scale = 0xFF then { en with flags := fl, groups := en.groups + 1 }
    else
      let c := truncShift (groupSum g) (192 - 160 + (p.1.scale : Int) - 127 + (p.2.scale : Int) - 127)
      { en with val := en.val + c.1, flags := if c.2 then fl ||| flRangeLow else fl, groups := en.groups + 1 }

/-- The exact value of a group: its scaled sum, an infinity or NaN where a product is one. -/
def groupValue (g : List (Operand × Operand)) : Num :=
  g.foldl (fun t p =>
    if p.1.scale = 0xFF ∨ p.2.scale = 0xFF then .nan
    else
      let s := t.add ((p.1.value.mul p.2.value).scale ((p.1.scale : Int) - 127 + (p.2.scale : Int) - 127))
      if s.isZero then .fin false 0 0 else s) (.fin false 0 0)

/-- Add one group to a fast-form entry: the group rounded to FP32, then added under RNE (R58); the flags its products set stay
(R67) (log entry 168, DEDUCED). -/
def Entry.addFast (en : Entry) (g : List (Operand × Operand)) : Entry :=
  let t := (fp32.convert (groupValue g) rne).1
  let s := (fp32.decode en.val.toNat).add (fp32.decode t)
  let s := if s.isZero then .fin false 0 0 else s
  { en with val := ((fp32.convert s rne).1 : Nat), flags := g.foldl (fun f p => f ||| productFlags p.1 p.2) en.flags,
            groups := en.groups + 1 }

/-- Add one group to a binned-form entry: each product exactly as one term (R66). -/
def Entry.addBinned (en : Entry) (g : List (Operand × Operand)) : Entry :=
  let en := g.foldl (fun e p =>
    if p.1.scale = 0xFF ∨ p.2.scale = 0xFF then { e with flags := e.flags ||| flNan }
    else e.addTerm ((p.1.value.mul p.2.value).scale ((p.1.scale : Int) - 127 + (p.2.scale : Int) - 127))) en
  { en with groups := en.groups + 1 }

/-- Add one issue group to an entry in its form (R72). -/
def Entry.addGroup (en : Entry) (g : List (Operand × Operand)) : Entry :=
  match en.form with
  | .exact => en.addExact g
  | .binned => en.addBinned g
  | .fast => en.addFast g

/-- The output of an entry under a conversion, and one without sat for a bin set's infinity, with output scales sa and sb (R57, R58, R63): code and flags. A sum that is zero gives
+0 whatever the scales' signs (R41; log entry 189, DEDUCED). -/
def Entry.output (en : Entry) (sa sb : Num) (conv convInf : Num → Nat × Nat) : Nat × Nat :=
  let fl := en.flagsNow
  let scaled (v : Num) : Num := if v.isZero then .fin false 0 0 else (v.mul sa).mul sb
  match en.form with
  | .binned => en.binResult (sa.mul sb) conv convInf
  | .exact =>
    let v : Num :=
      if fl / 8 % 2 = 1 ∨ (fl / 16 % 2 = 1 ∧ fl / 32 % 2 = 1) then .nan
      else if fl / 16 % 2 = 1 then .inf false
      else if fl / 32 % 2 = 1 then .inf true
      else scaled (ofScaled en.val (-192))
    let r := conv v
    (r.1, fl ||| r.2)
  | .fast =>
    let v := fp32.decode en.val.toNat
    let r := match v with
      | .fin .. => conv (scaled v)
      | w => conv w
    (r.1, fl ||| specialFlags v ||| r.2)

/-- The conversion to output format i of EOUT (R131): 0 E4M3, 1 E5M2, 5 INT8, 7 BF16, 8 FP16, 9 FP32. -/
def outConv (i : Nat) (rd : Rnd) (v : Num) : Nat × Nat :=
  if i = 5 then convertInt 8 v rd else (engineFmt i).convert v rd

end Sys2Proof.Machine
end

