-- ==== Sys2Proof/Machine/BenchOps.lean ====
section
/-! DEFINITION. Operations the bench, serving, training and kernel commands share: descriptor fields and records, barriers,
bench occupancy, issue rates, doorbells, free values. -/

namespace Sys2Proof.Machine

/-- A meaning's next state. -/
abbrev Result := Host.Outcome State Fault Refusal

/-- The command goes on in this state. -/
def go (s : State) : Result := .next s

/-- Draw a word of a random source (R386): the value is free; the 65,536th request since the last reseed reseeds. -/
def State.draw (s : State) : Word × State :=
  (Config.random s.free,
    { s with free := s.free + 1
             cipher := { s.cipher with requests := (s.cipher.requests + 1) % 65536
                                       reseeded := if s.cipher.requests + 1 ≥ 65536 then s.now else s.cipher.reseeded } })

/-- Draw a value the spec leaves open: the value is free (log entry 2, DESIGN CHOICE). -/
def State.unstated (s : State) : Word × State := (Config.undefinedWord s.free, { s with free := s.free + 1 })

/-! ## Codes -/

/-- The code of several failures (R35): the lowest in 0x0010–0x002F, else the lowest in 0x0001–0x000F; 0 for none. -/
def combineCodes (l : List Nat) : Nat :=
  let hard := l.filter fun c => decide (0x10 ≤ c) && decide (c ≤ 0x2F)
  let soft := l.filter fun c => decide (1 ≤ c) && decide (c ≤ 0x0F)
  match hard with
  | c :: cs => cs.foldl min c
  | [] => match soft with
    | c :: cs => cs.foldl min c
    | [] => 0

/-- The status of completed work: a failure, else 0x0030 where a range flag is set, else success (R35, R67, R85). -/
def finalCode (codes : List Nat) (flags : Nat) : Nat :=
  let c := combineCodes codes
  if c ≠ 0 then c else if rangeFlagged flags then 0x30 else 0

/-! ## Descriptors (R82) -/

/-- A field of a descriptor. -/
def Desc.field (d : Desc) (off width : Nat) : Nat := fieldLE d.raw off width

/-- The opcode. -/
def Desc.opcode (d : Desc) : Nat := d.field 0 1
/-- The flags byte. -/
def Desc.flagByte (d : Desc) : Nat := d.field 1 1
/-- The retry bit. -/
def Desc.retry (d : Desc) : Bool := natBit d.flagByte 0
/-- The rounding mode. -/
def Desc.rounding (d : Desc) : Nat := natBits d.flagByte 3 2
/-- The sat bit. -/
def Desc.sat (d : Desc) : Bool := natBit d.flagByte 4
/-- The fabric class. -/
def Desc.cls (d : Desc) : Nat := natBits d.flagByte 6 5
/-- The barrier number. -/
def Desc.barNo (d : Desc) : Nat := natBits (d.field 3 1) 3 0
/-- wait_before. -/
def Desc.waitBefore (d : Desc) : Bool := natBit (d.field 3 1) 4
/-- arrive_after. -/
def Desc.arriveAfter (d : Desc) : Bool := natBit (d.field 3 1) 5
/-- The barrier's scope: 0 none, 1 bench, 2 stack, 3 device. -/
def Desc.scope (d : Desc) : Nat := natBits (d.field 3 1) 7 6
/-- The tag. -/
def Desc.tag (d : Desc) : Nat := d.field 4 4
/-- The completion ring. -/
def Desc.cq (d : Desc) : Nat := d.field 8 2
/-- The stacks taking part. -/
def Desc.stackMask (d : Desc) : Nat := d.field 10 2
/-- The bench positions taking part. -/
def Desc.benchMask (d : Desc) : Nat := d.field 12 1
/-- The key of stochastic rounding. -/
def Desc.key (d : Desc) : SrKey := ⟨d.field 16 8, d.field 32 4, d.field 24 8⟩
/-- The rounding of output element i. -/
def Desc.rnd (d : Desc) (i : Nat) : Rnd := rndAt d.rounding d.sat d.key i

/-- source_kind of a descriptor's records by opcode (the table under R29). -/
def Desc.kind (d : Desc) : Nat :=
  match d.opcode with
  | 0x01 => 0x08
  | 0x02 => 0x08
  | 0x04 => 0x09
  | 0x05 => 0x0A
  | 0x10 => 0x03
  | _ => 0x02

/-- The tally block of a source_kind of bench queues: bench dies, serving, training and checkpoint. -/
def kindBlock (kind : Nat) : Nat :=
  match kind with
  | 0x08 => 0x0F
  | 0x09 => 0x10
  | 0x0A => 0x10
  | _ => 0x0E

/-- The record of a descriptor (R82, R107, R32). -/
def State.descRec (s : State) (d : Desc) (kind status bytes word : Nat) : Rec :=
  { status := status, queue := d.queue, kind := kind, flags := if d.retried then 2 else 0, slice := d.slice,
    tag := d.tag, byteCount := byteCount32 bytes, time := s.now, word := word, irq := false }

/-- The descriptors in flight. -/
def State.desc? (s : State) (d : Nat) : Option Desc := Tab.find? s.bench.descs d

/-- Put back a changed descriptor. -/
def State.setDesc (s : State) (n : Nat) (d : Desc) : State :=
  { s with bench := { s.bench with descs := Tab.insert s.bench.descs n d } }

/-- Take a descriptor out of flight. -/
def State.dropDesc (s : State) (n : Nat) : State :=
  { s with bench := { s.bench with descs := Tab.erase s.bench.descs n,
                                   launches := Tab.erase s.bench.launches n } }

/-- The bench queue's state follows the descriptors in flight: running or idle, and error stays (BQ_STATUS). -/
def State.bqRefresh (s : State) (q : Nat) : State :=
  let st := s.getF (R.bqStatus q) F.bqStatus_state
  if st = 4 then s
  else s.setF (R.bqStatus q) F.bqStatus_state
    (if s.bench.descs.any (fun e => e.2.queue == q) then 1 else 0)

/-- Complete a descriptor with a record and take it out of flight (R85). -/
def State.finishDesc (s : State) (n : Nat) (d : Desc) (kind status bytes word : Nat) : State :=
  (((s.dropDesc n).count (kindBlock kind) 62 0 bytes).post d.cq (s.descRec d kind status bytes word)).bqRefresh d.queue

/-- source_word of source_kind 0x02 (R85). -/
def Desc.word02 (d : Desc) : Nat :=
  min d.flagged (2 ^ 32 - 1) * 2 ^ 32 + d.opcode * 2 ^ 16 + d.flags % 2 ^ 16

/-- A bench takes work: it is not under test, and dispatch to it was not stopped for a test (R107, R109). -/
def State.benchTakes (s : State) (stack b : Nat) : Bool :=
  s.getF (R.benchStatus stack b) F.benchStatus_under_test == 0 && (Tab.find? s.isst.draining (stack * 7 + b)).isNone

/-- The physical bench that serves a position in service now: the spare bench 6, if it is free, stands in for a bench under test
(R107). -/
def State.benchNow (s : State) (stack pos : Nat) : Option Nat :=
  let l := benchLevel stack
  let b := s.servingUnit l pos
  if s.benchTakes stack b then some b
  else if s.unitPresent l 6 ∧ ¬ s.unitFenced l 6 ∧ s.posOfUnit l 6 = none then some 6 else none

/-- Deal units in order, one at a time, to positions from the first on, and round again (R106): the position of unit e. -/
def dealt (ps : List Nat) (e : Nat) : Nat := ps.getD (e % max 1 ps.length) 0

/-- The positions of a stack's benches in service. -/
def State.benchPositions (s : State) (stack : Nat) : List Nat := (below 6).filter fun p => s.posInService (benchLevel stack) p

/-- The positions that run the eight units of a position's share, the shares of its engine positions: its own; of a position out of
service those that the units are dealt to (R106). -/
def State.unitPositions (s : State) (stack pos : Nat) : List Nat :=
  if s.posInService (benchLevel stack) pos then [pos]
  else if (s.benchPositions stack).isEmpty then []
  else ((below 8).map (dealt (s.benchPositions stack))).eraseDups

/-- The physical benches that run a position's share; none while one of them is under test without a stand-in. -/
def State.benchesFor (s : State) (stack pos : Nat) : List Nat :=
  let bs := (s.unitPositions stack pos).map fun p => s.benchNow stack p
  if bs.all Option.isSome then bs.filterMap id else []

/-- The physical bench that runs a position's share, or its first unit. -/
def State.benchFor (s : State) (stack pos : Nat) : Option Nat := (s.benchesFor stack pos).head?

/-- The position a physical bench serves now, its own or the one it stands in for. -/
def State.benchPos (s : State) (stack b : Nat) : Nat :=
  (((below 6).find? fun p => s.posInService (benchLevel stack) p && s.benchNow stack p == some b).or
    (s.posOfUnit (benchLevel stack) b)).getD 0

/-- A bench die's link is fenced (R5, R503). -/
def State.linkFenced (s : State) (k : Nat) : Bool := ((Tab.find? s.links k).map fun l => l.phase == .fenced).getD false

/-- Stack n is in service for compute (STACK_STATUS.in_service). -/
def State.stackUp (s : State) (n : Nat) : Bool := s.getF (R.stackStatus n) F.stackStatus_in_service == 1

/-- The key of a bench. -/
def benchKey (stack b : Nat) : Nat := stack * 7 + b

/-! ## Issue rates (R101 to R103) -/

/-- The emergency rate that applies to a stack, 64 for none: the lowest of the rates of R418 whose scope covers it. -/
def State.emergencyRate (s : State) (stack : Nat) : Nat :=
  let e := s.reg R.emergStatus
  let on (f : Fld) (rate : Nat) : Nat := if getBits e f = 1 then rate else 64
  let r := min (on F.emergStatus_thermal s.power.therm) (on F.emergStatus_overpower 8)
  let r := min r (min (on F.emergStatus_input_low 32) (on F.emergStatus_link_lost 16))
  let r := if natBit (getBits e F.emergStatus_droop_stacks) stack then min r 8 else r
  if natBit (getBits e F.emergStatus_dram_stacks) stack then min r (Tab.get 64 s.power.dram stack) else r

/-- The phase of a stack (R416). -/
def State.phaseOf (s : State) (stack : Nat) : Nat := natBits (s.reg R.phaseStatus).toNat (4 * stack + 2) (4 * stack)

/-- The target rate of an engine of a stack in 64ths: the lowest of the cap rate under its phase's ceiling, or its quiet
partition's declared rate, and any emergency rate (R101, R415, R23). -/
def State.targetRate (s : State) (stack slice : Nat) : Nat :=
  let cap := min (s.getF R.capStatus F.capStatus_cap_rate) (s.getF (R.opPoint (s.phaseOf stack)) F.opPoint_rate_max)
  let base := match s.quietOf slice with
    | some q => match s.image with
      | some i => ((i.quiet[q]?).map fun p => max 1 (p.rate - s.power.quietCut)).getD cap
      | none => cap
    | none => cap
  min base (s.emergencyRate stack)

/-- The engines of a stack, by number. -/
def engKeys (stack : Nat) : List Nat := (below 48).map fun k => stack * 48 + k

/-- STACK_STATUS.ramp_active and ramp_rate follow the engines: the lowest rate among those that are not idle; of a stack behind a
fenced link they stay as last reported (R503). -/
def State.rampRefresh (s : State) (stack : Nat) : State :=
  if s.linkFenced stack then s else
  let rs := (engKeys stack).map fun k => Tab.get EngRate.rest s.bench.rates k
  let act := rs.filter fun r => !r.idle
  let low := match act with
    | [] => 0
    | r :: l => l.foldl (fun m x => min m x.rate) r.rate
  (s.setF (R.stackStatus stack) F.stackStatus_ramp_active (bit (rs.any fun r => r.ramping))).setF
    (R.stackStatus stack) F.stackStatus_ramp_rate low

/-- The eight logical engines of the benches of a list, by number in their stack. -/
def State.enginesOf (s : State) (stack : Nat) (bs : List Nat) : List Nat :=
  bs.flatMap fun b => (below 8).map fun e => s.benchPos stack b * 8 + e

/-- Engines of a stack are released by a stack's or the device's barrier: those that are idle ramp when they leave idle (R102). -/
def State.releaseEngines (s : State) (stack : Nat) (ks : List Nat) : State :=
  let idle := ks.filter fun k => (Tab.get EngRate.rest s.bench.rates (stack * 48 + k)).idle
  { s with bench := { s.bench with released := idle.foldl (fun t k => Tab.insert t (stack * 48 + k) ()) s.bench.released } }

/-- Engines of a stack that are idle leave idle with an issue: those released by a stack or device barrier, and the seventh and later
within one 250 ns window, ramp from 1/8 of full rate; the others start at the target rate (R102, R103). -/
def State.leaveIdle (s : State) (stack slice : Nat) (ks : List Nat) : State :=
  let target := s.targetRate stack slice
  let recent := (Tab.get [] s.bench.leaves stack).filter fun t => decide (s.since t < 400)
  let step (a : Tab EngRate × List Word × Nat) (k : Nat) : Tab EngRate × List Word × Nat :=
    let r := Tab.get EngRate.rest a.1 (stack * 48 + k)
    if r.idle then
      let ramp := (Tab.find? s.bench.released (stack * 48 + k)).isSome || decide (a.2.1.length ≥ 6)
      let r' : EngRate := if ramp then ⟨min 8 target, false, decide (min 8 target < target)⟩ else ⟨target, false, false⟩
      (Tab.put EngRate.rest a.1 (stack * 48 + k) r', a.2.1 ++ [s.now], a.2.2 + bit ramp)
    else a
  let x := ks.foldl step (s.bench.rates, recent, 0)
  let s := { s with bench := { s.bench with rates := x.1, leaves := Tab.put [] s.bench.leaves stack x.2.1,
                                            released := ks.foldl (fun t k => Tab.erase t (stack * 48 + k)) s.bench.released } }
  (s.count 0x0E 4 stack x.2.2).rampRefresh stack

/-- The target rate of a logical engine of a stack, for the slice that runs on the bench that serves its position
(log entry 37, DEDUCED). -/
def State.engTarget (s : State) (stack k : Nat) : Nat :=
  let pos := k % 48 / 8
  s.targetRate stack (s.getF (R.benchStatus stack ((s.benchNow stack pos).getD (s.servingUnit (benchLevel stack) pos)))
    F.benchStatus_running_slice)

/-- The engines of a stack go to a lowered target at once, and toward a raised one by ramping (R103). -/
def State.retarget (s : State) (stack : Nat) : State :=
  let rates := (engKeys stack).foldl (fun t k =>
    let target := s.engTarget stack k
    Tab.update EngRate.rest t k fun r =>
      if r.idle then r
      else if r.rate > target then ⟨target, false, false⟩
      else if r.rate < target then { r with ramping := true } else r) s.bench.rates
  ({ s with bench := { s.bench with rates := rates } }).rampRefresh stack

/-- Every stack's engines follow a change of rate. -/
def State.retargetAll (s : State) : State := (below 12).foldl (fun s st => s.retarget st) s

/-! ## Barriers (R98 to R100) -/

/-- Fields of a barrier word: generation, broken, owner, arrived, expected. -/
def barGen : Fld := (63, 48)
/-- broken. -/
def barBroken : Fld := (47, 47)
/-- owner. -/
def barOwner : Fld := (39, 32)
/-- arrived. -/
def barArrived : Fld := (31, 16)
/-- expected. -/
def barExpected : Fld := (15, 0)

/-- The key of a bench-scope barrier. -/
def benchBarKey (stack b n : Nat) : Nat := (stack * 7 + b) * 16 + n

/-- The word of a barrier. -/
def State.barrier (s : State) (sc : BarScope) (n : Nat) : Word :=
  match sc with
  | .bench st b => Tab.get 0 s.bench.barriers (benchBarKey st b n)
  | .stack st => s.reg (R.stackBarrier st n)
  | .device => s.reg (R.deviceBarrier n)

/-- Set the word of a barrier. -/
def State.setBarrier (s : State) (sc : BarScope) (n : Nat) (w : Word) : State :=
  match sc with
  | .bench st b =>
    { s with bench := { s.bench with barriers := Tab.put 0 s.bench.barriers (benchBarKey st b n) w } }
  | .stack st => s.setReg (R.stackBarrier st n) w
  | .device => s.setReg (R.deviceBarrier n) w

/-- The release of a barrier is pending: arrived has reached expected. -/
def barReady (w : Word) : Bool :=
  getBits w barExpected != 0 && decide (getBits w barArrived ≥ getBits w barExpected)

/-- The word after a release: the arrivals beyond expected stay for the next generation, the generation advances. -/
def barReleased (w : Word) : Word :=
  let left := getBits w barArrived - getBits w barExpected
  setBits (setBits w barArrived left) barGen (getBits w barGen + 1)

/-- The word after an arrival as broken (R100): broken set, released with a generation advance. -/
def barBroke (w : Word) : Word :=
  setBits (setBits (setBits w barArrived 0) barGen (getBits w barGen + 1)) barBroken 1

/-- A core waits at a barrier. -/
def Core.waitsAt (c : Core) (sc : BarScope) (n : Nat) : Bool :=
  match c.stall with
  | .bar sc' n' _ => sc' == sc && n' == n
  | _ => false

/-- A core that waited at a barrier goes on, its register taking a status (R98, R100, R124). -/
def Core.woken (c : Core) (status : Nat) : Core :=
  match c.stall with
  | .bar _ _ rd => { c with stall := .none, g := if rd = 0 then c.g else Tab.put 0 c.g rd (BitVec.ofNat 64 status) }
  | _ => c

/-- Every core that waits at a barrier goes on; a stack's or the device's barrier releases the engines of its bench (R98, R100, R102). -/
def State.wakeCores (s : State) (sc : BarScope) (n status : Nat) : State :=
  let woken := (s.cores.filter fun e => e.2.waitsAt sc n).map Prod.fst
  let s := { s with cores := Tab.mapVals s.cores fun _ c => if c.waitsAt sc n then c.woken status else c }
  match sc with
  | .bench _ _ => s
  | _ => (woken.filter fun k => decide (k < 84)).foldl (fun s k => s.releaseEngines (k / 7) (s.enginesOf (k / 7) [k % 7])) s

/-- The barrier a descriptor names on the bench that runs a sub-part. -/
def Desc.barrierOn (d : Desc) (stack bench : Nat) : Option BarScope :=
  match d.scope with
  | 1 => some (.bench stack bench)
  | 2 => some (.stack stack)
  | 3 => some .device
  | _ => none

/-- The generation that stands in a descriptor's list for a wait that a break has completed (R100). -/
def genBroken : Nat := 65536

/-- The descriptors that wait on a barrier's present generation note that it broke (R100). -/
def State.breakWaits (s : State) (sc : BarScope) (n : Nat) : State :=
  let g := getBits (s.barrier sc n) barGen
  { s with bench := { s.bench with descs := Tab.mapVals s.bench.descs fun _ d =>
      if d.waitBefore ∧ d.barNo = n then
        { d with gens := d.gens.map fun w =>
            if w.2.2 = g ∧ (match sc, d.scope with
                | .bench st b, 1 => w.1 == st && (s.benchFor w.1 w.2.1).getD w.2.1 == b
                | .stack st, 2 => w.1 == st
                | .device, 3 => true
                | _, _ => false) = true then (w.1, w.2.1, genBroken) else w }
      else d } }

/-- The core that keeps a barrier restarts, so its releases wait: the control core of a stack (R110), the scheduler for the device
(R437). -/
def State.barHeld (s : State) (sc : BarScope) : Bool :=
  match sc with
  | .bench _ _ => false
  | .stack st => (Tab.find? s.bench.stalled st).isSome
  | .device => (Tab.find? s.bench.stalled 12).isSome

/-- A barrier breaks (R100): it is released with a generation advance, every pending wait completes with 0x0015. -/
def State.breakNow (s : State) (sc : BarScope) (n : Nat) : State :=
  ((s.breakWaits sc n).setBarrier sc n (barBroke (s.barrier sc n))).wakeCores sc n 0x15

/-- An arrival, whole or broken; at a broken barrier nothing changes (R98, R100). A break waits while the core that keeps the barrier
restarts (R110) (log entry 217, DEDUCED). -/
def State.arrive (s : State) (sc : BarScope) (n : Nat) (broken : Bool) : State :=
  let w := s.barrier sc n
  if getBits w barBroken = 1 then s
  else if broken then
    match sc with
    | .bench _ _ => s.breakNow sc n
    | .stack st =>
      if s.barHeld sc then { s with bench := { s.bench with breaks := Tab.insert s.bench.breaks (st * 16 + n) () } } else s.breakNow sc n
    | .device =>
      if s.barHeld sc then { s with bench := { s.bench with breaks := Tab.insert s.bench.breaks (12 * 16 + n) () } } else s.breakNow sc n
  else s.setBarrier sc n (setBits w barArrived (getBits w barArrived + 1))

/-- The breaks that waited for a core (a stack's, 12 for the scheduler) are performed (R110). -/
def State.breaksDue (s : State) (core : Nat) : State :=
  let due := (s.bench.breaks.filter fun e => e.1 / 16 == core).map fun e => e.1 % 16
  let s := { s with bench := { s.bench with breaks := Tab.keep s.bench.breaks fun k _ => k / 16 != core } }
  due.foldl (fun s n => s.arrive (if core = 12 then .device else .stack core) n true) s

/-- The slice a barrier belongs to (R99): a bench barrier's is the slice running there. -/
def State.barSlice (s : State) (sc : BarScope) (n : Nat) : Nat :=
  match sc with
  | .bench st b => s.getF (R.benchStatus st b) F.benchStatus_running_slice
  | sc => getBits (s.barrier sc n) barOwner

/-- An arrival by work of a slice: its code, which is 0x0008 at another slice's barrier, blocked and recorded, 0x0015 at a broken one,
else 0 (R99, R100). -/
def State.arriveFor (s : State) (slice : Nat) (sc : BarScope) (n : Nat) (broken : Bool) : Nat × State :=
  if s.barSlice sc n ≠ slice then (0x08, s.blockedName 0x0E 0 slice)
  else (if getBits (s.barrier sc n) barBroken = 1 then 0x15 else 0, s.arrive sc n broken)

/-- The masked stacks of a descriptor. -/
def Desc.stackIds (d : Desc) : List Nat := (below 12).filter fun st => natBit d.stackMask st

/-! ## Benches -/

/-- Physical bench b is busy, or under test. -/
def State.benchBusy (s : State) (stack b : Nat) : Bool :=
  s.getF (R.benchStatus stack b) F.benchStatus_busy == 1 || s.getF (R.benchStatus stack b) F.benchStatus_under_test == 1

/-- The ticks of the interval of R81, 10 ms. -/
def shareTicks : Nat := usTicks 10000

/-- Bench time of a slice on a stack in the last 10 ms, the work that runs included (R81). -/
def State.benchTime (s : State) (stack slice : Nat) : Nat :=
  let cut (t : Word) : Nat := min (s.since t) shareTicks
  let now (b : Nat) : Nat :=
    match Tab.find? s.bench.began (benchKey stack b) with
    | some t => if s.getF (R.benchStatus stack b) F.benchStatus_running_slice = slice then cut t else 0
    | none => 0
  ((below 7).map now).sum + ((s.bench.used.filter fun u => u.1 == stack * 256 + slice).map fun u => cut u.2.1 - cut u.2.2).sum

/-- A bench starts work (R81). -/
def State.benchBusyNow (s : State) (stack b : Nat) : State :=
  let s := s.setF (R.benchStatus stack b) F.benchStatus_busy 1
  { s with bench := { s.bench with began := Tab.insert s.bench.began (benchKey stack b) s.now } }

/-- A bench's work ends: its time counts for the slice it ran for (R81), and it is not busy. -/
def State.benchFree (s : State) (stack b : Nat) : State :=
  let k := benchKey stack b
  let s := match Tab.find? s.bench.began k with
    | some t =>
      let u := (stack * 256 + s.getF (R.benchStatus stack b) F.benchStatus_running_slice, t, s.now)
      { s with bench := { s.bench with used := u :: s.bench.used.filter fun u => decide (s.since u.2.2 < shareTicks)
                                       began := Tab.erase s.bench.began k } }
    | none => s
  s.setF (R.benchStatus stack b) F.benchStatus_busy 0

/-- The descriptor sequencer of a bench ends its work, and the bench is free (R111). -/
def State.sequencerEnds (s : State) (stack b : Nat) : State :=
  ({ s with cores := Tab.erase s.cores (benchKey stack b) }).benchFree stack b

/-- Make BENCH_STATUS.logical_pos of every bench of a stack tell the position it serves, 7 for none. -/
def State.refreshPositions (s : State) (stack : Nat) : State :=
  (below 7).foldl (fun s b =>
    let l := benchLevel stack
    let pos := match s.posOfUnit l b with
      | some p => if s.unitFenced l b then 7 else p
      | none => 7
    s.setF (R.benchStatus stack b) F.benchStatus_logical_pos pos) s

/-- Clear a bench's local state when the slice that runs on it changes (R77). -/
def State.claimBench (s : State) (stack b slice : Nat) : State :=
  let k := benchKey stack b
  let s :=
    if s.getF (R.benchStatus stack b) F.benchStatus_running_slice = slice then s
    else
      { s with
        bench := { s.bench with
          engines := Tab.keep s.bench.engines fun e _ => e / 9 != k
          barriers := Tab.keep s.bench.barriers fun n _ => n / 16 != k }
        cores := Tab.modify s.cores k fun _ => Core.clear }
  let s := { s with power := { s.power with gated := Tab.erase s.power.gated k } }
  s.setF (R.benchStatus stack b) F.benchStatus_running_slice slice

/-- A barrier of a bench that is free, or runs work of this slice, is the slice's: the bench is cleared if its slice changes (R77, R99). -/
def State.claimBarrier (s : State) (slice : Nat) (sc : BarScope) : State :=
  match sc with
  | .bench st b => if s.benchBusy st b then s else s.claimBench st b slice
  | _ => s

/-- The barriers at which the parts of a descriptor without sub-parts arrive, with their stacks: one for each masked stack, at bench scope
one for each masked bench (R98). -/
def State.partBarriers (s : State) (d : Desc) : List (Nat × BarScope) :=
  match d.scope with
  | 1 => d.stackIds.flatMap fun st => ((below 6).filter fun p => natBit d.benchMask p).filterMap fun p =>
      (s.benchFor st p).map fun b => (st, .bench st b)
  | 2 => d.stackIds.map fun st => (st, .stack st)
  | 3 => d.stackIds.map fun st => (st, .device)
  | _ => []

/-- The parts of a descriptor without sub-parts arrive at its barrier, those on some stacks as broken (R98, R100). At bench scope a free
bench is taken over for the arrival, so the barrier is the slice's (R99) (log entry 229, DEDUCED). -/
def State.arriveParts (s : State) (d : Desc) (broken : Nat → Bool) : Nat × State :=
  if ¬ d.arriveAfter then (0, s)
  else (s.partBarriers d).foldl (fun a e =>
    let r := (a.2.claimBarrier d.slice e.2).arriveFor d.slice e.2 d.barNo (broken e.1)
    (combineCodes [a.1, r.1], r.2)) (0, s)

/-! ## Doorbells (R278, R279) -/

/-- What a doorbell comes to: a queue with its new index, or a drop that counts for a slice. -/
inductive BellHit where
  | hit (queue index : Nat)
  | dropped (slice : Nat)
  deriving DecidableEq, Repr

/-- The queues of a kind: bench work queue, DMA channel, completion ring, NVMe queue pair, connection, packet ring, cipher queue. -/
def bellQueues (kind : Nat) : Nat := [0, 1024, 1024, 4096, 4352, 16777216, 16384, 1024].getD kind 0

/-- A queue of a kind with a number, and its owner (R278); an NVMe admin queue pair is named for its slice (R306). -/
def State.queueOwner (s : State) (kind q : Nat) : Option Nat :=
  match kind with
  | 1 => if q < 1024 then some (s.getF (R.bqCfg q) F.bqCfg_owner) else none
  | 2 => if q < 1024 then some (s.getF (R.chanCfg (q / 64) (q % 64)) F.chanCfg_owner) else none
  | 3 => if q < 4096 then some (s.getF (R.crCfg q) F.crCfg_owner) else none
  | 4 => if q < 0x1000 then some (s.getF (R.qpCfg q) F.qpCfg_owner) else if q < 0x1100 then some (q - 0x1000) else none
  | 5 => (Tab.find? s.net.conns q).map fun c => getBits (c.ctx.getD 0 0) (55, 48)
  | 6 => if q < 16384 then some (s.getF (R.prCfg q) F.prCfg_owner) else none
  | 7 => if q < 1024 then some (s.getF (R.cqCfg q) F.cqCfg_owner) else none
  | _ => none

/-- A doorbell is a write of the index register; while the queue is disabled such a write is no doorbell and sets the index (R281). -/
def bellWrites : Bell → Bool
  | .reg _ _ => true
  | .page .. => false

/-- The queue and index of a doorbell of a kind, through its page's entry, whose slice owns the queue (R278, R279). -/
def State.bell (s : State) (kind : Nat) (b : Bell) : BellHit :=
  match b with
  | .reg q v => if q < bellQueues kind then .hit q (v.toNat % 2 ^ 16) else .dropped 0
  | .page fn p off len v =>
    let e := s.reg (R.doorbellEntry fn p)
    let slice := getBits e F.doorbellEntry_slice
    if fn < 2 ∧ p < 16384 ∧ s.serving ∧ s.barOpen fn ∧ getBits e F.doorbellEntry_valid = 1 ∧
        getBits e F.doorbellEntry_kind = kind ∧ off = 0 ∧ len = 4 ∧
        s.sliceState slice = 1 ∧ s.sliceFn slice = fn ∧ s.queueOwner kind (getBits e F.doorbellEntry_queue) = some slice then
      .hit (getBits e F.doorbellEntry_queue) (v % 2 ^ 16)
    else .dropped (if getBits e F.doorbellEntry_valid = 1 then slice else 0)

/-- Count a dropped doorbell (R279) for the slice of its queue or entry; for slice 0 where neither names one
(log entry 171, DEDUCED). -/
def State.bellDropped (s : State) (slice : Nat) : State := s.count 0x05 1 slice 1

/-- A doorbell beyond its queue's ring (R25): ignored, counted, recorded. -/
def State.bellBeyond (s : State) (slice queue index : Nat) : State :=
  s.violation 0x05 slice index queue

/-- The slots of a descriptor ring: 2^(size + 6), size at most 10. -/
def ringSlots (size : Nat) : Nat := 2 ^ (min size 10 + 6)

/-! ## Lists of values in memory -/

/-- Read a list of n elements of w bytes each as naturals. -/
def elems (w n : Nat) (l : List Byte) : List Nat := (chunks w n l).map leNat

/-! ## The ends of sub-parts and instances (R85, R94, R98, R107) -/

/-- Every sub-part of a descriptor has ended. -/
def Desc.allEnded (d : Desc) : Bool := d.subs.all fun p => p.phase == .ended

/-- The codes of a descriptor: its operation's and its sub-parts'. -/
def Desc.codes (d : Desc) : List Nat := d.code :: d.subs.map fun p => p.code

/-- A descriptor with what its sub-parts produced taken together (R85). -/
def Desc.merged (d : Desc) : Desc :=
  { d with flags := d.subs.foldl (fun f p => f ||| p.flags) d.flags,
           flagged := d.subs.foldl (fun n p => n + p.flagged) d.flagged,
           bytes := d.subs.foldl (fun n p => n + p.bytes) d.bytes }

/-- Change the sub-part at a stack and position. -/
def Desc.mapSub (d : Desc) (stack pos : Nat) (f : SubPart → SubPart) : Desc :=
  { d with subs := d.subs.map fun p => if p.stack == stack && p.pos == pos then f p else p }

/-- The sub-part at a stack and position. -/
def Desc.sub? (d : Desc) (stack pos : Nat) : Option SubPart := d.subs.find? fun p => p.stack == stack && p.pos == pos

/-- The physical benches that run a sub-part. -/
def SubPart.benches (p : SubPart) : List Nat := p.bench :: p.also

/-- A participant of a descriptor arrives, with the code of the arrival: a sub-part at its bench's barrier, one that never ran at that of
the bench its slice last ran on; a stack part, once all its sub-parts have ended, at the stack's or the device's (R98, R100)
(log entry 31, DEDUCED). -/
def State.arriveSub (s : State) (d : Desc) (p : SubPart) (ran : Bool) : Nat × State :=
  let mine := d.subs.filter fun x => x.stack == p.stack
  let whole (sc : BarScope) : Nat × State :=
    if mine.all fun x => x.phase == .ended then s.arriveFor d.slice sc d.barNo (mine.any fun x => x.code != 0) else (0, s)
  if d.arriveAfter then
    match d.scope with
    | 1 =>
      let b := if ran then some p.bench else s.benchFor p.stack p.pos
      match b with
      | some b =>
        if s.barSlice (.bench p.stack b) d.barNo = d.slice then s.arriveFor d.slice (.bench p.stack b) d.barNo (p.code != 0) else (0, s)
      | none => (0, s)
    | 2 => whole (.stack p.stack)
    | 3 => whole .device
    | _ => (0, s)
  else (0, s)

/-- A descriptor counts on every stack of its mask (log entry 170, DEDUCED). -/
def State.countDesc (s : State) (d : Desc) : State :=
  ((below 12).filter fun st => natBit d.stackMask st).foldl (fun s st => s.count 0x0E 0 st 1) s

/-- Complete a descriptor whose sub-parts have all ended (R85). -/
def State.closeDesc (s : State) (n : Nat) (d : Desc) : State :=
  let d := d.merged
  let code := finalCode d.codes d.flags
  (s.finishDesc n d d.kind code d.bytes d.word02).countDesc d

/-- End the sub-part at a stack and position with a code: its benches are free, it arrives, and the descriptor completes with
its last sub-part. -/
def State.endSub (s : State) (n stack pos code : Nat) : State :=
  match s.desc? n with
  | none => s
  | some d =>
    match d.sub? stack pos with
    | none => s
    | some p =>
      if p.phase = .ended then s
      else
        let ran := decide (p.phase = .running)
        let s := if ran then p.benches.foldl (fun s b => s.sequencerEnds stack b) s else s
        let d := d.mapSub stack pos fun p => { p with phase := .ended, code := code }
        let r := (s.setDesc n d).arriveSub d { p with phase := .ended, code := code } ran
        match r.2.desc? n with
        | none => r.2
        | some d =>
          let d := d.mapSub stack pos fun p => { p with code := combineCodes [code, r.1] }
          let s := r.2.setDesc n d
          if d.allEnded then s.closeDesc n d else s

/-- End every sub-part of every descriptor that satisfies a test, with a code. -/
def State.endSubs (s : State) (which : Desc → SubPart → Bool) (code : Nat) : State :=
  let hits := s.bench.descs.flatMap fun e =>
    (e.2.subs.filter fun p => p.phase != .ended && which e.2 p).map fun p => (e.1, p.stack, p.pos)
  hits.foldl (fun s h => s.endSub h.1 h.2.1 h.2.2 code) s

/-- The code and exit value of an instance that has ended. -/
def InstPhase.outcome : InstPhase → Option (Nat × Nat)
  | .ended code exit => some (code, exit)
  | _ => none

/-- source_word of source_kind 0x03 (R94). -/
def launchWord (d : Desc) (l : Launch) : Nat :=
  let ends := l.insts.filterMap InstPhase.outcome
  let failed := ends.filter fun e => e.1 != 0
  let exit := match failed with
    | e :: _ => e.2
    | [] => match ends with
      | e :: _ => e.2
      | [] => 0
  d.flags % 2 ^ 16 * 2 ^ 48 + min failed.length (2 ^ 16 - 1) * 2 ^ 32 + exit % 2 ^ 32

/-- An instance on a stack failed, or one that came to no stack (R100). -/
def Launch.failedOn (l : Launch) (stack : Nat) : Bool :=
  l.insts.zipIdx.any fun e => ((InstPhase.outcome e.1).map fun o => o.1 != 0).getD false &&
    (Tab.find? l.on e.2).getD stack == stack

/-- Complete a launch whose instances have all ended: its stack parts arrive at a stack's or the device's barrier, as its instances did
at bench scope (R94, R98, R139). -/
def State.closeLaunch (s : State) (n : Nat) (d : Desc) (l : Launch) : State :=
  let codes := (l.insts.filterMap InstPhase.outcome).map Prod.fst
  let r := if d.scope = 1 then (0, s) else s.arriveParts d l.failedOn
  r.2.finishDesc n d 0x03 (finalCode (r.1 :: codes) d.flags) 0 (launchWord d l)

/-- Free the scratch pages of a core's instance: they go into zeroing (R76). -/
def State.freePages (s : State) (core : Nat) (c : Core) : State :=
  c.pages.foldl (fun s i =>
    { s with bench := { s.bench with pages := Tab.insert s.bench.pages (core * 64 + i) 2
                                     leftBy := Tab.insert s.bench.leftBy (core * 64 + i) c.slice } }) s

/-- The bundle in which a core stands: the next, or the one of a BAR or EXIT that waits (R136, R139). -/
def Core.standsAt (c : Core) : Word :=
  match c.stall with
  | .bar _ _ _ => c.here
  | .exiting _ => c.here
  | _ => c.pc

/-- The exit value of an instance that a cause ends (R138): the cause, and the bundle's offset from entry in words. -/
def exitValue (cause : Nat) (c : Core) : Nat :=
  cause * 2 ^ 24 + min ((c.standsAt - c.entry).toNat / 4) (2 ^ 24 - 1)

/-- End the kernel instance on a bench controller with a code, an exit value and its flags; at bench scope it arrives at the barrier of
its bench (R94, R98, R138, R139). -/
def State.endInstance (s : State) (core code exit flags : Nat) : State :=
  let c := Tab.get Core.clear s.cores core
  match c.role with
  | .kernel n idx =>
    let s := (s.freePages core c).benchFree (core / 7) (core % 7)
    let s := { s with cores := Tab.put Core.clear s.cores core { c with role := .free, stall := .none, pages := [] } }
    match s.desc? n, Tab.find? s.bench.launches n with
    | some d, some l =>
      let r := if d.arriveAfter ∧ d.scope = 1 then
          s.arriveFor d.slice (.bench (core / 7) (core % 7)) d.barNo (code != 0) else (0, s)
      let s := r.2
      let code := combineCodes [code, r.1]
      let l := { l with insts := l.insts.set idx (.ended code exit) }
      let d := { d with flags := d.flags ||| flags % 2 ^ 16 }
      let s := s.setDesc n d
      let s := { s with bench := { s.bench with launches := Tab.insert s.bench.launches n l } }
      if l.insts.all fun i => i.outcome.isSome then s.closeLaunch n d l else s
    | _, _ => s
  | _ => s

/-- An instance whose bench, or an engine or lane of it, faulted: restarted where the retry bit is set, else ended with 0x0015 and cause
0x01 (R107, R138) (log entry 194, DEDUCED). -/
def State.faultInstance (s : State) (core : Nat) : State :=
  let c := Tab.get Core.clear s.cores core
  match c.role with
  | .kernel n idx =>
    match s.desc? n, Tab.find? s.bench.launches n with
    | some d, some l =>
      if d.retry then
        let s := (s.freePages core c).benchFree (core / 7) (core % 7)
        let s := s.setDesc n { d with retried := true }
        let l' : Launch := ⟨l.insts.set idx .waiting, Tab.erase l.on idx⟩
        { s with cores := Tab.erase s.cores core,
                 bench := { s.bench with launches := Tab.insert s.bench.launches n l' } }
      else s.endInstance core 0x15 (exitValue 0x01 c) c.flags.toNat
    | _, _ => s
  | _ => s

/-- A sub-part whose bench faulted waits again, its share to be done from the start; a step keeps what its journal has marked done
(R86, R107). -/
def SubPart.again (p : SubPart) : SubPart := { p with phase := .waiting, rerun := true, did := false }

/-- What happens to the work on bench b of a stack when an engine or the bench faults (R107). -/
def State.faultWork (s : State) (stack b : Nat) : State :=
  let hits := s.bench.descs.flatMap fun e =>
    (e.2.subs.filter fun p => p.phase == .running && p.stack == stack && p.benches.contains b).map fun p => (e.1, p)
  hits.foldl (fun s h =>
    match s.desc? h.1 with
    | none => s
    | some d =>
      if d.retry ∧ ¬ h.2.rerun then
        let s := s.setDesc h.1 { d.mapSub stack h.2.pos SubPart.again with retried := true }
        h.2.benches.foldl (fun s b => s.sequencerEnds stack b) s
      else s.endSub h.1 stack h.2.pos 0x15) s

/-- End every instance of kernels on a stack with a code and a cause (R107, R138). -/
def State.endStackInstances (s : State) (stack code cause : Nat) : State :=
  (below 7).foldl (fun s b =>
    let c := Tab.get Core.clear s.cores (stack * 7 + b)
    s.endInstance (stack * 7 + b) code (exitValue cause c) c.flags.toNat) s

end Sys2Proof.Machine
end

