-- ==== Sys2Proof/Machine/Resources.lean ====
section
/-! DEFINITION. What a slice may use and what it uses: limits (R277, R502), rings and windows in device memory (R153,
R281). -/

namespace Sys2Proof.Machine

/-- The resources of R277 that have a unit count, in the order of the image's ceilings. -/
inductive Res where
  | hbm
  | ddr
  | benchQueues
  | rings
  | channels
  | queuePairs
  | connections
  | keySlots
  | sequences
  | frames
  deriving DecidableEq, Repr

/-- The place of a resource in a list of ceilings. -/
def Res.index : Res → Nat
  | .hbm => 0
  | .ddr => 1
  | .benchQueues => 2
  | .rings => 3
  | .channels => 4
  | .queuePairs => 5
  | .connections => 6
  | .keySlots => 7
  | .sequences => 8
  | .frames => 9

/-- A quota of a slice entry's fields. -/
def quotaOf (f : SliceForce) : Res → Nat
  | .hbm => getBits f.quotaMem F.sliceQuotaMem_hbm_gib
  | .ddr => getBits f.quotaMem F.sliceQuotaMem_ddr_gib
  | .benchQueues => getBits f.quotaQ F.sliceQuotaQ_bench_queues
  | .rings => getBits f.quotaQ F.sliceQuotaQ_cq_rings
  | .channels => getBits f.quotaQ F.sliceQuotaQ_dma_channels
  | .queuePairs => getBits f.quotaQ F.sliceQuotaQ_nvme_qps
  | .connections => getBits f.quotaNet F.sliceQuotaNet_connections
  | .keySlots => getBits f.quotaNet F.sliceQuotaNet_key_slots
  | .sequences => getBits f.quotaServe F.sliceQuotaServe_sequences
  | .frames =>
    let k := getBits f.quotaServe F.sliceQuotaServe_kv_frames
    if k = 0x7FFFFF then 4194304 else k

/-- The limit on a slice's use: its quota in force; for slice 0 before its first apply its ceiling in the image (R502). -/
def State.limit (s : State) (slice : Nat) (r : Res) : Nat :=
  let f := s.forceOf slice
  if slice = 0 ∧ ¬ f.applied then (s.policyOf 0).ceilings.getD r.index 0 else quotaOf f r

/-- The indices of the registers of an array that are listed, so that may differ from reset. -/
def State.listed (s : State) (base stride count : Nat) : List Nat :=
  s.regs.filterMap fun e =>
    if base ≤ e.1 ∧ (e.1 - base) % stride = 0 ∧ (e.1 - base) / stride < count then some ((e.1 - base) / stride) else none

/-- The indices of a register array whose field has a value. -/
def State.listedWith (s : State) (base stride count : Nat) (tests : List (Fld × Nat)) : List Nat :=
  (s.listed base stride count).filter fun i => tests.all fun t => getBits (s.reg (base + i * stride)) t.1 == t.2

/-- Bytes of a slice's regions of some tiers. -/
def State.regionBytes (s : State) (slice : Nat) (tiers : List Nat) : Nat :=
  s.regions.foldl (fun n e => if e.2.owner = slice ∧ tiers.contains e.2.tier then n + e.2.size else n) 0

/-- The enabled bench work queues of a slice. -/
def State.queuesOf (s : State) (slice : Nat) : List Nat :=
  s.listedWith (R.bqCfg 0) 0x40 1024 [(F.bqCfg_enable, 1), (F.bqCfg_owner, slice)]

/-- The enabled completion rings of a slice. -/
def State.ringsOf (s : State) (slice : Nat) : List Nat :=
  s.listedWith (R.crCfg 0) 0x20 4096 [(F.crCfg_enable, 1), (F.crCfg_owner, slice)]

/-- The DMA channels of a slice other than slice 0: those whose CHAN_CFG names it. -/
def State.channelsOf (s : State) (slice : Nat) : List Nat :=
  (below 16).flatMap fun e => (s.listedWith (R.chanCfg e 0) 0x40 64 [(F.chanCfg_owner, slice)]).map fun c => e * 64 + c

/-- The enabled NVMe queue pairs of a slice. -/
def State.pairsOf (s : State) (slice : Nat) : List Nat :=
  s.listedWith (R.qpCfg 0) 0x40 4096 [(F.qpCfg_enable, 1), (F.qpCfg_owner, slice)]

/-- The open sequences of a slice. -/
def State.seqsOf (s : State) (slice : Nat) : Nat := (s.serve.seqs.filter fun e => e.2.slice == slice).length

/-- The KV frames allocated to a slice. -/
def State.framesOf (s : State) (slice : Nat) : Nat :=
  (s.serve.frames.filter fun e => !e.2.zeroing && e.2.slice == slice).length

/-- [a, a + n) meets [b, b + m). -/
def meets (a n b m : Nat) : Bool := decide (a < b + m) && decide (b < a + n)

/-- The slices other than n that are not free and whose fields bind them. -/
def State.others (s : State) (n : Nat) : List (Nat × SliceForce) :=
  s.force.filter fun e => e.1 != n && s.sliceState e.1 != 0 && e.2.applied

/-- A vector is one a slice's ring may use: below its vec_count; for slice 0 before its first apply any but 0 that no other
slice of function 0 holds (R282, R502). -/
def State.vectorOk (s : State) (owner v : Nat) : Bool :=
  let f := s.forceOf owner
  if owner = 0 ∧ ¬ f.applied then
    v != 0 && !((s.others 0).any fun e => s.sliceFn e.1 == 0 &&
      meets v 1 (getBits e.2.policy F.slicePolicy_vec_base) (getBits e.2.policy F.slicePolicy_vec_count))
  else decide (v < getBits f.policy F.slicePolicy_vec_count)

/-- [a, a + n) lies in active regions of a slice. -/
def State.owned (s : State) (slice a n : Nat) : Bool :=
  (blockStarts a n).all fun b => match s.regionOf b with
    | some (_, r) => r.owner == slice && r.state == 1
    | none => false

/-- The device-memory rings in use: first byte and bytes. -/
def State.deviceRings (s : State) : List (Nat × Nat) :=
  ((s.listedWith (R.bqCfg 0) 0x40 1024 [(F.bqCfg_enable, 1)]).filterMap fun q =>
    let r := s.reg (R.bqRing q)
    if getBits r F.bqRing_space = 0 then some (getBits r F.bqRing_base * 4096, ringSlots (getBits r F.bqRing_size) * 128) else none) ++
  ((s.listedWith (R.crCfg 0) 0x20 4096 [(F.crCfg_enable, 1)]).filterMap fun q =>
    let r := s.reg (R.crRing q)
    if getBits r F.crRing_space = 0 then some (getBits r F.crRing_base * 4096, s.crSize q * 32) else none) ++
  ((below 16).flatMap fun e => (s.listedWith (R.chanCfg e 0) 0x40 64 [(F.chanCfg_enable, 1)]).filterMap fun c =>
    let r := s.reg (R.chanRing e c)
    if getBits r F.chanRing_space = 0 then some (getBits r F.chanRing_base * 4096, ringSlots (getBits r F.chanRing_size) * 64) else none) ++
  ((s.listedWith (R.cqCfg 0) 0x20 1024 [(F.cqCfg_enable, 1)]).filterMap fun q =>
    let r := s.reg (R.cqRing q)
    if getBits r F.cqRing_space = 0 then some (getBits r F.cqRing_base * 4096, ringSlots (getBits r F.cqRing_size) * 64) else none) ++
  ((s.listedWith (R.prCfg 0) 0x20 16384 [(F.prCfg_enable, 1)]).filterMap fun q =>
    let r := s.reg (R.prRing q)
    let w := if s.getF (R.prCfg q) F.prCfg_dir = 1 then 32 else 16
    if getBits r F.prRing_space = 0 then some (getBits r F.prRing_base * 4096, ringSlots (getBits r F.prRing_size) * w) else none)

/-- The valid bench windows of the device: first device address and bytes. -/
def State.deviceWindows (s : State) : List (Nat × Nat) :=
  (below 12).flatMap fun st => (s.listedWith (R.winCtrl st 0 0) 0x20 1024 [(F.winCtrl_valid, 1)]).map fun i =>
    (s.getF (R.winPa st 0 i) F.winPa_pa_base * 4096, s.getF (R.winSize st 0 i) F.winSize_pages * 4096)

/-- The ranges the bound lasts name: embedding table, layer tables' weights and expert directories (R172). -/
def State.lastRanges (s : State) : List (Nat × Nat) :=
  s.serve.lasts.flatMap fun e =>
    let r := e.2.raw
    (if fieldLE r 24 8 = 0 then [] else [(fieldLE r 24 8, fieldLE r 32 4 * fieldLE r 36 4)]) ++
    e.2.layers.flatMap fun l => [(fieldLE l 0 8, fieldLE l 8 8), (fieldLE l 16 8, fieldLE l 24 2 * 16)]

/-- A valid window, a ring in use, a bound last or an arena maps into [a, a + n) (R153). -/
def State.mapped (s : State) (a n : Nat) : Bool :=
  (s.deviceWindows ++ s.deviceRings ++ s.lastRanges ++ s.serve.arenas.map fun e => (e.1, e.2.size)).any
    fun r => meets a n r.1 r.2

end Sys2Proof.Machine
end

