-- ==== Sys2Proof/Machine/ServeOps.lean ====
section
/-! DEFINITION. The serving state behind attend: lasts, pages and frames, batches from intake to their records, and what a
loss does to them (R172 to R195). -/

namespace Sys2Proof.Machine

/-! ## The ends of descriptors that have no sub-parts -/

/-- Complete a descriptor that has no sub-parts: arrivals, record, the count. -/
def State.endWhole (s : State) (n : Nat) (d : Desc) (code bytes word : Nat) : State :=
  let r := s.arriveParts d fun _ => code != 0 && code != 0x30
  (r.2.finishDesc n d d.kind (if r.1 = 0 then code else combineCodes [code, r.1]) bytes word).countDesc d

/-! ## The last (R172, R174, R180) -/

/-- A field of a last record. -/
def LastRec.field (l : LastRec) (off width : Nat) : Nat := fieldLE l.raw off width
/-- The number of layers. -/
def LastRec.layerCount (l : LastRec) : Nat := l.field 0 2
/-- KV heads. -/
def LastRec.kvHeads (l : LastRec) : Nat := l.field 2 2
/-- Query heads. -/
def LastRec.qHeads (l : LastRec) : Nat := l.field 4 2
/-- d, the channels of a head. -/
def LastRec.dim (l : LastRec) : Nat := l.field 6 2
/-- kv_format. -/
def LastRec.kvFormat (l : LastRec) : Nat := l.field 8 1
/-- kv_in. -/
def LastRec.kvIn (l : LastRec) : Nat := l.field 9 1
/-- stripe_pages. -/
def LastRec.stripe (l : LastRec) : Nat := l.field 12 1
/-- max_tokens. -/
def LastRec.maxTokens (l : LastRec) : Nat := l.field 20 4
/-- Slice n may use the last. -/
def LastRec.permits (l : LastRec) (n : Nat) : Bool := natBit (l.field 48 32) n
/-- E: elements of a K or V row. -/
def LastRec.rowElems (l : LastRec) : Nat := l.kvHeads * l.dim
/-- kv_format is an MX format. -/
def LastRec.mx (l : LastRec) : Bool := decide (l.kvFormat ≤ 4)
/-- Bits of a K or V element. -/
def LastRec.kvBits (l : LastRec) : Nat := [4, 6, 6, 8, 8, 16].getD l.kvFormat 16
/-- The MX target of R90 that kv_format is. -/
def LastRec.kvTarget (l : LastRec) : Nat := [4, 2, 3, 0, 1].getD l.kvFormat 0
/-- kb: element bytes of a row (R174). -/
def LastRec.kb (l : LastRec) : Nat := l.rowElems * l.kvBits / 8
/-- sb: scale bytes of a row (R174). -/
def LastRec.sb (l : LastRec) : Nat := if l.mx then l.rowElems / 32 else 0
/-- Bytes of a frame: whole 4 KiB units (R174). -/
def LastRec.frameBytes (l : LastRec) : Nat := alignUp (128 * (l.kb + l.sb)) 4096
/-- The group size g. -/
def LastRec.group (l : LastRec) : Nat := l.qHeads / l.kvHeads
/-- QE: elements of a Q row. -/
def LastRec.qElems (l : LastRec) : Nat := l.qHeads * l.dim
/-- Bytes of a Q row. -/
def LastRec.qRow (l : LastRec) : Nat := l.qElems + l.qElems / 32
/-- Bytes of a new K and V row. -/
def LastRec.kvRow (l : LastRec) : Nat := if l.kvIn = 0 then 4 * l.rowElems else 2 * (l.kb + l.sb)
/-- Bytes of an output row. -/
def LastRec.outRow (l : LastRec) : Nat := l.qElems * (if l.field 11 1 = 0 then 2 else 4)

/-- A bound last. -/
def State.last? (s : State) (k : Nat) : Option LastRec := Tab.find? s.serve.lasts k

/-! ## Sequences and frames (R175 to R179) -/

/-- A sequence entry that is not free. -/
def State.seq? (s : State) (q : Nat) : Option Seqn := Tab.find? s.serve.seqs q

/-- The number of a sequence's state. -/
def SeqState.code : SeqState → Nat
  | .active => 0
  | .parked => 1
  | .lost => 2
  | .zeroing => 3

/-- The active tells the standby how a sequence entry stands (R448). -/
def State.tellSeq (s : State) (q : Nat) : State :=
  match s.seq? q with
  | some x => s.tell 1 x.slice (.sequence q x.state.code x.slice x.last x.seed x.stackIds x.lens x.pages)
  | none => s

/-- Set a sequence entry. -/
def State.setSeq (s : State) (q : Nat) (x : Seqn) : State :=
  ({ s with serve := { s.serve with seqs := Tab.insert s.serve.seqs q x } }).tellSeq q

/-- Change a sequence entry that is not free. -/
def State.modSeq (s : State) (q : Nat) (f : Seqn → Seqn) : State :=
  ({ s with serve := { s.serve with seqs := Tab.modify s.serve.seqs q f } }).tellSeq q

/-- The key of page k of a layer. -/
def pageKey (layer k : Nat) : Nat := layer * 1024 + k

/-- The tokens a sequence holds in a layer (log entry 53, DEDUCED). -/
def Seqn.len (x : Seqn) (layer : Nat) : Nat := Tab.get 0 x.lens layer

/-- The present length of a sequence: its longest layer. -/
def Seqn.length (x : Seqn) : Nat := x.lens.foldl (fun n e => max n e.2) 0

/-- The stack page k of a layer of sequence q is placed on (R175). -/
def Seqn.placement (x : Seqn) (q stripe layer k : Nat) : Nat :=
  x.stackIds.getD ((q + layer + k / stripe) % x.stackIds.length) 0

/-- The lowest free frame of an arena from frame i on: one that no allocated frame and none in zeroing overlaps. -/
def freeFrame (frames : Tab Frame) (base size : Nat) : Nat → Nat → Option Nat
  | 0, _ => none
  | n + 1, i =>
    let a := base + i * size
    if frames.any fun e => decide (e.1 < a + size) && decide (a < e.1 + e.2.bytes) then freeFrame frames base size n (i + 1)
    else some a

/-- The lowest free frame of the last's arenas on a stack whose memory is in service (R175). -/
def State.frameOn (s : State) (last stack : Nat) : Option Nat :=
  if ¬ s.stackMem stack then none
  else (s.serve.arenas.filter fun e => e.2.last == last && e.1 / 2 ^ 35 == stack).findSome? fun e =>
    freeFrame s.serve.frames e.1 e.2.frame (e.2.size / e.2.frame) 0

/-- Allocate pages in turn, each a sequence with its layer and page: the frames taken, or none where one lacks (R175)
(log entry 57, DEDUCED). -/
def State.allocPages (s : State) : List (Nat × Nat × Nat) → Option (List Nat × State)
  | [] => some ([], s)
  | (q, layer, k) :: ps =>
    match s.seq? q with
    | none => none
    | some x =>
      let stripe := ((s.last? x.last).map LastRec.stripe).getD 1
      let n := ((s.last? x.last).map LastRec.frameBytes).getD 4096
      match s.frameOn x.last (x.placement q stripe layer k) with
      | none => none
      | some a =>
        let s := s.setSeq q { x with pages := Tab.insert x.pages (pageKey layer k) a }
        let s := { s with serve := { s.serve with frames := Tab.insert s.serve.frames a ⟨q, x.slice, false, n⟩ } }
        (s.allocPages ps).map fun r => (a :: r.1, r.2)

/-- A frame is freed: it is being zeroed (R175). -/
def State.freeFrames (s : State) (l : List Nat) : State :=
  { s with serve := { s.serve with frames := l.foldl (fun t a => Tab.modify t a fun f => { f with zeroing := true }) s.serve.frames } }

/-- Free the frames of a sequence's pages that satisfy a test on layer and page. -/
def State.freePagesOf (s : State) (q : Nat) (which : Nat → Nat → Bool) : State :=
  match s.seq? q with
  | none => s
  | some x =>
    let gone := x.pages.filter fun e => which (e.1 / 1024) (e.1 % 1024)
    (s.freeFrames (gone.map Prod.snd)).setSeq q
      { x with pages := Tab.keep x.pages fun key _ => !which (key / 1024) (key % 1024) }

/-- A sequence is lost (the table under R176). -/
def State.loseSeq (s : State) (q : Nat) : State :=
  s.modSeq q fun x => if x.state = .active then { x with state := .lost } else x

/-- A sequence whose frames are all zeroed is free again (R178). -/
def State.seqRefresh (s : State) (q : Nat) : State :=
  match s.seq? q with
  | some x =>
    if x.state = .zeroing ∧ ¬ s.serve.frames.any (fun e => e.2.seq == q) then
      { s with serve := { s.serve with seqs := Tab.erase s.serve.seqs q } }
    else s
  | none => s

/-- The bytes of the cold tier from an address on are zeroed, and its slots there are free (R179). -/
def State.freeCold (s : State) (l : List Nat) : State :=
  l.foldl (fun s a =>
    let n := Tab.get 0 s.serve.cold a
    ({ s with serve := { s.serve with cold := Tab.erase s.serve.cold a } }).zeroAnew a n) s

/-- Free all that a sequence's pages hold: frames, and slots of the cold tier (R178, R179). -/
def State.freeAllOf (s : State) (q : Nat) : State :=
  match s.seq? q with
  | none => s
  | some x =>
    let cold := (x.pages.map Prod.snd).filter fun a => (Tab.find? s.serve.cold a).isSome
    ((s.freeCold cold).modSeq q fun x => { x with pages := x.pages.filter fun e => !cold.contains e.2 }).freePagesOf q fun _ _ => true

/-- A sequence is held by a running batch (R178). -/
def State.seqHeld (s : State) (q : Nat) : Bool :=
  s.serve.batches.any fun e => e.2.started && e.2.entries.any fun x => x.1 == q

/-! ## Feeds (R181 to R183) -/

/-- A feed. -/
def State.feed? (s : State) (f : Nat) : Option FeedBind := Tab.find? s.serve.feeds f

/-- Set a feed. -/
def State.setFeed (s : State) (f : Nat) (x : FeedBind) : State :=
  { s with serve := { s.serve with feeds := Tab.insert s.serve.feeds f x } }

/-- A port is usable (R293). -/
def State.portUsable (s : State) (p : Nat) : Bool :=
  s.getF (R.dpStatus p) F.dpStatus_state == 3 && s.getF (R.dpCtrl p) F.dpCtrl_port_enable == 1

/-- Write a record to a feed's ring through its port (R183); lost where the port is not usable. -/
def State.feedRecord (s : State) (f ticket status bytes word flags : Nat) : State :=
  match s.feed? f with
  | none => s
  | some x =>
    if ¬ s.portUsable x.port then s
    else
      let r : Rec := { status := status, queue := f, kind := 0x08, flags := flags, slice := x.slice, tag := ticket,
                       byteCount := byteCount32 bytes, time := s.now, word := word, irq := false }
      let next := (x.tail + 1) % x.entries
      let s := s.emit (.portWrite x.port (x.ring + x.tail * 32) (r.bytes x.phase))
      s.setFeed f { x with tail := next, phase := if next = 0 then 1 - x.phase else x.phase }

/-! ## Batches (R185 to R195) -/

/-- A batch. -/
def State.batch? (s : State) (n : Nat) : Option Batch := Tab.find? s.serve.batches n

/-- Set a batch. -/
def State.setBatch (s : State) (n : Nat) (b : Batch) : State :=
  { s with serve := { s.serve with batches := Tab.insert s.serve.batches n b } }

/-- The part that takes a page stored on a stack: its own stack, or the next in the sequence's list with a bench in service
(R187). -/
def State.partStack (s : State) (x : Seqn) (stack : Nat) : Option Nat :=
  if s.stackUp stack then some stack
  else
    let i := x.stackIds.findIdx fun st => st == stack
    ((below x.stackIds.length).map fun j => x.stackIds.getD ((i + 1 + j) % x.stackIds.length) 0).find? fun st => s.stackUp st

/-- source_word of a batch (R195). -/
def attendWord (op flagged flags : Nat) : Nat := min flagged (2 ^ 32 - 1) * 2 ^ 32 + op * 2 ^ 16 + flags % 2 ^ 16

/-- A batch ends with its record. -/
def State.closeBatch (s : State) (n : Nat) (b : Batch) (code bytes flagged flags : Nat) : State :=
  let s := { s with serve := { s.serve with batches := Tab.erase s.serve.batches n } }
  match b.desc, b.feed with
  | some d, _ => match s.desc? d with
    | some x => s.endWhole d (if b.reruns.isEmpty then x else { x with retried := true }) code bytes (attendWord 0 flagged flags)
    | none => s
  | none, some (f, _, t) =>
    s.feedRecord f t code bytes (attendWord 0 flagged flags) (if b.reruns.isEmpty then 0 else 2)
  | none, none => s

/-- Every append of a batch is undone (R194). -/
def State.rollback (s : State) (b : Batch) : State :=
  let s := b.undo.foldl (fun s u => s.modSeq u.1 fun x =>
    { x with lens := Tab.put 0 x.lens b.layer u.2, pages := Tab.keep x.pages fun _ a => !b.frames.contains a }) s
  s.freeFrames b.frames

/-- The batch's sequences, each once. -/
def Batch.seqs (b : Batch) : List Nat := (b.entries.map Prod.fst).eraseDups

/-- The pages the appends of a batch allocate, and the length each entry attends over (R186). -/
def appendPlan (layer : Nat) : List (Nat × Bool) → Tab Nat → List (Nat × Nat × Nat) × List Nat
  | [], _ => ([], [])
  | (q, keep) :: es, lens =>
    let n := Tab.get 0 lens q
    if keep then
      let r := appendPlan layer es lens
      (r.1, n :: r.2)
    else
      let r := appendPlan layer es (Tab.put 0 lens q (n + 1))
      (if n % 64 = 0 then (q, layer, n / 64) :: r.1 else r.1, (n + 1) :: r.2)

/-- The present lengths of a batch's sequences in its layer. -/
def State.lensOf (s : State) (b : Batch) : Tab Nat :=
  b.seqs.foldl (fun t q => Tab.put 0 t q (((s.seq? q).map fun x => x.len b.layer).getD 0)) []

/-- The checks of R185 on a batch whose entries are known: 0, or the first failure. listBad: a reserved bit of the list or the
header is set, or a count is out of range (log entry 56, DEDUCED). -/
def State.batchCheck (s : State) (b : Batch) (listBad : Bool) : Nat :=
  let lens := s.lensOf b
  let known := b.entries.filterMap fun e => (s.seq? e.1).map fun x => (e, x)
  let layers := ((s.last? b.last).map LastRec.layerCount).getD 0
  let maxTok := ((s.last? b.last).map LastRec.maxTokens).getD 0
  let plan := appendPlan b.layer b.entries lens
  if listBad ∨ b.layer ≥ layers ∨ (known.any fun e => e.2.last != b.last) ∨
      (known.any fun e => e.1.2 && Tab.get 0 lens e.1.1 == 0) then 0x02
  else if known.any fun e => e.2.slice != b.slice then 0x08
  else if known.length ≠ b.entries.length ∨ (known.any fun e => e.2.state != .active) ∨
      (plan.2.any fun n => decide (n > maxTok)) then 0x01
  else if s.framesOf b.slice + plan.1.length > s.limit b.slice .frames ∨ (s.allocPages plan.1).isNone then 0x04
  else 0

/-- A new K or V row in the stored form: elements, scales (R186). -/
def storedRow (l : LastRec) (key : SrKey) (p : Nat) (bf : List Nat) : List Byte × List Byte :=
  if ¬ l.mx then (bf.flatMap (bytesLE 2), [])
  else
    let blocks := (chunks 32 (l.rowElems / 32) bf).zip (below (l.rowElems / 32))
    let qs := blocks.map fun x => quantizeBlock l.kvTarget (x.1.map bf16.decode)
      ((below 32).map fun j => rndAt (l.field 13 1 % 4) true key (p * l.rowElems + x.2 * 32 + j))
    (packElems l.kvBits (qs.flatMap fun q => q.2.map Prod.fst), qs.map fun q => BitVec.ofNat 8 q.1)

/-- The writes that store a new K and V row in slot t of a frame: address and bytes (R174, R186). -/
def rowWrites (l : LastRec) (seed layer p frame : Nat) (row : List Byte) : List (Nat × List Byte) :=
  let t := p % 64
  let e := l.rowElems
  let k : List Byte × List Byte :=
    if l.kvIn = 0 then storedRow l ⟨seed, 2 * layer, 0⟩ p (elems 2 e row)
    else (row.take l.kb, (row.drop l.kb).take l.sb)
  let v : List Byte × List Byte :=
    if l.kvIn = 0 then storedRow l ⟨seed, 2 * layer + 1, 0⟩ p (elems 2 e (row.drop (2 * e)))
    else ((row.drop (l.kb + l.sb)).take l.kb, (row.drop (2 * l.kb + l.sb)).take l.sb)
  [(frame + t * l.kb, k.1), (frame + 64 * l.kb + t * l.sb, k.2), (frame + 64 * (l.kb + l.sb) + t * l.kb, v.1),
   (frame + 64 * (2 * l.kb + l.sb) + t * l.sb, v.2)].filter fun w => !w.2.isEmpty

/-- Write several ranges in turn under the identity of slice 0; the code of the first failure, or 0 (R176). -/
def State.frameWrites (s : State) (inst : Nat) : List (Nat × List Byte) → Nat × State
  | [] => (0, s)
  | (a, l) :: ws =>
    match s.memWrite 0x0E inst 0 0 a l with
    | (none, s) => s.frameWrites inst ws
    | (some c, s) => (c, s)

/-- The frame check of R176: the frame is allocated to the sequence, of the slice being served (log entry 65, DESIGN CHOICE). -/
def State.frameOk (s : State) (frame q slice : Nat) : Bool :=
  match Tab.find? s.serve.frames frame with
  | some f => f.seq == q && f.slice == slice && !f.zeroing
  | none => false

/-- Append the rows of a batch from entry j on (R186): the code of the first failure, or 0. -/
def State.appendRows (s : State) (b : Batch) (l : LastRec) : Nat → List (Nat × Bool) → Nat × State
  | _, [] => (0, s)
  | j, (q, keep) :: es =>
    if keep then s.appendRows b l (j + 1) es
    else
      match s.seq? q with
      | none => (0x01, s)
      | some x =>
        let p := x.len b.layer
        let frame := Tab.get 0 x.pages (pageKey b.layer (p / 64))
        match s.memRead 0x0F 0xFF 6 b.slice (b.kv + j * l.kvRow) l.kvRow with
        | (.fail c, s) => (c, s)
        | (.bytes row, s) =>
          if ¬ s.frameOk frame q b.slice then (0x08, s.recordBlocked 0x0E (frame / 2 ^ 35) b.slice 0x08 frame)
          else
            match s.frameWrites (frame / 2 ^ 35) (rowWrites l x.seed b.layer p frame row) with
            | (0, s) => (s.modSeq q fun x => { x with lens := Tab.put 0 x.lens b.layer (p + 1) }).appendRows b l (j + 1) es
            | r => r

/-- What the parts start from for one entry. -/
def RowAcc.start (l : LastRec) : RowAcc :=
  ⟨List.replicate l.qHeads 0xFF800000, if l.mx then List.replicate (l.rowElems / 32) 0 else List.replicate l.rowElems (-126),
   List.replicate l.qHeads 0, List.replicate l.qElems 0, List.replicate l.qHeads false, 0⟩

/-- For each sequence of a batch, the stacks that store its pages of the layer, its first pages' first, and the part that takes them, none
where no stack of its list has a bench in service (R187). -/
def State.takersOf (s : State) (b : Batch) : List (Nat × Nat × Option Nat) :=
  b.seqs.flatMap fun q => match s.seq? q with
    | some x =>
      let n := ((b.entries.zip b.counts).filter fun e => e.1.1 == q).foldl (fun m e => max m e.2) 0
      ((below (ceilDiv n 64)).map fun k => Tab.get 0 x.pages (pageKey b.layer k) / 2 ^ 35).eraseDups.map fun st =>
        (q, st, s.partStack x st)
    | none => []

/-- A batch with its parts formed, by rising stack; none where a page has no part (R187). -/
def State.partsOf (s : State) (b : Batch) : Option Batch :=
  let ts := s.takersOf b
  if ts.all fun t => t.2.2.isSome then
    let takers := ts.map fun t => (t.1, t.2.1, t.2.2.getD 0)
    some { b with takers := takers, parts := (below 12).filter fun st => takers.any fun t => t.2.2 == st,
                  homes := b.seqs.filterMap fun q => (takers.find? fun t => t.1 == q).map fun t => t.2.2 }
  else none

/-- The part that takes the pages of a sequence that a stack stores. -/
def Batch.taker (b : Batch) (q stack : Nat) : Option Nat := (b.takers.find? fun t => t.1 == q && t.2.1 == stack).map fun t => t.2.2

/-- A refused batch is recorded: one of another slice's sequence as blocked (R19), one in the wrong state with the first sequence
that its entries name (R26). -/
def State.batchRefused (s : State) (b : Batch) (code : Nat) : State :=
  if code = 0x08 then s.blockedName 0x0F 0xFF b.slice
  else if code = 1 then s.cmdRefused 0x0F 0xFF b.slice ((b.entries.map Prod.fst).headD 0) 0 1
  else s

/-- A batch whose sequences are free of earlier batches is checked, appends its rows and forms its parts (R185 to R187). -/
def State.startBatch (s : State) (n : Nat) (b : Batch) (listBad : Bool) : State :=
  let code := s.batchCheck b listBad
  match s.last? b.last with
  | none => s.closeBatch n b (if code = 0 then 0x02 else code) 0 0 0
  | some l =>
    if code ≠ 0 then (s.batchRefused b code).closeBatch n b code 0 0 0
    else
      let lens := s.lensOf b
      let plan := appendPlan b.layer b.entries lens
      match s.allocPages plan.1 with
      | none => s.closeBatch n b 0x04 0 0 0
      | some (frames, s) =>
        let b := { b with started := true, undo := b.seqs.map fun q => (q, Tab.get 0 lens q), frames := frames,
                          counts := plan.2, rows := b.entries.map fun _ => RowAcc.start l }
        match s.appendRows b l 0 b.entries with
        | (0, s) => match s.partsOf b with
          | some b => s.setBatch n b
          | none => (s.rollback b).closeBatch n b 0x15 0 0 0
        | (c, s) => (s.rollback b).closeBatch n b c 0 0 0

/-- An entry of a batch list: sequence, no_append (R180). -/
def batchEntry (w : Nat) : Nat × Bool := (w % 2 ^ 12, natBit w 31)

/-- A batch shares a sequence with one that hub intake accepted before it. -/
def State.batchWaits (s : State) (n : Nat) (b : Batch) : Bool :=
  s.serve.batches.any fun e => decide (e.1 < n) && e.2.entries.any fun x => b.entries.any fun y => x.1 == y.1

/-- Hub intake accepts a batch: it starts, or waits for the batches before it (R185). A list that breaks a rule of its form
is refused at once. -/
def State.intake (s : State) (b : Batch) (listBad : Bool) : State :=
  let n := s.serve.next
  let s := { s with serve := { s.serve with next := n + 1 } }
  if listBad then s.closeBatch n b 0x02 0 0 0
  else if s.batchWaits n b then s.setBatch n b
  else s.startBatch n b false

/-- A batch before intake. -/
def Batch.fresh : Batch := ⟨none, none, 0, 0, 0, [], 0, 0, 0, false, [], [], [], [], [], [], [], [], [], [], []⟩

/-- Hub intake reads a feed's buffer and accepts its batch (R182). -/
def State.intakeFeed (s : State) (f buf ticket : Nat) : State :=
  match s.feed? f with
  | none => s
  | some x =>
    let base := if buf = 0 then x.buf0 else x.buf1
    let b : Batch := { Batch.fresh with feed := some (f, buf, ticket), slice := x.slice, last := x.last }
    match s.memRead 0x0F 0xFF 6 x.slice base 64 with
    | (.fail c, s) => s.closeBatch s.serve.next b c 0 0 0
    | (.bytes h, s) =>
      let count := fieldLE h 2 2
      if count = 0 ∨ count > x.capacity ∨ fieldLE h 4 60 ≠ 0 then s.closeBatch s.serve.next b 0x02 0 0 0
      else
        match s.memRead 0x0F 0xFF 6 x.slice (base + 64) (4 * count) with
        | (.fail c, s) => s.closeBatch s.serve.next b c 0 0 0
        | (.bytes l, s) =>
          let ws := elems 4 count l
          let qRow := ((s.last? x.last).map LastRec.qRow).getD 0
          let outRow := ((s.last? x.last).map LastRec.outRow).getD 0
          let lq := 64 + alignUp (4 * count) 64
          s.intake { b with layer := fieldLE h 0 2, entries := ws.map batchEntry, q := base + lq,
                            kv := base + lq + alignUp (count * qRow) 64,
                            out := x.out + buf * x.capacity * outRow }
            (ws.any fun w => natBits w 30 12 != 0)

/-- A feed has a batch that runs or waits for its sequences. -/
def State.feedBusy (s : State) (f : Nat) : Bool :=
  s.serve.batches.any fun e => match e.2.feed with
    | some (g, _, _) => g == f
    | none => false

/-- What follows the end of a feed's batch: the waiting doorbell's batch is taken in; a feed that is to close closes (R181,
R183). -/
def State.feedNext (s : State) (f : Nat) : State :=
  let s := match s.feed? f with
    | some x =>
      if s.feedBusy f ∨ x.error then s
      else match x.waiting with
        | some (b, t) => (s.setFeed f { x with waiting := none }).intakeFeed f b t
        | none => s
    | none => s
  match s.feed? f with
  | some x =>
    match x.closing with
    | some d =>
      if s.feedBusy f then s
      else
        let s := { s with serve := { s.serve with feeds := Tab.erase s.serve.feeds f } }
        match s.desc? d with
        | some y => s.endWhole d y 0 0 (attendWord 12 0 0)
        | none => s
    | none => s
  | none => s

/-- A batch ends with its record, and its feed goes on. -/
def State.finishBatch (s : State) (n : Nat) (b : Batch) (code bytes flagged flags : Nat) : State :=
  let s := s.closeBatch n b code bytes flagged flags
  match b.feed with
  | some (f, _, _) => s.feedNext f
  | none => s

/-- A batch fails after its checks, with the lowest code among this one and those of its parts: its appends are undone (R194). -/
def State.failBatch (s : State) (n code : Nat) : State :=
  match s.batch? n with
  | some b => (s.rollback b).finishBatch n b (combineCodes (code :: b.failed.map Prod.snd)) 0 0 0
  | none => s

/-- The parts with which a part of a batch exchanges: itself and those that take pages of one of its sequences (R187, R189). -/
def Batch.partners (b : Batch) (stack : Nat) : List Nat :=
  let mine := (b.takers.filter fun t => t.2.2 == stack).map Prod.fst
  b.parts.filter fun p => p == stack || b.takers.any fun t => t.2.2 == p && mine.contains t.1

/-- The maxima of every part that a part exchanges with are in (R189). -/
def Batch.exchanged (b : Batch) (stack : Nat) : Bool := (b.partners stack).all b.maxDone.contains

/-- A part whose sequences all lie on its stack only, so it skips the exchanges (R187). -/
def Batch.alone (b : Batch) (stack : Nat) : Bool := (b.partners stack).all (· == stack)

/-- A part of a batch has ended: it is merged or failed, or it waits for maxima that a failed part will not send (R189, R194). -/
def Batch.partEnded (b : Batch) (stack : Nat) : Bool :=
  b.merged.contains stack || (b.failed.any fun e => e.1 == stack) || (b.maxDone.contains stack && !b.exchanged stack)

/-- A batch goes on; with a failed part it fails once every part has ended (R194). -/
def State.settleBatch (s : State) (n : Nat) (b : Batch) : State :=
  let s := s.setBatch n b
  if ¬ b.failed.isEmpty ∧ b.parts.all b.partEnded then s.failBatch n 0 else s

/-- A part of a batch fails with a code. -/
def State.partFail (s : State) (n : Nat) (b : Batch) (stack code : Nat) : State :=
  s.settleBatch n { b with failed := b.failed ++ [(stack, code)] }

/-- The started batches that satisfy a test fail with a code. -/
def State.failBatches (s : State) (which : State → Batch → Bool) (code : Nat) : State :=
  ((s.serve.batches.filter fun e => e.2.started && which s e.2).map Prod.fst).foldl (fun s n => s.failBatch n code) s

/-- A batch has a part on a stack that has not ended: its sums are not merged, or it is the home part of a sequence (R187, R192). -/
def Batch.partOpen (b : Batch) (stack : Nat) : Bool :=
  b.parts.contains stack && !(b.failed.any fun e => e.1 == stack) && (!b.merged.contains stack || b.homes.contains stack)

/-- A sequence has a frame on a stack. -/
def Seqn.onStack (x : Seqn) (stack : Nat) : Bool := x.state != .parked && x.pages.any fun e => e.2 / 2 ^ 35 == stack

/-- A stack's memory is lost: batches with a frame there end with 0x0015, and every sequence with one is lost. -/
def State.serveLoseMemory (s : State) (stack : Nat) : State :=
  let hit := (s.serve.seqs.filter fun e => e.2.onStack stack).map Prod.fst
  let s := s.failBatches (fun _ b => b.entries.any fun e => hit.contains e.1) 0x15
  hit.foldl (fun s q => s.loseSeq q) s

/-- A stack's benches are lost: open parts there complete with 0x0015 (R85, R194). -/
def State.serveLoseBenches (s : State) (stack : Nat) : State :=
  (s.serve.batches.filter fun e => e.2.started && e.2.partOpen stack).foldl (fun s e =>
    match s.batch? e.1 with
    | some b => s.partFail e.1 b stack 0x15
    | none => s) s

/-- A bench or an engine of a stack faults: an open part there runs again, once, where the batch came from a feed or its
descriptor has the retry bit; else the part completes with 0x0015 (R107, R194). -/
def State.serveFault (s : State) (stack : Nat) : State :=
  (s.serve.batches.filter fun e => e.2.started && e.2.partOpen stack).foldl (fun s e =>
    let retry := e.2.feed.isSome || ((e.2.desc.bind s.desc?).map Desc.retry).getD false
    if retry && !e.2.reruns.contains stack then s.setBatch e.1 { e.2 with reruns := stack :: e.2.reruns }
    else s.partFail e.1 e.2 stack 0x15) s

/-- A port goes down: its feeds enter error, and their batches are rolled back without a record (log entry 64, DEDUCED). -/
def State.servePortDown (s : State) (p : Nat) : State :=
  let fs := (s.serve.feeds.filter fun e => e.2.port == p).map Prod.fst
  let s := { s with serve := { s.serve with feeds := Tab.mapVals s.serve.feeds fun _ x =>
    if x.port = p then { x with error := true, waiting := none } else x } }
  (s.serve.batches.filter fun e => match e.2.feed with
    | some (f, _, _) => fs.contains f
    | none => false).foldl (fun s e =>
      let s := s.rollback e.2
      let s := { s with serve := { s.serve with batches := Tab.erase s.serve.batches e.1 } }
      match e.2.feed with
      | some (f, _, _) => s.feedNext f
      | none => s) s

end Sys2Proof.Machine
end

