-- ==== Sys2Proof/Machine/TmOps.lean ====
section
/-! DEFINITION. The traffic manager: queues, deficit round robins, token buckets, enqueueing and sending, priority flow control
(R344 to R351), and the records of transmit descriptors (R343). -/

namespace Sys2Proof.Machine

/-- Count a packet event (tally block 0x09). -/
def State.pktCount (s : State) (item inst n : Nat) : State := s.count 0x09 item inst n

/-- The parse pipeline of a network port, the first where a port has two: the instance of tally block 0x09 (R474, R479)
(log entry 173, DEDUCED). -/
def State.portPipe (s : State) (port : Nat) : Nat :=
  match s.getF R.netCfg F.netCfg_mode with
  | 0 => 2 * port
  | 1 => port
  | _ => port / 2

/-- Change the packet state. -/
def State.pktSet (s : State) (f : Packets → Packets) : State := { s with pkt := f s.pkt }

/-- The network ports of the mode in force (R321). -/
def State.netPorts (s : State) : Nat := [2, 4, 8, 8].getD (s.getF R.netCfg F.netCfg_mode) 8

/-! ## Packets (R328) -/

/-- A metadata field. -/
def Packet.field (p : Packet) (k : Nat) : Nat := (Tab.get 0 p.fields k).toNat

/-- Set a metadata field. -/
def Packet.setField (p : Packet) (k : Nat) (v : Nat) : Packet :=
  { p with fields := Tab.put 0 p.fields k (BitVec.ofNat 64 v) }

/-- The source: a network port, or 0x80 for a host ring. -/
def Packet.source (p : Packet) : Nat := p.field 0 % 256
/-- The pass, 1 to 3. -/
def Packet.pass (p : Packet) : Nat := natBits (p.field 0) 9 8
/-- The packet's slice. -/
def Packet.slice (p : Packet) : Nat := p.field 2 % 256

/-! ## Objects (the tables under OBJ_DATA) -/

/-- A queue. -/
def State.tmQueue (s : State) (q : Nat) : TmQueue := Tab.get TmQueue.fresh s.pkt.queues q
/-- Set a queue. -/
def State.setTmQueue (s : State) (q : Nat) (x : TmQueue) : State :=
  s.pktSet fun p => { p with queues := Tab.put TmQueue.fresh p.queues q x }
/-- The queue is enabled. -/
def TmQueue.enabled (x : TmQueue) : Bool := getBits x.w0 (63, 63) == 1
/-- The queue's owner. -/
def TmQueue.owner (x : TmQueue) : Nat := getBits x.w0 (55, 48)
/-- The queue's port. -/
def TmQueue.port (x : TmQueue) : Nat := getBits x.w0 (42, 40)
/-- The queue's priority. -/
def TmQueue.prio (x : TmQueue) : Nat := getBits x.w0 (34, 32)
/-- The queue's quantum. -/
def TmQueue.quantum (x : TmQueue) : Nat := getBits x.w0 (19, 0)
/-- The queue's shaper, 0xFFFF none. -/
def TmQueue.shaper (x : TmQueue) : Nat := getBits x.w1 (63, 48)
/-- The queue's limit in bytes. -/
def TmQueue.limit (x : TmQueue) : Nat := getBits x.w1 (31, 16) * 4096
/-- The bytes at which frames are marked, 0 off. -/
def TmQueue.ecn (x : TmQueue) : Nat := getBits x.w1 (15, 0) * 4096

/-- Bytes of an emitted frame: its body padded to 60 bytes, and its FCS (R337, R345). -/
def frameLen (body : List Byte) : Nat := max 60 body.length + 4

/-- An emitted frame: its body padded with zeros to 60 bytes, and a new FCS (R322, R337) (log entry 245, PRESUMED). -/
def wireFrame (body : List Byte) : List Byte :=
  let l := padTo (max 60 body.length) body
  l ++ bytesLE 4 (crc32 l)

/-- Bytes of a queued frame as the traffic manager counts them (R345). -/
def TmBody.len : TmBody → Nat
  | .frame l => frameLen l
  | .net _ n => n

/-- Bytes of a queued frame's body, as the record of a transmit descriptor counts them (R343). -/
def TmBody.bytes : TmBody → Nat
  | .frame l => l.length
  | .net _ _ => 0

/-- A frame of the transport as it leaves by queue q. -/
def NetFrame.out (q : Nat) : NetFrame → Out
  | .request conn path pkt => .roce conn q path pkt
  | .answer conn a => .roceAnswer conn q a
  | .sceran dest id op => .sceran dest id op
  | .sceranRelease dest id => .sceranRelease dest id
  | .sceranAnswer node epoch id status old data => .sceranAnswer node epoch id status old data
  | .sceranBusy node epoch id => .sceranBusy node epoch id

/-- A frame as it leaves a port by queue q, with its egress stamp. -/
def TmBody.out (port q : Nat) (stamp : Option Word) : TmBody → Out
  | .frame l => .netFrame port (wireFrame l) stamp
  | .net n _ => n.out q

/-- The bytes queued. -/
def TmQueue.bytes (x : TmQueue) : Nat := x.frames.foldl (fun n f => n + f.body.len) 0

/-- A group: port × 256 + slice. -/
def groupOf (x : TmQueue) : Nat := x.port * 256 + x.owner

/-- A group object. -/
def State.tmGroup (s : State) (g : Nat) : TmGroup := Tab.get TmGroup.fresh s.pkt.groups g
/-- Set a group object. -/
def State.setTmGroup (s : State) (g : Nat) (x : TmGroup) : State :=
  s.pktSet fun p => { p with groups := Tab.put TmGroup.fresh p.groups g x }

/-- A shaper. -/
def State.shaper (s : State) (n : Nat) : Shaper := Tab.get Shaper.fresh s.pkt.shapers n
/-- Set a shaper. -/
def State.setShaper (s : State) (n : Nat) (x : Shaper) : State :=
  s.pktSet fun p => { p with shapers := Tab.put Shaper.fresh p.shapers n x }

/-! ## Token buckets (R348, R350) -/

/-- A bucket's refill after a microsecond: a held write caps the tokens and applies, then rate bits are added up to 8 × burst. -/
def Shaper.refill (x : Shaper) : Shaper :=
  let x : Shaper := match x.held with
    | some (b, r) => { burst := b, rate := r, tokens := min x.tokens (8 * b : Nat), held := none }
    | none => x
  { x with tokens := min (x.tokens + (x.rate : Nat)) (8 * x.burst : Nat) }

/-- A group's minimum bucket after a microsecond: it fills at the slice's net_min_gbps. -/
def TmGroup.refill (x : TmGroup) (gbps : Nat) : TmGroup :=
  let burst := x.held.getD (getBits x.w0 (55, 32))
  let tokens := match x.held with
    | some b => min x.tokens (8 * b : Nat)
    | none => x.tokens
  { x with w0 := setBits x.w0 (55, 32) burst, held := none, tokens := min (tokens + (1000 * gbps : Nat)) (8 * burst : Nat) }

/-- The tokens of a port's shaper in apprentice service, in bits (R352). -/
def State.portTokens (s : State) (port : Nat) : Int := Tab.get 0 s.pkt.portTokens port

/-- A port's shaper in apprentice service after a microsecond: 200 Gb/s, up to one microsecond's bits (R352)
(log entry 246, DESIGN CHOICE). -/
def portRefill (tokens : Int) : Int := min (tokens + 200000) 200000

/-! ## Deficit round robin (R347) -/

/-- The deficit of a member. -/
def Sched.credit (d : Sched) (m : Nat) : Int := Tab.get 0 d.deficit m

/-- A member whose queue was empty becomes active with no credit. -/
def Sched.arrive (d : Sched) (m : Nat) : Sched :=
  { d with deficit := Tab.erase d.deficit m, active := if d.active.contains m then d.active else d.active ++ [m] }

/-- A member leaves the round robin. -/
def Sched.leave (d : Sched) (m : Nat) : Sched :=
  { cur := if d.cur = some m then none else d.cur, active := d.active.filter fun x => x != m, deficit := Tab.erase d.deficit m }

/-- A member sent a frame of len bytes; whether it holds no more. -/
def Sched.sent (d : Sched) (m len : Nat) (empty : Bool) : Sched :=
  if empty then d.leave m else { d with deficit := Tab.put 0 d.deficit m (d.credit m - (len : Nat)) }

/-- The member whose head frame goes next, and the round robin after the pick. The fuel bounds the quanta a frame waits for
(log entry 90, DEDUCED). -/
def Sched.pick (eligible : Nat → Bool) (headLen quantum : Nat → Nat) : Nat → Sched → Option Nat × Sched
  | 0, d => (none, d)
  | n + 1, d =>
    let done : Option Nat := match d.cur with
      | some m => if eligible m ∧ (headLen m : Int) ≤ d.credit m then some m else none
      | none => none
    match done with
    | some m => (some m, d)
    | none =>
      let d : Sched := match d.cur with
        | some m => { d with cur := none, active := (d.active.filter fun x => x != m) ++ [m] }
        | none => d
      match List.find? eligible d.active with
      | none => (none, d)
      | some m => Sched.pick eligible headLen quantum n
          { d with cur := some m, deficit := Tab.put 0 d.deficit m (d.credit m + (quantum m : Nat)) }

/-- The quanta that the members of a round robin can wait for: 145 each for the longest frame. -/
def Sched.fuel (d : Sched) : Nat := (d.active.length + 1) * 146

/-! ## Eligibility (R346, R351) -/

/-- A queue is eligible: it is enabled and holds a frame, its shaper's tokens are 0 or more, its priority is not paused. -/
def State.queueEligible (s : State) (q : Nat) : Bool :=
  let x := s.tmQueue q
  x.enabled && !x.frames.isEmpty && (x.shaper == 0xFFFF || decide ((s.shaper x.shaper).tokens ≥ 0)) &&
  !natBit (s.getF (R.netPortStatus x.port) F.netPortStatus_paused) x.prio

/-- Bytes of the head frame of a queue. -/
def State.headLen (s : State) (q : Nat) : Nat :=
  match (s.tmQueue q).frames with
  | f :: _ => f.body.len
  | [] => 0

/-- The queue a group would send from, with the group's round robin after the pick. -/
def State.queuePick (s : State) (g : Nat) : Option Nat × Sched :=
  let d := Tab.get Sched.idle s.pkt.qs g
  Sched.pick s.queueEligible s.headLen (fun q => max 64 (s.tmQueue q).quantum) d.fuel d

/-- A group is eligible when any of its queues is. -/
def State.groupEligible (s : State) (g : Nat) : Bool := (Tab.get Sched.idle s.pkt.qs g).active.any s.queueEligible

/-- Bytes of the frame a group would send. -/
def State.groupHead (s : State) (g : Nat) : Nat :=
  match (s.queuePick g).1 with
  | some q => s.headLen q
  | none => 0

/-- A group's quantum; 64 where nothing has written it. -/
def State.groupQuantum (s : State) (g : Nat) : Nat := max 64 (getBits (s.tmGroup g).w0 (19, 0))

/-! ## Priority flow control (R351) -/

/-- Bytes that received frames of a port and priority hold in the packet buffer. -/
def State.heldBytes (s : State) (port c : Nat) : Nat :=
  s.pkt.queues.foldl (fun n e => e.2.frames.foldl (fun n (f : TmFrame) =>
    if f.src = some (port, c) then n + f.body.len else n) n) 0 +
  let mine (n : Nat) (p : Packet) : Nat :=
    if p.source = port ∧ p.prio = c then n + frameLen p.body else n
  s.pkt.rx.foldl (fun n e => e.2.foldl mine n) 0 + s.pkt.again.foldl (fun n e => e.2.foldl mine n) 0 +
  s.pkt.stage.foldl (fun n e => mine n e.2) 0 + s.pkt.leaving.foldl (fun n l => mine n l.packet) 0

/-- PFC of a port follows the bytes held: sent at xoff_kib, released below xon_kib, by the thresholds of slice 0's group. A
threshold of 0 sends none. -/
def State.pfcRefresh (s : State) (port : Nat) : State :=
  (below 8).foldl (fun s c =>
    let x := s.tmGroup (port * 256)
    let on := natBit (getBits x.w1 (63, 56)) c
    let xoff := getBits x.w1 (31, 16) * 1024
    let xon := getBits x.w1 (15, 0) * 1024
    let n := s.heldBytes port c
    let put (s : State) (b : Bool) : State :=
      let m := getBits x.w1 (63, 56)
      ((s.setTmGroup (port * 256) { x with w1 := setBits x.w1 (63, 56) (if b then m ||| 2 ^ c else m - 2 ^ c) }).emit
        (.pfc port c b)).pktCount 8 (s.portPipe port) 1
    if ¬ on ∧ xoff ≠ 0 ∧ n ≥ xoff then put s true
    else if on ∧ (n < xon ∨ (n = 0 ∧ xon = 0)) then put s false
    else s) s

/-- Received frames of a source have left the packet buffer. -/
def State.pfcSource (s : State) (source : Nat) : State := if source < 8 then s.pfcRefresh source else s

/-! ## Transmit records (R343) -/

/-- The decided descriptors at the head of a ring's list are recorded in ring order. -/
def State.txFlush (s : State) (r : Nat) : Nat → State
  | 0 => s
  | n + 1 =>
    match Tab.get [] s.pkt.txs r with
    | j :: js =>
      match j.done with
      | some (status, outcome, bytes, time) =>
        let s := s.pktSet fun p => { p with txs := Tab.put [] p.txs r js }
        let owner := s.getF (R.prCfg r) F.prCfg_owner
        let s := s.post (s.getF (R.prCfg r) F.prCfg_cq)
          { status := status, queue := r, kind := 0x07, flags := 0, slice := owner, tag := j.tag, byteCount := bytes, time := time,
            word := 1 + outcome * 2 ^ 16, irq := false }
        s.txFlush r n
      | none => s
    | [] => s

/-- The state of a packet ring: error stays; a transmit ring with descriptors in progress runs. -/
def State.prRefresh (s : State) (r : Nat) : State :=
  if s.getF (R.prStatus r) F.prStatus_state = 4 then s
  else s.setF (R.prStatus r) F.prStatus_state (bit (!(Tab.get [] s.pkt.txs r).isEmpty))

/-- The outcome of a transmit descriptor is decided (R343) (log entry 98, DEDUCED). -/
def State.txDone (s : State) (tx : Option (Nat × Nat)) (status outcome bytes : Nat) (time : Word) : State :=
  match tx with
  | none => s
  | some (r, num) =>
    let l := Tab.get [] s.pkt.txs r
    let l' := l.map fun j => if j.num = num then { j with done := some (status, outcome, bytes, time) } else j
    ((s.pktSet fun p => { p with txs := Tab.put [] p.txs r l' }).txFlush r l.length).prRefresh r

/-! ## Arrival and sending (R344, R346) -/

/-- The 16-bit one's complement sum of an IPv4 header whose checksum bytes count as 0. -/
def ipv4Sum (l : List Byte) : Nat :=
  let l := l.take 10 ++ [0, 0] ++ l.drop 12
  let t := (chunks 2 (l.length / 2 + 1) l).foldl (fun n w => n + beNat (padTo 2 w)) 0
  let t := t % 2 ^ 16 + t / 2 ^ 16
  let t := t % 2 ^ 16 + t / 2 ^ 16
  2 ^ 16 - 1 - t % 2 ^ 16

/-- Set bytes of a list at an offset. -/
def patch (l : List Byte) (off : Nat) (b : List Byte) : List Byte := l.take off ++ b ++ l.drop (off + b.length)

/-- The frame with CE set in an ECN-capable IP header at an offset, and whether it was marked (R344) (log entry 93, DEDUCED). -/
def markCe (body : List Byte) (off : Nat) : List Byte × Bool :=
  let b (i : Nat) : Nat := (body.getD (off + i) 0).toNat
  if off + 20 > body.length then (body, false)
  else if b 0 / 16 = 4 then
    if b 1 % 4 = 0 then (body, false)
    else
      let body := patch body (off + 1) [BitVec.ofNat 8 (b 1 / 4 * 4 + 3)]
      let ihl := b 0 % 16 * 4
      (patch body (off + 10) (bytesBE 2 (ipv4Sum ((body.drop off).take ihl))), true)
  else if b 0 / 16 = 6 then
    if b 1 / 16 % 4 = 0 then (body, false)
    else (patch body (off + 1) [BitVec.ofNat 8 (b 1 / 64 * 64 + 3 * 16 + b 1 % 16)], true)
  else (body, false)

/-- A queued frame with CE set, and whether it was marked: a request packet of the transport is ECN-capable, its other frames are not
(R344, R376) (log entry 247, PRESUMED). -/
def TmBody.marked (l3 : Option Nat) : TmBody → TmBody × Bool
  | .frame l => match l3 with
    | some off => let m := markCe l off; (.frame m.1, m.2)
    | none => (.frame l, false)
  | .net (.request conn path pkt) n => (.net (.request conn path { pkt with ce := true }) n, true)
  | .net f n => (.net f n, false)

/-- A queue takes a frame of n bytes: it is enabled, of a slice that is not resetting, zeroing or free, and has room (R344, R287). -/
def State.tmTakes (s : State) (q n : Nat) : Bool :=
  let x := s.tmQueue q
  x.enabled && [1, 2].contains (s.sliceState x.owner) && decide (x.bytes + n ≤ x.limit)

/-- ENQUEUE (R344, R287): a frame joins a queue, is dropped at the limit or where the queue's slice is resetting, zeroing or free, or
is marked. l3: the outer L3 offset, if the frame has one. -/
def State.enqueue (s : State) (q : Nat) (f : TmFrame) (l3 : Option Nat) : State :=
  let x := s.tmQueue q
  if ¬ s.tmTakes q f.body.len then (s.pktCount 6 (s.portPipe x.port) 1).txDone f.tx 0 3 f.body.bytes s.now
  else
    let m : TmBody × Bool := if x.ecn ≠ 0 ∧ x.bytes ≥ x.ecn then f.body.marked l3 else (f.body, false)
    let s := if m.2 then s.pktCount 7 (s.portPipe x.port) 1 else s
    let wasEmpty := x.frames.isEmpty
    let g := groupOf x
    let groupWasIdle := (Tab.get Sched.idle s.pkt.qs g).active.isEmpty
    let s := s.setTmQueue q { x with frames := x.frames ++ [{ f with body := m.1 }] }
    let s := if wasEmpty then s.pktSet fun p => { p with qs := Tab.put Sched.idle p.qs g ((Tab.get Sched.idle p.qs g).arrive q) } else s
    let s := if wasEmpty ∧ groupWasIdle then s.pktSet fun p =>
        { p with minTier := Tab.put Sched.idle p.minTier x.port ((Tab.get Sched.idle p.minTier x.port).arrive g),
                 allTier := Tab.put Sched.idle p.allTier x.port ((Tab.get Sched.idle p.allTier x.port).arrive g) }
      else s
    match f.src with
    | some (p, _) => s.pfcRefresh p
    | none => s

/-- A queue has lost its last frame: it leaves its group's round robin, and an empty group leaves both tiers of its port. -/
def State.queueLeaves (s : State) (q : Nat) (x : TmQueue) : State :=
  let g := groupOf x
  let d := (Tab.get Sched.idle s.pkt.qs g).leave q
  let s := s.pktSet fun p => { p with qs := Tab.put Sched.idle p.qs g d }
  if d.active.isEmpty then s.pktSet fun p =>
    { p with minTier := Tab.put Sched.idle p.minTier x.port ((Tab.get Sched.idle p.minTier x.port).leave g),
             allTier := Tab.put Sched.idle p.allTier x.port ((Tab.get Sched.idle p.allTier x.port).leave g) }
  else s

/-- Drop every frame of a queue, counted (the hard cases). -/
def State.queueDrop (s : State) (q : Nat) : State :=
  let x := s.tmQueue q
  if x.frames.isEmpty then s
  else
    let s := (s.setTmQueue q { x with frames := [] }).queueLeaves q x
    let s := s.pktCount 6 (s.portPipe x.port) x.frames.length
    x.frames.foldl (fun s f =>
      let s := s.txDone f.tx 0 3 f.body.bytes s.now
      match f.src with
      | some (p, _) => s.pfcRefresh p
      | none => s) s

/-- The egress stamp of a port: now, plus the egress latency in ticks of 625 ps (R324). -/
def State.egressStamp (s : State) (port : Nat) : Word :=
  s.now + BitVec.ofNat 64 (s.getF (R.netPortLat port) F.netPortLat_egress_ps / 625)

/-- Send the head frame of queue q of group g, picked in a tier: 0 the minimum tier, 1 the tier of all groups (R346). -/
def State.tmSend (s : State) (port g q tier : Nat) : State :=
  let x := s.tmQueue q
  match x.frames with
  | [] => s
  | f :: fs =>
    let n := f.body.len
    let stamp := s.egressStamp port
    let s := s.setTmQueue q { x with frames := fs }
    let s := if x.shaper = 0xFFFF then s else
      let b := s.shaper x.shaper
      s.setShaper x.shaper { b with tokens := b.tokens - (8 * n : Nat) }
    let s := if s.full then s else s.pktSet fun p => { p with portTokens := Tab.put 0 p.portTokens port (s.portTokens port - (8 * n : Nat)) }
    let y := s.tmGroup g
    let s := s.setTmGroup g { y with tokens := y.tokens - (8 * n : Nat) }
    let s := s.pktSet fun p => { p with qs := Tab.put Sched.idle p.qs g ((Tab.get Sched.idle p.qs g).sent q n fs.isEmpty) }
    let groupEmpty := (Tab.get Sched.idle s.pkt.qs g).active.isEmpty
    let s := s.pktSet fun p =>
      if tier = 0 then { p with minTier := Tab.put Sched.idle p.minTier port ((Tab.get Sched.idle p.minTier port).sent g n false) }
      else { p with allTier := Tab.put Sched.idle p.allTier port ((Tab.get Sched.idle p.allTier port).sent g n false) }
    let s := if groupEmpty then s.queueLeaves q x else s
    let s := s.emit (f.body.out port q (if f.stamp then some stamp else none))
    let s := (((s.pktCount 0 port 1).pktCount 1 port n).pktCount 2 q 1).pktCount 3 q n
    let s := s.txDone f.tx 0 0 f.body.bytes stamp
    match f.src with
    | some (p, _) => s.pfcRefresh p
    | none => s

end Sys2Proof.Machine
end

