-- ==== Sys2Proof/Machine/NetBase.lean ====
section
/-! DEFINITION. What the transport sends: contexts of connections, packets of a message, the congestion window's admission,
Sceran requests (R357 to R361, R367 to R371, R379 to R381). -/

namespace Sys2Proof.Machine

/-! ## Contexts (the table under SCERAN_STORE) -/

/-- A field of a context word. -/
def Conn.field (c : Conn) (word : Nat) (f : Fld) : Nat := getBits (c.ctx.getD word 0) f
/-- Owner. -/
def Conn.owner (c : Conn) : Nat := c.field 0 (55, 48)
/-- Protection domain. -/
def Conn.pd (c : Conn) : Nat := c.field 0 (47, 32)
/-- Sprayed. -/
def Conn.sprayed (c : Conn) : Bool := c.field 0 (31, 31) == 1
/-- Intake (R373). -/
def Conn.intake (c : Conn) : Bool := c.field 0 (30, 30) == 1
/-- Storage (R374). -/
def Conn.storage (c : Conn) : Bool := c.field 0 (29, 29) == 1
/-- Paths of a sprayed connection, one of a plain one (R370). -/
def Conn.paths (c : Conn) : Nat := if c.sprayed then c.field 0 (28, 25) + 1 else 1
/-- Network port. -/
def Conn.port (c : Conn) : Nat := c.field 4 (42, 40)
/-- Traffic manager queue of requests. -/
def Conn.queue (c : Conn) : Nat := c.field 4 (31, 16)
/-- Traffic manager queue of answers. -/
def Conn.ackQueue (c : Conn) : Nat := c.field 4 (15, 0)
/-- Completion ring. -/
def Conn.cq (c : Conn) : Nat := c.field 7 (59, 48)
/-- Event ring. -/
def Conn.evq (c : Conn) : Nat := c.field 7 (43, 32)
/-- retry_cnt. -/
def Conn.retryCnt (c : Conn) : Nat := c.field 7 (30, 28)
/-- rnr_retry. -/
def Conn.rnrRetry (c : Conn) : Nat := c.field 7 (26, 24)
/-- min_rnr. -/
def Conn.minRnr (c : Conn) : Nat := c.field 7 (12, 8)
/-- The path MTU in bytes. -/
def Conn.mtu (c : Conn) : Nat := [1024, 1024, 2048, 4096].getD (c.field 7 (1, 0)) 1024
/-- w_min in bytes. -/
def Conn.wMin (c : Conn) : Nat := c.field 8 (63, 48) * 1024
/-- init_window in bytes. -/
def Conn.initWindow (c : Conn) : Nat := c.field 8 (47, 32) * 1024
/-- w_max in bytes. -/
def Conn.wMax (c : Conn) : Nat := c.field 8 (31, 0)

/-- A connection. -/
def State.conn? (s : State) (n : Nat) : Option Conn := Tab.find? s.net.conns n

/-- Set a connection. -/
def State.setConn (s : State) (n : Nat) (c : Conn) : State :=
  { s with net := { s.net with conns := Tab.insert s.net.conns n c } }

/-- A connection as the active tells the standby of it (R448). -/
def Conn.mirror (c : Conn) (n : Nat) : MirrorUpd := .conn n c.ctx c.state c.sendPsn c.expPsn (c.unacked.map fun p => p.pkt)

/-! ## Frames to the traffic manager (R355, R379) -/

/-- Count a transport event (tally block 0x0A): packets and bytes per connection kind, 0 plain and 1 sprayed; NAKs by type;
else per network port (log entry 6, DESIGN CHOICE). -/
def State.netCount (s : State) (item inst n : Nat) : State := s.count 0x0A item inst n

/-- The bytes of a frame over UDP from destination address through FCS, of n bytes after the UDP header. -/
def udpFrame (v6 : Bool) (n : Nat) : Nat := max 64 (14 + (if v6 then 40 else 20) + 8 + n + 4)

/-- The bytes of a RoCEv2 packet after the UDP header: BTH, extensions, payload padded to four bytes, ICRC
(log entry 247, PRESUMED). -/
def roceBytes (ext payload : Nat) : Nat := 12 + ext + ceilDiv payload 4 * 4 + 4

/-- The extensions of a request packet. -/
def requestExt (p : RocePkt) (sprayed : Bool) : Nat :=
  (match p.op with
   | .send => if sprayed then 8 else 0
   | .write => if sprayed || p.first then 16 else 0
   | .read => 16
   | .cas => 28
   | .faa => 28) + (if p.imm.isSome then 4 else 0)

/-- The extensions and payload of an answer. -/
def answerSize (sprayed : Bool) : RoceAnswer → Nat × Nat
  | .ack _ _ _ => (if sprayed then 12 else 4, 0)
  | .nak _ _ => (4, 0)
  | .readData _ l => (4, l.length)
  | .atomic _ _ => (12, 0)
  | .cnp => (0, 16)

/-- The payload bytes of a Sceran request. -/
def scPayload : ScOp → Nat
  | .message l => l.length
  | .write _ l => l.length
  | .read _ _ => 0
  | .cas _ _ _ => 16
  | .faa _ _ => 8
  | .entries _ _ _ _ l => 16 + l.foldl (fun n e => n + e.length) 0
  | .outcome _ _ _ => 16

/-- The bytes of a Sceran frame after the UDP header: header, payload, CRC-32C (R379). -/
def scBytes (payload : Nat) : Nat := 32 + payload + 4

/-- The emitted bytes of a frame of the transport (log entry 247, PRESUMED). -/
def NetFrame.size (sprayed v6 : Bool) : NetFrame → Nat
  | .request _ _ p => udpFrame v6 (roceBytes (requestExt p sprayed) p.payload.length)
  | .answer _ a => udpFrame v6 (roceBytes (answerSize sprayed a).1 (answerSize sprayed a).2)
  | .sceran _ _ op => udpFrame v6 (scBytes (scPayload op))
  | .sceranRelease _ _ => udpFrame v6 (scBytes 0)
  | .sceranAnswer _ _ _ _ _ l => udpFrame v6 (scBytes (8 + l.length))
  | .sceranBusy _ _ _ => udpFrame v6 (scBytes 0)

/-- A frame of a connection joins a traffic manager queue, which the connection's owner must own; it passes no parse pipeline (R355). -/
def State.connFrame (s : State) (c : Conn) (q : Nat) (f : NetFrame) : State :=
  if (s.tmQueue q).owner ≠ c.owner then (s.blockedName 0x0A c.port c.owner).netCount 12 c.port 1
  else s.enqueue q ⟨.net f (f.size c.sprayed (c.field 4 (47, 47) == 1)), false, none, none⟩ none

/-- The entry of the node table that maps a node (R379). -/
def State.nodeEntry (s : State) (node : Nat) : Option Nat :=
  (s.listedWith (R.scNode 0) 0x20 4096 [(F.scNode_valid, 1), (F.scNode_node, node)]).head?

/-- A Sceran frame to a node joins the queue of its entry, which slice 0 must own; without such an entry or queue it is dropped and
counted (R379) (log entry 248, DEDUCED). -/
def State.nodeFrame (s : State) (node : Nat) (f : NetFrame) : State :=
  match s.nodeEntry node with
  | none => s.netCount 12 0 1
  | some e =>
    let q := s.getF (R.scNode e) F.scNode_queue
    if (s.tmQueue q).owner ≠ 0 then s.netCount 12 (s.getF (R.scNode e) F.scNode_net_port) 1
    else s.enqueue q ⟨.net f (f.size false (s.getF (R.scNode e) F.scNode_ipv6 == 1)), false, none, none⟩ none

/-- A Sceran frame to its destination: a node, the partner's node, or a rank of a job, for which the spec gives no node and no queue
(log entry 248, DEDUCED). -/
def State.scFrame (s : State) (dest : ScDest) (f : NetFrame) : State :=
  match dest with
  | .node n => s.nodeFrame n f
  | .partner => s.nodeFrame (s.getF R.pairCfg F.pairCfg_partner_node) f
  | .rank _ _ => s.emit (f.out 0)

/-- The active tells the standby how a connection stands. -/
def State.tellConn (s : State) (n : Nat) : State :=
  match s.conn? n with
  | some c => s.tell 1 c.owner (c.mirror n)
  | none => s

/-- PSN arithmetic modulo 2²⁴. -/
def psnAdd (p n : Nat) : Nat := (p + n) % 2 ^ 24

/-- The distance from PSN e to PSN p. -/
def psnDist (e p : Nat) : Nat := (p + 2 ^ 24 - e) % 2 ^ 24

/-! ## Messages -/

/-- What a message asks for (R361): its owner, opcode, bytes, immediate, remote key and address, operands, solicited, where
READ or atomic data go, and the bytes it sends. -/
structure NetReq where
  owner : MsgOwner
  op : Nat
  length : Nat
  imm : Nat
  rkey : Nat
  va : Nat
  operand : Nat
  swap : Nat
  solicited : Bool
  local_ : Nat
  space : Nat
  data : List Byte

/-- The wire operation of an opcode. -/
def NetReq.wire (r : NetReq) : RoceOp :=
  match r.op with
  | 0 => .send
  | 1 => .send
  | 2 => .write
  | 3 => .write
  | 4 => .read
  | 5 => .cas
  | _ => .faa

/-- The PSNs a message takes: its packets, or those of a READ's data. -/
def NetReq.psns (r : NetReq) (mtu : Nat) : Nat := if r.op ≤ 4 then max 1 (ceilDiv r.length mtu) else 1

/-- The packets of a message from a first PSN on (R371). -/
def NetReq.packets (r : NetReq) (c : Conn) (psn : Nat) : List RocePkt :=
  let n := if r.op ≤ 3 then r.psns c.mtu else 1
  (below n).map fun i =>
    { conn := c.field 0 (23, 0), psn := psnAdd psn i, op := r.wire, first := i == 0, last := i + 1 == n,
      va := if i = 0 then r.va else if c.sprayed then r.va + i * c.mtu else 0,
      rkey := r.rkey, len := r.length, offset := if c.sprayed ∧ r.op ≤ 1 then i * c.mtu else 0,
      payload := if r.op ≤ 3 then (r.data.drop (i * c.mtu)).take c.mtu else [],
      imm := if (r.op = 1 ∨ r.op = 3) ∧ i + 1 = n then some r.imm else none,
      solicited := r.solicited, operand := r.operand, swap := r.swap, ce := false }

/-! ## Sending within the window (R367, R370, R375) -/

/-- Bytes in flight: sent, not acknowledged, not reported received. -/
def Conn.inFlight (c : Conn) : Nat :=
  c.unacked.foldl (fun n p => if p.reported then n else n + p.pkt.payload.length) 0

/-- The path of the next packet, round-robin over those not suspended; path 0 when every one is (R370)
(log entry 101, DEDUCED). -/
def Conn.pickPath (c : Conn) : Nat :=
  ((List.find? (fun (k : Nat) => !natBit c.suspended k) ((below c.paths).map fun i => (c.nextPath + i) % c.paths))).getD 0

/-- The PSNs that a packet takes: those of the data it asks for, where it is a READ. -/
def pktPsns (p : RocePkt) (mtu : Nat) : Nat := if p.op = .read then max 1 (ceilDiv p.len mtu) else 1

/-- The PSNs unacknowledged once a packet is sent (R367). -/
def Conn.psnsOpen (c : Conn) (p : RocePkt) : Nat :=
  psnDist ((c.unacked.head?.map fun x => x.pkt.psn).getD p.psn) p.psn + pktPsns p c.mtu

/-- The packets that the window lets out now, with their paths. -/
def Conn.pump (c : Conn) (now : Word) : Nat → Conn × List (Nat × RocePkt)
  | 0 => (c, [])
  | n + 1 =>
    match c.txq with
    | [] => (c, [])
    | p :: ps =>
      let f := c.inFlight
      if c.rnrWait ∨ c.psnsOpen p > 2 ^ 22 - 1 ∨ (f > 0 ∧ f + p.payload.length > c.w) then (c, [])
      else
        let k := c.pickPath
        let c := { c with txq := ps, unacked := c.unacked ++ [(⟨p, k, now, now, 1, false⟩ : TxPkt)], nextPath := (k + 1) % c.paths }
        let r := c.pump now n
        (r.1, (k, p) :: r.2)

/-- Send a packet of a connection on a path (log entry 163, DESIGN CHOICE) (log entry 172, DEDUCED). -/
def State.sendPkt (s : State) (n : Nat) (c : Conn) (path : Nat) (p : RocePkt) : State :=
  let kind := bit c.sprayed
  ((s.connFrame c c.queue (.request n path p)).netCount 0 kind 1).netCount 1 kind p.payload.length

/-- A connection in RTS sends what its window lets out. -/
def State.pumpConn (s : State) (n : Nat) : State :=
  match s.conn? n with
  | none => s
  | some c =>
    if c.state ≠ 3 then s
    else
      let r := c.pump s.now c.txq.length
      let s := r.2.foldl (fun s p => s.sendPkt n r.1 p.1 p.2) (s.setConn n r.1)
      if r.2.isEmpty then s else s.tell 1 r.1.owner (r.1.mirror n)

/-- Post a message on a connection: it takes the next PSNs and goes out as the window allows. -/
def State.netPost (s : State) (n : Nat) (r : NetReq) : State :=
  match s.conn? n with
  | none => s
  | some c =>
    let k := r.psns c.mtu
    let m : Msg := { owner := r.owner, op := r.op, length := r.length, firstPsn := c.sendPsn,
                     lastPsn := psnAdd c.sendPsn (k - 1), local_ := r.local_, space := r.space, got := [], answered := false }
    (s.setConn n { c with sendPsn := psnAdd c.sendPsn k, msgs := c.msgs ++ [m], txq := c.txq ++ r.packets c c.sendPsn }).pumpConn n

/-! ## Sceran (R379 to R381) -/

/-- A new source epoch, with identifiers from 0 (R380). -/
def State.drawEpoch (s : State) : State :=
  let r := s.draw
  { r.2 with net := { r.2.net with epoch := r.1, nextId := 0 } }

/-- Send a Sceran request. -/
def State.sceranSend (s : State) (dest : ScDest) (op : ScOp) : State :=
  let s := if s.net.nextId ≥ 2 ^ 48 then s.drawEpoch else s
  let id := s.net.nextId
  ({ s with net := { s.net with nextId := id + 1, sent := Tab.insert s.net.sent id ⟨dest, op, s.now, 0⟩ } }).scFrame dest (.sceran dest id op)

end Sys2Proof.Machine
end

