-- ==== Sys2Proof/Machine/TrainOps.lean ====
section
/-! DEFINITION. Jobs, intake, the snapshot epoch and the commit of a checkpoint (R201 to R208, R220 to R230). -/

namespace Sys2Proof.Machine

/-! ## Jobs (R201, R202) -/

/-- A job slot. -/
def State.job? (s : State) (j : Nat) : Option Job := Tab.find? s.train.jobs j

/-- Set a job slot; a record that changes is mirrored (R448). -/
def State.setJob (s : State) (j : Nat) (x : Job) : State :=
  let same : Bool := ((s.job? j).map fun y => y.raw == x.raw).getD false
  let s := if same then s else s.tell 2 x.slice (.job j x.slice x.raw)
  { s with train := { s.train with jobs := Tab.insert s.train.jobs j x } }

/-- A field of a job record. -/
def Job.field (x : Job) (off width : Nat) : Nat := fieldLE x.raw off width
/-- step. -/
def Job.step (x : Job) : Nat := x.field 24 8
/-- job_seed. -/
def Job.seed (x : Job) : Nat := x.field 8 8
/-- world. -/
def Job.world (x : Job) : Nat := x.field 36 2
/-- rank. -/
def Job.rank (x : Job) : Nat := x.field 38 2
/-- m, the microbatches of a step. -/
def Job.micro (x : Job) : Nat := x.field 48 4 / x.field 52 4
/-- generation. -/
def Job.gen (x : Job) : Nat := x.field 72 4
/-- Bytes of a gradient element in the intake. -/
def Job.gradBytes (x : Job) : Nat := if x.field 78 1 = 0 then 4 else 2
/-- s, the elements of a shard (R204). -/
def Job.shardElems (x : Job) : Nat := 32 * ceilDiv (x.field 64 8) (32 * x.world)
/-- slot_bytes (R205). -/
def Job.slotBytes (x : Job) : Nat := alignUp (x.shardElems * x.gradBytes) 4096

/-- The bytes of a record with a field set. -/
def setField (raw : List Byte) (off width v : Nat) : List Byte :=
  raw.take off ++ bytesLE width v ++ raw.drop (off + width)

/-- A job with its generation set. -/
def Job.setGen (x : Job) (g : Nat) : Job := { x with raw := setField x.raw 72 4 g }

/-- INTAKE_STATUS of a job slot follows its bitmap. -/
def State.intakeRefresh (s : State) (j : Nat) : State :=
  match s.job? j with
  | some x => s.setReg (R.intakeStatus j)
      (setBits (setBits 0 F.intakeStatus_job_error (bit x.error)) F.intakeStatus_arrived x.bits.length)
  | none => s.setReg (R.intakeStatus j) 0

/-! ## Descriptors of training -/

/-- The descriptor is of training and names a job slot. -/
def Desc.ofJob (d : Desc) (j : Nat) : Bool := (d.opcode == 0x04 || d.opcode == 0x05) && d.field 42 2 == j

/-- A training or checkpoint operation is running: parts have started, or it was performed and waits. -/
def Desc.running (d : Desc) : Bool := d.performed || d.subs.any fun p => p.phase != .waiting || p.rerun

/-- An operation of a job that satisfies a test on opcode and op is running, other than descriptor n. -/
def State.jobRuns (s : State) (n j : Nat) (which : Nat → Nat → Bool) : Bool :=
  s.bench.descs.any fun e => e.1 != n && e.2.ofJob j && e.2.running && which e.2.opcode (e.2.field 40 1)

/-- The records of training and checkpoint (R219, R222): source_word of the layout of R85, or the job's generation and the
pages copied before write. -/
def State.trainDone (s : State) (n : Nat) (d : Desc) (code bytes : Nat) : State :=
  let s := if code = 1 then s.cmdRefused 0x10 (d.field 42 2) d.slice (d.field 42 2) (d.field 40 1) 1 else s
  if d.opcode = 0x05 then
    let g := if d.field 40 1 = 0 then 0 else ((s.job? (d.field 42 2)).map Job.gen).getD 0
    s.endWhole n d code bytes (g * 2 ^ 32)
  else s.endWhole n d code bytes d.word02

/-! ## Intake (R206 to R208) -/

/-- The intake waits of a job that are over complete (R208). -/
def State.intakeWake (s : State) (j : Nat) : State :=
  match s.job? j with
  | none => s
  | some x =>
    let code := if x.error then some 0x17 else if x.bits.length = x.micro then some 0 else none
    match code with
    | none => s
    | some c =>
      (s.bench.descs.filter fun e => e.2.opcode == 0x04 && e.2.field 40 1 == 5 && e.2.field 42 2 == j && e.2.performed).foldl
        (fun s e => s.trainDone e.1 e.2 c 0) s

/-- A local copy or a handed-over immediate word (R206) takes effect (R207): a job slot that is not open, or of another slice
than the connection's, and a k beyond the step drop it. -/
def State.intakeArrive (s : State) (slice imm : Nat) : State :=
  let j := natBits imm 19 16
  let k := natBits imm 15 0
  match s.job? j with
  | none => s.count 0x10 0 j 1
  | some x =>
    if x.slice ≠ slice ∨ k ≥ x.micro then s.count 0x10 0 j 1
    else if natBits imm 31 31 ≠ x.step % 2 then ((s.setJob j { x with error := true }).intakeRefresh j).intakeWake j
    else if (Tab.find? x.bits k).isSome then s.count 0x10 1 j 1
    else ((s.setJob j { x with bits := Tab.insert x.bits k () }).intakeRefresh j).intakeWake j

/-- An immediate or a local copy is handed to training. -/
def State.handOver (s : State) (slice imm : Nat) : State :=
  { s with train := { s.train with handed := s.train.handed ++ [(slice, imm)] } }

/-- A write of a scatter was acknowledged, or failed with a code; the scatter ends with its last write (R206). -/
def State.scatterWrite (s : State) (d code : Nat) : State :=
  match Tab.find? s.train.scatters d, s.desc? d with
  | some n, some x =>
    if code ≠ 0 ∨ n ≤ 1 then
      ({ s with train := { s.train with scatters := Tab.erase s.train.scatters d } }).trainDone d x code 0
    else { s with train := { s.train with scatters := Tab.insert s.train.scatters d (n - 1) } }
  | _, _ => s

/-! ## Checkpoints (R220 to R230) -/

/-- A checkpoint of a job. -/
def State.ckpt? (s : State) (j : Nat) : Option Ckpt := Tab.find? s.train.ckpts j

/-- The epoch of a checkpoint ends: staged pages are freed, and the writes that waited are performed (R224, R226). -/
def State.endEpoch (s : State) : State :=
  match s.snap with
  | none => s
  | some p =>
    let s := { s with snap := none }
    let s := ((s.setF R.snapStatus F.snapStatus_active 0)).snapRefresh
    p.waiting.foldl (fun s w => (s.memWriteBare 0x0D 0xFF w.source w.slice w.addr w.data).2) s

/-- A checkpoint of a job completes on this device with a code: op 1 gets its record, a success sets the generation (R227,
R228). -/
def State.ckptEnd (s : State) (j code : Nat) : State :=
  match s.ckpt? j with
  | none => s
  | some c =>
    let c : Ckpt := match s.snap with
      | some p => if p.job = j then { c with cow := p.cow } else c
      | none => c
    let s := { s with train := { s.train with ckpts := Tab.erase s.train.ckpts j, commits := Tab.erase s.train.commits j } }
    let s := match s.snap with
      | some p => if p.job = j then s.endEpoch else s
      | none => s
    let v : Nat × State := match s.job? j with
      | some x => if code = 0 then s.standbySays 2 x.slice else (code, s)
      | none => (code, s)
    let code := v.1
    let s := match v.2.job? j with
      | some x => if code = 0 then v.2.setJob j (x.setGen (c.gen + 1)) else v.2
      | none => v.2
    let s := s.count 0x10 4 j 1
    match s.desc? c.desc with
    | some d =>
      let g := ((s.job? j).map Job.gen).getD 0
      s.endWhole c.desc d code (if code = 0 then c.bytes else 0) (g * 2 ^ 32 + min c.cow (2 ^ 32 - 1))
    | none => s

/-- The committer tells every rank the outcome, itself included (R227) (log entry 69, DESIGN CHOICE). -/
def State.broadcast (s : State) (j : Nat) (c : Ckpt) (code : Nat) : State :=
  let others := (below (c.field 36 2)).filter fun r => r != c.field 38 2
  let s := others.foldl (fun s r => s.sceranSend (.rank j r) (.outcome j c.gen code)) s
  s.ckptEnd j code

/-- The header of a manifest (R221), from the committer's copy of its job record. -/
def manifestHeader (c : Ckpt) (count : Nat) : List Byte :=
  bytesLE 4 0x4B434E43 ++ bytesLE 4 1 ++ bytesLE 4 (c.gen + 1) ++ bytesLE 4 count ++ bytesLE 8 (c.field 0 8) ++
  bytesLE 8 (c.field 24 8) ++ bytesLE 8 (c.field 8 8) ++ bytesLE 8 (c.field 16 8) ++ bytesLE 4 (c.field 32 4) ++
  bytesLE 2 (c.field 36 2) ++ zeros 2 ++ bytesLE 8 (c.field 40 8) ++ bytesLE 4 (c.field 48 4) ++ bytesLE 4 (c.field 52 4) ++
  bytesLE 8 (c.field 64 8) ++ bytesLE 8 (c.field 56 8) ++ zeros 40

/-- The pool address of the manifest slot of a generation (R220). -/
def Ckpt.manifestAt (c : Ckpt) (g : Nat) : Nat := c.field 80 8 + 0x10000 + g % 2 * 0x100000

/-- The commit word of a generation (R220). -/
def Ckpt.word (c : Ckpt) (g : Nat) : Nat := c.field 0 4 * 2 ^ 32 + g % 2 ^ 32

/-- What a committer holds of a job's checkpoint. -/
def State.commit (s : State) (j : Nat) : Commit := Tab.get Commit.empty s.train.commits j

/-- Set it. -/
def State.setCommit (s : State) (j : Nat) (m : Commit) : State :=
  { s with train := { s.train with commits := Tab.insert s.train.commits j m } }

/-- The committer hears a failure of a rank, or holds the entries of every rank: it sends the code to every rank, or writes the manifest
over pool_conn and waits for the pool's acknowledgement. Too many entries fail the checkpoint (R227) (log entry 76, DEDUCED). -/
def State.commitTry (s : State) (j : Nat) : State :=
  match s.ckpt? j with
  | none => s
  | some c =>
    let m := s.commit j
    if c.field 76 2 ≠ c.field 38 2 ∨ m.writing ∨ m.swapping then s
    else match m.failed with
      | some code => s.broadcast j c code
      | none =>
        if m.got.length < c.field 36 2 then s
        else
          let es := m.got.flatMap Prod.snd
          if es.length > 13105 then s.broadcast j c 0x04
          else if (s.conn? (c.field 104 4)).isNone then s.broadcast j c 0x16
          else
            let body := manifestHeader c es.length ++ es.flatten
            let data := body ++ sha384 body
            let key := (s.setCommit j { m with writing := true }).unstated
            key.2.netPost (c.field 104 4)
              { owner := .manifest j, op := 2, length := data.length, imm := 0, rkey := key.1.toNat % 2 ^ 32,
                va := c.manifestAt (c.gen + 1), operand := 0, swap := 0, solicited := false, local_ := 0, space := 0, data := data }

/-- The manifest's write was acknowledged, and the committer issues the compare-and-swap on the commit word; or it failed with a code,
or a rank's failure was heard meanwhile, which fails the checkpoint (R227, R228). -/
def State.manifestWrite (s : State) (j code : Nat) : State :=
  match s.ckpt? j with
  | none => s
  | some c =>
    let m := s.commit j
    if ¬ m.writing then s
    else if code ≠ 0 then s.broadcast j c code
    else if m.failed.isSome then s.broadcast j c (m.failed.getD code)
    else (s.sceranSend (.node (c.field 108 4)) (.cas (c.field 80 8) (c.word c.gen) (c.word (c.gen + 1)))).setCommit j
      { m with writing := false, swapping := true }

/-- The reply of the commit's compare-and-swap, or what reading the commit word back tells where none came: the outcome goes to every
rank (R227, R229) (log entry 211, DEDUCED). -/
def State.commitReply (s : State) (j : Nat) (reply : CasReply) : State :=
  match s.ckpt? j with
  | none => s
  | some c =>
    if ¬ (s.commit j).swapping then s
    else
      let code := match reply with
        | .old v => if v = c.word c.gen then 0 else 0x17
        | .lost (some v) => if v = c.word (c.gen + 1) then 0 else 0x12
        | .lost none => 0x12
      s.broadcast j c code

/-- The job whose commit word lies at an address of its pool's node and whose compare-and-swap is out. -/
def State.swapJob (s : State) (dest : ScDest) (a : Nat) : Option Nat :=
  (List.find? (fun (e : Nat × Commit) => e.2.swapping && (match s.ckpt? e.1 with
    | some c => c.field 80 8 == a && dest == .node (c.field 108 4)
    | none => false)) s.train.commits).map Prod.fst

/-- A response to a Sceran request of this device with a status (R227, R229). -/
def State.scAnswered (s : State) (dest : ScDest) (op : ScOp) (status old : Nat) (data : List Byte) : State :=
  let fails (a : Nat) : State := match s.swapJob dest a with
    | some j => match s.ckpt? j with
      | some c => s.broadcast j c (statusKept 0x17 status)
      | none => s
    | none => s
  match op with
  | .cas a _ _ => if status ≠ 0 then fails a else match s.swapJob dest a with
    | some j => s.commitReply j (.old old)
    | none => s
  | .read a _ => match s.swapJob dest a with
    | some j => s.commitReply j (.lost (if status = 0 then some (leNat data) else none))
    | none => s
  | _ => s

/-- A Sceran request of this device has had no response within its lifetime: the commit word of a swap is read back; where that
read fails too the checkpoint fails with 0x0012 (R229, R381). -/
def State.scLost (s : State) (dest : ScDest) (op : ScOp) : State :=
  match op with
  | .cas a _ _ => if (s.swapJob dest a).isSome then s.sceranSend dest (.read a 8) else s
  | .read a _ => match s.swapJob dest a with
    | some j => s.commitReply j (.lost none)
    | none => s
  | _ => s

/-- The committer hears a rank: its entries, or its failure code; what it hears before its own op 1 begins it keeps (R227)
(log entry 76, DEDUCED). -/
def State.commitHear (s : State) (j rank code : Nat) (l : List (List Byte)) : State :=
  let m := s.commit j
  let m : Commit := if code = 0 then { m with got := Tab.insert m.got rank l } else { m with failed := some (m.failed.getD code) }
  (s.setCommit j m).commitTry j

/-- A rank's entries, or its failure code, for a checkpoint from generation gen reach this device: the committer of the job hears them
where that generation is the current one (R227). -/
def State.entriesHeard (s : State) (j gen rank code : Nat) (l : List (List Byte)) : State :=
  match s.job? j with
  | some x => if x.field 76 2 = x.rank ∧ rank < x.world ∧ gen = ((s.ckpt? j).map fun c => c.gen).getD x.gen then s.commitHear j rank code l else s
  | none => s

/-- A checkpoint fails on this device with a code (R228): the committer is told, or tells every rank. -/
def State.ckptFail (s : State) (j code : Nat) : State :=
  match s.ckpt? j with
  | none => s
  | some c =>
    if c.field 76 2 = c.field 38 2 then s.broadcast j c code
    else (s.sceranSend (.rank j (c.field 76 2)) (.entries j c.gen (c.field 38 2) code [])).ckptEnd j code

/-- The running epoch's checkpoint fails with a code. -/
def State.snapFail (s : State) (code : Nat) : State :=
  match s.snap with
  | some p => s.ckptFail p.job code
  | none => s

/-- A connection fails with a code: the checkpoint that sends its shards over it fails (R228). -/
def State.ckptConnLost (s : State) (conn code : Nat) : State :=
  match s.snap with
  | some p => match s.ckpt? p.job with
    | some c => if c.field 104 4 = conn then s.ckptFail p.job code else s
    | none => s
  | none => s

end Sys2Proof.Machine
end

