-- ==== Sys2Proof/Machine/StorageOps.lean ====
section
/-! DEFINITION. The storage front end's shared operations: completion entries, namespaces and their legs, backend commands, leg
failures, flushes, asynchronous events (R306 to R319). -/

namespace Sys2Proof.Machine

/-! ## Queue pairs (R306, R307) -/

/-- Count a storage event (tally block 0x08). -/
def State.storeCount (s : State) (item inst n : Nat) : State := s.count 0x08 item inst n

/-- Entries of a submission queue. -/
def State.sqSlots (s : State) (q : Nat) : Nat := s.getF (R.qpCfg q) F.qpCfg_sq_size + 1

/-- Entries of a completion queue. -/
def State.cqSlots (s : State) (q : Nat) : Nat := s.getF (R.qpCfg q) F.qpCfg_cq_size + 1

/-- The slice of a queue pair: its owner, or the slice an admin queue pair is named for (R306). -/
def State.qpSlice (s : State) (q : Nat) : Nat := if q ≥ 0x1000 then q - 0x1000 else s.getF (R.qpCfg q) F.qpCfg_owner

/-- The identifier of a queue pair's queues: 0 for an admin queue pair, from 1 for the others (log entry 41, DEDUCED). -/
def sqIdOf (q : Nat) : Nat := if q ≥ 0x1000 then 0 else q + 1

/-- The queue pair that an identifier names to a slice. -/
def sqOfId (slice id : Nat) : Nat := if id = 0 then 0x1000 + slice else id - 1

/-- The completion queue has no room. -/
def State.cqFull (s : State) (q : Nat) : Bool :=
  (s.getF (R.qpStatus q) F.qpStatus_cq_tail + 1) % s.cqSlots q == Tab.get 0 s.store.cqHead q

/-- The 16 bytes of a completion queue entry in NVMe layout (log entry 78, PRESUMED). -/
def NvmeCqe.bytes (e : NvmeCqe) (phase : Nat) : List Byte :=
  bytesLE 4 e.dw0 ++ zeros 4 ++ bytesLE 2 e.sqHead ++ bytesLE 2 e.sqId ++ bytesLE 2 e.cid ++
  bytesLE 2 (phase + e.status % 2 ^ 14 * 2 + bit e.dnr * 2 ^ 15)

/-- Write an entry to a completion queue that has room, and the interrupt that follows it (R307); without a path to the host the
entry is lost. -/
def State.cqeWrite (s : State) (q : Nat) (e : NvmeCqe) : State :=
  let slice := s.qpSlice q
  let tail := s.getF (R.qpStatus q) F.qpStatus_cq_tail
  let phase := s.getF (R.qpStatus q) F.qpStatus_phase
  let open_ := s.hostPath (s.sliceFn slice)
  let s := if open_ then s.hostWrite slice (s.getF (R.qpCq q) F.qpCq_base * 4096 + tail * 16) (e.bytes phase) else s
  let next := (tail + 1) % s.cqSlots q
  let s := s.setF (R.qpStatus q) F.qpStatus_cq_tail next
  let s := if next = 0 then s.setF (R.qpStatus q) F.qpStatus_phase (1 - phase) else s
  if s.getF (R.qpCfg q) F.qpCfg_irq = 1 then s.raise (s.sliceFn slice) (s.sliceVector slice (s.getF (R.qpCfg q) F.qpCfg_vector))
  else s

/-- Deliver an entry: written, or held while the queue is full. -/
def State.cqeDeliver (s : State) (q : Nat) (e : NvmeCqe) : State :=
  let held := Tab.get [] s.store.waiting q
  if held.isEmpty ∧ ¬ s.cqFull q then s.cqeWrite q e
  else ({ s with store := { s.store with waiting := Tab.put [] s.store.waiting q (held ++ [e]) } }).setF
    (R.qpStatus q) F.qpStatus_cq_full 1

/-- Deliver an entry; of a mirrored slice it waits for the standby (R450). -/
def State.cqePost (s : State) (q : Nat) (e : NvmeCqe) : State :=
  if s.replicates 1 (s.qpSlice q) then s.holdAck (.nvmeCmd q e.cid false) (.cqe q e) else s.cqeDeliver q e

/-- Held entries go out while there is room. -/
def State.cqeFlush (s : State) (q : Nat) : Nat → State
  | 0 => s
  | n + 1 =>
    match Tab.get [] s.store.waiting q with
    | [] => s.setF (R.qpStatus q) F.qpStatus_cq_full 0
    | e :: es =>
      if s.cqFull q then s
      else (({ s with store := { s.store with waiting := Tab.put [] s.store.waiting q es } }).cqeWrite q e).cqeFlush q n

/-! ## Commands -/

/-- A command. -/
def State.nvme? (s : State) (id : Nat) : Option NvmeCmd := Tab.find? s.store.cmds id

/-- Set a command. -/
def State.setNvme (s : State) (id : Nat) (c : NvmeCmd) : State :=
  { s with store := { s.store with cmds := Tab.insert s.store.cmds id c } }

/-- A field of a command's entry. -/
def NvmeCmd.field (c : NvmeCmd) (off width : Nat) : Nat := fieldLE c.raw off width
/-- The opcode. -/
def NvmeCmd.op (c : NvmeCmd) : Nat := c.field 0 1
/-- The command is of an admin queue pair. -/
def NvmeCmd.admin (c : NvmeCmd) : Bool := decide (c.queue ≥ 0x1000)
/-- The command writes a namespace: Write, Write Zeroes, Dataset Management. -/
def NvmeCmd.writes (c : NvmeCmd) : Bool := !c.admin && [0x01, 0x08, 0x09].contains c.op
/-- Starting LBA. -/
def NvmeCmd.slba (c : NvmeCmd) : Nat := c.field 40 8
/-- The number of LBAs. -/
def NvmeCmd.nlb (c : NvmeCmd) : Nat := c.field 48 2 + 1
/-- What a command passes on to its backends beside its LBAs: FUA, the Deallocate bit of a Write Zeroes, the Deallocate attribute of
a Dataset Management (R311). -/
def NvmeCmd.flags (c : NvmeCmd) : Nat :=
  match c.op with
  | 1 | 2 => bit (natBit (c.field 48 4) 30) * 2 ^ 30
  | 8 => bit (natBit (c.field 48 4) 30) * 2 ^ 30 + bit (natBit (c.field 48 4) 25) * 2 ^ 25
  | 9 => 4
  | _ => 0

/-- Commands with a backend: some leg has not completed a piece. -/
def NvmeCmd.withBackend (c : NvmeCmd) : Bool := c.pieces.any fun p => !p.legs.isEmpty

/-- A command ends: its entry is posted, with the status of a deleted queue where its queue was deleted; a squashed command posts
none (R310, R320, R286). -/
def State.nvmeClose (s : State) (id status : Nat) (dnr : Bool) (dw0 : Nat) : State :=
  match s.nvme? id with
  | none => s
  | some c =>
    let s := { s with store := { s.store with cmds := Tab.erase s.store.cmds id } }
    if c.fate ≥ 2 then s
    else
      let r : Nat × Bool := if c.fate = 1 then (0x008, true) else (status, dnr)
      s.cqePost c.queue ⟨dw0, s.getF (R.qpStatus c.queue) F.qpStatus_sq_head, sqIdOf c.queue, c.field 2 2, r.1, r.2⟩

/-! ## Namespaces, legs, backends (R312, R317, R318) -/

/-- Bytes of an LBA of a namespace. -/
def State.lbaBytes (s : State) (ns : Nat) : Nat := if s.getF (R.nsMap ns) F.nsMap_lba_4k = 1 then 4096 else 512

/-- The backend of a leg, if it has one. -/
def State.legBackend (s : State) (ns leg : Nat) : Option Nat :=
  let b := s.getF (R.nsLegs ns) (if leg = 0 then F.nsLegs_leg0 else F.nsLegs_leg1)
  if b < 1024 then some b else none

/-- The legs of a namespace. -/
def State.legsOf (s : State) (ns : Nat) : List Nat := [0, 1].filter fun k => (s.legBackend ns k).isSome

/-- A namespace is a mirror. -/
def State.mirrored (s : State) (ns : Nat) : Bool := (s.legsOf ns).length == 2

/-- A backend's link stands: a drive port of slice 0 that is usable, a connection in RTS (R312). -/
def State.backendLink (s : State) (b : Nat) : Bool :=
  match s.getF (R.beCfg b) F.beCfg_kind with
  | 1 => let p := s.getF (R.beCfg b) F.beCfg_port
    s.portUsable p && s.getF (R.dpStatus p) F.dpStatus_owner == 0
  | 2 => match s.conn? (s.getF (R.beCfg b) F.beCfg_conn) with
    | some c => c.state == 3 && c.storage && c.owner == 0
    | none => false
  | 3 => true
  | _ => false

/-- A leg can take commands: not failed, its backend ready; in apprentice service a local drive (R320). -/
def State.legUsable (s : State) (ns leg : Nat) : Bool :=
  match s.legBackend ns leg with
  | none => false
  | some b => !natBit (s.getF (R.nsStatus ns) F.nsStatus_failed) leg && s.getF (R.beCfg b) F.beCfg_valid == 1 &&
      s.getF (R.beStatus b) F.beStatus_state == 2 && s.backendLink b &&
      (s.getF R.storCfg F.storCfg_apprentice == 0 || s.getF (R.beCfg b) F.beCfg_kind == 1)

/-- The commands outstanding on a leg. -/
def State.legLoad (s : State) (ns leg : Nat) : Nat :=
  (s.store.backs.filter fun e => e.2.ns == ns && e.2.leg == leg).length

/-- The leg a read goes to (R317, R318): the good leg of a resynchronisation; else the usable leg with fewer commands, leg 0 on a
tie. -/
def State.readLeg (s : State) (ns : Nat) : Option Nat :=
  match Tab.find? s.store.resync ns with
  | some (good, _) => if s.legUsable ns good then some good else none
  | none =>
    match (s.legsOf ns).filter fun k => s.legUsable ns k with
    | [a, b] => some (if s.legLoad ns b < s.legLoad ns a then b else a)
    | [a] => some a
    | _ => none

/-- The LBA sizes of the backends that are ready are the namespace's (R312): else its format is not supported (R320). -/
def State.formatOk (s : State) (ns : Nat) : Bool :=
  (s.legsOf ns).all fun k => match s.legBackend ns k with
    | none => true
    | some b => s.getF (R.beStatus b) F.beStatus_state != 2 ||
        (Tab.find? s.store.lba4k b).isSome == (s.getF (R.nsMap ns) F.nsMap_lba_4k == 1)

/-- R312's condition for atomic units of 64 KiB. -/
def State.atomic64 (s : State) (ns : Nat) : Bool :=
  let z := s.lbaBytes ns
  !(s.legsOf ns).isEmpty && (s.legsOf ns).all fun k =>
    match s.legBackend ns k with
    | none => false
    | some b =>
      let unit := (s.getF (R.beStatus b) F.beStatus_awupf + 1) * z
      let bound := (s.getF (R.beStatus b) F.beStatus_boundary + 1) * z
      s.getF (R.beStatus b) F.beStatus_state == 2 && decide (unit ≥ 65536) && bound % 65536 == 0 && Tab.get 0 s.store.nabo b == 0 &&
      s.getF (R.beOffset b) F.beOffset_lba * z % 65536 == 0

/-- A valid namespace with an NSID of a slice. -/
def State.nsOf (s : State) (slice nsid : Nat) : Option Nat :=
  match s.listedWith (R.nsMap 0) 0x20 4096 [(F.nsMap_valid, 1), (F.nsMap_owner, slice), (F.nsMap_nsid, nsid)] with
  | n :: _ => some n
  | [] => none

/-- The namespace that serves an NSID of a slice: attached, of a supported format (R320). -/
def State.nsServing (s : State) (slice nsid : Nat) : Option Nat :=
  match s.nsOf slice nsid with
  | some n => if s.formatOk n then some n else none
  | none => none

/-! ## Asynchronous events (R308, R312, R318) -/

/-- The controller of a slice. -/
def State.nvmeCtl (s : State) (slice : Nat) : NvmeCtl := Tab.get NvmeCtl.fresh s.store.ctl slice

/-- Set the controller of a slice. -/
def State.setCtl (s : State) (slice : Nat) (c : NvmeCtl) : State :=
  { s with store := { s.store with ctl := Tab.put NvmeCtl.fresh s.store.ctl slice c } }

/-- The type of an asynchronous event, from dword 0. -/
def eventType (dw0 : Nat) : Nat := dw0 % 8

/-- An event of bit b of Asynchronous Event Configuration is raised with dword 0: it completes a waiting request, which masks its
type until its log page is read, or waits for one (log entry 238, PRESUMED). -/
def State.nvmeEvent (s : State) (slice b dw0 : Nat) : State :=
  let c := s.nvmeCtl slice
  if ¬ natBit c.events b ∨ c.masked.contains (eventType dw0) then s
  else match c.waiting with
    | id :: ids => (s.setCtl slice { c with waiting := ids, masked := eventType dw0 :: c.masked }).nvmeClose id 0 false dw0
    | [] => s.setCtl slice { c with queued := if c.queued.contains dw0 then c.queued else c.queued ++ [dw0] }

/-- A Namespace Attribute Changed event of a namespace (R312): notice 0, log page 4. -/
def State.nsChanged (s : State) (ns : Nat) : State :=
  let slice := s.getF (R.nsMap ns) F.nsMap_owner
  let nsid := s.getF (R.nsMap ns) F.nsMap_nsid
  let c := s.nvmeCtl slice
  let s := s.setCtl slice { c with changed := if c.changed.contains nsid then c.changed else c.changed ++ [nsid] }
  s.nvmeEvent slice 8 0x00040002

/-- NS_STATUS follows the legs of a namespace: off, or normal once every leg is ready, degraded where the other leg's backend has
failed (log entry 239, DEDUCED); atomic64 (R312). A namespace with two legs
whose clean flag was found clear resynchronises from leg 0 (R318); one found clean has its flag set (R317). -/
def State.nsRefresh (s : State) (ns : Nat) : State :=
  let st := s.getF (R.nsStatus ns) F.nsStatus_state
  let s := s.setF (R.nsStatus ns) F.nsStatus_atomic64 (bit (s.atomic64 ns))
  if s.getF (R.nsMap ns) F.nsMap_valid = 0 then s.setF (R.nsStatus ns) F.nsStatus_state 0
  else
    let at_ (k v : Nat) : Bool := match s.legBackend ns k with
      | some b => s.getF (R.beStatus b) F.beStatus_state == v
      | none => false
    let legs := s.legsOf ns
    let ready := !legs.isEmpty && legs.all fun k => at_ k 2
    if st = 0 ∧ legs.any (fun k => at_ k 2) ∧ legs.all (fun k => at_ k 2 || at_ k 3) ∧ ¬ ready then
      let lost := legs.foldl (fun n k => if at_ k 3 then n + 2 ^ k else n) 0
      (s.setF (R.nsStatus ns) F.nsStatus_failed lost).setF (R.nsStatus ns) F.nsStatus_state 2
    else if st = 0 ∧ ready then
      let dirty := (s.legsOf ns).any fun k => match s.legBackend ns k with
        | some b => (Tab.find? s.store.unclean b).isSome
        | none => false
      if s.mirrored ns ∧ dirty then
        ({ s with store := { s.store with resync := Tab.insert s.store.resync ns (0, 0) } }).setF (R.nsStatus ns) F.nsStatus_state 3
      else
        let s := if s.mirrored ns then { s with store := { s.store with clean := Tab.insert s.store.clean ns () } } else s
        s.setF (R.nsStatus ns) F.nsStatus_state 1
    else s

/-! ## Backend commands (R313 to R319) -/

/-- The NVMe-oF capsule of a backend command: the entry in its opcode's layout, with the backend's namespace and LBAs; the spec does
not give its data pointer (log entry 85, DESIGN CHOICE). -/
def State.capsule (s : State) (id : Nat) (b : BackCmd) (flags : Nat) : List Byte × State :=
  let r0 := s.unstated
  let r1 := r0.2.unstated
  let rest : List Byte := match b.op with
    | 0 => zeros 24
    | 9 => zeros 4 ++ bytesLE 4 flags ++ zeros 16
    | _ => bytesLE 8 b.lba ++ bytesLE 4 ((b.count + 2 ^ 16 - 1) % 2 ^ 16 + flags) ++ zeros 12
  (bytesLE 1 b.op ++ bytesLE 1 0x40 ++ bytesLE 2 id ++ bytesLE 4 (s.getF (R.beCfg b.backend) F.beCfg_nsid) ++ zeros 16 ++
   bytesLE 8 r0.1.toNat ++ bytesLE 8 r1.1.toNat ++ rest, r1.2)

/-- The bus address of byte off of the buffer of command id in a drive's proxy range (R315): bit 63 set
(log entry 81, DESIGN CHOICE). -/
def proxyAddr (id off : Nat) : Nat := 2 ^ 63 + id % 2 ^ 32 * 2 ^ 24 + off

/-- A command goes out to its backend under an identifier: to a local drive with the PRP list of its data, which lies in the proxy
range of its port; to an NVMe-oF target over RDMA as a capsule (R312, R313, R315). -/
def State.sendBack (s : State) (id : Nat) (b : BackCmd) (flags : Nat) : State :=
  let s := s.emit (.backend id b.backend b.op b.lba b.count flags)
  match s.getF (R.beCfg b.backend) F.beCfg_kind with
  | 1 => match b.cmd with
    | some k =>
      let off := (((s.nvme? k).bind fun c => c.pieces[b.piece]?).map NvmePiece.off).getD 0
      let len := b.count * s.lbaBytes b.ns
      if b.op = 1 ∨ b.op = 2 then
        s.emit (.backendPrp id ((piecesAt 4096 (len / 4096 + 2) off len).map fun p => proxyAddr k p.1))
      else s
    | none => s
  | 2 =>
    let r := s.capsule id b flags
    r.2.netPost (r.2.getF (R.beCfg b.backend) F.beCfg_conn)
      { owner := .storage id, op := 0, length := 64, imm := 0, rkey := 0, va := 0, operand := 0, swap := 0, solicited := false,
        local_ := 0, space := 0, data := r.1 }
  | _ => s

/-- Pass a command for LBAs of a namespace to the backend of a leg (R313). -/
def State.issueBack (s : State) (cmd : Option Nat) (piece ns leg op lba n flags : Nat) : State :=
  match s.legBackend ns leg with
  | none => s
  | some be =>
    let id := s.store.nextBack
    let b : BackCmd := { cmd := cmd, piece := piece, ns := ns, leg := leg, backend := be, op := op,
                         lba := lba + s.getF (R.beOffset be) F.beOffset_lba, count := n }
    { s with store := { s.store with nextBack := id + 1, backs := Tab.insert s.store.backs id b } }.sendBack id b flags

/-! ## The clean flag of a mirror (R317) -/

/-- The clean flag is written on each leg that can take it, in the metadata area after the namespace's range; the area starts with it
(log entry 240, DESIGN CHOICE). -/
def State.flagWrite (s : State) (ns : Nat) (clean : Bool) : State :=
  let marks := if clean then Tab.insert s.store.clean ns () else Tab.erase s.store.clean ns
  let s := { s with store := { s.store with clean := marks } }
  ((s.legsOf ns).filter fun k => s.legUsable ns k).foldl (fun s k =>
    (s.emit (.cleanFlag ns k clean)).issueBack none 0 ns k 1 (s.getF (R.nsSize ns) F.nsSize_lbas) 1 0) s

/-- A write of the clean flag of a namespace has not completed. -/
def State.flagBusy (s : State) (ns : Nat) : Bool := s.store.backs.any fun e => e.2.cmd.isNone && e.2.ns == ns

/-- A Flush whose earlier writes have all completed goes to every leg (R314). -/
def State.flushIssue (s : State) (id : Nat) (c : NvmeCmd) (ns : Nat) : State :=
  let legs := (s.legsOf ns).filter fun k => s.legUsable ns k
  if legs.isEmpty then s.nvmeClose id 0x022 false 0
  else
    let s := s.setNvme id { c with started := true, pieces := [⟨0, 0, 0, legs, none⟩] }
    let s := { s with store := { s.store with unflushed := Tab.erase s.store.unflushed ns } }
    legs.foldl (fun s k => s.issueBack (some id) 0 ns k 0 0 0 0) s

/-- A write of a namespace accepted before command id has not completed, or the rewriting of a leg after a retry has not
(R314, R317). -/
def State.earlierWrites (s : State) (id ns : Nat) : Bool :=
  (s.store.backs.any fun e => e.2.op == 1 && e.2.ns == ns && (match e.2.cmd.bind s.nvme? with
    | some c => c.op == 2 && !c.admin
    | none => false)) ||
  s.store.cmds.any fun e => decide (e.1 < id) && e.2.writes &&
    (e.2.ns == some ns || (!e.2.started && s.nsOf e.2.slice (e.2.field 4 4) == some ns))

/-- The flushes of a namespace that wait for nothing any more are issued. -/
def State.flushTry (s : State) (ns : Nat) : State :=
  s.store.cmds.foldl (fun s e =>
    if ¬ e.2.admin ∧ e.2.op = 0 ∧ e.2.started ∧ e.2.pieces.isEmpty ∧ e.2.ns = some ns ∧ ¬ s.earlierWrites e.1 ns then
      s.flushIssue e.1 e.2 ns
    else s) s

/-- Commands of a queue pair are still with a backend (log entry 83, DEDUCED). -/
def State.qpDraining (s : State) (q : Nat) : Bool := s.store.cmds.any fun e => e.2.queue == q && e.2.withBackend

/-- The queue that a forwarded delete names, if the command is one (opcode 0x00). -/
def NvmeCmd.deletes (c : NvmeCmd) : Option Nat := if c.admin ∧ c.op = 0x00 then some (sqOfId c.slice (c.field 40 2)) else none

/-- The manager's reply to a forwarded command takes effect (R309, R310): the reply to a delete waits for the drain. -/
def State.medAnswer (s : State) (tag status dw0 : Nat) : State :=
  match Tab.find? s.store.med tag with
  | none => s
  | some id =>
    let wait := match (s.nvme? id).bind NvmeCmd.deletes with
      | some q => s.qpDraining q
      | none => false
    if wait then
      { s with store := { s.store with held := s.store.held ++ [(tag, status, dw0)] } }
    else
      ({ s with store := { s.store with med := Tab.erase s.store.med tag } }).nvmeClose id (status % 2 ^ 14) (natBit status 14) dw0

/-- Replies that waited for a drain are tried again. -/
def State.heldTry (s : State) : State :=
  s.store.held.foldl (fun s h => s.medAnswer h.1 h.2.1 h.2.2) { s with store := { s.store with held := [] } }

/-- A command ends, and what waited for it goes on. -/
def State.nvmeEnd (s : State) (id status : Nat) (dnr : Bool) (dw0 : Nat) : State :=
  match s.nvme? id with
  | none => s
  | some c =>
    let ns := c.ns.orElse fun _ => if c.admin then none else s.nsOf c.slice (c.field 4 4)
    let s := s.nvmeClose id status dnr dw0
    let s := match ns with
      | some ns =>
        let s := if c.op = 0 ∧ ¬ c.admin ∧ status ≠ 0 then
            { s with store := { s.store with unflushed := Tab.insert s.store.unflushed ns () } } else s
        s.flushTry ns
      | none => s
    let q := c.queue
    let s := if (Tab.find? s.store.deleting q).isSome ∧ ¬ s.qpDraining q then
        { s with store := { s.store with deleting := Tab.erase s.store.deleting q } } else s
    s.heldTry

/-- A malformed command ends with its status, and is its sender's protocol violation (R25, R320). -/
def State.nvmeBad (s : State) (id status : Nat) : State :=
  match s.nvme? id with
  | none => s
  | some c => (s.violation 0x08 0 (fieldLE c.raw 40 8) c.queue).nvmeEnd id status true 0

/-- A command ends for a cause: its status, and whether the DNR bit is set, as of a malformed command (R320). -/
def State.nvmeRefused (s : State) (id : Nat) (r : Nat × Bool) : State :=
  if r.2 then s.nvmeBad id r.1 else s.nvmeEnd id r.1 false 0

/-- Replace a piece of a command. -/
def NvmeCmd.setPiece (c : NvmeCmd) (i : Nat) (p : NvmePiece) : NvmeCmd := { c with pieces := c.pieces.set i p }

/-- A command with every piece done on every leg ends (R314). -/
def State.pieceCheck (s : State) (id : Nat) : State :=
  match s.nvme? id with
  | some c => if c.pieces.all fun p => p.legs.isEmpty then s.nvmeEnd id c.status c.dnr 0 else s
  | none => s

/-- The status of the first failure of a command: SCT 3 reads as 0/0x22, others pass unchanged (R320). -/
def NvmeCmd.failed (c : NvmeCmd) (status : Nat) (dnr : Bool) : NvmeCmd :=
  if status = 0 ∨ c.status ≠ 0 then c
  else if status / 256 % 8 = 3 then { c with status := 0x022 } else { c with status := status, dnr := dnr }

/-- Pass the pieces of a command on: each of a write to every usable leg, each of a read to one (R313, R317). -/
def State.issuePieces (s : State) (id ns : Nat) : State :=
  match s.nvme? id with
  | none => s
  | some c =>
    let live := (s.legsOf ns).filter fun k => s.legUsable ns k
    let c := if c.op = 2 then c else { c with pieces := c.pieces.map fun p => { p with legs := live } }
    let s := s.setNvme id c
    if c.op ≠ 2 ∧ live.isEmpty then (s.setNvme id (c.failed 0x300 false)).pieceCheck id
    else c.pieces.zipIdx.foldl (fun s e =>
      if c.op = 2 then
        match s.readLeg ns with
        | some k =>
          let s := s.setNvme id { (s.nvme? id).getD c with pieces := ((s.nvme? id).getD c).pieces.set e.2 { e.1 with legs := [k] } }
          s.issueBack (some id) e.2 ns k 2 e.1.lba e.1.count c.flags
        | none => s
      else live.foldl (fun s k => s.issueBack (some id) e.2 ns k c.op e.1.lba e.1.count c.flags) s) s

/-- The writes of a namespace that waited for its clean flag go on once it is cleared (R317). -/
def State.flagNext (s : State) (ns : Nat) : State :=
  if s.flagBusy ns then s
  else match Tab.get [] s.store.flagging ns with
    | [] => s
    | ids =>
      let s := if (Tab.find? s.store.clean ns).isSome then s.flagWrite ns false else s
      if s.flagBusy ns then s
      else ids.foldl (fun s id => s.issuePieces id ns) { s with store := { s.store with flagging := Tab.erase s.store.flagging ns } }

/-- The end of a backend command with a status, 0 for success (R314, R317). A failed read of a mirror with a media status or a
timeout is retried on the other leg; after a retry that succeeds the first leg is rewritten from the data before the read completes
(log entry 241, DESIGN CHOICE). A failed write of a mirror, or a
Flush of a leg that failed, stands on the other leg. -/
def State.backEnd (s : State) (bid status : Nat) (dnr : Bool) : State :=
  match Tab.find? s.store.backs bid with
  | none => s
  | some b =>
    let s := { s with store := { s.store with backs := Tab.erase s.store.backs bid } }
    match b.cmd with
    | none => (s.flagNext b.ns).flushTry b.ns
    | some id =>
      match s.nvme? id with
      | none => s
      | some c =>
        let p := c.pieces.getD b.piece ⟨0, 0, 0, [], none⟩
        let other := 1 - b.leg
        if b.op = 2 then
          if status ≠ 0 ∧ (status / 256 % 8 = 2 ∨ status / 256 % 8 = 3) ∧ s.mirrored b.ns ∧ p.retriedFrom = none ∧
              s.legUsable b.ns other ∧ (Tab.find? s.store.resync b.ns).isNone then
            let s := (s.setNvme id (c.setPiece b.piece { p with legs := [other], retriedFrom := some b.leg })).storeCount 3 0 1
            s.issueBack (some id) b.piece b.ns other 2 p.lba p.count c.flags
          else
            let st := if status ≠ 0 ∧ (Tab.find? s.store.resync b.ns).isSome ∧ status / 256 % 8 = 3 then 0x082 else status
            let ends (s : State) : State := (s.setNvme id ((c.setPiece b.piece { p with legs := [] }).failed st dnr)).pieceCheck id
            match p.retriedFrom with
            | some k =>
              if status = 0 ∧ s.legUsable b.ns k then
                (s.setNvme id (c.setPiece b.piece { p with legs := [k] })).issueBack (some id) b.piece b.ns k 1 p.lba p.count 0
              else ends s
            | none => ends s
        else if c.op = 2 then
          let s := if status = 0 then s.storeCount 4 0 1 else s
          (s.setNvme id (c.setPiece b.piece { p with legs := [] })).pieceCheck id
        else
          let stands := s.mirrored b.ns && s.legUsable b.ns other &&
            (b.op != 0 || natBit (s.getF (R.nsStatus b.ns) F.nsStatus_failed) b.leg)
          let c := c.setPiece b.piece { p with legs := p.legs.erase b.leg }
          (s.setNvme id (if status ≠ 0 ∧ stands then c else c.failed status dnr)).pieceCheck id

/-- LEG_FAILURE (R318): a leg of a mirror is marked failed, its namespace goes on degraded, an event is raised. -/
def State.legFail (s : State) (ns leg : Nat) : State :=
  if ¬ s.mirrored ns ∨ natBit (s.getF (R.nsStatus ns) F.nsStatus_failed) leg then s
  else
    let s := s.setF (R.nsStatus ns) F.nsStatus_failed (s.getF (R.nsStatus ns) F.nsStatus_failed ||| 2 ^ leg)
    let good := match Tab.find? s.store.resync ns with
      | some (g, _) => g == leg
      | none => false
    let s := if good then s
      else ({ s with store := { s.store with resync := Tab.erase s.store.resync ns } }).setF (R.nsStatus ns) F.nsStatus_state 2
    (s.storeCount 5 0 1).nvmeEvent (s.getF (R.nsMap ns) F.nsMap_owner) 0 0x00020001

/-- An orderly stop of a namespace: the clean flag of an idle mirror is set on each leg (R317) (log entry 207, DEDUCED). -/
def State.cleanStop (s : State) (ns : Nat) : State :=
  if ¬ s.mirrored ns ∨ s.getF (R.nsStatus ns) F.nsStatus_state ≠ 1 ∨ s.store.cmds.any (fun e => e.2.ns == some ns) ∨
      (Tab.find? s.store.clean ns).isSome then s
  else s.flagWrite ns true

/-- Every command outstanding on a leg fails with a path status. -/
def State.legDrop (s : State) (ns leg : Nat) : State :=
  (s.store.backs.filter fun e => e.2.ns == ns && e.2.leg == leg).foldl (fun s e => s.backEnd e.1 0x300 false) s

/-- The namespaces and legs that a backend serves. -/
def State.backendUsers (s : State) (b : Nat) : List (Nat × Nat) :=
  (s.listed (R.nsLegs 0) 0x20 4096).flatMap fun n => ((s.legsOf n).filter fun k => s.legBackend n k == some b).map fun k => (n, k)

/-- A backend has lost its link: its legs fail, and their commands at once (R318, the table under R320). -/
def State.backendLost (s : State) (b : Nat) : State :=
  if s.getF (R.beStatus b) F.beStatus_state = 0 then s
  else
    let s := s.setF (R.beStatus b) F.beStatus_state 3
    (s.backendUsers b).foldl (fun s u => (s.legFail u.1 u.2).legDrop u.1 u.2) s

/-- The valid backends of a kind. -/
def State.backendsOf (s : State) (kind : Nat) : List Nat :=
  s.listedWith (R.beCfg 0) 0x20 1024 [(F.beCfg_valid, 1), (F.beCfg_kind, kind)]

/-- A drive port has left link up: its backends are lost. -/
def State.storePortDown (s : State) (p : Nat) : State :=
  ((s.backendsOf 1).filter fun b => s.getF (R.beCfg b) F.beCfg_port == p).foldl (fun s b => s.backendLost b) s

/-- A connection has failed: the backends it reaches are lost. -/
def State.storeConnLost (s : State) (conn : Nat) : State :=
  ((s.backendsOf 2).filter fun b => s.getF (R.beCfg b) F.beCfg_conn == conn).foldl (fun s b => s.backendLost b) s

/-- The front end begins to initialise a backend whose table entry is valid and whose link stands (R312). -/
def State.backendInit (s : State) (b : Nat) : State :=
  if s.getF (R.beCfg b) F.beCfg_valid = 0 then s.setF (R.beStatus b) F.beStatus_state 0
  else if s.backendLink b then
    let s := s.setF (R.beStatus b) F.beStatus_state 1
    if s.getF (R.beCfg b) F.beCfg_kind = 1 then
      s.emit (.driveInit b (s.getF (R.beCfg b) F.beCfg_port) ((s.reg (R.beBase b)).toNat / 4096 * 4096))
    else s
  else s

/-- A drive port is usable again: its backends are initialised. -/
def State.storePortUp (s : State) (p : Nat) : State :=
  ((s.backendsOf 1).filter fun b => s.getF (R.beCfg b) F.beCfg_port == p && s.getF (R.beStatus b) F.beStatus_state != 2).foldl
    (fun s b => s.backendInit b) s

/-- Stop the storage of a slice (R286, R271): commands with a backend are drained under a fate, the others dropped. -/
def State.storeStop (s : State) (slice fate : Nat) : State :=
  let mine := fun (c : NvmeCmd) => c.slice == slice
  { s with store := { s.store with
      cmds := (Tab.keep s.store.cmds fun _ c => !mine c || c.withBackend).map fun e =>
        if mine e.2 then (e.1, { e.2 with fate := fate }) else e
      waiting := Tab.keep s.store.waiting fun q _ => s.qpSlice q != slice
      med := Tab.keep s.store.med fun _ id => match s.nvme? id with
        | some c => !mine c
        | none => false } }

/-- Commands of a slice are still with a backend. -/
def State.storeBusy (s : State) (slice : Nat) : Bool := s.store.cmds.any fun e => e.2.slice == slice && e.2.withBackend

end Sys2Proof.Machine
end

