-- ==== Sys2Proof/Machine/Containment.lean ====
section
/-! DEFINITION. What the loss of a unit reaches: stacks, dies, and the device fatal event (R5, R107, R146, R159, R160,
R467 to R470). -/

namespace Sys2Proof.Machine

/-- Refresh STITCH_STATUS from the lost stacks: degraded with one or two lost, lost from the third on (R159, R160)
(log entry 28, DESIGN CHOICE). -/
def State.stitchRefresh (s : State) : State :=
  let n := popCount 12 s.lostStacks
  let s := s.setF R.stitchStatus F.stitchStatus_tolerance (2 - n)
  let s := s.setF R.stitchStatus F.stitchStatus_degraded (bit (n == 1 || n == 2))
  s.setF R.stitchStatus F.stitchStatus_lost (bit (decide (n ≥ 3)))

/-- A lost stack is served by reconstruction from the stitched code: an entry of the stack map with unit 0xFFF, while one is free
and the image gives a stitched range (R6, R159). -/
def State.stackRebuilt (s : State) (stack : Nat) : State :=
  let w := s.reg (R.repairStack + 16)
  match (below 2).find? fun i => !(substEntry w i).1 with
  | some i =>
    if s.stitchedSize = 0 ∨ (below 2).any (fun i => (substEntry w i).1 && (substEntry w i).2.2 == stack) then s
    else s.setReg (R.repairStack + 16) (setSubst w i true 0xFFF stack)
  | none => s

/-- The memory of a stack is out (R146, R159): the third loss puts every stitched region in state lost (R160). -/
def State.memoryOut (s : State) (stack : Nat) : State :=
  let s := s.setF (R.hbmStatus stack) F.hbmStatus_mem_in_service 0
  let s := (((s.setBit R.stitchStatus (16 + stack)).stitchRefresh).stackRebuilt stack).serveLoseMemory stack
  if popCount 12 s.lostStacks ≥ 3 then
    let s := s.snapFail 0x15
    { s with regions := Tab.mapVals s.regions fun _ r => if r.tier = 1 ∧ (r.state ≠ 2 ∨ r.creating) then { r with state := 3 } else r }
  else s

/-- The benches of a stack are lost: its work in flight ends with 0x0015 (R107), its STACK_STATUS shows it (R106). -/
def State.loseBenches (s : State) (stack : Nat) : State :=
  let s := s.endSubs (fun _ p => p.stack == stack) 0x15
  let s := s.endStackInstances stack 0x15 0x01
  let s := s.serveLoseBenches stack
  s.setF (R.stackStatus stack) F.stackStatus_in_service 0

/-- A stack is lost whole (R5): its bit in the stack map, its memory, its benches, its in-service test. -/
def State.loseStack (s : State) (stack : Nat) : State :=
  let s := s.fenceOnly stackLevel stack
  let s := s.record { source := 0x0E, inst := stack, code := 0x0022, severity := 4,
                      detail := dAt 20 R.repairStack + dAt 24 stack }
  let s := (s.memoryOut stack).loseBenches stack
  (s.setF (R.stackStatus stack) F.stackStatus_isst_bench 0xFF).setF (R.stackStatus stack) F.stackStatus_ramp_active 0

/-- The bench of a stack that is under in-service test, if one is (STACK_STATUS.isst_bench). -/
def State.isstBench (s : State) (stack : Nat) : Option Nat :=
  let b := s.getF (R.stackStatus stack) F.stackStatus_isst_bench
  if b = 0xFF then none else some b

/-- The memory of a stack is lost (R146); with an in-service test running, whose save region it holds, the stack is treated under R5
(R466). -/
def State.loseMemory (s : State) (stack : Nat) : State :=
  if (s.isstBench stack).isSome then s.loseStack stack else s.memoryOut stack

/-- Bits of the Uncorrectable Error Status register of AER (PCIe). -/
def aerPoisoned : Nat := 12
/-- Completion Timeout. -/
def aerTimeout : Nat := 14
/-- Unexpected Completion. -/
def aerUnexpected : Nat := 16
/-- Malformed TLP. -/
def aerMalformed : Nat := 18
/-- Uncorrectable Internal Error. -/
def aerInternal : Nat := 22

/-- Log an uncorrectable error in AER of a unit: units 0 and 1 are the functions, 2 + p the Root Port p (R262, R272, R291). -/
def State.aerLog (s : State) (u b : Nat) : State :=
  if u < 2 then
    let e := Tab.get Ep.reset s.ep u
    ({ s with ep := Tab.put Ep.reset s.ep u { e with aerUnc := e.aerUnc ||| 2 ^ b } }).emit (.aer u b)
  else
    { s with slots := { s.slots with unc := Tab.update 0 s.slots.unc (u - 2) fun v => v ||| 2 ^ b } }.emit (.aer u b)

/-- Abandon every piece of work in flight without records (R469). -/
def State.abandon (s : State) : State :=
  { s with bench := { s.bench with descs := [], launches := [], entering := [] }, cores := [], tags := [],
           ringWait := [], dirty := [], dma := [], dmaTurn := [],
           cipher := { s.cipher with jobs := [], wanted := [] },
           store := { s.store with cmds := [], backs := [], waiting := [], held := [], med := [], flagging := [] },
           pkt := { s.pkt with rx := [], again := [], host := [], stage := [], leaving := [],
                               queues := Tab.mapVals s.pkt.queues fun _ q => { q with frames := [] } },
           serve := { s.serve with batches := [] }, snap := none,
           train := { s.train with ckpts := [], commits := [], scatters := [], handed := [] },
           net := { s.net with waits := [], sent := [],
                               conns := Tab.mapVals s.net.conns fun _ c => { c with msgs := [], txq := [], unacked := [] } } }

/-- The device fatal event of a cause (R468, R469): the entry and the freeze, vector 0 of each function with Bus Master
Enable, everything stopped, links down and PERST# asserted, the heartbeat stopped, Uncorrectable Internal Error on both
functions; then the safe state (R470). -/
def State.fatal (s : State) (cause : Nat) : State :=
  let s := s.record { source := 0x11, inst := 0xFF, code := 0x00FF, severity := 6, detail := dAt 20 cause }
  let s := (s.count 0x11 7 0 1).setF R.dbStatus F.dbStatus_frozen 1
  let s := if s.getF (R.epStatus 0) F.epStatus_bme = 1 then s.raise 0 0 else s
  let s := if s.getF (R.epStatus 1) F.epStatus_bme = 1 then s.raise 1 0 else s
  let s := s.abandon
  let s := (below 8).foldl (fun s n => s.setF (R.netPortStatus n) F.netPortStatus_link_up 0) s
  let s := { s with pins := { s.pins with portPerst := 0xFFFF, heartbeat := false } }
  let s := (s.aerLog 0 aerInternal).aerLog 1 aerInternal
  let s := (s.setF R.fatalStatus F.fatalStatus_fatal 1).setF R.fatalStatus F.fatalStatus_cause cause
  s.setF R.bootStatus F.bootStatus_stage 9

/-- The I/O die of downstream port p (R290). -/
def portDie (p : Nat) : Nat := p / 4 % 2

/-- Raise a port event: its bit in DP_SLOT_STATUS, and where the bit is enabled vector 0 of function 0 and a daybook entry
(R304). -/
def State.portEvent (s : State) (p b : Nat) : State :=
  let s := s.setBit (R.dpSlotStatus p) b
  if natBit (s.getF (R.dpSlotCtrl p) F.dpSlotCtrl_event_en) b then
    (s.record { source := 0x07, inst := p, code := 0x0042,
                detail := dAt 20 (s.getF (R.dpStatus p) F.dpStatus_state) + dAt 21 (s.getF (R.dpStatus p) F.dpStatus_width) }).raise 0 0
  else s

/-- The key of a tag: units 0 and 1 are the functions, 2 + p port p. -/
def tagKey (u tag : Nat) : Nat := u * 2 ^ 14 + tag

/-- ENGINE_STATUS.stopped ends with the last outstanding read of the engine (R245). -/
def State.drainRefresh (s : State) : State :=
  (below 16).foldl (fun s e =>
    if s.getF (R.engineStatus e) F.engineStatus_stopped = 1 ∧ ¬ (s.tags.any fun t => t.2.who / 64 == e) then
      s.setF (R.engineStatus e) F.engineStatus_stopped 0
    else s) s

/-- TAG_STATUS of a function, and the drain of stopped engines, follow the tags. -/
def State.tagRefresh (s : State) (u : Nat) : State :=
  let s := s.drainRefresh
  if u < 2 then
    let n := (s.tags.filter fun e => e.1 / 2 ^ 14 == u).length
    let q := (s.quarantine.filter fun e => e.1 / 2 ^ 14 == u).length
    (s.setF (R.tagStatus u) F.tagStatus_outstanding n).setF (R.tagStatus u) F.tagStatus_quarantined q
  else s

/-- Tags of a unit that go into quarantine are counted (R265, R294). -/
def State.quarantined (s : State) (u n : Nat) : State := if u < 2 then s.count 0x04 4 u n else s.count 0x07 6 (u - 2) n

/-- Quarantine every outstanding tag of a unit (R265). -/
def State.quarantineAll (s : State) (u : Nat) : State :=
  let mine := s.tags.filter fun e => e.1 / 2 ^ 14 == u
  let s := { s with tags := Tab.keep s.tags fun k _ => k / 2 ^ 14 != u,
                    quarantine := mine.foldl (fun t (e : Nat × TagUse) => Tab.insert t e.1 ⟨s.now, s.now⟩) s.quarantine }
  (s.tagRefresh u).quarantined u mine.length

/-- The tag of a unit that its next request takes: the lowest that is neither issued nor quarantined (R264). -/
def State.nextTag (s : State) (u : Nat) : Option Nat :=
  (below (if u < 2 then 8192 else 1024)).find? fun t =>
    (Tab.find? s.tags (tagKey u t)).isNone && (Tab.find? s.quarantine (tagKey u t)).isNone

/-- Issue a tag of a unit for a request (R264). -/
def State.issueTag (s : State) (u : Nat) (use : TagUse) : Option Nat × State :=
  match s.nextTag u with
  | some t => (some t, ({ s with tags := Tab.insert s.tags (tagKey u t) use }).tagRefresh u)
  | none => (none, s)

/-- The source and instance of a unit's events in the daybook. -/
def unitSource (u : Nat) : Nat × Nat := if u < 2 then (0x04, u) else (0x07, u - 2)

/-- A tag is quarantined (R265). -/
def State.quarantineTag (s : State) (u tag : Nat) : State :=
  let k := tagKey u tag
  let s := { s with tags := Tab.erase s.tags k, quarantine := Tab.insert s.quarantine k ⟨s.now, s.now⟩ }
  (s.tagRefresh u).quarantined u 1

/-- A tag is free again without quarantine. -/
def State.freeTag (s : State) (u tag : Nat) : State := { s with tags := Tab.erase s.tags (tagKey u tag) }.tagRefresh u

/-- The record of a timeout or a late completion. -/
def State.timeoutRecord (s : State) (u tag late : Nat) : State :=
  s.record { source := (unitSource u).1, inst := (unitSource u).2, code := 0x0043, severity := 5, status := 0x12,
             detail := dAt 20 tag + dAt 24 (min late (2 ^ 32 - 1)) }

/-- The timeout of a request of a function: Completion Timeout in AER, the daybook, the tag's quarantine (R262). -/
def State.timedOut (s : State) (fn tag : Nat) : State :=
  (((s.quarantineTag fn tag).timeoutRecord fn tag 0).aerLog fn aerTimeout).count 0x04 1 fn 1

/-- A host read of a unit that holds no DMA channel, from its transmission to what comes of it: its data, of the length asked
for, or the code of its failure; a timeout has the effects of R262, on a tag of the function (R261, R264) (log entry 203, DESIGN
CHOICE). -/
def State.hostRead (s : State) (fn : Nat) (pasid : Option Nat) (a n : Nat) (got : Got) : Got × State :=
  let s := s.emitReads fn pasid a n
  match got with
  | .bytes l => (if l.length = n then .bytes l else .fail 0x11, s)
  | .fail c =>
    if c ≠ 0x12 then (.fail c, s)
    else match s.issueTag fn ⟨1024, s.now, 0, 0, n, 0⟩ with
      | (some t, s) => (.fail 0x12, s.timedOut fn t)
      | (none, s) => (.fail 0x12, s)

/-- Quarantine the outstanding tags of a requester (R286). -/
def State.quarantineOf (s : State) (who : Nat) : State :=
  let mine := s.tags.filter fun e => e.2.who == who
  let s := { s with tags := Tab.keep s.tags fun _ u => u.who != who,
                    quarantine := mine.foldl (fun t (e : Nat × TagUse) => Tab.insert t e.1 ⟨s.now, s.now⟩) s.quarantine }
  mine.foldl (fun s (e : Nat × TagUse) => (s.tagRefresh (e.1 / 2 ^ 14)).count 0x04 4 (if e.1 / 2 ^ 14 < 2 then e.1 / 2 ^ 14 else 0) 1) s

/-- A port leaves state 3 (R300, R303): state 4, port_enable cleared, PERST# asserted, its tags quarantined, link_down. -/
def State.portDown (s : State) (p : Nat) : State :=
  if s.getF (R.dpStatus p) F.dpStatus_state = 3 then
    let s := (s.setF (R.dpStatus p) F.dpStatus_state 4).setF (R.dpCtrl p) F.dpCtrl_port_enable 0
    let s := { s with pins := { s.pins with portPerst := s.pins.portPerst ||| 2 ^ p } }
    ((((s.quarantineAll (2 + p)).portEvent p 3).count 0x07 1 p 1).servePortDown p).storePortDown p
  else s

/-- A port is reported link-down with its die (R5): it leaves state 3, or raises its link event as it stands. -/
def State.portDieLost (s : State) (p : Nat) : State :=
  if s.getF (R.dpStatus p) F.dpStatus_state = 3 then s.portDown p else s.portEvent p 3

/-- A port whose link has gone with its die is entered in the daybook. -/
def State.linkLost (s : State) (source inst : Nat) : State :=
  s.record { source := source, inst := inst, code := 0x0042, severity := 4, detail := dAt 20 0 }

/-- The die behind a link is fenced (R5): a stack is lost; a PCIe or network I/O die takes its ports down and is a device
fatal event. -/
def State.fenceDie (s : State) (k : Nat) : State :=
  let s := { s with links := Tab.insert s.links k ⟨.fenced, 0, false, 0⟩ }
  if k < 12 then s.loseStack k
  else
    let s := if k = 14 then
        (below 8).foldl (fun s n => (s.setF (R.netPortStatus n) F.netPortStatus_link_up 0).linkLost 0x0A n) s
      else
        let s := (s.setF (R.epStatus (k - 12)) F.epStatus_link_up 0).linkLost 0x04 (k - 12)
        (below 16).foldl (fun s p => if portDie p = k - 12 then s.portDieLost p else s) s
    s.fatal 0x02

/-- Leave an in-service test with a result, 0 pass, 1 fault found, 2 abandoned (R463, R465). -/
def State.isstLeave (s : State) (stack b result : Nat) : State :=
  let s := s.setF (R.benchStatus stack b) F.benchStatus_under_test 0
  let s := s.setF (R.stackStatus stack) F.stackStatus_isst_bench 0xFF
  let s := s.setF (R.isstStatus stack) F.isstStatus_last_result result
  let s := s.setF (R.isstStatus stack) F.isstStatus_last_bench b
  s.setReg (R.isstLast stack) s.now

/-- Abandon a running in-service test of a stack (R465). -/
def State.isstAbandon (s : State) (stack : Nat) : State :=
  match s.isstBench stack with
  | some b => (s.isstLeave stack b 2).count 0x11 3 stack 1
  | none => s

end Sys2Proof.Machine
end

