-- ==== Sys2Proof/Machine/Bench.lean ====
section
/-! DEFINITION. The commands of the chapter on benches: queues, descriptors, sub-parts, reduce, quantize, barriers, kernel
launches, the ramp governor, faults (R76 to R110). -/

namespace Sys2Proof.Machine

/-! ## Queues and descriptors (R80 to R83) -/

/-- A record of this queue's work waits for room in a ring, so the queue starts nothing more (R282). -/
def State.queueHeld (s : State) (q : Nat) (kinds : List Nat) : Bool :=
  s.ringWait.any fun e => e.2.any fun r => r.queue == q && kinds.contains r.kind

/-- BENCH_QUEUE_DOORBELL (R279, R281): the tail moves; an index beyond the ring is ignored and the queue enters error (R25);
a doorbell of a disabled queue or an inactive slice is dropped and counted. -/
def execBenchQueueDoorbell (bell : Bell) (s : State) : Result :=
  match s.bell 1 bell with
  | .dropped n => go (s.bellDropped n)
  | .hit q i =>
    let owner := s.getF (R.bqCfg q) F.bqCfg_owner
    if s.getF (R.bqCfg q) F.bqCfg_enable = 0 ∧ bellWrites bell then go (s.setF (R.bqTail q) F.bqTail_tail i)
    else if s.getF (R.bqCfg q) F.bqCfg_enable = 0 ∨ s.sliceState owner ≠ 1 then go (s.bellDropped owner)
    else if i ≥ ringSlots (s.getF (R.bqRing q) F.bqRing_size) then
      go ((s.bellBeyond owner q i).setF (R.bqStatus q) F.bqStatus_state 4)
    else go (s.setF (R.bqTail q) F.bqTail_tail i)

/-- Every byte of a range of a descriptor is zero. -/
def zeroAt (raw : List Byte) (off width : Nat) : Bool := fieldLE raw off width == 0

/-- Every byte of some ranges, each offset and width, is zero. -/
def zeroAll (raw : List Byte) (l : List (Nat × Nat)) : Bool := l.all fun r => zeroAt raw r.1 r.2

/-- The op and the fields of an attend descriptor: known, in range, and zero where the op does not use them (R180); feed open
uses last, which it binds (R181). -/
def attendFieldsOk (raw : List Byte) : Bool :=
  let op := fieldLE raw 40 1
  let uses (l : List Nat) (off width : Nat) : Bool := l.contains op || zeroAt raw off width
  [0, 1, 2, 3, 4, 5, 8, 9, 10, 11, 12, 13].contains op &&
  uses [11] 41 1 && decide (fieldLE raw 41 1 ≤ 7) &&
  uses [0, 1, 8, 9, 10, 11] 42 2 && decide (fieldLE raw 42 2 ≤ 63) &&
  uses [0] 44 2 &&
  uses [0, 11] 46 2 && (!(List.contains [0, 11] op) || (decide (1 ≤ fieldLE raw 46 2) && decide (fieldLE raw 46 2 ≤ 4096))) &&
  uses [1, 2, 3, 4, 5, 11, 12] 48 4 && decide (fieldLE raw 48 4 < if op ≥ 11 then 64 else 4096) &&
  uses [1, 3, 11] 52 4 && (op != 1 || decide (fieldLE raw 52 4 < 2 ^ 12)) && (op != 11 || decide (fieldLE raw 52 4 < 2 ^ 8)) &&
  uses [0, 8, 10, 11, 13] 56 8 && uses [0, 11] 64 8 && uses [0, 11] 72 8 && uses [0, 11] 80 8 && uses [11] 88 4 &&
  (op != 11 || (decide (64 ≤ fieldLE raw 88 4) && decide (fieldLE raw 88 4 ≤ 65536) &&
    fieldLE raw 88 4 == 2 ^ (fieldLE raw 88 4).log2)) && zeroAt raw 92 36

/-- FP32 code c is +0, or finite and positive (inv_t of R198). -/
def invTOk (c : Nat) : Bool := decide (c < 0x7F800000)

/-- The kind and the fields of a gather descriptor: known, in range, and zero where the kind does not use them (R198). -/
def gatherFieldsOk (raw : List Byte) : Bool :=
  let kind := fieldLE raw 40 1
  let uses (k off width : Nat) : Bool := kind == k || zeroAt raw off width
  decide (kind ≤ 2) && (fieldLE raw 41 1 == 0xFF || decide (fieldLE raw 41 1 ≤ 7)) && decide (fieldLE raw 42 2 ≤ 63) &&
  uses 1 44 2 && uses 2 46 2 && decide (fieldLE raw 46 2 ≤ 1024) &&
  decide (1 ≤ fieldLE raw 48 4) && decide (fieldLE raw 48 4 ≤ 65536) &&
  uses 2 52 4 && (kind != 2 || (decide (1 ≤ fieldLE raw 52 4) && decide (fieldLE raw 52 4 ≤ 1048576))) &&
  uses 1 72 8 && fieldLE raw 72 8 % 64 == 0 && uses 2 80 4 && invTOk (fieldLE raw 80 4) &&
  uses 2 84 1 && decide (fieldLE raw 84 1 ≤ 1) && zeroAt raw 85 43

/-- The op and the fields of an optimize descriptor (R200, R210): known, in range, and zero where the op does not use them. -/
def optimizeFieldsOk (raw : List Byte) : Bool :=
  let op := fieldLE raw 40 1
  let uses (l : List Nat) (off width : Nat) : Bool := l.contains op || zeroAt raw off width
  let count := fieldLE raw 44 4
  zeroAt raw 16 8 && zeroAt raw 24 8 && uses [0] 32 4 && [0, 1, 2, 3, 4, 5, 8, 9, 10, 11, 12].contains op &&
  uses [0] 41 1 && decide (fieldLE raw 41 1 ≤ 1) && decide (fieldLE raw 42 2 ≤ 15) && uses [0, 1, 2, 3, 4] 44 4 &&
  (!(List.contains [0, 1] op) || (decide (1 ≤ count) && decide (count ≤ 67108864))) &&
  uses [0, 1] 48 1 && [0, 3].contains (fieldLE raw 48 1) &&
  (if op = 0 then decide (fieldLE raw 49 1 ≤ 7) || fieldLE raw 49 1 == 0xFF else zeroAt raw 49 1) &&
  uses [1] 50 2 && (op != 1 || (decide (-320 ≤ signed 16 (fieldLE raw 50 2)) && decide (signed 16 (fieldLE raw 50 2) ≤ 320))) &&
  uses [2, 4] 52 1 && (op != 4 || fieldLE raw 52 1 == 0xFF || decide (fieldLE raw 52 1 ≤ 7)) && zeroAt raw 53 3 &&
  uses [0] 56 8 && uses [0, 1, 2, 3, 4, 8, 10, 11] 64 8 && uses [0, 1, 2, 4, 10] 72 8 && uses [0] 80 8 && uses [0] 88 8 &&
  uses [0] 96 8 && uses [0] 104 8 && uses [0] 112 8 && uses [4, 5] 120 4 &&
  (op != 5 || (decide (1 ≤ fieldLE raw 120 4) && decide (fieldLE raw 120 4 ≤ 600000))) && zeroAt raw 124 4

/-- The op and the fields of a digest descriptor (R200, R222): known, in range, and zero where the op does not use them. -/
def digestFieldsOk (raw : List Byte) : Bool :=
  let op := fieldLE raw 40 1
  let uses (l : List Nat) (off width : Nat) : Bool := l.contains op || zeroAt raw off width
  let count := fieldLE raw 44 4
  zeroAt raw 16 8 && zeroAt raw 24 8 && zeroAt raw 32 4 && decide (op ≤ 4) && uses [0] 41 1 && decide (fieldLE raw 41 1 ≤ 1) &&
  uses [1, 2, 3, 4] 42 2 && decide (fieldLE raw 42 2 ≤ 15) && uses [0, 1, 3, 4] 44 4 &&
  (!(List.contains [0, 1, 3] op) || decide (1 ≤ count)) && (op != 1 || decide (count ≤ 13105)) && uses [1, 3] 48 4 &&
  (!(List.contains [1, 3] op) || (decide (1 ≤ fieldLE raw 48 4) && decide (fieldLE raw 48 4 ≤ 600000))) && zeroAt raw 52 4 &&
  uses [0, 1, 3, 4] 56 8 && uses [0, 3] 64 8 && uses [3] 72 8 && uses [3] 80 8 && uses [3] 88 8 &&
  (op != 3 || (decide (1 ≤ fieldLE raw 88 8) && decide (fieldLE raw 80 8 + fieldLE raw 88 8 ≤ count))) && zeroAt raw 96 32

/-- The reserved, checked fields of the body of a known opcode are zero (R83); those of attend, gather, optimize and digest are
in range too. -/
def bodyReservedOk (raw : List Byte) : Bool :=
  match fieldLE raw 0 1 with
  | 0x01 => attendFieldsOk raw
  | 0x02 => gatherFieldsOk raw
  | 0x04 => optimizeFieldsOk raw
  | 0x05 => digestFieldsOk raw
  | 0x03 => zeroAt raw 67 1 && zeroAt raw 70 2 && zeroAt raw 88 40
  | 0x06 => zeroAt raw 70 58
  | 0x10 => zeroAt raw 69 3 && zeroAt raw 80 48
  | 0x11 => zeroAt raw 42 86
  | _ => true

/-- The combinations of R88, and the ranges of R87 and R64. -/
def reduceOk (raw : List Byte) : Bool :=
  let n := fieldLE raw 56 4
  let m := fieldLE raw 60 4
  let inF := fieldLE raw 64 1
  let outF := fieldLE raw 65 1
  let mode := fieldLE raw 66 1
  let d := signed 16 (fieldLE raw 68 2)
  decide (1 ≤ n) && decide (n ≤ 65536) && decide (1 ≤ m) && decide (m ≤ 67108864) &&
  ((decide (inF ≤ 2) && ((mode == 0 && outF == 4) ||
     (decide (mode ≤ 2) && decide (outF ≤ 3) && (mode != 2 || (decide (-320 ≤ d) && decide (d ≤ 320)))))) ||
   (inF == 3 && decide (outF ≤ 3)) || (inF == 4 && outF == 4))

/-- The ranges of R90. -/
def quantizeOk (raw : List Byte) : Bool :=
  decide (1 ≤ fieldLE raw 64 4) && decide (fieldLE raw 64 4 ≤ 67108864) && decide (fieldLE raw 68 1 ≤ 1) &&
  decide (fieldLE raw 69 1 ≤ 9)

/-- The ranges of R91 and R92. -/
def launchOk (raw : List Byte) : Bool :=
  fieldLE raw 40 8 % 4 == 0 && decide (fieldLE raw 60 2 < 64) && decide (1 ≤ fieldLE raw 62 2) &&
  decide (fieldLE raw 68 1 ≤ 60)

/-- The opcodes of the table under R82. -/
def knownOpcode (op : Nat) : Bool := [0x01, 0x02, 0x03, 0x04, 0x05, 0x06, 0x10, 0x11].contains op

/-- The valid windows of a set on a stack: number, virtual base, length, physical base, permissions, owner (R95). -/
structure Win where
  va : Nat
  len : Nat
  pa : Nat
  r : Bool
  w : Bool
  x : Bool
  owner : Nat
  deriving DecidableEq, Repr

/-- The valid windows of set k on a stack. -/
def State.windows (s : State) (stack k : Nat) : List Win :=
  (below 16).filterMap fun w =>
    let c := s.reg (R.winCtrl stack k w)
    if getBits c F.winCtrl_valid = 1 then
      some ⟨s.getF (R.winVa stack k w) F.winVa_va_base * 4096, s.getF (R.winSize stack k w) F.winSize_pages * 4096,
            s.getF (R.winPa stack k w) F.winPa_pa_base * 4096, getBits c F.winCtrl_r == 1, getBits c F.winCtrl_w == 1,
            getBits c F.winCtrl_x == 1, getBits c F.winCtrl_owner⟩
    else none

/-- A window set belongs to a slice on a stack: the owner of its valid windows, or of its first window when none is valid. -/
def State.winOwned (s : State) (stack k slice : Nat) : Bool :=
  match s.windows stack k with
  | [] => s.getF (R.winCtrl stack k 0) F.winCtrl_owner == slice
  | ws => ws.any fun w => w.owner == slice

/-- The stacks of a mask. -/
def maskList (n m : Nat) : List Nat := (below n).filter fun i => natBit m i

/-- The checks of R83 in order, for a queue owned by a slice: 0 when the descriptor passes. A body outside its ranges counts under
step 2 (log entry 216, DEDUCED), a stack that the image gives to a quiet partition of others under step 4
(log entry 227, DEDUCED). -/
def State.descCheck (s : State) (owner : Nat) (raw : List Byte) : Nat :=
  let fl := fieldLE raw 1 1
  let bar := fieldLE raw 3 1
  let sm := fieldLE raw 10 2
  let bm := fieldLE raw 12 1
  let op := fieldLE raw 0 1
  let scope := natBits bar 7 6
  let classes := getBits (s.forceOf owner).policy F.slicePolicy_classes
  if fieldLE raw 2 1 ≠ owner then 0x08
  else if natBit fl 7 ∨ sm ≥ 2 ^ 12 ∨ bm ≥ 2 ^ 6 ∨ ¬ zeroAt raw 13 3 ∨ ¬ zeroAt raw 36 4 ∨ sm = 0 ∨ bm = 0 ∨
      natBits fl 3 2 = 3 ∨ (owner ≠ 0 ∧ ¬ natBit classes (natBits fl 6 5)) ∨ ¬ bodyReservedOk raw ∨
      (op = 0x03 ∧ ¬ reduceOk raw) ∨ (op = 0x06 ∧ ¬ quantizeOk raw) ∨ (op = 0x10 ∧ ¬ launchOk raw) then 0x02
  else if (scope = 2 ∧ ¬ (maskList 12 sm).all fun st => s.barSlice (.stack st) (natBits bar 3 0) == owner) ∨
      (scope = 3 ∧ s.barSlice .device (natBits bar 3 0) ≠ owner) ∨
      (op = 0x10 ∧ ¬ (maskList 12 sm).all fun st => s.winOwned st (fieldLE raw 60 2) owner) ∨
      ¬ s.crOwned (fieldLE raw 8 2) owner then 0x08
  else if (maskList 12 sm).any fun st => !s.mayUseStack owner st then 0x03
  else if ¬ knownOpcode op then 0x05
  else if s.stage = 3 then 0x01
  else 0

/-- The generations of the barrier a descriptor waits on, for each masked stack and position, as they stand now (R98). -/
def State.waitGens (s : State) (d : Desc) : List (Nat × Nat × Nat) :=
  (maskList 12 d.stackMask).flatMap fun st => (maskList 6 d.benchMask).map fun p =>
    let b := (s.benchFor st p).getD p
    (st, p, match d.barrierOn st b with
      | some sc => getBits (s.barrier sc d.barNo) barGen
      | none => 0)

/-- Whether a descriptor's wait on a stack and bench position is over: none while it waits; some 0x0015 where a break ended it or the
barrier is broken, some 0 once a release ended it, some 0x0008 at a stack's or the device's barrier that is another slice's
(R98 to R100). -/
def State.waitOver (s : State) (d : Desc) (stack pos bench : Nat) : Option Nat :=
  if ¬ d.waitBefore then some 0
  else match d.barrierOn stack bench with
    | none => some 0
    | some sc =>
      let w := s.barrier sc d.barNo
      let g := ((d.gens.find? fun e => e.1 == stack && e.2.1 == pos).map fun e => e.2.2).getD 0
      if g = genBroken then some 0x15
      else if getBits w barGen ≠ g then some 0
      else if d.scope ≥ 2 ∧ s.barSlice sc d.barNo ≠ d.slice then some 0x08
      else if getBits w barBroken = 1 then some 0x15
      else none

/-- A wait that names another slice's barrier is blocked and recorded (R99). -/
def State.waitEnded (s : State) (stack : Nat) (d : Desc) (code : Nat) : State :=
  if code = 0x08 then s.blockedName 0x0E stack d.slice else s

/-- The source_word of a descriptor refused at its checks, in the layout of its source_kind: the opcode, or the op of an attend or gather
(R85, R94, R180, R219, R222). -/
def Desc.refusedWord (d : Desc) : Nat :=
  match d.kind with
  | 0x03 => 0
  | 0x0A => 0
  | 0x08 => d.field 40 1 * 2 ^ 16
  | _ => d.opcode * 2 ^ 16

/-- A new descriptor in flight; reduce, quantize and the element operations of optimize have sub-parts (R84). -/
def newDesc (q slice : Nat) (raw : List Byte) : Desc :=
  let d : Desc := ⟨q, raw, slice, [], false, 0, 0, 0, 0, false, []⟩
  if d.opcode = 0x03 ∨ d.opcode = 0x06 ∨ (d.opcode = 0x04 ∧ d.field 40 1 ≤ 1) then
    { d with subs := (maskList 12 d.stackMask).flatMap fun st =>
               (maskList 6 d.benchMask).map fun p => SubPart.fresh st p }
  else d

/-- The read of a ring entry: from device memory in the owner's regions, or what the host read brings where the owner's
function has a path (R80, R281) (log entry 7, DESIGN CHOICE). -/
def State.ringReadAs (s : State) (owner : Nat) (pasid : Option Nat) (base space off len : Nat) (host : Got) : Got × State :=
  if space = 1 then
    if s.hostPath (s.sliceFn owner) then s.hostRead (s.sliceFn owner) pasid (base + off) len host else (.fail (s.pathCode (s.sliceFn owner) 0x11), s)
  else s.memRead 0x05 owner 6 owner (base + off) len

/-- The read of a ring entry with the slice's own PASID. -/
def State.ringRead (s : State) (owner base space off len : Nat) (host : Got) : Got × State :=
  s.ringReadAs owner (s.slicePasid owner) base space off len host

/-- A read in a space goes to host memory, and every tag of the owner's function is issued or quarantined: it waits (R264). -/
def State.tagWait (s : State) (owner space : Nat) : Bool :=
  space == 1 && s.hostPath (s.sliceFn owner) && (s.nextTag (s.sliceFn owner)).isNone

/-- The fetch from a ring in a space waits: for a tag, or while the owner's function sends no request (R264, R267)
(log entry 233, DESIGN CHOICE). -/
def State.ringWaits (s : State) (owner space : Nat) : Bool :=
  s.tagWait owner space || (space == 1 && !s.hostPath (s.sliceFn owner) && s.pathCode (s.sliceFn owner) 0 == 0x14)

/-- BENCH_DESCRIPTOR_FETCH (R80, R83): the next descriptor in ring order. A failed ring read puts the queue in error and
yields nothing; a descriptor that fails a check completes with the first matching code and the owner's slice. -/
def execBenchDescriptorFetch (q : Nat) (host : Got) (s : State) : Result :=
  let owner := s.getF (R.bqCfg q) F.bqCfg_owner
  let head := s.getF (R.bqStatus q) F.bqStatus_head
  let slots := ringSlots (s.getF (R.bqRing q) F.bqRing_size)
  if s.getF (R.bqCfg q) F.bqCfg_enable = 0 ∨ s.getF (R.bqStatus q) F.bqStatus_state = 4 ∨ ¬ s.fetches owner ∨
      head = s.getF (R.bqTail q) F.bqTail_tail ∨ s.queueHeld q [0x02, 0x03, 0x08, 0x09, 0x0A] ∨
      s.ringWaits owner (s.getF (R.bqRing q) F.bqRing_space) then go s
  else
    match s.ringRead owner (s.getF (R.bqRing q) F.bqRing_base * 4096) (s.getF (R.bqRing q) F.bqRing_space) (head * 128) 128 host with
    | (.fail c, s) =>
      let s := s.setF (R.bqStatus q) F.bqStatus_state 4
      go ((s.record { source := 0x05, inst := owner, code := 0x0050, slice := owner, status := c, severity := 2,
                      detail := dAt 20 8 + dAt 22 4 + dAt 24 q }).count 0x05 8 owner 1)
    | (.bytes raw, s) =>
      let s := s.setF (R.bqStatus q) F.bqStatus_head ((head + 1) % slots)
      let d := newDesc q owner raw
      let c := s.descCheck owner raw
      if c ≠ 0 then
        let s := if c = 0x08 then s.blockedName 0x0E 0 owner else s
        let s := if c = 0x01 then s.cmdRefused 0x0E 0 owner q d.opcode 1 else s
        go ((s.post d.cq (s.descRec d d.kind c 0 d.refusedWord)).countDesc d)
      else
        let d := { d with gens := if d.waitBefore then s.waitGens d else [] }
        let n := s.bench.next
        let s := s.setDesc n d
        go (({ s with bench := { s.bench with next := n + 1 } }).bqRefresh q)

/-- The waits of a descriptor on its masked stacks and positions. -/
def State.waits (s : State) (d : Desc) : List (Option Nat) :=
  (maskList 12 d.stackMask).flatMap fun st => (maskList 6 d.benchMask).map fun p =>
    s.waitOver d st p ((s.benchFor st p).getD p)

/-- Descriptor n has started: a sub-part or an instance has, or its operation acts. -/
def State.started (s : State) (n : Nat) (d : Desc) : Bool :=
  d.performed || d.subs.any (fun p => p.phase != .waiting || p.rerun) ||
  ((Tab.find? s.bench.launches n).map fun l => l.insts.any fun i => i != .waiting).getD false

/-- The descriptors of a queue start in ring order: it is descriptor n's turn when every earlier one in flight has started or is held
by wait_before (R80). -/
def State.turn (s : State) (n : Nat) (d : Desc) : Bool :=
  s.bench.descs.all fun e => decide (n ≤ e.1) || e.2.queue != d.queue || s.started e.1 e.2 ||
    (e.2.opcode != 0x11 && (s.waits e.2).any Option.isNone)

/-- A barrier cannot be acted on yet: the core that keeps it restarts (R110), or it is of a bench that runs work of another slice
(R77, R99) (log entry 193, DEDUCED). -/
def State.barWaits (s : State) (slice : Nat) (sc : BarScope) : Bool :=
  match sc with
  | .bench st b => s.benchBusy st b && s.barSlice sc 0 != slice
  | sc => s.barHeld sc

/-- A part of a descriptor without sub-parts is directed at a stack out of service (R85); attend and gather form their parts otherwise
(R180, R187, R198). -/
def State.partDown (s : State) (d : Desc) : Bool :=
  decide (d.opcode ≥ 4) && (maskList 12 d.stackMask).any fun st => !s.stackUp st

/-- Whether descriptor n, without sub-parts, may act: none before its turn, while a wait of it is pending and while a bench where it is to
arrive runs another slice's work, else 0 or the code its wait or a stack out of service gives (R80, R85, R98 to R100). -/
def State.gate (s : State) (n : Nat) (d : Desc) : Option Nat :=
  if ¬ s.turn n d ∨ (d.arriveAfter ∧ d.scope = 1 ∧ (s.partBarriers d).any fun e => s.barWaits d.slice e.2) then none
  else if (s.waits d).all Option.isSome then
    some (combineCodes ((if s.partDown d then 0x15 else 0) :: (s.waits d).filterMap id)) else none

/-! ## Sub-parts (R84 to R86, R107) -/

/-- A spare bench that enters service, or an engine or lane of the bench that does, keeps the bench from starting sub-parts (R105). -/
def State.benchEntering (s : State) (stack b : Nat) : Bool :=
  (Tab.find? s.bench.entering (2 ^ 20 + benchKey stack b)).isSome ||
  (below 9).any fun e => (Tab.find? s.bench.entering (benchKey stack b * 9 + e)).isSome

/-- Bench work can start: A0, not stopping for A1, the stack's control core and the scheduler (12) running (R110, R408, R437). -/
def State.dispatching (s : State) (stack : Nat) : Bool :=
  s.getF R.pwrState F.pwrState_state == 0 && !s.power.stopping && !s.power.off && s.stage == 4 &&
  (Tab.find? s.bench.stalled stack).isNone && (Tab.find? s.bench.stalled 12).isNone

/-- Descriptor n has work that could start on bench b of a stack: a sub-part whose wait is over, or an instance. -/
def State.wantsBench (s : State) (stack b n : Nat) (d : Desc) : Bool :=
  decide (s.sliceState d.slice ≤ 2) && s.turn n d &&
  (d.subs.any (fun p => p.phase == .waiting && p.stack == stack && (s.benchesFor stack p.pos).contains b &&
      (s.waitOver d stack p.pos b).isSome) ||
    (natBit d.stackMask stack && ((Tab.find? s.bench.launches n).map fun l => l.insts.contains .waiting).getD false &&
      (maskList 6 d.benchMask).any fun p => s.benchFor stack p == some b && (s.waitOver d stack p b).isSome))

/-- A part of a batch on a stack has a phase to run on its benches: its maxima, or the sums once the maxima it needs are in (R189, R191). -/
def Batch.partReady (b : Batch) (stack : Nat) : Bool :=
  b.started && b.parts.contains stack && !(b.failed.any fun e => e.1 == stack) && !b.merged.contains stack &&
  (!b.maxDone.contains stack || b.exchanged stack)

/-- A part of a batch has begun on a stack's benches and is to go on there. -/
def Batch.begunOn (b : Batch) (stack : Nat) : Bool :=
  b.maxDone.contains stack && !b.merged.contains stack && !(b.failed.any fun e => e.1 == stack) &&
  (b.failed.isEmpty || b.exchanged stack)

/-- The slices with work for bench b of a stack. -/
def State.benchClaims (s : State) (stack b : Nat) : List Nat :=
  (s.bench.descs.filter fun e => s.wantsBench stack b e.1 e.2).map (fun e => e.2.slice) ++
  (s.serve.batches.filter fun e => decide (s.sliceState e.2.slice ≤ 2) && e.2.partReady stack).map fun e => e.2.slice

/-- Bench b of a stack is owed to another slice than this one: one with work for it whose time on the stack in the last 10 ms is less in
proportion to its share in force (R81, R276) (log entry 195, DEDUCED). -/
def State.benchOwed (s : State) (stack b slice : Nat) : Bool :=
  let share (n : Nat) : Nat := getBits (s.forceOf n).share F.sliceShare_bench_share
  (s.benchClaims stack b).any fun n => n != slice &&
    decide (s.benchTime stack n * share slice < s.benchTime stack slice * share n)

/-- A bench can start work of a slice now: it is free and in service, its stack starts work, the slice may run, and the bench is not owed
to another slice (R81, R105, R110). -/
def State.benchOpen (s : State) (stack b slice : Nat) : Bool :=
  s.dispatching stack && !s.benchBusy stack b && !s.benchEntering stack b && decide (s.sliceState slice ≤ 2) &&
  !s.benchOwed stack b slice

/-- The physical benches that run the phases of an attend part on a stack: those of every position in service (R187); a part that has
begun goes on where a test has not (R109). None while one is under test without a stand-in. -/
def State.partBenches (s : State) (stack : Nat) (begun : Bool) : List Nat :=
  let bs := (s.benchPositions stack).map fun p =>
    let u := s.servingUnit (benchLevel stack) p
    if begun ∧ s.getF (R.benchStatus stack u) F.benchStatus_under_test = 0 then some u else s.benchNow stack p
  if bs.all Option.isSome then bs.filterMap id else []

/-- A phase of an attend part can run on a stack's benches now; a part that has begun goes on while the device stops new work for A1
(R408). -/
def State.partOpenOn (s : State) (stack slice : Nat) (begun : Bool) : Bool :=
  let s := if begun then { s with power := { s.power with stopping := false } } else s
  !(s.partBenches stack begun).isEmpty && (s.partBenches stack begun).all fun b => s.benchOpen stack b slice

/-- A bench takes up work of a slice: it is cleared if its slice changes (R77), it is busy, its clocks run. -/
def State.takeBench (s : State) (stack b slice : Nat) : State := (s.claimBench stack b slice).benchBusyNow stack b

/-- A phase of an attend part starts on some benches of a stack, with its engines issuing; a descriptor that a stack's or the device's
barrier released has released them for its first (R77, R102). -/
def State.benchesOn (s : State) (stack : Nat) (b : Batch) (bs : List Nat) : State :=
  let slice := b.slice
  let held := ((b.desc.bind s.desc?).map fun d => d.waitBefore && decide (d.scope ≥ 2)).getD false
  let s := if held ∧ ¬ b.maxDone.contains stack then s.releaseEngines stack (s.enginesOf stack bs) else s
  let s := bs.foldl (fun s b => s.takeBench stack b slice) s
  s.leaveIdle stack slice (s.enginesOf stack bs)

/-- A phase of an attend part runs on some benches of a stack and ends there within the command (log entry 230, DESIGN CHOICE). -/
def State.onBenches (s : State) (stack : Nat) (b : Batch) (bs : List Nat) (f : State → State) : State :=
  bs.foldl (fun s b => s.benchFree stack b) (f (s.benchesOn stack b bs))

/-- The descriptor sequencer starts on a bench's controller for work of a slice, at level P with clear registers; the spec gives its
program no entry, so the program counter is a free value (R111). -/
def State.startSequencer (s : State) (stack b slice : Nat) : State :=
  let r := s.unstated
  let c : Core := { Core.clear with
    role := .firmware
    status := 1
    pc := setBits r.1 (1, 0) 0
    slice := slice
    pages := [60, 61, 62, 63]
    position := BitVec.ofNat 64 (stack * 2 ^ 16 + s.benchPos stack b * 2 ^ 8) }
  { r.2 with cores := Tab.put Core.clear r.2.cores (benchKey stack b) c }

/-- The sub-part is of optimize op 0, which keeps a journal for its position (R86). -/
def Desc.isStep (d : Desc) : Bool := d.opcode == 0x04 && d.field 40 1 == 0

/-- Another step's sub-part at a position runs, or waits to be re-run, with the position's journal, so the journal may not be used (R86). -/
def State.journalHeld (s : State) (n stack pos : Nat) (d : Desc) : Bool :=
  d.isStep && s.bench.descs.any fun e => e.1 != n && e.2.isStep &&
    e.2.subs.any fun p => p.stack == stack && p.pos == pos && (p.phase == .running || (p.phase == .waiting && p.rerun))

/-- The positions that run units of a position out of service have ended their own shares of the descriptor (R106). -/
def State.ownFirst (s : State) (d : Desc) (stack pos : Nat) : Bool :=
  s.posInService (benchLevel stack) pos || d.subs.all fun p =>
    p.stack != stack || !s.posInService (benchLevel stack) p.pos || p.phase == .ended

/-- SUBPART_DISPATCH (R80, R81, R84, R85, R98, R106, R107): in its turn and once its wait is over, a waiting sub-part starts on the free
bench that serves its position, or the benches its units are dealt to; a stack out of service or a broken barrier ends it with 0x0015
(log entry 32, DESIGN CHOICE). -/
def execSubpartDispatch (d stack pos : Nat) (s : State) : Result :=
  match s.desc? d with
  | none => go s
  | some x =>
    match x.sub? stack pos with
    | none => go s
    | some p =>
      if p.phase ≠ .waiting then go s
      else if ¬ s.stackUp stack then go (s.endSub d stack pos 0x15)
      else
        match s.benchesFor stack pos with
        | [] => go s
        | b :: more =>
          match s.waitOver x stack pos b with
          | none => go s
          | some c =>
            if ¬ s.turn d x then go s
            else if c ≠ 0 then go ((s.waitEnded stack x c).endSub d stack pos c)
            else if ¬ (b :: more).all (fun b => s.benchOpen stack b x.slice) ∨ s.journalHeld d stack pos x ∨
                ¬ s.ownFirst x stack pos then go s
            else
              let s := (b :: more).foldl (fun s b => (s.takeBench stack b x.slice).startSequencer stack b x.slice) s
              go (s.setDesc d (x.mapSub stack pos fun p => { p with phase := .running, bench := b, also := more }))

/-- SUBPART_COMPLETE (R85): a running sub-part whose share has been computed ends with its outcome. -/
def execSubpartComplete (d stack pos : Nat) (s : State) : Result :=
  match s.desc? d with
  | none => go s
  | some x =>
    match x.sub? stack pos with
    | none => go s
    | some p => if p.phase = .running ∧ p.did then go (s.endSub d stack pos p.code) else go s

/-! ### Shares (R84) -/

/-- A sub-part's share is to be computed. -/
def SubPart.acts (p : SubPart) : Bool := p.phase == .running && !p.did

/-- A sub-part of the descriptor's operation is to be computed. -/
def Desc.ready (d : Desc) : Bool := d.subs.any SubPart.acts

/-- The division of m units of work among n sub-parts in order (R84): sub-part j takes units j × m / n to (j + 1) × m / n - 1; its
first unit and its count (log entry 196, DESIGN CHOICE). -/
def shareOf (m n j : Nat) : Nat × Nat := (j * m / n, (j + 1) * m / n - j * m / n)

/-- The division of m elements in blocks of 32. -/
def blockShare (m n j : Nat) : Nat × Nat :=
  let u := shareOf (ceilDiv m 32) n j
  (32 * u.1, min m (32 * (u.1 + u.2)) - 32 * u.1)

/-- The elements of a bench's share, divided in blocks of 32 over its eight engine positions (R84). -/
def elementUnits {α : Type} (l : List α) : List (List α) :=
  (below 8).map fun e => (l.drop (blockShare l.length 8 e).1).take (blockShare l.length 8 e).2

/-- The blocks of a bench's share, divided over its eight engine positions (R84). -/
def blockUnits {α : Type} (l : List α) : List (List α) :=
  (below 8).map fun e => (l.drop (shareOf l.length 8 e).1).take (shareOf l.length 8 e).2

/-- What a share came to: the failure codes, the flags of each output element, the bytes produced. -/
structure Share where
  codes : List Nat
  flags : List Nat
  bytes : Nat
  deriving DecidableEq, Repr

/-- A sub-part whose share came to this. -/
def SubPart.acted (p : SubPart) (o : Share) : SubPart :=
  { p with did := true, code := combineCodes o.codes, flags := o.flags.foldl (· ||| ·) 0,
           flagged := (o.flags.filter (· != 0)).length, bytes := if o.codes.isEmpty then o.bytes else 0 }

/-- Compute the shares of some sub-parts, each with its place in the division: f gives the sub-part with its outcome. -/
def State.actEach (s : State) (n : Nat) (f : Nat → SubPart → State → SubPart × State) : List (SubPart × Nat) → State
  | [] => s
  | e :: l =>
    let r := f e.2 e.1 s
    let s := match r.2.desc? n with
      | some d => r.2.setDesc n (d.mapSub e.1.stack e.1.pos fun _ => r.1)
      | none => r.2
    s.actEach n f l

/-- Compute the share of every sub-part of descriptor n that runs and is still to be computed. -/
def State.actOn (s : State) (n : Nat) (x : Desc) (f : Nat → State → Share × State) : State :=
  s.actEach n (fun j p s => let r := f j s; (p.acted r.1, r.2)) ((x.subs.zip (below x.subs.length)).filter fun e => e.1.acts)

/-- The shares that are still to be computed fail with a code. -/
def State.actFail (s : State) (n : Nat) (x : Desc) (code : Nat) : State := s.actOn n x fun _ s => (⟨[code], [], 0⟩, s)

/-- Read several ranges in turn: the byte lists, or the combined code of the failures. -/
def State.readRanges (s : State) (slice : Nat) : List (Nat × Nat) → List (List Byte) × List Nat × State
  | [] => ([], [], s)
  | (a, n) :: rs =>
    match s.memRead 0x0E (a / 2 ^ 35 % 12) 0 slice a n with
    | (.bytes l, s) => let r := s.readRanges slice rs; (l :: r.1, r.2.1, r.2.2)
    | (.fail c, s) => let r := s.readRanges slice rs; (r.1, c :: r.2.1, r.2.2)

/-- Write several ranges in turn: the codes of the failures. -/
def State.putRanges (s : State) (slice : Nat) : List (Nat × List Byte) → List Nat × State
  | [] => ([], s)
  | (a, l) :: ws =>
    match s.memWrite 0x0E (a / 2 ^ 35 % 12) 0 slice a l with
    | (none, s) => s.putRanges slice ws
    | (some c, s) => let r := s.putRanges slice ws; (c :: r.1, r.2)

/-- Write several ranges: none where the access to one is refused, so that a refusal has no side effect (R33); else in turn, with the
codes of the failures. -/
def State.writeRanges (s : State) (slice : Nat) (ws : List (Nat × List Byte)) : List Nat × State :=
  match s.refusals 0x0E 0 slice (ws.map fun w => (w.1, w.2.length)) with
  | ([], s) => s.putRanges slice ws
  | r => r

/-! ### Reduce (R87 to R89) -/

/-- Bytes of an element of a reduce form. -/
def formBytes (f : Nat) : Nat :=
  match f with
  | 0 => 4
  | 1 => 2
  | 2 => 2
  | 3 => 48
  | _ => 2

/-- An output element of a bin set in a form: its bytes and flags (R63). -/
def reduceOut (outF : Nat) (b : Entry) (rd : Rnd) : List Byte × Nat :=
  if outF = 3 then (b.record, b.flags)
  else
    let r := b.binResult (.fin false 1 0) ((plainFmt outF).convert · rd) ((plainFmt outF).convert · { rd with sat := false })
    (bytesLE (formBytes outF) r.1, r.2)

/-- The output element of reduce for its source elements, little-endian byte lists, and the anchor entry of mode 1. -/
def reduceElement (raw : List Byte) (srcs : List (List Byte)) (anchor : List Byte) (rd : Rnd) : List Byte × Nat :=
  let inF := fieldLE raw 64 1
  let outF := fieldLE raw 65 1
  let mode := fieldLE raw 66 1
  if inF = 4 then
    let ms := srcs.map fun l => signed 16 (leNat l)
    (bytesLE 2 (wrap 16 (ms.foldl max (-32768))), 0)
  else if inF = 3 then
    match srcs.map fun l => (entryOfRecord l).getD (binsSpoilt 0) with
    | [] => ([], 0)
    | e :: es =>
      if es.all fun x => x.anchor == e.anchor then reduceOut outF (es.foldl Entry.mergeBins e) rd
      else reduceOut outF (binsSpoilt (es.foldl (fun f x => f ||| x.flags) e.flags)) rd
  else
    let terms := srcs.map fun l => (plainFmt inF).decode (leNat l)
    let p1 := passOne terms
    if outF = 4 then (bytesLE 2 (wrap 16 p1.1), p1.2)
    else
      let m : Int := match mode with
        | 0 => p1.1
        | 1 => signed 16 (leNat anchor)
        | _ => signed 16 (fieldLE raw 68 2)
      if mode = 1 ∧ (m < -320 ∨ m > 320) then reduceOut outF (binsSpoilt 0) rd
      else reduceOut outF (terms.foldl Entry.addTerm (binsAt (m + 1))) rd

/-- Records supplied to reduce are all in binned form; another form is refused with 0x0002 (R51). -/
def recordsOk (raw : List Byte) (srcs : List (List Byte)) : Bool :=
  fieldLE raw 64 1 != 3 || srcs.all fun l => fieldLE l 46 1 == 2

/-- The share of a reduce: cnt elements from element lo. -/
def State.reduceShare (s : State) (x : Desc) (lo cnt : Nat) : Share × State :=
  let n := x.field 56 4
  let w := formBytes (x.field 64 1)
  let ow := formBytes (x.field 65 1)
  let ranges := (below n).map fun k => (x.field 40 8 + k * x.field 48 8 + lo * w, cnt * w)
  let needAnchor := decide (x.field 64 1 ≤ 2) && x.field 66 1 == 1
  let (srcs, codes, s) := s.readRanges x.slice (ranges ++ if needAnchor then [(x.field 80 8 + 2 * lo, 2 * cnt)] else [])
  if ¬ codes.isEmpty then (⟨codes, [], 0⟩, s)
  else
    let cols := (srcs.take n).map (chunks w cnt)
    let anchors := if needAnchor then chunks 2 cnt (srcs.getLastD []) else []
    if ¬ cols.all (recordsOk x.raw) then (⟨[0x02], [], 0⟩, s)
    else
      let outs := (elementUnits (below cnt)).flatMap fun u => u.map fun i =>
        reduceElement x.raw (cols.map fun c => c.getD i []) (anchors.getD i []) (x.rnd (lo + i))
      let (wc, s) := s.writeRanges x.slice [(x.field 72 8 + lo * ow, (outs.map Prod.fst).flatten)]
      (⟨wc, outs.map Prod.snd, cnt * ow⟩, s)

/-- REDUCE (R84, R88): out[i] is the sum, merge or maximum over the sources; every running sub-part computes its share. -/
def execReduce (d : Nat) (s : State) : Result :=
  match s.desc? d with
  | none => go s
  | some x =>
    if x.opcode ≠ 0x03 ∨ ¬ x.ready then go s
    else go (s.actOn d x fun j s =>
      let r := blockShare (x.field 60 4) x.subs.length j
      s.reduceShare x r.1 r.2)

/-! ### Quantize (R90) -/

/-- One block of quantize: scale bytes, element codes, flags. From BF16 to BF16 an infinity stays one, whatever sat (R44). -/
def quantizeOne (src dst : Nat) (codes : List Nat) (rds : List Rnd) : List Byte × List Nat × List Nat :=
  let vs := codes.map fun c => (plainFmt src).decode c
  if dst ≤ 4 then
    let r := quantizeBlock dst vs rds
    ([BitVec.ofNat 8 r.1], r.2.map Prod.fst, r.2.map Prod.snd)
  else
    let r := (vs.zip rds).map fun p => quantizePlain dst p.1 { p.2 with sat := p.2.sat && !(src == 1 && dst == 7) }
    ([], r.map Prod.fst, r.map Prod.snd)

/-- Quantize n blocks of source bytes: packed elements, scales, flags (R46, R37, R43, R45). -/
def quantizeAll (src dst n : Nat) (l : List Byte) (rnd : Nat → Rnd) : List Byte × List Byte × List Nat :=
  let w := if src = 0 then 4 else 2
  let bs := (chunks (32 * w) n l).map (elems w 32)
  let outs := (blockUnits (bs.zip (below n))).flatMap fun u => u.map fun p => quantizeOne src dst p.1 ((below 32).map fun k => rnd (32 * p.2 + k))
  ((outs.map fun o => packElems (targetBits dst) o.2.1).flatten, (outs.map fun o => o.1).flatten,
   (outs.map fun o => o.2.2).flatten)

/-- The share of a quantize: n blocks from block lo. -/
def State.quantizeShare (s : State) (x : Desc) (lo n : Nat) : Share × State :=
  let src := x.field 68 1
  let dst := x.field 69 1
  let w := 32 * (if src = 0 then 4 else 2)
  match s.memRead 0x0E 0 0 x.slice (x.field 40 8 + lo * w) (n * w) with
  | (.fail c, s) => (⟨[c], [], 0⟩, s)
  | (.bytes l, s) =>
    let o := quantizeAll src dst n l fun i => x.rnd (32 * lo + i)
    let ws := (x.field 48 8 + lo * (4 * targetBits dst), o.1) :: (if dst ≤ 4 then [(x.field 56 8 + lo, o.2.1)] else [])
    let (wc, s) := s.writeRanges x.slice ws
    (⟨wc, o.2.2, o.1.length + if dst ≤ 4 then n else 0⟩, s)

/-- QUANTIZE (R84, R90): every running sub-part computes its share of the blocks. -/
def execQuantize (d : Nat) (s : State) : Result :=
  match s.desc? d with
  | none => go s
  | some x =>
    if x.opcode ≠ 0x06 ∨ ¬ x.ready then go s
    else go (s.actOn d x fun j s =>
      let r := shareOf (x.field 64 4) x.subs.length j
      s.quantizeShare x r.1 r.2)

/-! ### Barrier set (R91) -/

/-- A wait on a barrier is pending: a descriptor that still waits, or a core stalled on it; a barrier set ignores its own wait_before and
waits for nothing (R91), and a wait at a broken barrier is over (R100). -/
def State.waitPending (s : State) (sc : BarScope) (n : Nat) (except_ : Nat) : Bool :=
  (s.bench.descs.any fun e => e.1 != except_ && e.2.opcode != 0x11 && e.2.barNo == n &&
    e.2.gens.any fun w =>
      let b := (s.benchFor w.1 w.2.1).getD w.2.1
      e.2.barrierOn w.1 b == some sc && (s.waitOver e.2 w.1 w.2.1 b).isNone) ||
  s.cores.any fun e => e.2.waitsAt sc n

/-- Set a barrier: expected is set, arrived and broken cleared (R91). -/
def barSet (w : Word) (expected : Nat) : Word :=
  setBits (setBits (setBits w barExpected expected) barArrived 0) barBroken 0

/-- A pending release of a barrier is delivered: the waits complete (R98). -/
def State.release (s : State) (sc : BarScope) (n : Nat) : State :=
  let w := s.barrier sc n
  if barReady w then (s.setBarrier sc n (barReleased w)).wakeCores sc n 0 else s

/-- The barriers a barrier set names, on the stacks in service (R85). -/
def State.namedBarriers (s : State) (d : Desc) : List BarScope :=
  let up := (maskList 12 d.stackMask).filter s.stackUp
  match d.scope with
  | 1 => up.flatMap fun st => (maskList 6 d.benchMask).filterMap fun p => (s.benchFor st p).map fun b => .bench st b
  | 2 => up.map .stack
  | 3 => if up.isEmpty then [] else [.device]
  | _ => []

/-- BARRIER_SET (R91): releases that are being delivered come first. A stack out of service has no barrier set, and gives 0x0015 (R85). -/
def execBarrierSet (d : Nat) (s : State) : Result :=
  match s.desc? d with
  | none => go s
  | some x =>
    if x.opcode ≠ 0x11 ∨ ¬ s.turn d x then go s
    else
      let bars := s.namedBarriers x
      let expected := x.field 40 2
      let finish (s : State) (c : Nat) : State :=
        let s := if c = 1 then s.cmdRefused 0x0E 0 x.slice x.barNo 0x11 1 else s
        (s.finishDesc d x 0x02 c 0 (x.opcode * 2 ^ 16)).countDesc x
      if x.scope = 0 ∨ expected = 0 then go (finish s 0x02)
      else if bars.any fun sc => s.barWaits x.slice sc then go s
      else
        let s := bars.foldl (fun s sc => s.release sc x.barNo) s
        if bars.any fun sc => s.waitPending sc x.barNo d then go (finish s 0x01)
        else
          let s := bars.foldl (fun s sc =>
            let s := s.claimBarrier x.slice sc
            s.setBarrier sc x.barNo (barSet (s.barrier sc x.barNo) expected)) s
          go (finish s (if s.partDown x then 0x15 else 0))

/-! ## Kernels (R92 to R97) -/

/-- The first address of the scratch region (R95). -/
def scratchVa : Nat := 0xFF0000000000

/-- Two ranges overlap. -/
def overlaps (a n b m : Nat) : Bool := decide (a < b + m) && decide (b < a + n) && decide (n > 0) && decide (m > 0)

/-- A window set has two overlapping windows, one over the scratch region of a launch with so many scratch pages, or two owners
(R95, R96). -/
def winSetBad (ws : List Win) (pages : Nat) : Bool :=
  let idx := below ws.length
  (idx.any fun i => idx.any fun j => decide (i < j) &&
    overlaps (ws.getD i ⟨0, 0, 0, false, false, false, 0⟩).va (ws.getD i ⟨0, 0, 0, false, false, false, 0⟩).len
      (ws.getD j ⟨0, 0, 0, false, false, false, 0⟩).va (ws.getD j ⟨0, 0, 0, false, false, false, 0⟩).len) ||
  (ws.any fun w => overlaps w.va w.len scratchVa (pages * 65536)) ||
  (match ws with
   | [] => false
   | w :: r => r.any fun v => v.owner != w.owner)

/-- The device ranges of a virtual range: each address lies inside one valid window with a permission, and a range may run on into the
next window (R95). -/
def winSpans (ws : List Win) (perm : Win → Bool) : Nat → Nat → Nat → Option (List (Nat × Nat))
  | _, _, 0 => some []
  | 0, _, _ => none
  | fuel + 1, va, len =>
    match ws.find? fun w => decide (w.va ≤ va) && decide (va < w.va + w.len) && perm w with
    | none => none
    | some w =>
      let n := min len (w.va + w.len - va)
      (winSpans ws perm fuel (va + n) (len - n)).map fun l => (w.pa + (va - w.va), n) :: l

/-- Read ranges in turn, joined; or the first failure. -/
def State.readSpans (s : State) (stack slice : Nat) : List (Nat × Nat) → Got × State
  | [] => (.bytes [], s)
  | (a, n) :: l =>
    match s.memRead 0x0E stack 1 slice a n with
    | (.fail c, s) => (.fail c, s)
    | (.bytes b, s) =>
      match s.readSpans stack slice l with
      | (.bytes r, s) => (.bytes (b ++ r), s)
      | r => r

/-- Read a range through a window set; an address outside its windows is blocked and recorded (R95, R19). -/
def State.winRead (s : State) (stack k slice va len : Nat) (perm : Win → Bool) : Got × State :=
  match winSpans (s.windows stack k) perm 16 va len with
  | none => (.fail 0x08, s.blockedName 0x0E stack slice)
  | some l => s.readSpans stack slice l

/-- The signature check of R97 on a stack: 0, or the code (log entry 33, DEDUCED). -/
def State.kernelSigned (s : State) (x : Desc) (stack : Nat) : Nat × State :=
  if ¬ (s.policyOf x.slice).signed then (0, s)
  else
    match s.winRead stack (x.field 60 2) x.slice (x.field 40 8) (x.field 56 4) (fun w => w.x) with
    | (.fail c, s) => (c, s)
    | (.bytes code, s) =>
      let digest := sha384 code
      if s.bench.digests.contains (x.slice, digest) then (0, s)
      else if x.field 72 8 = 0 then (0x21, s)
      else
        match s.winRead stack (x.field 60 2) x.slice (x.field 72 8) 104 (fun w => w.r) with
        | (.fail c, s) => (c, s)
        | (.bytes sig, s) =>
          let key := match s.image with
            | some i => ((i.keys.find? fun (k : Nat × List Byte) => k.1 == (sig.getD 96 0).toNat).map Prod.snd)
            | none => none
          match key.bind ptOfBytes with
          | some q =>
            if ecdsaVerify q digest (sig.take 96) then
              (0, { s with bench := { s.bench with digests := ((x.slice, digest) :: s.bench.digests).take 256 } })
            else (0x21, s)
          | none => (0x21, s)

/-- The signature checks of every masked stack; the first code that refuses. -/
def State.kernelSignedAll (s : State) (x : Desc) : List Nat → Nat × State
  | [] => (0, s)
  | st :: sts =>
    match s.kernelSigned x st with
    | (0, s) => s.kernelSignedAll x sts
    | r => r

/-- The time limit of a launch in microseconds; none when it asks for more than the slice's limit (R92, R500). -/
def State.launchLimit (s : State) (x : Desc) : Option Nat :=
  let lim := (s.policyOf x.slice).limitUs
  let t := x.field 64 4
  if t = 0 then some lim else if t > lim then none else some t

/-- KERNEL_LAUNCH (R92, R96, R97): the launch is checked; then its instances wait for benches. -/
def execKernelLaunch (d : Nat) (s : State) : Result :=
  match s.desc? d with
  | none => go s
  | some x =>
    if x.opcode ≠ 0x10 ∨ (Tab.find? s.bench.launches d).isSome ∨ ¬ s.turn d x then go s
    else
      let stackIds := maskList 12 x.stackMask
      let k := x.field 60 2
      let refuse (s : State) (c : Nat) : State := s.finishDesc d x 0x03 c 0 0
      if (s.launchLimit x).isNone ∨ stackIds.any fun st => winSetBad (s.windows st k) (x.field 68 1) then go (refuse s 0x02)
      else if (s.policyOf x.slice).signed ∧ stackIds.any fun st => (s.windows st k).any fun w => w.w && w.x then
        go (refuse s 0x08)
      else
        match s.kernelSignedAll x stackIds with
        | (0, s) =>
          let l : Launch := ⟨List.replicate (x.field 62 2) .waiting, []⟩
          go { s with bench := { s.bench with launches := Tab.insert s.bench.launches d l } }
        | (c, s) => go (refuse s c)

/-- The free pages of a bench below 60 (R76) (log entry 35, DESIGN CHOICE). -/
def State.freePageList (s : State) (core : Nat) : List Nat :=
  (below 60).filter fun p => (Tab.find? s.bench.pages (core * 64 + p)).isNone

/-- Instances of a launch end with a code: those in a list, or all that have not ended; the launch completes with its last one. -/
def State.endWaiting (s : State) (d : Nat) (x : Desc) (l : Launch) (which : Nat → Bool) (code : Nat) : State :=
  let l := { l with insts := (l.insts.zip (below l.insts.length)).map fun e =>
    if e.1 == .waiting && which e.2 then .ended code 0 else e.1 }
  let s := { s with bench := { s.bench with launches := Tab.insert s.bench.launches d l } }
  if l.insts.all fun i => i.outcome.isSome then s.closeLaunch d x l else s

/-- The core of a starting instance (R93) (log entry 223, DEDUCED). -/
def kernelCore (x : Desc) (d idx stack pos : Nat) (pages : List Nat) : Core :=
  { Core.clear with
    role := .kernel d idx
    g := [(1, BitVec.ofNat 64 (x.field 48 8)), (2, BitVec.ofNat 64 idx), (3, BitVec.ofNat 64 (x.field 62 2)),
          (4, BitVec.ofNat 64 scratchVa)].filter fun e => e.2 != 0
    pc := BitVec.ofNat 64 (x.field 40 8)
    entry := BitVec.ofNat 64 (x.field 40 8)
    position := BitVec.ofNat 64 (stack * 2 ^ 16 + pos * 2 ^ 8)
    winSet := x.field 60 2
    pages := pages
    slice := x.slice }

/-- INSTANCE_START (R80, R81, R93): on a free bench with enough free pages, in the launch's turn; it counts as a kernel of its stack
(log entry 170, DEDUCED). A stack out of service ends it with 0x0015 (R85). -/
def execInstanceStart (d idx stack pos : Nat) (s : State) : Result :=
  match s.desc? d, Tab.find? s.bench.launches d with
  | some x, some l =>
    if l.insts[idx]? ≠ some .waiting ∨ ¬ natBit x.stackMask stack ∨ ¬ natBit x.benchMask pos ∨ ¬ s.turn d x then go s
    else if ¬ s.stackUp stack then
      go (s.endWaiting d x { l with on := Tab.insert l.on idx stack } (fun i => i == idx) 0x15)
    else
      match s.benchFor stack pos with
      | none => go s
      | some b =>
        match s.waitOver x stack pos b with
        | none => go s
        | some c =>
          if c ≠ 0 then go ((s.waitEnded stack x c).endWaiting d x l (fun _ => true) c)
          else
            let core := benchKey stack b
            let n := x.field 68 1
            let pages := s.freePageList core
            if ¬ s.benchOpen stack b x.slice ∨ pages.length < n then go s
            else
              let mine := pages.take n
              let s := (s.count 0x0E 1 stack 1).takeBench stack b x.slice
              let s := s.setF (R.benchStatus stack b) F.benchStatus_free_pages
                (s.getF (R.benchStatus stack b) F.benchStatus_free_pages - n)
              let s := { s with
                cores := Tab.put Core.clear s.cores core (kernelCore x d idx stack pos mine),
                bench := { s.bench with
                  pages := mine.foldl (fun t p => Tab.insert t (core * 64 + p) 1) s.bench.pages,
                  launches := Tab.insert s.bench.launches d ⟨l.insts.set idx (.running core), Tab.insert l.on idx stack⟩ } }
              go (if x.waitBefore ∧ x.scope ≥ 2 then s.releaseEngines stack (s.enginesOf stack [b]) else s)
  | _, _ => go s

/-- KERNEL_TIME_LIMIT (R94, R136): the instance ends with 0x0012 before its next bundle (log entry 14, DESIGN CHOICE). -/
def execKernelTimeLimit (core : Nat) (s : State) : Result :=
  let c := Tab.get Core.clear s.cores core
  go (s.endInstance core 0x12 (exitValue 0x10 c) c.flags.toNat)

/-- SCRATCH_PAGE_ZEROED (R76): a page being zeroed is free again; BENCH_STATUS of a stack behind a fenced link stays as last reported
(R503). -/
def execScratchPageZeroed (stack b page : Nat) (s : State) : Result :=
  let k := benchKey stack b
  if Tab.find? s.bench.pages (k * 64 + page) ≠ some 2 then go s
  else
    let base := k * 2 ^ 22 + page * 65536
    let s := { s with bench := { s.bench with
      pages := Tab.erase s.bench.pages (k * 64 + page),
      leftBy := Tab.erase s.bench.leftBy (k * 64 + page),
      scratch := Tab.keep s.bench.scratch fun a _ => decide (a < base) || decide (base + 65536 ≤ a)
      badScratch := Tab.keep s.bench.badScratch fun w _ => decide (w * 8 < base) || decide (base + 65536 ≤ w * 8) } }
    if s.linkFenced stack then go s
    else go (s.setF (R.benchStatus stack b) F.benchStatus_free_pages (s.freePageList k).length)

/-! ## Barriers (R98, R100) -/

/-- BARRIER_RELEASE (R98): a pending release is delivered; a stack's waits while its control core restarts (R110),
the device's while the scheduler does (R437). -/
def execBarrierRelease (scope : BarScope) (n : Nat) (s : State) : Result :=
  if s.barHeld scope then go s else go (s.release scope n)

/-- BARRIER_OWNER_WRITE (R100): ignored and recorded while arrived is nonzero, or while the die's link is fenced (R503). -/
def execBarrierOwnerWrite (scope : BarScope) (n : Nat) (value : Word) (s : State) : Result :=
  if ¬ s.serving then go s else
  match scope with
  | .bench _ _ => go s
  | sc =>
    let st := match sc with
      | .stack st => st
      | _ => 0
    let addr := match sc with
      | .stack st => R.stackBarrier st n
      | _ => R.deviceBarrier n
    if ¬ s.serving then go s
    else
      let w := s.barrier sc n
      if getBits w barArrived ≠ 0 ∨ (sc ≠ .device ∧ s.linkFenced st) then go (s.writeIgnored 0x0E st addr value)
      else go (s.setBarrier sc n (setBits w barOwner (getBits value barOwner)))

/-! ## The ramp governor (R102, R103) -/

/-- ENGINE_IDLE (R102). -/
def execEngineIdle (stack k : Nat) (s : State) : Result :=
  if s.linkFenced stack then go s else
  go (({ s with bench := { s.bench with rates := Tab.put EngRate.rest s.bench.rates (stack * 48 + k) EngRate.rest } }).rampRefresh stack)

/-- RAMP_STEP (R103): every ramping engine doubles its rate, up to its target. -/
def execRampStep (stack : Nat) (s : State) : Result :=
  let rates := (engKeys stack).foldl (fun t k =>
    Tab.update EngRate.rest t k fun r =>
      if r.ramping then
        let target := s.engTarget stack k
        let n := min (2 * r.rate) target
        { r with rate := n, ramping := decide (n < target) }
      else r) s.bench.rates
  go (({ s with bench := { s.bench with rates := rates } }).rampRefresh stack)

/-! ## Faults (R105 to R107) -/

/-- The work and the instance on a bench meet a fault of the bench, or of an engine or lane of it (R105, R107): a kernel instance is
restarted or ended in each of these cases (log entry 194, DEDUCED). -/
def State.faultBenchWork (s : State) (stack b : Nat) : State :=
  ((s.faultWork stack b).faultInstance (benchKey stack b)).serveFault stack

/-- A spare is powering up (R105). -/
def State.enter (s : State) (key : Nat) : State :=
  { s with bench := { s.bench with entering := Tab.insert s.bench.entering key () } }

/-- An engine is fenced, its spare substituted where free, its work re-run or failed (R105). -/
def State.engineFaulted (s : State) (stack b e : Nat) : State :=
  if s.unitFenced (engineLevel stack b) e then s
  else
    match s.fenceUnit (engineLevel stack b) e with
    | (.substituted _ sp, s) =>
      (((s.count 0x0E 2 stack 1).count 0x0E 3 stack 1).faultBenchWork stack b).enter (benchKey stack b * 9 + sp)
    | (.out _, s) => (s.count 0x0E 2 stack 1).faultBenchWork stack b
    | (.idleUnit, s) => s.count 0x0E 2 stack 1

/-- ENGINE_FAULT (R105); a unit of a lost stack is not entered in its maps (R503). -/
def execEngineFault (stack b e : Nat) (s : State) : Result :=
  if s.linkFenced stack then go s else go (s.engineFaulted stack b e)

/-- LANE_FAULT (R105): the spare lane is substituted and the engine stays; with no spare lane the engine is fenced. -/
def execLaneFault (stack b e lane : Nat) (s : State) : Result :=
  if s.linkFenced stack ∨ s.unitFenced (laneLevel stack b e) lane then go s
  else
    match s.fenceUnit (laneLevel stack b e) lane with
    | (.substituted _ _, s) =>
      go (((s.count 0x0E 2 stack 1).faultBenchWork stack b).enter (benchKey stack b * 9 + e))
    | (.out _, s) => go (s.engineFaulted stack b e)
    | (.idleUnit, s) => go s

/-- The stack has a bench in service. -/
def State.anyBench (s : State) (stack : Nat) : Bool := (below 6).any fun p => s.posInService (benchLevel stack) p

/-- A bench is fenced and the spare bench substituted where free; its work is re-run or failed; a stack without a bench in
service is out of service for compute (R105, R106). An in-service test that the spare stands in for is abandoned (R466). -/
def State.benchFaulted (s : State) (stack b : Nat) : State :=
  if s.unitFenced (benchLevel stack) b then s
  else
    let s := if s.isstBench stack = some b then s else s.isstAbandon stack
    match (s.faultBenchWork stack b).fenceUnit (benchLevel stack) b with
    | (o, s) =>
      let s := (s.count 0x0E 2 stack 1).refreshPositions stack
      match o with
      | .substituted _ sp => (s.count 0x0E 3 stack 1).enter (2 ^ 20 + benchKey stack sp)
      | _ => if s.anyBench stack then s else s.loseBenches stack

/-- BENCH_FAULT (R105). -/
def execBenchFault (stack b : Nat) (s : State) : Result :=
  if s.linkFenced stack then go s else go (s.benchFaulted stack b)

/-- SPARE_IN_SERVICE (R105): an engine is cleared and ramps, a bench's scratch is zero; they take work again. -/
def execSpareInService (level : SpareLevel) (s : State) : Result :=
  match level with
  | .engine st b e =>
    let k := benchKey st b * 9 + e
    if (Tab.find? s.bench.entering k).isNone then go s
    else
      let s := { s with bench := { s.bench with
        entering := Tab.erase s.bench.entering k,
        engines := Tab.put Engine.clear s.bench.engines k Engine.clear } }
      match s.posOfUnit (engineLevel st b) e with
      | none => go s
      | some p =>
        let q := s.benchPos st b * 8 + p
        let target := s.targetRate st (s.getF (R.benchStatus st b) F.benchStatus_running_slice)
        let r : EngRate := ⟨min 8 target, false, decide (min 8 target < target)⟩
        let s := { s with bench := { s.bench with rates := Tab.put EngRate.rest s.bench.rates (st * 48 + q) r } }
        go ((s.count 0x0E 4 st 1).rampRefresh st)
  | .lane st b e =>
    go { s with bench := { s.bench with entering := Tab.erase s.bench.entering (benchKey st b * 9 + e) } }
  | .bench st b =>
    let k := benchKey st b
    if (Tab.find? s.bench.entering (2 ^ 20 + k)).isNone then go s
    else go { s with bench := { s.bench with
      entering := Tab.erase s.bench.entering (2 ^ 20 + k),
      scratch := Tab.keep s.bench.scratch fun a _ => a / 2 ^ 22 != k
      badScratch := Tab.keep s.bench.badScratch fun w _ => w / 2 ^ 19 != k } }

end Sys2Proof.Machine
end

