-- ==== Sys2Proof/Machine/KeyOps.lean ====
section
/-! DEFINITION. Key slots and block units as every block operation uses them (R384 to R391). -/

namespace Sys2Proof.Machine

/-- A key slot. -/
def State.slot (s : State) (k : Nat) : KeySlot := Tab.get KeySlot.empty s.cipher.slots k

/-- Set a key slot. -/
def State.setSlot (s : State) (k : Nat) (v : KeySlot) : State :=
  { s with cipher := { s.cipher with slots := Tab.put KeySlot.empty s.cipher.slots k v } }

/-- The device address of a slot's entry in the key table (R388). -/
def State.slotAddr (s : State) (k : Nat) : Nat := s.getF R.keyTable F.keyTable_base * 4096 + 128 * k

/-- What the unwrap of a slot's entry comes to: 0x0010 where the entry is uncorrectable, 0x0020 where it is not what the
device wrote (R388). -/
def State.unwrapCode (s : State) (k : Nat) : Nat :=
  if s.uncorrectable (s.slotAddr k) 128 then 0x10
  else if s.bytesAt (s.slotAddr k) 128 = (s.slot k).wrapped then 0 else 0x20

/-- The checks of R389 on a block operation: 0, or the code of the first that refuses. slice: the slice acted for, none for the
security core; packet: a packet program (log entry 114, DESIGN CHOICE). -/
def State.slotRefusal (s : State) (k : Nat) (slice : Option Nat) (packet enc : Bool) : Nat :=
  let v := s.slot k
  if v.state = 0 then 0x01
  else if slice.isSome ∧ slice ≠ some v.owner then 0x08
  else if ¬ (v.kind = 1 ∨ v.kind = 2) ∨ (if enc then ¬ v.enc else ¬ v.dec) then 0x08
  else if v.nonceHw ∧ packet then 0x08
  else 0

/-- The unwrapped schedule of a slot in a pipeline's cache: what its unwrap came to; none on a miss (R388). -/
def State.cachedKey (s : State) (pipe k : Nat) : Option Nat :=
  ((Tab.get [] s.cipher.cache pipe).find? fun e => e.1 == k).map Prod.snd

/-- A miss of a pipeline's key cache: the unwrap is asked for and counted once (R388). -/
def State.wantKey (s : State) (pipe k : Nat) : State :=
  if (Tab.find? s.cipher.wanted (pipe * 2 ^ 16 + k)).isSome then s
  else ({ s with cipher := { s.cipher with wanted := Tab.insert s.cipher.wanted (pipe * 2 ^ 16 + k) () } }).count 0x0B 2 pipe 1

/-- Take a slot out of every key cache. -/
def State.uncacheKey (s : State) (k : Nat) : State :=
  { s with cipher := { s.cipher with cache := Tab.mapVals s.cipher.cache fun _ l => l.filter fun e => e.1 != k } }

/-- A block unit takes part in a mismatch; the third within 1 s fences it (R385). -/
def State.unitHit (s : State) (unit : Nat) : State :=
  let ts := (s.now :: Tab.get [] s.cipher.hits unit).filter fun t => decide (s.since t < 1600000000)
  let s := { s with cipher := { s.cipher with hits := Tab.insert s.cipher.hits unit ts } }
  if ts.length ≥ 3 ∧ ¬ s.cipher.fenced.contains unit then
    let s := { s with cipher := { s.cipher with fenced := unit :: s.cipher.fenced } }
    let s := s.setF R.cipherCfg F.cipherCfg_fenced_units (min 255 (s.getF R.cipherCfg F.cipherCfg_fenced_units + 1))
    s.record { source := 0x0B, inst := min 4 (unit / 16), code := 0x0020, severity := 3, detail := dAt 24 (unit % 256) }
  else s

/-- The mismatches of one operation's checks: each is counted and its units are hit; a second one fails the operation with
0x0020 (R385). -/
def State.blockMismatch (s : State) (pipe : Nat) (mism : List (List Nat)) : Nat × State :=
  let l := mism.take 2
  let s := (l.flatten).foldl (fun s u => s.unitHit u) s
  let s := s.count 0x0B 1 pipe l.length
  (if l.length = 2 then 0x20 else 0, s)

/-- The random source and the block units serve (R387). -/
def State.rngOk (s : State) : Bool := s.getF R.rngStatus F.rngStatus_failed == 0

end Sys2Proof.Machine
end

