-- ==== Sys2Proof/Machine/Syllable.lean ====
section
/-! DEFINITION. Syllables and bundles of the Zenza instruction set: fields, units, legality, and the integer operations
(R111 to R128). -/

namespace Sys2Proof.Machine

/-! ## Cores (R111) -/

/-- The first packet action core; core 107 + 16p + k is action core k of pipeline p. -/
def firstAction : Nat := 107

/-- A core of the accumulator profile. -/
def isAction (core : Nat) : Bool := decide (firstAction ≤ core)

/-- A bench controller: core 7 × stack + bench. -/
def isBenchCore (core : Nat) : Bool := decide (core < 84)

/-- The core has a coprocessor (the table under R111). -/
def hasCop (core cop : Nat) : Bool :=
  if isBenchCore core then [0, 1, 2, 3, 6, 7].contains cop
  else if isAction core then [4, 5, 6, 7].contains cop
  else if core = 96 then [3, 4, 5, 6, 7].contains cop
  else [3, 6, 7].contains cop

/-! ## Syllables (R112) -/

/-- stop. -/
def syStop (w : Nat) : Bool := natBit w 31
/-- The major opcode. -/
def syMajor (w : Nat) : Nat := natBits w 30 25
/-- The predicate selector, or an extension's target unit. -/
def syPred (w : Nat) : Nat := natBits w 24 22
/-- The coprocessor a syllable of majors 0x30–0x3F names. -/
def syCop (w : Nat) : Nat := natBits w 28 25
/-- func of the CO format. -/
def coFunc (w : Nat) : Nat := natBits w 21 16
/-- rc of the CO format. -/
def coRc (w : Nat) : Nat := natBits w 15 11
/-- ra of the CO format. -/
def coRa (w : Nat) : Nat := natBits w 10 6
/-- rb of the CO format. -/
def coRb (w : Nat) : Nat := natBits w 5 1
/-- func of the SY and SM formats. -/
def syFunc (w : Nat) : Nat := natBits w 21 18

/-- The units of a bundle in their order, and the extensions (R113). -/
inductive Unit_ where
  | a0
  | a1
  | m
  | b
  | c
  deriving DecidableEq, Repr

/-- A syllable in its unit, with the payloads of its extensions in order. -/
structure Placed where
  unit : Unit_
  word : Nat
  ext : List Nat
  deriving DecidableEq, Repr

/-- The kind of a major. -/
inductive MajorKind where
  | integer
  | memory
  | branch
  | extension
  | reserved
  | memform
  | coprocessor
  deriving DecidableEq, Repr

/-- The use of a major (the table under R113). -/
def majorKind (m : Nat) : MajorKind :=
  if m < 0x10 then .integer
  else if m < 0x18 ∨ m = 0x1E then .memory
  else if m < 0x1C ∨ m = 0x1D then .branch
  else if m = 0x1C then .extension
  else if m = 0x1F then .reserved
  else if m < 0x30 then .memform
  else .coprocessor

/-- The place of a unit in the order of R113. -/
def Unit_.rank : Unit_ → Nat
  | .a0 => 0
  | .a1 => 1
  | .m => 2
  | .b => 3
  | .c => 4

/-- The unit a syllable takes after ints integer syllables and, where form, a memory-operand form; none where its units are taken
(R113, R114, 2 and 3). -/
def unitOf (ints : Nat) (form : Bool) (w : Nat) : Option Unit_ :=
  match majorKind (syMajor w) with
  | .integer => if form then none else if ints = 0 then some .a0 else if ints = 1 then some .a1 else none
  | .memform => if ints = 0 ∧ ¬ form then some .a0 else none
  | .memory => if form then none else some .m
  | .branch => some .b
  | .coprocessor => some .c
  | _ => none

/-- The width of a syllable's extendable field, or none (R118). -/
def extWidth (w : Nat) : Option Nat :=
  let m := syMajor w
  if (1 ≤ m ∧ m ≤ 4) ∨ (0x10 ≤ m ∧ m ≤ 0x17) then some 12
  else if m = 0x09 then some 8
  else if m = 0x06 ∨ m = 0x1B then some 17
  else if m = 0x18 ∨ m = 0x19 then some 22
  else if 0x20 ≤ m ∧ m ≤ 0x2F then some 17
  else none

/-- The unit an extension's target code names (R118); a memory-operand form is both A0 and M. -/
def targetHit (code : Nat) (p : Placed) : Bool :=
  match code, p.unit with
  | 0, .a0 => true
  | 1, .a1 => true
  | 2, .m => true
  | 2, .a0 => majorKind (syMajor p.word) == .memform
  | 3, .b => true
  | _, _ => false

/-- Attach an extension to its target; none where R114, 5 makes the bundle illegal. -/
def attachExt (ps : List Placed) (w : Nat) : Option (List Placed) :=
  match ps.find? fun p => targetHit (syPred w) p with
  | none => none
  | some p =>
    if (extWidth p.word).isNone then none
    else some (ps.map fun q => if q.unit = p.unit then { q with ext := q.ext ++ [natBits w 21 0] } else q)

/-- The value of an extendable field of a width with its extensions, before its sign is extended: bits and width (R118). -/
def extValue (width field : Nat) (ext : List Nat) : Nat × Nat :=
  match ext with
  | [] => (field, width)
  | [p] => (field + p * 2 ^ width, width + 22)
  | p :: q :: _ => (field + p * 2 ^ width + q * 2 ^ (width + 22), width + 44)

/-- A signed immediate with its extensions, as a 64-bit word (R118). -/
def immSigned (width field : Nat) (ext : List Nat) : Word :=
  let v := extValue width field ext
  BitVec.ofInt 64 (signed (min 64 v.2) v.1)

/-- The immediate of a syllable. -/
def Placed.imm (p : Placed) (width : Nat) : Word := immSigned width (natBits p.word (width - 1) 0) p.ext

/-! ## What a syllable writes (R114, 6) -/

/-- The general registers a syllable writes. -/
def regDests (core w : Nat) : List Nat :=
  let m := syMajor w
  let rd := natBits w 21 17
  if m ≤ 0x07 ∨ m = 0x0A ∨ m = 0x0C ∨ (0x10 ≤ m ∧ m ≤ 0x13) ∨ m = 0x1B then [rd]
  else if m = 0x19 ∨ (m = 0x1A ∧ natBits w 21 19 = 1) then [31]
  else if m = 0x1D then
    (if syFunc w = 0 ∨ syFunc w = 2 ∨ syFunc w = 7 then [natBits w 17 13] else [])
  else if m = 0x1E then (if syFunc w = 0 then [] else [natBits w 17 13])
  else if 0x20 ≤ m ∧ m ≤ 0x2F then
    (if m = 0x21 ∨ m = 0x27 then [] else if m = 0x28 then [2] else if m = 0x29 then [3] else [1])
  else if m ≥ 0x30 ∧ hasCop core (syCop w) then
    let f := coFunc w
    if f = 0x3F then [coRc w]
    else match syCop w with
      | 1 => if f ≤ 4 then [coRc w] else []
      | 2 => if f = 0 then [coRc w] else if f = 5 then [coRa w] else []
      | 4 => [coRc w, coRc w + 1]
      | 5 => [coRc w, coRc w + 1]
      | 7 => if f = 0 then [coRc w] else [coRc w, coRc w + 1]
      | _ => []
  else []

/-- The predicates a syllable writes. -/
def predDests (w : Nat) : List Nat :=
  let m := syMajor w
  if m = 0x08 ∨ m = 0x09 then
    natBits w 21 19 :: (if natBits w 18 16 = 0 then [] else [natBits w 18 16])
  else if m = 0x0B then [natBits w 21 19]
  else if m = 0x27 then [1, 2]
  else []

/-- Two entries other than 0 of a list agree. -/
def hasDup : List Nat → Bool
  | [] => false
  | x :: l => (x != 0 && l.contains x) || hasDup l

/-! ## Legality of one syllable (R114, 7 to 10) -/

/-- The CSR numbers of R134. -/
def csrDefined (n : Nat) : Bool :=
  [0x000, 0x001, 0x002, 0x008, 0x009, 0x00A, 0x00B, 0x00C, 0x010].contains n || (decide (0x100 ≤ n) && decide (n ≤ 0x107))

/-- The general-register fields of a syllable; those of a coprocessor its core lacks are not looked at (R111). -/
def regFields (core w : Nat) : List Nat :=
  let m := syMajor w
  if m = 0x00 ∨ m = 0x0C ∨ m = 0x0A then [natBits w 21 17, natBits w 16 12, natBits w 11 7]
  else if m ≤ 0x05 ∨ (0x10 ≤ m ∧ m ≤ 0x17) then [natBits w 21 17, natBits w 16 12]
  else if m = 0x06 ∨ m = 0x07 ∨ m = 0x1B then [natBits w 21 17]
  else if m = 0x08 then [natBits w 15 11, natBits w 10 6]
  else if m = 0x09 then [natBits w 15 11]
  else if m = 0x0B then [natBits w 9 5]
  else if m = 0x1A then [natBits w 18 14]
  else if m = 0x1D then [natBits w 17 13]
  else if m = 0x1E ∧ syFunc w ≠ 0 then [natBits w 17 13, natBits w 12 8, natBits w 7 3]
  else if m ≥ 0x30 ∧ hasCop core (syCop w) then [coRc w, coRa w, coRb w]
  else []

/-- func and the fields of a coprocessor syllable are as the coprocessor has them (R130 to R133); rc = 0 is illegal where rc names a
pair, so a DRAW may have it (log entry 165, DEDUCED). -/
def copFieldsOk (core w : Nat) : Bool :=
  let f := coFunc w
  let evenRc := coRc w % 2 == 0 && coRc w != 0
  f == 0x3F || (match syCop w with
    | 0 => decide (f ≤ 6)
    | 1 => decide (f ≤ 4) || f == 0x08 || f == 0x10 || f == 0x11
    | 2 => f == 0 || (decide (f ≤ 5) && decide (coRc w ≤ 15))
    | 3 => if isBenchCore core then decide (f ≤ 1) else f == 1
    | 4 => decide (f ≤ 1) && evenRc && coRa w % 2 == 0
    | 5 => f == 0 && evenRc && coRa w % 2 == 0 && coRb w % 2 == 0
    | 6 => decide (f ≤ 2)
    | 7 => f == 0 || (f == 1 && evenRc)
    | _ => false)

/-- A syllable keeps the rules of R114, 7 to 10, on its core; a CKSA of another size than 2 is as a reserved value (R128)
(log entry 200, DEDUCED) (log entry 218, DEDUCED). -/
def syllableOk (core w : Nat) : Bool :=
  let m := syMajor w
  let z (hi lo : Nat) : Bool := natBits w hi lo == 0
  let own : Bool :=
    if m = 0x00 then decide (natBits w 6 0 ≤ 0x1A)
    else if m ≤ 0x04 then true
    else if m = 0x05 then z 9 6
    else if m ≤ 0x07 then true
    else if m = 0x08 then z 2 0
    else if m = 0x09 then true
    else if m = 0x0A then z 3 0
    else if m = 0x0B then z 4 0 && decide (natBits w 12 10 ≤ 4)
    else if m = 0x0C then decide (natBits w 6 0 ≤ 3)
    else if m < 0x10 then false
    else if m < 0x1A then true
    else if m = 0x1A then decide (natBits w 21 19 ≤ 1) && z 13 0
    else if m = 0x1B ∨ m = 0x1C then true
    else if m = 0x1D then
      decide (syFunc w ≤ 7) && z 12 12 &&
      (if syFunc w ≤ 2 then csrDefined (natBits w 11 0)
       else if syFunc w = 7 then !z 11 10 && !z 9 8 && z 7 4 else true)
    else if m = 0x1E then
      decide (syFunc w ≤ 6) && (if syFunc w = 0 then z 17 7 else z 0 0)
    else if m = 0x1F then false
    else if m < 0x30 then
      decide (m ≤ 0x2A) && !(m == 0x21 && natBits w 19 17 == 6) && !(m == 0x2A && natBits w 21 20 != 1)
    else z 0 0 && (!hasCop core (syCop w) || copFieldsOk core w)
  let profile : Bool :=
    if isAction core then
      (regFields core w).all (fun r => decide (r ≤ 3)) && m != 0x19 && !(m == 0x1A && natBits w 21 19 == 1) &&
      !(m == 0x1D && syFunc w == 7) && !(m == 0x1E && syFunc w != 0)
    else !(decide (0x20 ≤ m) && decide (m ≤ 0x2F))
  own && profile && !hasDup (regDests core w) && !hasDup (predDests w)

/-! ## Bundles -/

/-- Read the syllables of a bundle in order: the first that fails on its own, has no free unit left in order, writes what an earlier
one writes, or is an extension too many or without a target, is the first failing one (R114, 2 to 10). next: the lowest rank still
free; ints, form: as in unitOf; exts: extensions so far; gs, qs: registers and predicates written so far
(log entry 166, DEDUCED). -/
def readSyllables (core : Nat) (next ints : Nat) (form : Bool) (exts : Nat) (gs qs : List Nat) (ps : List Placed) :
    List Nat → Except Nat (List Placed)
  | [] => .ok ps
  | w :: ws =>
    if ¬ syllableOk core w then .error w
    else if syMajor w = 0x1C then
      match if exts < 2 then attachExt ps w else none with
      | none => .error w
      | some ps => readSyllables core next ints form (exts + 1) gs qs ps ws
    else
      match if exts = 0 then unitOf ints form w else none with
      | none => .error w
      | some u =>
        let gs := regDests core w ++ gs
        let qs := predDests w ++ qs
        if u.rank < next ∨ hasDup gs ∨ hasDup qs then .error w
        else
          readSyllables core (u.rank + 1) (if majorKind (syMajor w) = .integer then ints + 1 else ints)
            (form || majorKind (syMajor w) == .memform) 0 gs qs (ps ++ [⟨u, w, []⟩]) ws

/-- The units of a legal bundle, or the first failing syllable (the first of all where none has the stop bit); ws: its syllables in
order, with the stop bit in the last unless seven hold none (R113 to R115). -/
def decodeBundle (core : Nat) (ws : List Nat) : Except Nat (List Placed) :=
  if ¬ syStop (ws.getLastD 0) then .error (ws.headD 0) else readSyllables core 0 0 false 0 [] [] [] ws

/-! ## Integer operations (R120, R121) -/

/-- The number of leading zeros of a 64-bit word. -/
def clz64 (a : Word) : Nat := if a = 0 then 64 else 63 - a.toNat.log2

/-- The number of trailing zeros of a 64-bit word. -/
def ctz64 (a : Word) : Nat := ((below 64).find? fun i => natBit a.toNat i).getD 64

/-- The low n bytes of a word reversed, zero-extended. -/
def bswap (n : Nat) (a : Word) : Word := BitVec.ofNat 64 (beNat (bytesLE n a.toNat))

/-- The low n bits of a word sign-extended. -/
def sext (n : Nat) (a : Word) : Word := BitVec.ofInt 64 (signed n a.toNat)

/-- Rotate left by n modulo 64. -/
def rol64 (a : Word) (n : Nat) : Word := (a <<< (n % 64)) ||| (a >>> ((64 - n % 64) % 64))

/-- A shift: 0 SHL, 1 SHR, 2 SAR, 3 ROL; the amount modulo 64. -/
def shift64 (f : Nat) (a : Word) (n : Nat) : Word :=
  match f with
  | 0 => a <<< (n % 64)
  | 1 => a >>> (n % 64)
  | 2 => a.sshiftRight (n % 64)
  | _ => rol64 a n

/-- The integer operations of major 0x00 by func. -/
def intOp (f : Nat) (a b : Word) : Word :=
  match f with
  | 0x00 => a + b
  | 0x01 => a - b
  | 0x02 => a &&& b
  | 0x03 => a ||| b
  | 0x04 => a ^^^ b
  | 0x05 => a &&& ~~~ b
  | 0x06 => shift64 0 a b.toNat
  | 0x07 => shift64 1 a b.toNat
  | 0x08 => shift64 2 a b.toNat
  | 0x09 => shift64 3 a b.toNat
  | 0x0A => if a.slt b then a else b
  | 0x0B => if a.slt b then b else a
  | 0x0C => if a.ult b then a else b
  | 0x0D => if a.ult b then b else a
  | 0x0E => a * b
  | 0x0F => BitVec.ofInt 64 (a.toInt * b.toInt / 2 ^ 64)
  | 0x10 => BitVec.ofNat 64 (a.toNat * b.toNat / 2 ^ 64)
  | 0x11 => BitVec.ofNat 64 (clz64 a)
  | 0x12 => BitVec.ofNat 64 (ctz64 a)
  | 0x13 => BitVec.ofNat 64 (popCount 64 a.toNat)
  | 0x14 => sext 8 a
  | 0x15 => sext 16 a
  | 0x16 => sext 32 a
  | 0x17 => BitVec.ofNat 64 (a.toNat % 2 ^ 32)
  | 0x18 => bswap 8 a
  | 0x19 => bswap 4 a
  | _ => bswap 2 a

/-- The quotient and remainder of R120. -/
def divRem (isSigned : Bool) (a b : Word) : Word × Word :=
  if b = 0 then (BitVec.allOnes 64, a)
  else if isSigned then
    if a.toInt = -(2 ^ 63 : Int) ∧ b.toInt = -1 then (a, 0)
    else (BitVec.ofInt 64 (a.toInt.tdiv b.toInt), BitVec.ofInt 64 (a.toInt - a.toInt.tdiv b.toInt * b.toInt))
  else (BitVec.ofNat 64 (a.toNat / b.toNat), BitVec.ofNat 64 (a.toNat % b.toNat))

/-- DIV, DIVU, REM, REMU by func. -/
def divOp (f : Nat) (a b : Word) : Word :=
  match f with
  | 0 => (divRem true a b).1
  | 1 => (divRem false a b).1
  | 2 => (divRem true a b).2
  | _ => (divRem false a b).2

/-- The cond codes of R121. -/
def condOf (c : Nat) (a b : Word) : Bool :=
  match c with
  | 0 => a == b
  | 1 => a != b
  | 2 => a.slt b
  | 3 => !a.slt b
  | 4 => a.ult b
  | 5 => !a.ult b
  | 6 => (a &&& b) != 0
  | _ => (a &&& b) == 0

/-- The predicate operations of PR: and, or, xor, andn. -/
def predOp (op : Nat) (x y : Bool) : Bool :=
  match op with
  | 0 => x && y
  | 1 => x || y
  | 2 => x != y
  | _ => x && !y

end Sys2Proof.Machine
end

