-- ==== Sys2Proof/Machine/CoreMem.lean ====
section
/-! DEFINITION. How a Zenza core reaches its memory: the bench translation unit, scratch, action-local memory, the header
window (R95, R122, R126, R127). -/

namespace Sys2Proof.Machine

/-- A core. -/
def State.core (s : State) (k : Nat) : Core := Tab.get Core.clear s.cores k

/-- Set a core. -/
def State.setCore (s : State) (k : Nat) (c : Core) : State := { s with cores := Tab.put Core.clear s.cores k c }

/-- A general register; g0 reads 0 (R117). -/
def Core.reg (c : Core) (r : Nat) : Word := if r = 0 then 0 else Tab.get 0 c.g r

/-- Write a general register; writes to g0 are discarded (R117). -/
def Core.setReg (c : Core) (r : Nat) (v : Word) : Core := if r = 0 then c else { c with g := Tab.put 0 c.g r v }

/-- A predicate; p0 reads 1 (R117). -/
def Core.pred (c : Core) (k : Nat) : Bool := k == 0 || natBit c.p k

/-- Write a predicate; writes to p0 are discarded (R117). -/
def Core.setPred (c : Core) (k : Nat) (v : Bool) : Core :=
  if k = 0 then c
  else { c with p := if v then c.p ||| 2 ^ k else if natBit c.p k then c.p - 2 ^ k else c.p }

/-- The slice a core's program acts for: a kernel's, a packet's (metadata field 2), that of the descriptor a bench's sequencer works on,
slice 0 for firmware. -/
def Core.actsFor (c : Core) : Nat :=
  match c.role with
  | .kernel _ _ => c.slice
  | .action _ => (Tab.get 0 c.fields 2).toNat % 256
  | _ => c.slice

/-- Where a piece of a virtual range lies: in the core's scratch (key of its first byte), or at a device address. -/
inductive Loc where
  | scratch (key len : Nat)
  | phys (pa len : Nat)
  deriving DecidableEq, Repr

/-- The pieces of [va, va + len) on a bench controller with a permission, or none where an address lies outside (R95). -/
def pieces (core : Nat) (c : Core) (ws : List Win) (perm : Win → Bool) : Nat → Nat → Nat → Option (List Loc)
  | 0, _, _ => none
  | fuel + 1, va, len =>
    if len = 0 then some []
    else if scratchVa ≤ va ∧ va < scratchVa + c.pages.length * 65536 then
      let i := (va - scratchVa) / 65536
      let off := (va - scratchVa) % 65536
      let n := min len (65536 - off)
      (pieces core c ws perm fuel (va + n) (len - n)).map
        fun l => .scratch (core * 2 ^ 22 + c.pages.getD i 0 * 65536 + off) n :: l
    else
      match ws.find? fun w => decide (w.va ≤ va) && decide (va < w.va + w.len) && perm w with
      | none => none
      | some w =>
        let n := min len (w.va + w.len - va)
        (pieces core c ws perm fuel (va + n) (len - n)).map fun l => .phys (w.pa + (va - w.va)) n :: l

/-- The descriptor sequencer at P on a bench controller has no window set: its addresses are device physical ones, and its scratch region is
the bench's device pages (R76, R95) (log entry 231, DESIGN CHOICE). -/
def sequencerWin (slice : Nat) : Win := ⟨0, 2 ^ 52, 0, true, true, true, slice⟩

/-- The windows through which a bench controller's addresses pass (R95, R122). -/
def State.coreWins (s : State) (core : Nat) (c : Core) : List Win :=
  match c.role with
  | .kernel _ _ => s.windows (core / 7) c.winSet
  | _ => [sequencerWin c.slice]

/-- The pieces of a range for a bench controller; 96 pieces are more than its windows and pages can make. -/
def State.piecesOf (s : State) (core : Nat) (c : Core) (perm : Win → Bool) (va len : Nat) : Option (List Loc) :=
  if va + len > 2 ^ 64 then none else pieces core c (s.coreWins core c) perm 96 va len

/-- A kernel's access outside its windows and scratch is blocked and recorded (R95, R19). -/
def State.blockedVa (s : State) (core slice va : Nat) : State :=
  (s.record { source := 0x0E, inst := core / 7, code := 0x0004, slice := slice, status := 0x0008,
              detail := dAt 20 (va % 2 ^ 64) + dAt 28 0xFF }).count 0x05 7 slice 1

/-- The uncorrectable scratch words that [k, k + n) touches. -/
def State.scratchBad (s : State) (k n : Nat) : List Nat :=
  (Tab.keys s.bench.badScratch).filter fun w => decide (w * 8 < k + n) && decide (k < w * 8 + 8) && decide (n > 0)

/-- An access to scratch meets an uncorrectable word: logged and recorded (R166); a kernel is source 1. -/
def State.logScratch (s : State) (core slice : Nat) : State :=
  let u := s.unstated
  let s := u.2.setReg R.memErrAddr (setBits 0 F.memErrAddr_addr (getBits u.1 F.memErrAddr_addr))
  let s := s.setReg R.memErrInfo
    (setBits (setBits (setBits 0 F.memErrInfo_valid 1) F.memErrInfo_slice slice) F.memErrInfo_source 1)
  (s.count 0x0D 1 (core / 7) 1).record { source := 0x0E, inst := core / 7, code := 0x0010, slice := slice, severity := 2,
                                         status := 0x0010, detail := dAt 29 1 }

/-- Read pieces in turn. -/
def State.readPieces (s : State) (core slice : Nat) : List Loc → Got × State
  | [] => (.bytes [], s)
  | .scratch k n :: l =>
    if ¬ (s.scratchBad k n).isEmpty then (.fail 0x10, s.logScratch core slice) else
    let here := (below n).map fun i => Tab.get 0 s.bench.scratch (k + i)
    match s.readPieces core slice l with
    | (.bytes r, s) => (.bytes (here ++ r), s)
    | (.fail c, s) => (.fail c, s)
  | .phys pa n :: l =>
    match s.memRead 0x0E (core / 7) 1 slice pa n with
    | (.fail c, s) => (.fail c, s)
    | (.bytes here, s) =>
      match s.readPieces core slice l with
      | (.bytes r, s) => (.bytes (here ++ r), s)
      | (.fail c, s) => (.fail c, s)

/-- Store bytes in scratch from a key on. -/
def putScratch : Tab Byte → Nat → List Byte → Tab Byte
  | t, _, [] => t
  | t, k, b :: l => putScratch (Tab.put 0 t k b) (k + 1) l

/-- Write pieces in turn; the first failure's code. -/
def State.writePieces (s : State) (core slice : Nat) : List Loc → List Byte → Option Nat × State
  | [], _ => (none, s)
  | .scratch k n :: l, bs =>
    if (s.scratchBad k n).any fun w => decide (w * 8 < k) || decide (k + n < w * 8 + 8) then (some 0x10, s.logScratch core slice) else
    let s := { s with bench := { s.bench with
      scratch := putScratch s.bench.scratch k (bs.take n)
      badScratch := Tab.keep s.bench.badScratch fun w _ => decide (w * 8 + 8 ≤ k) || decide (k + n ≤ w * 8) } }
    s.writePieces core slice l (bs.drop n)
  | .phys pa n :: l, bs =>
    match s.memWrite 0x0E (core / 7) 1 slice pa (bs.take n) with
    | (some c, s) => (some c, s)
    | (none, s) => s.writePieces core slice l (bs.drop n)

/-- The owner check of every device address of pieces: some 0x0008 where one is refused (R19). -/
def State.piecesDenied (s : State) (slice : Nat) (l : List Loc) : Option Nat :=
  l.findSome? fun p => match p with
    | .phys pa n => match s.accessCode slice pa n with
      | some (0x08, a) => some a
      | _ => none
    | _ => none

/-- A byte of an action program's action-local memory (R127); past its image it reads 0. -/
def State.almByte (s : State) (c : Core) (a : Nat) : Byte :=
  match Tab.find? s.progs c.prog with
  | some p => p.image.getD a 0
  | none => 0

/-- The key of a byte that a firmware core stores. -/
def storedKey (core va : Nat) : Nat := core * 2 ^ 64 + va % 2 ^ 64

/-- The bytes a firmware core reads: those its memory brings, and of a byte it brings none of the one the core stored (R122, R141)
(log entry 199, DESIGN CHOICE). -/
def State.firmwareBytes (s : State) (core va n : Nat) (l : List Byte) : List Byte :=
  (below n).map fun i => (l[i]?).getD (Tab.get 0 s.stored (storedKey core (va + i)))

/-- Keep the bytes a firmware core stores. -/
def keepStored (core : Nat) : Tab Byte → Nat → List Byte → Tab Byte
  | t, _, [] => t
  | t, a, b :: l => keepStored core (Tab.put 0 t (storedKey core a) b) (a + 1) l

/-- How a core reaches memory: through the bench translation unit, as an action core, or as a firmware core whose memory the spec does not
lay out (R95, R122, R127). -/
inductive Reach where
  | bench
  | action
  | firmware
  deriving DecidableEq, Repr

/-- How a core reaches memory. -/
def Core.reach (core : Nat) (c : Core) : Reach :=
  match c.role with
  | .kernel _ _ => .bench
  | .action _ => .action
  | _ => if isBenchCore core then .bench else .firmware

/-- A read of n bytes at a virtual address as a core makes it: bytes, or a status code (0x0008 permission, 0x0010
uncorrectable, another: bus error). data: what a firmware core's memory brings. -/
def State.coreRead (s : State) (core : Nat) (c : Core) (data : Got) (va n : Nat) : Got × State :=
  match c.reach core with
  | .bench =>
    match s.piecesOf core c (fun w => w.r) va n with
    | none => (.fail 0x08, s.blockedVa core c.slice va)
    | some l => s.readPieces core c.slice l
  | .action =>
    if va + n > 65536 then (.fail 0x08, s) else (.bytes ((below n).map fun i => s.almByte c (va + i)), s)
  | .firmware =>
    match data with
    | .bytes l => (.bytes (s.firmwareBytes core va n l), s)
    | .fail x => (.fail x, s)

/-- A write at a virtual address as a core makes it: none, or a status code. data: a failure that a firmware core's memory answers with. -/
def State.coreWrite (s : State) (core : Nat) (c : Core) (data : Got) (va : Nat) (l : List Byte) : Option Nat × State :=
  match c.reach core with
  | .bench =>
    match s.piecesOf core c (fun w => w.w) va l.length with
    | none => (some 0x08, s.blockedVa core c.slice va)
    | some ps => s.writePieces core c.slice ps l
  | .action => (some 0x08, s)
  | .firmware =>
    match data with
    | .bytes _ => (none, ({ s with stored := keepStored core s.stored va l }).emit (.coreStore core va l))
    | .fail x => (some x, s)

/-- The check of a range at issue: 0x0008 outside the windows and scratch, outside the slice's regions, or past
action-local memory (R95, R19, R130). -/
def State.coreCheck (s : State) (core : Nat) (c : Core) (va n : Nat) (wr : Bool) : Option Nat × State :=
  match c.reach core with
  | .bench =>
    match s.piecesOf core c (if wr then fun w => w.w else fun w => w.r) va n with
    | none => (some 0x08, s.blockedVa core c.slice va)
    | some l =>
      match s.piecesDenied c.slice l with
      | some a => (some 0x08, s.recordBlocked 0x0E (core / 7) c.slice 0x08 a)
      | none => (none, s)
  | .action => (if wr ∨ va + n > 65536 then some 0x08 else none, s)
  | .firmware => (none, s)

/-- The fetch of a syllable: its word, or the cause 0x02 or 0x03 with the status of R138. win: the window of the bundle's
first syllable, which must hold all of it (R135). -/
def State.fetchWord (s : State) (core : Nat) (c : Core) (feed : List (BitVec 32)) (i : Nat) : Except (Nat × Nat) Nat :=
  let a := (c.pc + BitVec.ofNat 64 (4 * i)).toNat
  match c.role with
  | .kernel _ _ =>
    match (s.windows (core / 7) c.winSet).find? fun w =>
        decide (w.va ≤ c.pc.toNat) && decide (c.pc.toNat + 4 ≤ w.va + w.len) && w.x with
    | none => .error (0x02, 0x08)
    | some w =>
      if a < w.va ∨ a + 4 > w.va + w.len then .error (0x02, 0x08)
      else
        match (s.memRead 0x0E (core / 7) 1 c.slice (w.pa + (a - w.va)) 4).1 with
        | .bytes l => .ok (leNat l)
        | .fail 0x08 => .error (0x02, 0x08)
        | .fail 0x10 => .error (0x03, 0x10)
        | .fail _ => .error (0x03, 0x11)
  | .action _ =>
    match Tab.find? s.progs c.prog with
    | some p => if a + 4 > p.code.length then .error (0x02, 0x08) else .ok (fieldLE p.code a 4)
    | none => .error (0x02, 0x08)
  | _ =>
    match feed[i]? with
    | some w => .ok w.toNat
    | none => .error (0x03, 0x11)

/-- The syllables of the bundle at the program counter, up to a stop bit or seven; or the failure of a fetch with the
address (log entry 43, DESIGN CHOICE). -/
def State.fetchFrom (s : State) (core : Nat) (c : Core) (feed : List (BitVec 32)) : Nat → Nat → Except (Nat × Nat × Word) (List Nat)
  | 0, _ => .ok []
  | fuel + 1, i =>
    match s.fetchWord core c feed i with
    | .error e => .error (e.1, e.2, c.pc + BitVec.ofNat 64 (4 * i))
    | .ok w =>
      if syStop w then .ok [w]
      else match s.fetchFrom core c feed fuel (i + 1) with
        | .ok l => .ok (w :: l)
        | .error e => .error e

/-! ## The header window and metadata (R127, R328) -/

/-- Bytes of the header window past the frame body read 0. -/
def Core.hwByte (c : Core) (a : Nat) : Byte := if a < c.hwLen then c.hw.getD a 0 else 0

/-- Store a byte in the header window; past the frame body it is discarded (R328). -/
def Core.setHw (c : Core) (a : Nat) (b : Byte) : Core := if a < c.hwLen then { c with hw := c.hw.set a b } else c

/-- Store bytes in the header window. -/
def Core.setHwBytes : Core → Nat → List Byte → Core
  | c, _, [] => c
  | c, a, b :: l => Core.setHwBytes (c.setHw a b) (a + 1) l

/-- The metadata fields a program may not write (R328). -/
def fieldReadOnly (k : Nat) : Bool := [0, 1, 2, 28, 29, 30, 31].contains k

end Sys2Proof.Machine
end

