-- ==== Sys2Proof/Machine/Memory.lean ====
section
/-! DEFINITION. The commands of the chapter on memory: temperature, DDR5 channels, regions, the stitched range, scrub, training
(R142 to R170). -/

namespace Sys2Proof.Machine

/-! ## Temperature (R144) -/

/-- DRAM_TEMP_POLL (R144): the hottest die shows in HBM_STATUS; above 85 °C refresh doubles; a die at 95 °C or above is
reported to the power core. -/
def execDramTempPoll (stack : Nat) (temps : List Nat) (s : State) : Result :=
  let t := temps.foldl max 0
  let s := (s.setF (R.hbmStatus stack) F.hbmStatus_temp_c (min t 255)).setF (R.hbmStatus stack) F.hbmStatus_refresh_x2
    (bit (decide (t > 85)))
  go (if t ≥ 95 then s.emit (.dramHot stack t) else s)

/-! ## DDR5 (R147 to R149) -/

/-- DDR_CHANNEL_FAIL (R148): the channel is fenced; the interleave stays. -/
def execDdrChannelFail (c : Nat) (s : State) : Result :=
  if ¬ s.ddr.kept.contains c ∨ s.ddr.fenced.contains c then go s
  else
    let s := s.setF (R.ddrChanStatus c) F.ddrChanStatus_in_service 0
    let s := { s with ddr := { s.ddr with fenced := s.ddr.fenced ++ [c] } }
    go (s.record { source := 0x0D, inst := 12 + c, code := 0x0020, severity := 3, detail := dAt 24 c })

/-! ## Regions (R151 to R153, R167) -/

/-- The granule of a tier (R151). -/
def granule (tier : Nat) : Nat := if tier = 1 then 40 * 2 ^ 20 else 2 ^ 21

/-- The operands of a region command. -/
structure RegionArgs where
  index : Nat
  base : Nat
  granules : Nat
  owner : Nat
  tier : Nat
  bulk : Bool
  deriving DecidableEq, Repr

/-- The operands staged in REGION_CMD and named by a write of REGION_CMD_GO. -/
def State.regionArgs (s : State) (value : Word) : RegionArgs :=
  ⟨getBits value F.regionCmdGo_index, s.getF R.regionCmdBase F.regionCmdBase_base * 2 ^ 21,
   s.getF R.regionCmdSize F.regionCmdSize_granules, s.getF R.regionCmdAttr F.regionCmdAttr_owner,
   s.getF R.regionCmdAttr F.regionCmdAttr_tier, s.getF R.regionCmdAttr F.regionCmdAttr_bulk_mirror == 1⟩

/-- The bytes of a region to create. -/
def RegionArgs.size (x : RegionArgs) : Nat := x.granules * granule x.tier

/-- Base, size and range fit the tier (R151, R153 order 3). -/
def State.regionFits (s : State) (x : RegionArgs) : Bool :=
  decide (x.granules > 0) &&
  match x.tier with
  | 0 =>
    decide (x.base < 12 * 2 ^ 35) && decide (x.base % 2 ^ 35 + x.size ≤ 2 ^ 35 - s.stitchedSize)
  | 1 =>
    decide (0x8000000000 ≤ x.base) && decide ((x.base - 0x8000000000) % granule 1 = 0) &&
      decide (x.base - 0x8000000000 + x.size ≤ 10 * s.stitchedSize)
  | 2 =>
    decide (0x10000000000 ≤ x.base) && decide (x.base - 0x10000000000 + x.size ≤ s.mainSize - s.stagingSize)
  | _ => false

/-- A range that a slice may not have beside the quiet partitions: for a quiet slice, a stitched range or plain HBM of a stack outside
its partition (R23); for any other, plain HBM of a stack that a partition holds for itself alone (R21, R27). -/
def State.quietConflict (s : State) (x : RegionArgs) : Bool :=
  match s.quietOf x.owner with
  | none => x.tier == 0 && s.quietHolds (x.base / 2 ^ 35)
  | some q => x.tier == 1 || (x.tier == 0 && !natBit (s.quietStacks q) (x.base / 2 ^ 35))

/-- The first status of R153 that a create matches; 0 where it is accepted (log entry 52, DEDUCED). -/
def State.createStatus (s : State) (x : RegionArgs) : Nat :=
  if (Tab.find? s.regions x.index).isSome ∨ ¬ s.full then 0x01
  else if ¬ s.regionFits x then 0x02
  else if (s.regions.any fun e => meets x.base x.size e.2.base e.2.size) ∨ s.quietConflict x ∨
      (x.bulk ∧ ¬ natBit (s.getF R.pairCfg F.pairCfg_classes) 0) then 0x03
  else if (if x.tier = 2 then s.regionBytes x.owner [2] + x.size > s.limit x.owner .ddr * gib
           else s.regionBytes x.owner [0, 1] + x.size > s.limit x.owner .hbm * gib) ∨
      (x.tier = 1 ∧ s.getF R.stitchStatus F.stitchStatus_lost = 1) ∨
      (x.tier = 0 ∧ ¬ s.stackMem (x.base / 2 ^ 35)) ∨ (x.tier = 2 ∧ s.ddrFenced x.base x.size) then 0x04
  else 0

/-- End a region command with a status. -/
def State.regionDone (s : State) (index status : Nat) : State :=
  s.setReg R.regionCmdGo (setBits (setBits 0 F.regionCmdGo_status status) F.regionCmdGo_index index)

/-- The active tells the standby of a region command with its operands (R449). -/
def State.regionTell (s : State) (value : Word) (owner : Nat) : State :=
  s.tell 3 owner (.writes ([R.regionCmdBase, R.regionCmdSize, R.regionCmdAttr].map (fun a => (a, s.reg a)) ++ [(R.regionCmdGo, value)]))

/-- A region command that is refused is recorded (R26). -/
def State.regionRefuse (s : State) (index op status : Nat) : State :=
  (s.regionDone index status).cmdRefused 0x0D 0xFF 0 index op status

/-- Granules join or leave those that await zeroing. -/
def State.backlog (s : State) (add sub : Nat) : State :=
  s.setF R.zeroStatus F.zeroStatus_backlog (min (2 ^ 32 - 1) (s.getF R.zeroStatus F.zeroStatus_backlog + add) - sub)

/-- A write of REGION_CMD_GO is ignored: the block does not answer, or a command is in progress (R432, R26). -/
def State.regionIdle (s : State) : Bool := s.getF R.regionCmdGo F.regionCmdGo_busy == 0

/-- REGION_CREATE (R152, R153, R167): accepted, the entry is zeroing and the command busy until the range is zeroed. -/
def execRegionCreate (value : Word) (s : State) : Result :=
  if ¬ s.serving then go s
  else if ¬ s.regionIdle then go (s.writeIgnored 0x0D 0xFF R.regionCmdGo value)
  else
    let x := s.regionArgs value
    if x.index ≥ 4080 then go (s.regionRefuse x.index 1 0x02)
    else
      let c := s.createStatus x
      if c ≠ 0 then go (s.regionRefuse x.index 1 c)
      else
        let v := s.standbySays 3 x.owner
        let s := v.2.regionTell value x.owner
        if v.1 ≠ 0 then go (s.regionRefuse x.index 1 v.1) else
        let s := { s with regions := Tab.insert s.regions x.index ⟨x.base, x.size, x.owner, x.tier, x.bulk, 2, true⟩ }
        let s := s.setReg R.regionCmdGo (setBits (setBits 0 F.regionCmdGo_busy 1) F.regionCmdGo_index x.index)
        go (s.backlog x.granules 0)

/-- REGION_DESTROY (R152, R153): an active region that nothing maps, or a lost one, goes into zeroing. -/
def execRegionDestroy (value : Word) (s : State) : Result :=
  if ¬ s.serving then go s
  else if ¬ s.regionIdle then go (s.writeIgnored 0x0D 0xFF R.regionCmdGo value)
  else
    let i := getBits value F.regionCmdGo_index
    if i ≥ 4080 then go (s.regionRefuse i 2 0x02)
    else match Tab.find? s.regions i with
      | none => go (s.regionRefuse i 2 0x01)
      | some r =>
        if r.state = 2 ∨ r.creating ∨ s.mapped r.base r.size then go (s.regionRefuse i 2 0x01)
        else
          let v := s.standbySays 3 r.owner
          let s := v.2.regionTell value r.owner
          if v.1 ≠ 0 then go (s.regionRefuse i 2 v.1) else
          let s := { s with regions := Tab.insert s.regions i { r with state := 2, creating := false } }
          go ((s.backlog (r.size / granule r.tier) 0).regionDone i 0)

/-- REGION_SET_BULK_MIRROR (R152, R153). -/
def execRegionSetBulkMirror (value : Word) (s : State) : Result :=
  if ¬ s.serving then go s
  else if ¬ s.regionIdle then go (s.writeIgnored 0x0D 0xFF R.regionCmdGo value)
  else
    let i := getBits value F.regionCmdGo_index
    if i ≥ 4080 then go (s.regionRefuse i 3 0x02)
    else match Tab.find? s.regions i with
      | none => go (s.regionRefuse i 3 0x01)
      | some r =>
        if r.state ≠ 1 then go (s.regionRefuse i 3 0x01)
        else
          let b := s.getF R.regionCmdAttr F.regionCmdAttr_bulk_mirror == 1
          if b ∧ ¬ natBit (s.getF R.pairCfg F.pairCfg_classes) 0 then go (s.regionRefuse i 3 0x03) else
          let v := s.standbySays 3 r.owner
          let s := v.2.regionTell value r.owner
          if v.1 ≠ 0 then go (s.regionRefuse i 3 v.1) else
          go ({ s with regions := Tab.insert s.regions i { r with bulk := b } }.regionDone i 0)

/-- REGION_ZEROING_DONE (R153, R167): a create completes, or a destroyed entry is free; a create whose range was lost meanwhile
completes with 0x0015 (log entry 180, DEDUCED). -/
def execRegionZeroingDone (r : Nat) (s : State) : Result :=
  match Tab.find? s.regions r with
  | none => go s
  | some x =>
    if x.state = 3 ∧ x.creating then
      go (({ s with regions := Tab.insert s.regions r { x with creating := false } }.backlog 0 (x.size / granule x.tier)).regionDone r 0x15)
    else if x.state ≠ 2 then go s
    else
      let s := (s.zeroAnew x.base x.size).backlog 0 (x.size / granule x.tier)
      if x.creating then
        go ({ s with regions := Tab.insert s.regions r { x with state := 1, creating := false } }.regionDone r 0)
      else go { s with regions := Tab.erase s.regions r }

/-! ## The stitched range (R154 to R160) -/

/-- The address of byte b of data unit j of stripe n. -/
def stripeAddr (n j b : Nat) : Nat := 0x8000000000 + n * 40960 + j * 4096 + b

/-- P at a byte of a stripe: the exclusive or of the ten data bytes (R155). -/
def State.stripeP (s : State) (n b : Nat) : Nat :=
  (below 10).foldl (fun a j => a ^^^ (s.byteAt (stripeAddr n j b)).toNat) 0

/-- Q at a byte of a stripe (R155). -/
def State.stripeQ (s : State) (n b : Nat) : Nat :=
  (below 10).foldl (fun a j => a ^^^ gmul (gpow j) (s.byteAt (stripeAddr n j b)).toNat) 0

/-- One missing data unit x: P and the surviving data (R155). -/
def recoverOne (p : Nat) (d : Nat → Nat) (x : Nat) : Nat :=
  (below 10).foldl (fun a j => if j = x then a else a ^^^ d j) p

/-- Data unit x where data unit y is missing too (R155). -/
def recoverTwo (p q : Nat) (d : Nat → Nat) (x y : Nat) : Nat :=
  let lo := min x y
  let hi := max x y
  let pxy := (below 10).foldl (fun a j => if j = x ∨ j = y then a else a ^^^ d j) p
  let qxy := (below 10).foldl (fun a j => if j = x ∨ j = y then a else a ^^^ gmul (gpow j) (d j)) q
  let dlo := gdiv (gmul (gpow hi) pxy ^^^ qxy) (gpow lo ^^^ gpow hi)
  if x = lo then dlo else pxy ^^^ dlo

/-- Data unit x where P is missing too: from Q (R155, applied to one unknown). -/
def recoverFromQ (q : Nat) (d : Nat → Nat) (x : Nat) : Nat :=
  gdiv ((below 10).foldl (fun a j => if j = x then a else a ^^^ gmul (gpow j) (d j)) q) (gpow x)

/-- A stitched byte as it is read: from its own unit, or rebuilt from the surviving units of its stripe (R155, R159)
(log entry 158, DESIGN CHOICE). -/
def State.stitchByte (s : State) (a : Nat) : Byte :=
  let p := stitchDecode s.stitchedSize (a - 0x8000000000)
  if natBit s.lostStacks p.dataStack then
    let d (j : Nat) : Nat := (s.byteAt (stripeAddr p.stripe j p.byte)).toNat
    let other := (below 10).find? fun j => j != p.unit && natBit s.lostStacks ((p.stripe + 2 + j) % 12)
    match other with
    | some y => BitVec.ofNat 8 (recoverTwo (s.stripeP p.stripe p.byte) (s.stripeQ p.stripe p.byte) d p.unit y)
    | none =>
      if natBit s.lostStacks p.pStack then BitVec.ofNat 8 (recoverFromQ (s.stripeQ p.stripe p.byte) d p.unit)
      else BitVec.ofNat 8 (recoverOne (s.stripeP p.stripe p.byte) d p.unit)
  else s.byteAt a

/-- A read of the stitched range as it is performed. -/
def State.stitchReadNow (s : State) (source slice a len : Nat) : State :=
  match s.memReadNow 0x0D 0xFF source slice a len with
  | (.fail c, s) => s.emit (.stitchData (.fail c))
  | (.bytes _, s) => s.emit (.stitchData (.bytes ((below len).map fun i => s.stitchByte (a + i))))

/-- A write within one stripe as it is performed (R156 to R158): one of a whole stripe is done; a partial one locks the stripe until
its last piece is acknowledged. -/
def State.stitchWriteNow (s : State) (source slice a : Nat) (data : List Byte) : State :=
  match s.memWriteNow 0x0D 0xFF source slice a data with
  | (some c, s) => s.emit (.stitchDone c)
  | (none, s) =>
    if partialStripes a data.length = 0 then s.emit (.stitchDone 0)
    else { s with stripes := Tab.insert s.stripes (stripeOf a) (Tab.get [] s.stripes (stripeOf a)) }

/-- A write within one stripe: performed, or waiting for the stripe's lock. -/
def State.stitchWritePiece (s : State) (source slice a : Nat) (data : List Byte) : State :=
  match Tab.find? s.stripes (stripeOf a) with
  | some l => { s with stripes := Tab.insert s.stripes (stripeOf a) (l ++ [.write source slice a data]) }
  | none => s.stitchWriteNow source slice a data

/-- The pieces of a write by stripe. -/
def stripePieces : Nat → Nat → List Byte → List (Nat × List Byte)
  | 0, _, _ => []
  | fuel + 1, a, l =>
    if l.isEmpty then []
    else
      let n := 40960 - (a - 0x8000000000) % 40960
      (a, l.take n) :: stripePieces fuel (a + n) (l.drop n)

/-- The device address lies in the stitched range. -/
def State.isStitched (s : State) (a : Nat) : Bool :=
  match s.place a with
  | .stitched _ => true
  | _ => false

/-- STITCH_WRITE (R156 to R158). -/
def execStitchWrite (source slice a : Nat) (data : List Byte) (s : State) : Result :=
  if ¬ s.isStitched a then go s
  else
    go ((stripePieces (data.length / 40960 + 2) a data).foldl (fun s p => s.stitchWritePiece source slice p.1 p.2) s)

/-- A read of the stitched range: one that needs reconstruction waits for the lock of a stripe it touches (R158). -/
def State.stitchReadOrWait (s : State) (source slice a len : Nat) : State :=
  match s.needsRebuild a len, s.lockedIn a len with
  | true, n :: _ => { s with stripes := Tab.insert s.stripes n (Tab.get [] s.stripes n ++ [.read source slice a len]) }
  | _, _ => s.stitchReadNow source slice a len

/-- What waits on a stripe goes on in arrival order, up to the next partial write, which locks it again. -/
def State.stripeGrant (s : State) (n : Nat) : Nat → State
  | 0 => s
  | fuel + 1 =>
    match Tab.find? s.stripes n with
    | some (.write source slice a data :: l) =>
      let s := { s with stripes := Tab.erase s.stripes n }
      let s := s.stitchWriteNow source slice a data
      match Tab.find? s.stripes n with
      | some _ => { s with stripes := Tab.insert s.stripes n l }
      | none => if l.isEmpty then s else ({ s with stripes := Tab.insert s.stripes n l }).stripeGrant n fuel
    | some (.read source slice a len :: l) =>
      let s := { s with stripes := Tab.erase s.stripes n }
      let s := s.stitchReadOrWait source slice a len
      if l.isEmpty then s else ({ s with stripes := Tab.insert s.stripes n l }).stripeGrant n fuel
    | _ => { s with stripes := Tab.erase s.stripes n }

/-- STRIPE_LOCK_RELEASE (R158): the last piece of the write that holds the stripe is acknowledged, so it is performed; what waits goes
on. -/
def execStripeLockRelease (stripe : Nat) (s : State) : Result :=
  match Tab.find? s.stripes stripe with
  | none => go s
  | some l => go ((s.emit (.stitchDone 0)).stripeGrant stripe (l.length + 1))

/-- STITCH_READ (R158, R159). -/
def execStitchRead (source slice a len : Nat) (s : State) : Result :=
  if ¬ s.isStitched a then go s else go (s.stitchReadOrWait source slice a len)

/-! ## Protection codes and scrub (R161 to R170) -/

/-- α to the power n in the field of R155. -/
def alphaPow (n : Nat) : Nat := gpow n

/-- The syndrome k of a word of 32 data and 3 check bytes: check byte i has degree i, data byte i degree i + 3 (R162). -/
def rsSyndrome (k : Nat) (w : List Byte) : Nat :=
  (w.zip (below 35)).foldl (fun a p => a ^^^ gmul p.1.toNat (alphaPow (k * (if p.2 < 32 then p.2 + 3 else p.2 - 32)))) 0

/-- The error value of a word whose one wrong symbol is k: s1 over the power of its degree (R162). -/
def rsError (w : List Byte) (k : Nat) : Nat := gdiv (rsSyndrome 1 w) (alphaPow (if k < 32 then k + 3 else k - 32))

/-- How a word decodes: as it stands, with one symbol corrected, or not at all. -/
inductive RsResult where
  | clean
  | corrected (symbol : Nat)
  | uncorrectable
  deriving DecidableEq, Repr

/-- The base-die decode of a word's 35 symbols (R162): any one symbol is corrected, any two are detected. -/
def rsDecode (w : List Byte) : RsResult :=
  let s1 := rsSyndrome 1 w
  let s2 := rsSyndrome 2 w
  let s3 := rsSyndrome 3 w
  if s1 = 0 ∧ s2 = 0 ∧ s3 = 0 then .clean
  else if s1 = 0 ∨ s2 = 0 ∨ s3 = 0 then .uncorrectable
  else
    let x := gdiv s2 s1
    if gdiv s3 s2 ≠ x then .uncorrectable
    else match (below 35).find? fun d => alphaPow d == x with
      | some d => .corrected (if d < 3 then 32 + d else d - 3)
      | none => .uncorrectable

/-- The address check byte of stack-local offset x: the CRC-8 of its bits 34 to 5 (R162). -/
def addressCheck (x : Nat) : Nat := crc8 (bytesBE 4 (x / 32 % 2 ^ 30))

/-- The decode of a burst read at offset x; the address check is judged after correction (R162). -/
def hbmDecode (x : Nat) (burst : List Byte) : RsResult :=
  if burst.length ≠ 36 then .uncorrectable
  else match rsDecode (burst.take 35) with
    | .uncorrectable => .uncorrectable
    | r => if (burst.getD 35 0).toNat = addressCheck x then r else .uncorrectable

/-- A row that corrects, in the scrub or for a demand read: it is weak after three distinct passes of the scrub, or 16 words within one hour; a weak row is replaced by a spare,
or the shortage recorded (R145). -/
def State.rowCorrected (s : State) (stack row : Nat) (bankSpare demand : Bool) : State :=
  let k := stack * 2 ^ 32 + row
  let pass := s.getF R.scrubStatus F.scrubStatus_passes
  let old := Tab.get ⟨[], []⟩ s.scrub.rows k
  let r : RowErrs := ⟨if demand ∨ old.passes.contains pass then old.passes else pass :: old.passes,
    s.now :: old.times.filter fun t => decide (s.since t < 5760000000000)⟩
  if r.passes.length ≥ 3 ∨ r.times.length ≥ 16 then
    let s := { s with scrub := { s.scrub with rows := Tab.erase s.scrub.rows k } }
    let n := s.getF (R.hbmStatus stack) F.hbmStatus_spare_rows
    if bankSpare ∧ n > 0 then
      let s := (s.setF (R.hbmStatus stack) F.hbmStatus_spare_rows (n - 1)).count 0x0D 2 stack 1
      s.record { source := 0x0D, inst := stack, code := 0x0011, severity := 1, detail := dAt 20 (row % 2 ^ 32) }
    else
      s.record { source := 0x0D, inst := stack, code := 0x0011, severity := 3, detail := dAt 20 (row % 2 ^ 32) + dAt 24 1 }
  else { s with scrub := { s.scrub with rows := Tab.insert s.scrub.rows k r } }

/-- The words of a stack. -/
def stackWords : Nat := 2 ^ 30

/-- The HBM scrub passes on: a stack whose memory is out of service is skipped; the end of the last stack ends the pass
(R169, R170). -/
def State.scrubHbmNext (s : State) : State :=
  let total := 12 * stackWords
  let n := s.scrub.hbm + 1
  let skip (n : Nat) : Nat :=
    (below 12).foldl (fun n st => if n / stackWords = st ∧ ¬ s.stackMem st then (st + 1) * stackWords else n) n
  let n := skip n
  if n ≥ total then
    let s := { s with scrub := { s.scrub with hbm := skip 0 % total } }
    (s.setF R.scrubStatus F.scrubStatus_passes (s.getF R.scrubStatus F.scrubStatus_passes + 1)).setF
      R.scrubStatus F.scrubStatus_progress 0
  else
    ({ s with scrub := { s.scrub with hbm := n } }).setF R.scrubStatus F.scrubStatus_progress (n * 100 / total)

/-- The word of 32 bytes at stack-local offset x of a stack is one of P or Q of its stripe: what the stripe's data give for it (R155). -/
def State.checkWord (s : State) (st x : Nat) : Option (List Nat) :=
  let base := 2 ^ 35 - s.stitchedSize
  let n := (x - base) / 4096
  let b := (x - base) % 4096
  if x < base then none
  else if st = n % 12 then some ((below 32).map fun i => s.stripeP n (b + i))
  else if st = (n + 1) % 12 then some ((below 32).map fun i => s.stripeQ n (b + i))
  else none

/-- A burst with one symbol corrected. -/
def correctedData (burst : List Byte) : List Nat :=
  let w := burst.take 35
  let d := match rsDecode w with
    | .corrected k => w.set k (BitVec.ofNat 8 ((w.getD k 0).toNat ^^^ rsError w k))
    | _ => w
  (d.take 32).map fun b => b.toNat

/-- A word of HBM as the base-die code judges it, for the scrub (source 4) or a demand read, which logs it itself (R166): a correction is counted, weighs on its
row, and is written back where no write came between; on-die severity is counted and decides nothing; an uncorrectable word is
logged, or rebuilt from its stripe; a P or Q word that disagrees with correct data is rewritten (R145, R162, R163, R166, R169)
(log entry 159, DEDUCED) (log entry 181, DEDUCED). -/
def State.hbmWord (s : State) (st x : Nat) (burst : List Byte) (severity row : Nat) (bankSpare overwritten demand : Bool) : State :=
  let k := badHbm st x
  let s := if severity = 0 then s else s.count 0x0D 6 st 1
  let r := if (Tab.find? s.bad k).isSome then .uncorrectable else hbmDecode x burst
  let check (s : State) : State :=
    match s.checkWord st x with
    | some l => if correctedData burst = l ∨ overwritten then s else s.count 0x0D 3 st 1
    | none => s
  match r with
  | .clean => check s
  | .corrected _ =>
    let s := (s.count 0x0D 0 st 1).rowCorrected st row bankSpare demand
    check (if overwritten then s else s.count 0x0D 3 st 1)
  | .uncorrectable =>
    let s := { s with bad := Tab.insert s.bad k () }
    let base := 2 ^ 35 - s.stitchedSize
    if x < base then if demand then s else s.logUncorrectable 0 4 (st * 2 ^ 35 + x)
    else if s.columnMissing (x / 64 * 64) ≤ 2 then
      ({ s with bad := Tab.erase s.bad k }.count 0x0D 4 0xFF 1)
    else if demand then s
    else s.logUncorrectable 0 4 (((s.badRange k).getD (0x8000000000, 0)).1)

/-- Scrub of the HBM word at its position. -/
def State.scrubHbm (s : State) (burst : List Byte) (severity row : Nat) (bankSpare overwritten : Bool) : State :=
  let st := s.scrub.hbm / stackWords
  if ¬ s.stackMem st then s.scrubHbmNext
  else (s.hbmWord st (s.scrub.hbm % stackWords * 32) burst severity row bankSpare overwritten false).scrubHbmNext

/-- The device address of DDR5 scrub unit n: the main region, then channel 7's reserved region. -/
def State.ddrUnit (s : State) (n : Nat) : Nat :=
  if n * 64 < s.mainSize then 0x10000000000 + n * 64 else 0x40000000000 + (n * 64 - s.mainSize)

/-- A DDR5 unit as its code judges it: one device in error is corrected, more are not (R161, R163, R166). -/
def State.ddrWord (s : State) (a devices : Nat) (overwritten demand : Bool) : State :=
  let inst := s.memInst a
  let bad := (Tab.find? s.bad (badDdr a)).isSome
  if devices = 0 ∧ ¬ bad then s
  else if devices ≤ 1 ∧ ¬ bad then
    let s := s.count 0x0D 0 inst 1
    if overwritten then s else s.count 0x0D 3 inst 1
  else
    let s := { s with bad := Tab.insert s.bad (badDdr a) () }
    if demand then s else s.logUncorrectable 0 4 a

/-- Scrub of the DDR5 unit at its position. -/
def State.scrubDdr (s : State) (devices : Nat) (overwritten : Bool) : State :=
  let total := (s.mainSize + s.ddr.res) / 64
  if total = 0 then s
  else
    let s := s.ddrWord (s.ddrUnit (s.scrub.ddr % total)) devices overwritten false
    { s with scrub := { s.scrub with ddr := (s.scrub.ddr + 1) % total } }

/-! ## Training (R147, R148, R159) -/

end Sys2Proof.Machine

namespace Sys2Proof

/-- A DIMM of the configurations R147 supports. -/
def Dimm.supported (d : Dimm) : Bool :=
  decide (d.kind = .registered) && d.deviceWidth == 4 && d.ecc && [16, 32, 64, 96, 128].contains d.gib &&
  decide (1 ≤ d.ranks) && decide (d.ranks ≤ 2) && decide (d.height ≤ 2)

/-- The number of DIMMs of a channel. -/
def DdrTrain.dimms (c : DdrTrain) : Nat := c.fitted.length

/-- The capacity of a channel in GiB, the sum of its DIMMs' (R147). -/
def DdrTrain.capacity (c : DdrTrain) : Nat := c.fitted.foldl (fun n d => n + d.gib) 0

/-- A channel holds one or two supported DIMMs. -/
def DdrTrain.supported (c : DdrTrain) : Bool := decide (c.dimms ≤ 2) && c.fitted.all Dimm.supported

/-- The rate a channel supports, in hundreds of MT/s: DDR5-6400 with one DIMM, DDR5-5600 with two (R147). -/
def DdrTrain.rate (c : DdrTrain) : Nat := if c.dimms ≤ 1 then 0x40 else 0x38

end Sys2Proof

namespace Sys2Proof.Machine

/-- The reference capacity C in GiB (R147): channel 7's, or the capacity shared by most trained channels, the larger on a
tie. -/
def referenceCapacity (l : List DdrTrain) : Nat :=
  let ok := l.filter fun c => decide (c.dimms > 0) && c.supported && c.trained
  match l[7]? with
  | some c7 =>
    if c7.dimms > 0 ∧ c7.supported ∧ c7.trained then c7.capacity
    else (ok.foldl (fun (best : Nat × Nat) c =>
        let n := (ok.filter fun d => d.capacity == c.capacity).length
        if n > best.1 ∨ (n = best.1 ∧ c.capacity > best.2) then (n, c.capacity) else best) (0, 0)).2
  | none => 0

/-- A channel serves at capacity C. -/
def ddrKeeps (c : DdrTrain) (cap : Nat) : Bool := decide (c.dimms > 0) && c.supported && c.trained && c.capacity == cap

/-- The status of a channel after training; one that is populated and not kept is recorded out of service. -/
def State.ddrTrained (s : State) (c : Nat) (x : DdrTrain) (cap rate : Nat) : State :=
  let w := setBits (setBits (setBits (setBits (setBits 0 F.ddrChanStatus_capacity_gib x.capacity) F.ddrChanStatus_rate rate)
    F.ddrChanStatus_dimms x.dimms) F.ddrChanStatus_trained (bit x.trained)) F.ddrChanStatus_in_service (bit (ddrKeeps x cap))
  let s := s.setReg (R.ddrChanStatus c) (if x.dimms = 0 then 0 else w)
  if x.dimms > 0 ∧ ¬ ddrKeeps x cap then
    s.record { source := 0x0D, inst := 12 + c, code := 0x0022, severity := 4, detail := dAt 24 c }
  else s

/-- A stack after training: in service where it trained and its link is not fenced, else lost to the stitched range. -/
def State.hbmTrained (s : State) (st : Nat) (x : HbmTrain) : State :=
  let up := x.trained && !s.linkFenced st
  let s := s.setF (R.hbmStatus st) F.hbmStatus_trained (bit x.trained)
  let s := s.setF (R.hbmStatus st) F.hbmStatus_spare_rows x.spareRows
  let s := s.setF (R.hbmStatus st) F.hbmStatus_mem_in_service (bit up)
  if up then s
  else
    ((s.setBit R.stitchStatus (16 + st)).stitchRefresh).stackRebuilt st

/-- MEMORY_TRAINING_DONE (R147 to R149, R159): statuses, C, the channels kept, res. -/
def execMemoryTrainingDone (stackIds : List HbmTrain) (channels : List DdrTrain) (s : State) : Result :=
  let cap := referenceCapacity channels
  let rate := (channels.filter fun c => decide (c.dimms > 0) && c.supported && c.trained).foldl (fun r c => min r c.rate) 0x40
  let s := ((below 12).zip stackIds).foldl (fun s p => s.hbmTrained p.1 p.2) s
  let s := ((below 8).zip channels).foldl (fun s p => s.ddrTrained p.1 p.2 cap rate) s
  let kept := ((below 8).zip channels).filterMap fun p => if ddrKeeps p.2 cap then some p.1 else none
  let res := if kept.contains 7 then min (s.getF R.memLayout F.memLayout_ddr7_res_gib * gib) (cap * gib / 2) else 0
  go { s with ddr := ⟨kept, cap * gib, res, []⟩, boot := { s.boot with trained := true } }

end Sys2Proof.Machine
end

