-- ==== Sys2Proof/Machine/Cipher.lean ====
section
/-! DEFINITION. The random source, key commands and cipher jobs (R386 to R400). -/

namespace Sys2Proof.Machine

/-! ## Random source and masks (R386, R387) -/

/-- The DRBG runs: the source has passed its start-up test and no health test has failed (R386, R387). -/
def State.drbgOk (s : State) : Bool := s.getF R.rngStatus F.rngStatus_ok == 1 && s.rngOk

/-- DRBG_RESEED (R386). -/
def execDrbgReseed (s : State) : Result :=
  if s.drbgOk then go { s with cipher := { s.cipher with requests := 0, reseeded := s.now } } else go s

/-- MASK_REKEY (R387): the generator takes a key from the DRBG. -/
def execMaskRekey (s : State) : Result :=
  if s.drbgOk then
    let d := s.draw
    go { d.2 with cipher := { d.2.cipher with maskKey := d.1 } }
  else go s

/-- ENTROPY_HEALTH_FAIL (R387). -/
def execEntropyHealthFail (s : State) : Result :=
  let s := (s.setF R.rngStatus F.rngStatus_failed 1).setF R.rngStatus F.rngStatus_ok 0
  let s := s.setF R.rngStatus F.rngStatus_failures (min 0xFFFF (s.getF R.rngStatus F.rngStatus_failures + 1))
  let s := (s.count 0x0B 9 4 1).record { source := 0x0B, inst := 4, code := 0x0020, severity := 3, status := 0x20 }
  go (s.raise 0 0)

/-- ENTROPY_RETEST (R387): a pass restores service; after three failures in a row the failure stays until reset
(log entry 117, DEDUCED). -/
def execEntropyRetest (pass : Bool) (s : State) : Result :=
  if s.cipher.rngFails ≥ 3 then go s
  else if pass then
    let s := (s.setF R.rngStatus F.rngStatus_failed 0).setF R.rngStatus F.rngStatus_ok 1
    go { s with cipher := { s.cipher with rngFails := 0 } }
  else
    let s := s.setF R.rngStatus F.rngStatus_failures (min 0xFFFF (s.getF R.rngStatus F.rngStatus_failures + 1))
    let s := (s.setF R.rngStatus F.rngStatus_failed 1).setF R.rngStatus F.rngStatus_ok 0
    go (({ s with cipher := { s.cipher with rngFails := s.cipher.rngFails + 1 } }).count 0x0B 9 4 1)

/-! ## Key commands (R388 to R391) -/

/-- n bytes from a word source. -/
def State.drawBytes (s : State) (f : State → Word × State) : Nat → List Byte × State
  | 0 => ([], s)
  | n + 1 =>
    let r := f s
    let t := r.2.drawBytes f n
    (bytesLE 8 r.1.toNat ++ t.1, t.2)

/-- The bytes of a kind's key. -/
def keyBytes (kind : Nat) : Nat := if kind = 1 then 16 else if kind = 3 then 48 else 32

/-- The 64 bytes staged in KEY_DATA. -/
def State.keyData (s : State) : List Byte := (below 8).flatMap fun i => bytesLE 8 (s.reg (R.keyData i)).toNat

/-- A key command ends: its status and slot show, KEY_DATA is cleared (R390). -/
def State.keyDone (s : State) (value : Word) (status : Nat) : State :=
  let s := s.setReg R.keyCmd (setBits (setBits 0 F.keyCmd_status status) F.keyCmd_slot (getBits value F.keyCmd_slot))
  let s := (below 8).foldl (fun s i => s.setReg (R.keyData i) 0) s
  if status = 0x01 ∨ status = 0x03 then
    s.cmdRefused 0x0B 4 (s.getF R.keyAttr F.keyAttr_owner) (getBits value F.keyCmd_slot) (getBits value F.keyCmd_op) status
  else s

/-- A key command of op is written and the block answers: f is performed, or in apprentice service it ends with 0x0001. -/
def State.keyCmd (s : State) (value : Word) (op : Nat) (f : State → Nat × State) : Result :=
  if ¬ s.serving ∨ getBits value F.keyCmd_op ≠ op then go s
  else if ¬ s.full then go (s.keyDone value 0x01)
  else
    let old := s.slot (getBits value F.keyCmd_slot)
    let n := if old.state = 0 then s.getF R.keyAttr F.keyAttr_owner else old.owner
    let v := s.standbySays 3 n
    let r := if v.1 = 0 then f v.2 else v
    let k := r.2.slot (getBits value F.keyCmd_slot)
    let s := r.2.tell 3 k.owner (.key (getBits value F.keyCmd_slot) k.kind k.owner k.salt [k.inverse, k.enc, k.dec, k.nonceHw] k.counter k.limit k.key)
    go (s.keyDone value r.1)

/-- The slots of an owner that are not empty. -/
def State.keysOf (s : State) (owner : Nat) : Nat := (s.cipher.slots.filter fun e => e.2.state != 0 && e.2.owner == owner).length

/-- The checks of R390 on commands 1 to 3: 0, or the first that refuses (log entry 116, DEDUCED). -/
def State.keyCheck (s : State) (k : Nat) (data : List Byte) (load : Bool) : Nat :=
  let a := s.reg R.keyAttr
  let kind := getBits a F.keyAttr_kind
  let owner := getBits a F.keyAttr_owner
  if (s.slot k).state ≠ 0 then 0x01
  else if kind = 0 ∨ kind > 4 ∨ (load ∧ kind = 3 ∧ ¬ (1 ≤ beNat (data.take 48) ∧ beNat (data.take 48) < bpN)) then 0x02
  else if getBits a F.keyAttr_check = 1 ∧ ¬ (s.policyOf owner).inverseOk then 0x03
  else if s.keysOf owner + 1 > s.limit owner .keySlots then 0x04
  else 0

/-- Put a key into slot k with the staged attributes, and its wrapped entry into the key table: 0, or the code of the failed
write (R388). The wrapped bytes are the device's own and not stated. -/
def State.putKey (s : State) (k : Nat) (key : List Byte) : Nat × State :=
  let a := s.reg R.keyAttr
  let w := s.drawBytes State.unstated 16
  match w.2.memWrite 0x0B 4 6 0 (s.slotAddr k) w.1 with
  | (some c, s) => (c, s)
  | (none, s) =>
    let v : KeySlot :=
      { state := 1, kind := getBits a F.keyAttr_kind, owner := getBits a F.keyAttr_owner, inverse := getBits a F.keyAttr_check == 1,
        enc := getBits a F.keyAttr_allow_enc == 1, dec := getBits a F.keyAttr_allow_dec == 1,
        nonceHw := getBits a F.keyAttr_nonce_hw == 1, salt := s.getF R.keySalt F.keySalt_salt, counter := s.reg R.keyCtr,
        limit := s.reg R.keyLimit, key := key, wrapped := w.1 }
    (0, (s.setSlot k v).uncacheKey k)

/-- KEY_LOAD (R390) (log entry 115, DESIGN CHOICE). -/
def execKeyLoad (value : Word) (s : State) : Result :=
  s.keyCmd value 1 fun s =>
    let k := getBits value F.keyCmd_slot
    let c := s.keyCheck k s.keyData true
    if c = 0x04 then (c, s.count 0x05 3 (s.getF R.keyAttr F.keyAttr_owner) 1)
    else if c ≠ 0 then (c, s)
    else if ¬ s.rngOk then (0x20, s)
    else s.putKey k (s.keyData.take (keyBytes (s.getF R.keyAttr F.keyAttr_kind)))

/-- A scalar in 1 to n − 1 from random bytes (R390): the spec does not say how it is formed; 48 bytes are reduced modulo
n − 1. -/
def scalarOf (l : List Byte) : List Byte := bytesBE 48 (beNat l % (bpN - 1) + 1)

/-- KEY_GENERATE (R390). -/
def execKeyGenerate (value : Word) (s : State) : Result :=
  s.keyCmd value 2 fun s =>
    let k := getBits value F.keyCmd_slot
    let kind := s.getF R.keyAttr F.keyAttr_kind
    let c := s.keyCheck k [] false
    if c = 0x04 then (c, s.count 0x05 3 (s.getF R.keyAttr F.keyAttr_owner) 1)
    else if c ≠ 0 then (c, s)
    else if ¬ s.rngOk then (0x20, s)
    else
      let r := s.drawBytes State.draw (keyBytes kind / 8)
      r.2.putKey k (if kind = 3 then scalarOf r.1 else r.1)

/-- KEY_IMPORT (R390): the blob is unwrapped under the kind 4 slot; a failed integrity check gives 0x0021. -/
def execKeyImport (value : Word) (s : State) : Result :=
  s.keyCmd value 3 fun s =>
    let k := getBits value F.keyCmd_slot
    let kind := s.getF R.keyAttr F.keyAttr_kind
    let w := s.slot (s.getF R.keyAttr F.keyAttr_wrap_slot)
    let c := s.keyCheck k [] false
    if c = 0x04 then (c, s.count 0x05 3 (s.getF R.keyAttr F.keyAttr_owner) 1)
    else if c ≠ 0 then (c, s)
    else if w.state = 0 then (0x01, s)
    else if w.kind ≠ 4 then (0x08, s)
    else if ¬ s.rngOk then (0x20, s)
    else if s.unwrapCode (s.getF R.keyAttr F.keyAttr_wrap_slot) ≠ 0 then (s.unwrapCode (s.getF R.keyAttr F.keyAttr_wrap_slot), s)
    else match keyUnwrap w.key (s.keyData.take (keyBytes kind + 8)) with
      | none => (0x21, s.count 0x0B 6 4 1)
      | some key =>
        if kind = 3 ∧ ¬ (1 ≤ beNat key ∧ beNat key < bpN) then (0x02, s) else s.putKey k key

/-- A job's field. -/
def jobField (raw : List Byte) (off width : Nat) : Nat := fieldLE raw off width

/-- A job's recipe. -/
def jobRecipe (raw : List Byte) : Nat := fieldLE raw 0 1

/-- A job uses slot k. -/
def jobNames (raw : List Byte) (k : Nat) : Bool :=
  let r := jobRecipe raw
  ([1, 2, 3, 4, 5, 0x0C, 0x0E].contains r && jobField raw 12 2 == k) || ([4, 5].contains r && jobField raw 14 2 == k)

/-- The descriptors queued in device-memory rings of cipher queues, from head to tail (R390). -/
def State.queuedJobs (s : State) : List (List Byte) :=
  (s.listedWith (R.cqCfg 0) 0x20 1024 [(F.cqCfg_enable, 1)]).flatMap fun q =>
    if s.getF (R.cqRing q) F.cqRing_space = 1 then []
    else
      let n := ringSlots (s.getF (R.cqRing q) F.cqRing_size)
      let head := s.getF (R.cqStatus q) F.cqStatus_head
      let tail := s.getF (R.cqTail q) F.cqTail_tail
      let base := s.getF (R.cqRing q) F.cqRing_base * 4096
      (below ((tail + n - head) % n)).map fun i => s.bytesAt (base + (head + i) % n * 64) 64

/-- A slot is emptied and its entry zeroed (R390, R286). -/
def State.zeroKey (s : State) (k : Nat) : State :=
  let r := s.memWrite 0x0B 4 6 0 (s.slotAddr k) (zeros 128)
  (r.2.setSlot k KeySlot.empty).uncacheKey k

/-- KEY_UNLOAD (R390): refused while a queued or running job names the slot. -/
def execKeyUnload (value : Word) (s : State) : Result :=
  s.keyCmd value 4 fun s =>
    let k := getBits value F.keyCmd_slot
    if (s.cipher.jobs.any fun e => jobNames e.2.raw k) ∨ (s.queuedJobs.any fun raw => jobNames raw k) then (0x01, s)
    else (0, s.zeroKey k)

/-- KEY_READ (R390). -/
def execKeyRead (value : Word) (s : State) : Result :=
  s.keyCmd value 5 fun s =>
    let v := s.slot (getBits value F.keyCmd_slot)
    let a := setBits (setBits (setBits 0 F.keyAttr_owner v.owner) F.keyAttr_nonce_hw (bit v.nonceHw)) F.keyAttr_allow_dec (bit v.dec)
    let a := setBits (setBits (setBits (setBits a F.keyAttr_allow_enc (bit v.enc)) F.keyAttr_check (bit v.inverse))
      F.keyAttr_state v.state) F.keyAttr_kind v.kind
    let s := (s.setReg R.keyAttr a).setF R.keySalt F.keySalt_salt v.salt
    (0, (s.setReg R.keyCtr v.counter).setReg R.keyLimit v.limit)

/-- KEY_UNWRAP_DONE (R388): the schedule, or the failure of its unwrap, enters the pipeline's cache of 1,024. -/
def execKeyUnwrapDone (pipe slot : Nat) (s : State) : Result :=
  let key := pipe * 2 ^ 16 + slot
  if (Tab.find? s.cipher.wanted key).isNone then go s
  else
    let l := ((slot, s.unwrapCode slot) :: (Tab.get [] s.cipher.cache pipe).filter fun e => e.1 != slot).take 1024
    go { s with cipher := { s.cipher with wanted := Tab.erase s.cipher.wanted key, cache := Tab.put [] s.cipher.cache pipe l } }

/-! ## Cipher queues and jobs (R392 to R395) -/

/-- CIPHER_QUEUE_DOORBELL (R392, R279, R25) (log entry 112, DEDUCED). -/
def execCipherQueueDoorbell (bell : Bell) (s : State) : Result :=
  match s.bell 7 bell with
  | .dropped n => go (s.bellDropped n)
  | .hit q i =>
    let owner := s.getF (R.cqCfg q) F.cqCfg_owner
    if s.getF (R.cqCfg q) F.cqCfg_enable = 0 ∧ bellWrites bell then go (s.setF (R.cqTail q) F.cqTail_tail i)
    else if s.getF (R.cqCfg q) F.cqCfg_enable = 0 ∨ s.sliceState owner ≠ 1 then go (s.bellDropped owner)
    else if i ≥ ringSlots (s.getF (R.cqRing q) F.cqRing_size) then
      go ((s.bellBeyond owner q i).setF (R.cqStatus q) F.cqStatus_state 4)
    else go (s.setF (R.cqTail q) F.cqTail_tail i)

/-- The recipes that use the block units. -/
def jobAes (raw : List Byte) : Bool := decide (1 ≤ jobRecipe raw) && decide (jobRecipe raw ≤ 5)

/-- The lengths of R393 are in their ranges. -/
def jobLengthOk (raw : List Byte) : Bool :=
  let n := jobField raw 8 4
  let u := jobField raw 40 4
  match jobRecipe raw with
  | 0x03 => decide (n ≥ 1)
  | 0x04 | 0x05 => decide (16 ≤ u) && decide (u ≤ 16777216) && n % u == 0
  | 0x0C | 0x0D => n == 48
  | 0x0E => n == 0
  | _ => true

/-- The bytes a job writes at dst. -/
def jobOut (raw : List Byte) : Nat :=
  match jobRecipe raw with
  | 0x08 => 32
  | 0x09 => 48
  | 0x0C => 96
  | 0x0D => 0
  | 0x0E => 97
  | _ => jobField raw 8 4

/-- The bytes at a job's nonce and tag addresses. -/
def jobNonceTag (raw : List Byte) : Nat × Nat :=
  match jobRecipe raw with
  | 0x01 | 0x02 => (12, 16)
  | 0x03 => (16, 0)
  | 0x0D => (0, 96)
  | _ => (0, 0)

/-- The bytes of a job's aux range. -/
def jobAux (raw : List Byte) : Nat :=
  match jobRecipe raw with
  | 0x01 | 0x02 => jobField raw 40 4
  | 0x0D => 97
  | _ => 0

/-- The ranges of a job in device memory: address and length (R393). -/
def jobRanges (raw : List Byte) : List (Nat × Nat) :=
  let sp := jobField raw 2 1
  let all := [(natBit sp 0, jobField raw 16 8, jobField raw 8 4), (natBit sp 1, jobField raw 24 8, jobOut raw),
    (natBit sp 2, jobField raw 32 8, jobAux raw), (natBit sp 1, jobField raw 48 8, (jobNonceTag raw).1),
    (natBit sp 1, jobField raw 56 8, (jobNonceTag raw).2)]
  (all.filter fun e => !e.1 && e.2.2 != 0).map fun e => e.2

/-- A kind 3 slot as a job uses it (R388, R389): 0, or the code that refuses. -/
def State.scalarRefusal (s : State) (k owner : Nat) : Nat :=
  let v := s.slot k
  if v.state = 0 then 0x01 else if v.owner ≠ owner ∨ v.kind ≠ 3 then 0x08 else 0

/-- The refusals of a job's slots under R389. -/
def State.jobSlots (s : State) (owner : Nat) (raw : List Byte) : List Nat :=
  match jobRecipe raw with
  | 0x01 | 0x02 | 0x03 => [s.slotRefusal (jobField raw 12 2) (some owner) false true]
  | 0x04 => [s.slotRefusal (jobField raw 12 2) (some owner) false true, s.slotRefusal (jobField raw 14 2) (some owner) false true]
  | 0x05 => [s.slotRefusal (jobField raw 12 2) (some owner) false false, s.slotRefusal (jobField raw 14 2) (some owner) false true]
  | 0x0C | 0x0E => [s.scalarRefusal (jobField raw 12 2) owner]
  | _ => []

/-- The two keys of an XTS job are of different kinds, or equal (R394). -/
def State.xtsBad (s : State) (raw : List Byte) : Bool :=
  let a := s.slot (jobField raw 12 2)
  let b := s.slot (jobField raw 14 2)
  (jobRecipe raw == 4 || jobRecipe raw == 5) && a.state != 0 && b.state != 0 && (a.kind != b.kind || a.key == b.key)

/-- The first rule of R394 that refuses a job, 1 to 5, or 0; with the address of a blocked range. -/
def State.jobCheck (s : State) (owner : Nat) (raw : List Byte) : Nat × Option Nat :=
  let f := jobField raw
  let r := jobRecipe raw
  let classes := getBits (s.forceOf owner).policy F.slicePolicy_classes
  if ¬ [1, 2, 3, 4, 5, 8, 9, 0x0C, 0x0D, 0x0E].contains r then (0x05, none)
  else if f 1 1 / 16 ≠ 0 ∨ f 2 1 / 8 ≠ 0 ∨ f 3 1 ≠ 0 ∨ (r ≠ 4 ∧ r ≠ 5 ∧ f 14 2 ≠ 0) ∨ f 44 4 ≠ 0 ∨ ¬ jobLengthOk raw ∨
      (natBit (f 1 1) 0 ∧ r ≠ 1 ∧ r ≠ 3) ∨ (owner ≠ 0 ∧ ¬ natBit classes (natBits (f 1 1) 3 2)) ∨ s.xtsBad raw then (0x02, none)
  else
    match (jobRanges raw).findSome? fun e =>
        (s.accessCode owner e.1 e.2).bind fun c => if c.1 = 0x08 ∨ c.1 = 0x11 then some c.2 else none with
    | some a => (0x08, some a)
    | none =>
      let slots := s.jobSlots owner raw
      if slots.contains 0x08 then (0x08, none)
      else if slots.contains 0x01 then (0x01, none)
      else if jobAes raw ∧ s.getF R.cipherCfg F.cipherCfg_job_cores = 0 then (0x04, none)
      else (0, none)

/-- A cipher queue runs while a job of it has started; error stays. -/
def State.cqRefresh (s : State) (q : Nat) : State :=
  if s.getF (R.cqStatus q) F.cqStatus_state = 4 then s
  else s.setF (R.cqStatus q) F.cqStatus_state (bit (Tab.find? s.cipher.jobs q).isSome)

/-- A job ends with its record (R395) (log entry 118, DEDUCED). -/
def State.jobEnd (s : State) (q : Nat) (raw : List Byte) (drawn : Option Nat) (code bytes : Nat) : State :=
  let owner := s.getF (R.cqCfg q) F.cqCfg_owner
  let s := { s with cipher := { s.cipher with jobs := Tab.erase s.cipher.jobs q } }
  let s := (s.count 0x0B 5 (jobRecipe raw) 1).cqRefresh q
  let s := if code = 0x21 then s.count 0x0B (if jobRecipe raw = 0x0D then 7 else 6) (q % 4) 1 else s
  s.post (s.getF (R.cqCfg q) F.cqCfg_cq)
    { status := code, queue := q, kind := 0x06, flags := 0, slice := owner, tag := jobField raw 4 4,
      byteCount := if code = 0 then bytes else 0, time := s.now, word := drawn.getD 0, irq := natBit (jobField raw 1 1) 1 }

/-- A read of a job: space 0 device memory, 1 host (R393). -/
def State.jobGet (s : State) (q : Nat) (host : Bool) (a n : Nat) (got : Got) : Got × State :=
  let owner := s.getF (R.cqCfg q) F.cqCfg_owner
  if n = 0 then (.bytes [], s)
  else if host then
    if s.hostPath (s.sliceFn owner) then s.hostRead (s.sliceFn owner) (s.slicePasid owner) a n got
    else (.fail (s.pathCode (s.sliceFn owner) 0x16), s)
  else s.memRead 0x0B (q % 4) 6 owner a n

/-- A write of a job: 0, or the code of its failure. -/
def State.jobPut (s : State) (q : Nat) (host : Bool) (a : Nat) (l : List Byte) : Nat × State :=
  let owner := s.getF (R.cqCfg q) F.cqCfg_owner
  if l.isEmpty then (0, s)
  else if host then
    if ¬ s.hostPath (s.sliceFn owner) then (s.pathCode (s.sliceFn owner) 0x16, s) else (0, s.hostWrite owner a l)
  else match s.memWrite 0x0B (q % 4) 6 owner a l with
    | (none, s) => (0, s)
    | (some c, s) => (c, s)

/-- Write several ranges in turn: the code of the failures (R35), or 0. -/
def State.jobPuts (s : State) (q : Nat) : List (Bool × Nat × List Byte) → Nat × State
  | [] => (0, s)
  | (h, a, l) :: r =>
    match s.jobPut q h a l with
    | (0, s) => s.jobPuts q r
    | (c, s) => let t := s.jobPuts q r; (combineCodes [c, t.1], t.2)

/-- Read several ranges in turn: the bytes of each, or the code of the failures (R35). -/
def State.jobGets (s : State) (q : Nat) : List (Bool × Nat × Nat × Got) → Except Nat (List (List Byte)) × State
  | [] => (.ok [], s)
  | (h, a, n, g) :: r =>
    match s.jobGet q h a n g with
    | (.fail c, s) => match s.jobGets q r with
      | (.ok _, s) => (.error c, s)
      | (.error c', s) => (.error (combineCodes [c, c']), s)
    | (.bytes l, s) => match s.jobGets q r with
      | (.ok ls, s) => (.ok (l :: ls), s)
      | (.error c, s) => (.error c, s)

/-- The block operations of a job: for each checking mode of its slots, how many (the tally of R383 to R385). -/
def blocksOf (raw : List Byte) : Nat × Nat :=
  let n := (jobField raw 8 4 + 15) / 16
  match jobRecipe raw with
  | 0x01 | 0x02 => (n + 2, 0)
  | 0x03 => (n, 0)
  | 0x04 | 0x05 => (n, jobField raw 8 4 / max 1 (jobField raw 40 4))
  | _ => (0, 0)

/-- The nonce or counter block that a draw gives (R396, R397). -/
def hwNonce (salt c : Nat) (ctr : Bool) : List Byte := bytesBE 4 salt ++ bytesBE 8 c ++ (if ctr then bytesBE 4 1 else [])

/-- What a recipe computes from what it has read (source, aux, nonce, tag): the failure code, the bytes for dst, the bytes for
the tag address (R396 to R400). -/
def recipeOut (raw : List Byte) (key key2 src aux nonce tag : List Byte) (hw : Bool) : Nat × List Byte × List Byte :=
  match jobRecipe raw with
  | 0x01 =>
    let ct := gcmCrypt key nonce src
    (0, ct, gcmTag key nonce aux ct)
  | 0x02 => if gcmTag key nonce aux src = tag then (0, gcmCrypt key nonce src, []) else (0x21, [], [])
  | 0x03 => (0, ctrCrypt key (fun i => if hw then inc32 nonce i else inc128 nonce i) src, [])
  | 0x04 | 0x05 =>
    let u := jobField raw 40 4
    let units := chunks u (src.length / max 1 u) src
    (0, ((units.zip (List.range units.length)).map fun p =>
      xtsUnit (jobRecipe raw == 4) key key2 (jobField raw 32 8 + p.2) p.1).flatten, [])
  | 0x08 => (0, sha256 src, [])
  | 0x09 => (0, sha384 src, [])
  | 0x0C => (0, ecdsaSign (beNat key) src, [])
  | 0x0D => match ptOfBytes aux with
    | none => (0x02, [], [])
    | some p => (if ecdsaVerify p src tag then 0 else 0x21, [], [])
  | _ => (0, ptBytes (publicPoint (beNat key)), [])

/-- Run a started job to its end, or hold it for a key that is not cached (R385, R388, R395 to R400). A mismatch of a hash engine's
halves fails the job at once (R399). -/
def State.jobRun (s : State) (q : Nat) (raw : List Byte) (drawn : Option Nat) (io : JobIo) : State :=
  let pipe := q % 4
  let k1 := jobField raw 12 2
  let k2 := jobField raw 14 2
  let used := if jobAes raw then (if jobRecipe raw ≥ 4 then [k1, k2] else [k1]) else []
  match used.find? fun k => (s.cachedKey pipe k).isNone with
  | some _ =>
    let s := (used.filter fun k => (s.cachedKey pipe k).isNone).foldl (fun s k => s.wantKey pipe k) s
    ({ s with cipher := { s.cipher with jobs := Tab.insert s.cipher.jobs q ⟨raw, drawn⟩ } }).cqRefresh q
  | none =>
    let scalar := jobRecipe raw = 0x0C ∨ jobRecipe raw = 0x0E
    let bad := (used.map fun k => (s.cachedKey pipe k).getD 0) ++ (if scalar then [s.unwrapCode k1] else [])
    let hash := jobRecipe raw = 8 ∨ jobRecipe raw = 9
    let m := if jobAes raw then s.blockMismatch pipe io.mismatch
      else if hash ∧ ¬ io.mismatch.isEmpty then (0x20, s.count 0x0B 1 pipe 1) else (0, s)
    let s := m.2
    let causes := bad ++ [if jobAes raw ∧ ¬ s.rngOk then 0x20 else m.1]
    match combineCodes causes with
    | c + 1 => s.jobEnd q raw drawn (c + 1) 0
    | 0 =>
      let s := (s.count 0x0B 0 (bit (s.slot k1).inverse) (blocksOf raw).1).count 0x0B 0 (bit (s.slot k2).inverse) (blocksOf raw).2
      let sp := jobField raw 2 1
      let hw := drawn.isSome
      let nt := jobNonceTag raw
      let opensTag := jobRecipe raw == 2 || jobRecipe raw == 0x0D
      match s.jobGets q [(natBit sp 0, jobField raw 16 8, jobField raw 8 4, io.src), (natBit sp 2, jobField raw 32 8, jobAux raw, io.aux),
          (natBit sp 1, jobField raw 48 8, if hw then 0 else nt.1, io.nonce),
          (natBit sp 1, jobField raw 56 8, if opensTag then nt.2 else 0, io.tag)] with
      | (.error c, s) => s.jobEnd q raw drawn c 0
      | (.ok l, s) =>
        let src := l.getD 0 []
        let nonce := match drawn with
          | some c => hwNonce (s.slot k1).salt c (jobRecipe raw == 3)
          | none => l.getD 2 []
        let out := recipeOut raw (s.slot k1).key (s.slot k2).key src (l.getD 1 []) nonce (l.getD 3 []) hw
        let s := if hash then s.count 0x0B 8 (q % 4) src.length else s
        let puts := (if hw then [(natBit sp 1, jobField raw 48 8, nonce)] else []) ++
          (if out.1 = 0 then [(natBit sp 1, jobField raw 24 8, out.2.1), (natBit sp 1, jobField raw 56 8, out.2.2)] else [])
        match s.jobPuts q puts with
        | (0, s) => s.jobEnd q raw drawn out.1 out.2.1.length
        | (c, s) => s.jobEnd q raw drawn c 0

/-- COUNTER_DRAW (R391): the slot's counter, which the slot then passes; none at the limit, and the slot is exhausted. -/
def State.counterDraw (s : State) (pipe k : Nat) : Option Nat × State :=
  let v := s.slot k
  if v.state = 2 ∨ v.counter = v.limit then (none, (s.setSlot k { v with state := 2 }).count 0x0B 4 pipe 1)
  else (some v.counter.toNat, (s.setSlot k { v with counter := v.counter + 1 }).count 0x0B 3 pipe 1)

/-- The next job of a cipher queue, of a recipe: fetched, checked and run, or a started one continued (R392 to R395). A job of
another recipe is not this command's; one whose recipe is undefined is refused by whichever command fetches it
(log entry 113, DESIGN CHOICE). -/
def State.job (s : State) (q recipe : Nat) (io : JobIo) : State :=
  match Tab.find? s.cipher.jobs q with
  | some j => if jobRecipe j.raw = recipe then s.jobRun q j.raw j.drawn io else s
  | none =>
    let owner := s.getF (R.cqCfg q) F.cqCfg_owner
    let head := s.getF (R.cqStatus q) F.cqStatus_head
    if s.getF (R.cqCfg q) F.cqCfg_enable = 0 ∨ s.getF (R.cqStatus q) F.cqStatus_state = 4 ∨ ¬ s.fetches owner ∨
        head = s.getF (R.cqTail q) F.cqTail_tail ∨ s.queueHeld q [0x06] ∨ s.ringWaits owner (s.getF (R.cqRing q) F.cqRing_space) then s
    else
      match s.ringRead owner (s.getF (R.cqRing q) F.cqRing_base * 4096) (s.getF (R.cqRing q) F.cqRing_space) (head * 64) 64 io.ring with
      | (.fail c, s) =>
        let s := s.setF (R.cqStatus q) F.cqStatus_state 4
        (s.record { source := 0x05, inst := owner, code := 0x0050, slice := owner, status := c, severity := 2,
                    detail := dAt 20 8 + dAt 22 4 + dAt 24 q }).count 0x05 8 owner 1
      | (.bytes raw, t) =>
        let c := t.jobCheck owner raw
        if jobRecipe raw ≠ recipe ∧ c.1 ≠ 0x05 then s
        else
          let t := t.setF (R.cqStatus q) F.cqStatus_head ((head + 1) % ringSlots (t.getF (R.cqRing q) F.cqRing_size))
          if ¬ t.full then (t.cmdRefused 0x0B (q % 4) owner q (jobRecipe raw) 0x01).jobEnd q raw none 0x01 0
          else match c with
            | (0, _) =>
              if natBit (jobField raw 1 1) 0 then
                match t.counterDraw (q % 4) (jobField raw 12 2) with
                | (none, t) => t.jobEnd q raw none 0x22 0
                | (some d, t) => t.jobRun q raw (some d) io
              else t.jobRun q raw none io
            | (c, some a) => (t.recordBlocked 0x0B (q % 4) owner 0x08 a).jobEnd q raw none c 0
            | (c, none) =>
              let t := if c = 0x01 then t.cmdRefused 0x0B (q % 4) owner q (jobRecipe raw) c
                else if c = 0x08 then t.blockedName 0x0B (q % 4) owner else t
              t.jobEnd q raw none c 0

/-- GCM_SEAL (R396). -/
def execGcmSeal (q : Nat) (io : JobIo) (s : State) : Result := go (s.job q 0x01 io)

/-- GCM_OPEN (R396). -/
def execGcmOpen (q : Nat) (io : JobIo) (s : State) : Result := go (s.job q 0x02 io)

/-- CTR (R397). -/
def execCtr (q : Nat) (io : JobIo) (s : State) : Result := go (s.job q 0x03 io)

/-- XTS_ENCRYPT (R398). -/
def execXtsEncrypt (q : Nat) (io : JobIo) (s : State) : Result := go (s.job q 0x04 io)

/-- XTS_DECRYPT (R398). -/
def execXtsDecrypt (q : Nat) (io : JobIo) (s : State) : Result := go (s.job q 0x05 io)

/-- SHA_256 (R399). -/
def execSha256 (q : Nat) (io : JobIo) (s : State) : Result := go (s.job q 0x08 io)

/-- SHA_384 (R399). -/
def execSha384 (q : Nat) (io : JobIo) (s : State) : Result := go (s.job q 0x09 io)

/-- ECDSA_SIGN (R400). -/
def execEcdsaSign (q : Nat) (io : JobIo) (s : State) : Result := go (s.job q 0x0C io)

/-- ECDSA_VERIFY (R400). -/
def execEcdsaVerify (q : Nat) (io : JobIo) (s : State) : Result := go (s.job q 0x0D io)

/-- PUBLIC_KEY (R393, R388). -/
def execPublicKey (q : Nat) (io : JobIo) (s : State) : Result := go (s.job q 0x0E io)

/-- The cipher jobs of a slice that have started are squashed with 0x0014 (R286). -/
def State.squashJobs (s : State) (slice code : Nat) : State :=
  (s.cipher.jobs.filter fun e => s.getF (R.cqCfg e.1) F.cqCfg_owner == slice).foldl
    (fun s (e : Nat × CipherJob) => s.jobEnd e.1 e.2.raw e.2.drawn code 0) s

/-- The key slots of a slice are zeroed (R286, R20). -/
def State.zeroKeys (s : State) (slice : Nat) : State :=
  (s.cipher.slots.filter fun e => e.2.state != 0 && e.2.owner == slice).foldl (fun s (e : Nat × KeySlot) => s.zeroKey e.1) s

end Sys2Proof.Machine
end

