-- ==== Sys2Proof/Machine/Dma.lean ====
section
/-! DEFINITION. The commands of the chapter on DMA engines: rings, copies and fills, completion modes, pause, errors, squash
(R236 to R247). -/

namespace Sys2Proof.Machine

/-! ## Channels -/

/-- The registers of channel ch = e × 64 + c. -/
def dmaReg (f : Nat → Nat → Nat) (ch : Nat) : Nat := f (ch / 64) (ch % 64)

/-- The owner of a channel. -/
def State.chanOwner (s : State) (ch : Nat) : Nat := s.getF (dmaReg R.chanCfg ch) F.chanCfg_owner

/-- The descriptors in flight of a channel, oldest first. -/
def State.chanWork (s : State) (ch : Nat) : List DmaWork := Tab.get [] s.dma ch

/-- Set the descriptors in flight of a channel. -/
def State.setWork (s : State) (ch : Nat) (l : List DmaWork) : State := { s with dma := Tab.put [] s.dma ch l }

/-- The slots of a channel's ring. -/
def State.chanSlots (s : State) (ch : Nat) : Nat := ringSlots (s.getF (dmaReg R.chanRing ch) F.chanRing_size)

/-- The state of a channel: 0 idle, 1 running, 2 pausing, 3 paused, 4 error, 5 squashing. -/
def State.chanState (s : State) (ch : Nat) : Nat := s.getF (dmaReg R.chanStatus ch) F.chanStatus_state

/-- Set the state of a channel. -/
def State.setChanState (s : State) (ch v : Nat) : State := s.setF (dmaReg R.chanStatus ch) F.chanStatus_state v

/-- A descriptor's record is still to be written. -/
def DmaWork.open_ (w : DmaWork) : Bool := !w.left

/-- A descriptor reads or writes in a space. -/
def DmaWork.uses (w : DmaWork) (space : Nat) : Bool :=
  w.open_ && w.code == 0 && (fieldLE w.raw 3 1 == space || (fieldLE w.raw 0 1 == 1 && fieldLE w.raw 2 1 == space))

/-- The number of the next descriptor of a channel: one that no descriptor in flight has, and no read still outstanding was for. -/
def State.nextWork (s : State) (ch : Nat) : Nat :=
  ((s.chanWork ch).map (fun w => w.num) ++ (s.tags.filter fun e => e.2.who == ch).map fun e => e.2.num).foldl max 0 + 1

/-- An idle or running channel is running while it has work; CHAN_STATUS.index and CHAN_DONE follow the descriptor in
progress. -/
def State.chanRefresh (s : State) (ch : Nat) : State :=
  let l := s.chanWork ch
  let more := s.getF (dmaReg R.chanHead ch) F.chanHead_head != s.getF (dmaReg R.chanTail ch) F.chanTail_tail &&
    s.getF (dmaReg R.chanCfg ch) F.chanCfg_enable == 1
  let s := if s.chanState ch ≤ 1 then s.setChanState ch (bit (more || l.any DmaWork.open_)) else s
  match (List.find? (fun (w : DmaWork) => !w.issued) l).or (l.find? DmaWork.open_) with
  | some w => (s.setF (dmaReg R.chanStatus ch) F.chanStatus_index w.index).setF (dmaReg R.chanDone ch) F.chanDone_bytes w.done
  | none => s

/-- The channel is idle: no record is due of a descriptor it has fetched (R24). -/
def State.chanIdle (s : State) (ch : Nat) : Bool := s.chanState ch == 0 && !(s.chanWork ch).any DmaWork.open_

/-- A channel enters error state with a code. -/
def State.chanError (s : State) (ch code : Nat) : State :=
  (s.setChanState ch 4).setF (dmaReg R.chanStatus ch) F.chanStatus_err_code code

/-- The PASID of a channel's host accesses (R273, R274, R502) (log entry 111, DEDUCED). -/
def State.chanPasid (s : State) (ch : Nat) : Option Nat :=
  if s.chanOwner ch = 0 then some (s.getF (dmaReg R.chanCfg ch) F.chanCfg_pasid) else s.slicePasid (s.chanOwner ch)

/-- A record of a channel is held for a full ring (R241). -/
def State.chanHeld (s : State) (ch : Nat) : Bool := s.queueHeld ch [0x01]

/-- Write the record of a descriptor (R241). -/
def State.dmaRecord (s : State) (ch : Nat) (w : DmaWork) (code : Nat) (stop leave : Bool) : State :=
  let s := s.count 0x06 0 (ch / 64) 1
  s.post (fieldLE w.raw 12 2)
    { status := code, queue := ch, kind := 0x01, flags := if leave then 4 else 0, slice := s.chanOwner ch,
      tag := fieldLE w.raw 4 4, byteCount := if code = 0 then w.done else 0, time := s.now,
      word := w.index + (if stop then 2 ^ 32 else 0), irq := natBit (fieldLE w.raw 1 1) 0 }

/-! ## Fetching (R236, R239) -/

/-- DMA_DOORBELL (R236, R25): a tail beyond the ring puts the channel in error state. -/
def execDmaDoorbell (bell : Bell) (s : State) : Result :=
  match s.bell 2 bell with
  | .dropped n => go (s.bellDropped n)
  | .hit ch i =>
    if s.getF (dmaReg R.chanCfg ch) F.chanCfg_enable = 0 ∨ s.sliceState (s.chanOwner ch) ≠ 1 then
      go (s.bellDropped (s.chanOwner ch))
    else if i ≥ s.chanSlots ch then go ((s.bellBeyond (s.chanOwner ch) ch i).chanError ch 0x02)
    else go ((s.setF (dmaReg R.chanTail ch) F.chanTail_tail i).chanRefresh ch)

/-- A space code of R238. -/
def spaceOk (v : Nat) : Bool := decide (v ≤ 1) || (decide (0x10 ≤ v) && decide (v ≤ 0x1F))

/-- The first address of [a, a + n) that lies outside a slice's regions (R239): of another owner, or unmapped. -/
def State.outside (s : State) (slice a n : Nat) : Option Nat :=
  if s.stage = 3 ∧ n > 0 then some a
  else ((s.blockCodes slice a n).find? fun c => c.1 == 0x08 || c.1 == 0x11).map Prod.snd

/-- The first check of R239 that a descriptor fails, or 0, with the address it is refused for: a class that the channel or its slice may
not use (R15) is one; an opcode other than copy and fill comes
after the checked fields (R2, R238), a port that is not usable last (R295). -/
def State.dmaCheck (s : State) (ch : Nat) (raw : List Byte) : Nat × Option Nat :=
  let f := fieldLE raw
  let owner := s.chanOwner ch
  let op := f 0 1
  let n := f 8 4
  let bad (space a : Nat) : Option Nat := if space = 0 then s.outside owner a n else none
  let port (space : Nat) : Bool := decide (0x10 ≤ space) && s.getF (R.dpStatus (space - 0x10)) F.dpStatus_owner != owner
  if f 1 1 / 16 ≠ 0 ∨ f 14 2 ≠ 0 ∨ f 32 32 ≠ 0 ∨ n = 0 ∨ ¬ spaceOk (f 3 1) ∨ ¬ spaceOk (f 2 1) ∨ (op = 2 ∧ f 2 1 ≠ 0) ∨
      ¬ natBit (s.getF (dmaReg R.chanCfg ch) F.chanCfg_classes) (natBits (f 1 1) 3 2) ∨
      (owner ≠ 0 ∧ ¬ natBit (getBits (s.forceOf owner).policy F.slicePolicy_classes) (natBits (f 1 1) 3 2)) then (0x02, none)
  else if op ≠ 1 ∧ op ≠ 2 then (0x05, none)
  else
    let ranges := (if op = 1 then [bad (f 2 1) (f 16 8)] else []) ++ [bad (f 3 1) (f 24 8)]
    match ranges.filterMap id with
    | a :: _ => (0x08, some a)
    | [] =>
      let down (space : Nat) : Bool := decide (0x10 ≤ space) && !s.portUsable (space - 0x10)
      if (op = 1 ∧ port (f 2 1)) ∨ port (f 3 1) then (0x08, none)
      else if (op = 1 ∧ down (f 2 1)) ∨ down (f 3 1) then (0x16, none)
      else (0, none)

/-! ## Engine stops (R245) -/

/-- The channel is in leave mode (R242). -/
def State.chanLeave (s : State) (ch : Nat) : Bool := s.getF (dmaReg R.chanCfg ch) F.chanCfg_leave == 1

/-- The code a descriptor has come to without its record: a check it failed, an error of its data, its end; none while it is in
progress. -/
def DmaWork.outcome (w : DmaWork) (leave : Bool) : Option Nat :=
  if w.code ≠ 0 then some w.code else if w.acked ∨ (w.issued ∧ leave) then some 0 else none

/-- A descriptor whose record is written stays while writes of it are not acknowledged (R240, R243). -/
def DmaWork.rest (w : DmaWork) (code : Nat) : Option DmaWork :=
  if w.acked ∨ (code ≠ 0 ∧ w.done = 0) then none else some { w with left := true, issued := true, code := code, held := [] }

/-- Every descriptor in flight of a channel completes with the code of an engine stop, one that has come to its end with its own, and the
channel enters error state. -/
def State.stopChan (s : State) (ch code : Nat) : State :=
  let leave := s.chanLeave ch
  let l := s.chanWork ch
  let kept := l.filterMap fun w => if w.left then some w else w.rest ((w.outcome leave).getD code)
  let s := (l.filter DmaWork.open_).foldl (fun s w => match w.outcome leave with
    | some c => s.dmaRecord ch w c false (leave && c == 0)
    | none => s.dmaRecord ch w code true false) (s.setWork ch kept)
  s.chanError ch code

/-- A bus error stops every channel of an engine (R245) (log entry 109, DEDUCED). -/
def State.engineStop (s : State) (e code addr : Nat) : State :=
  let s := (s.setF (R.engineStatus e) F.engineStatus_stop_code code).setReg (R.engineErrAddr e) (BitVec.ofNat 64 addr)
  let s := (s.setF (R.engineStatus e) F.engineStatus_stopped 1).drainRefresh
  let s := (s.count 0x06 2 e 1).record { source := 0x06, inst := e, code := 0x0050, status := code, severity := 2,
                                         detail := dAt 20 9 + dAt 22 4 }
  (below 64).foldl (fun s c => s.stopChan (e * 64 + c) code) s

/-- An access of a descriptor in a space: the next write, or the next read. -/
def DmaWork.addrIn (w : DmaWork) (space : Nat) : Nat :=
  if fieldLE w.raw 3 1 = space then fieldLE w.raw 24 8 + w.done else fieldLE w.raw 16 8 + w.done

/-- The engines of the channels which that have accesses in progress in a space stop: its link went down (R245, R295). -/
def State.spaceFails (s : State) (space : Nat) (which : Nat → Bool) : State :=
  let hit := s.dma.filterMap fun e =>
    if which e.1 then (e.2.find? fun w => w.uses space && (w.issued || decide (w.asked + w.done > 0))).map fun w => (e.1 / 64, w.addrIn space)
    else none
  hit.foldl (fun s (h : Nat × Nat) =>
    if s.getF (R.engineStatus h.1) F.engineStatus_stop_code = 0x16 ∧ ((below 64).all fun c => s.chanState (h.1 * 64 + c) == 4) then s
    else s.engineStop h.1 0x16 h.2) s

/-- A descriptor enters a channel behind those it has; a blocked range or port is recorded (R19, R239). -/
def State.dmaTake (s : State) (ch index : Nat) (raw : List Byte) : State :=
  let owner := s.chanOwner ch
  let c := s.dmaCheck ch raw
  let s := match c with
    | (0x08, some a) => s.recordBlocked 0x06 (ch / 64) owner 0x08 a
    | (0x08, none) => s.blockedName 0x06 (ch / 64) owner
    | _ => s
  s.setWork ch (s.chanWork ch ++ [DmaWork.fetched (s.nextWork ch) index raw c.1])

/-- Records of the descriptors that have come to their ends are written in ring order, while the ring has room (R239 to R242); one
with writes that are not acknowledged, of leave mode or failed, stays until they are. -/
def State.dmaFlush (s : State) (ch : Nat) : Nat → State
  | 0 => s
  | n + 1 =>
    let l := s.chanWork ch
    match l.find? DmaWork.open_ with
    | none => s
    | some w =>
      let leave := s.chanLeave ch
      match w.outcome leave with
      | none => s
      | some c =>
        if s.chanHeld ch then s
        else
          let rest := l.filterMap fun v => if v.num = w.num then w.rest c else some v
          ((s.setWork ch rest).dmaRecord ch w c false (leave && c == 0)).dmaFlush ch n

/-- The records that are due, and CHAN_STATUS. -/
def State.dmaSettle (s : State) (ch : Nat) : State := (s.dmaFlush ch (s.chanWork ch).length).chanRefresh ch

/-- DMA_DESCRIPTOR_FETCH (R236, R239): a failing descriptor completes with its code, and the channel goes on. A failed ring read
of a bus stops the engine. -/
def execDmaDescriptorFetch (ch : Nat) (host : Got) (s : State) : Result :=
  let owner := s.chanOwner ch
  let head := s.getF (dmaReg R.chanHead ch) F.chanHead_head
  if s.getF (dmaReg R.chanCfg ch) F.chanCfg_enable = 0 ∨ s.chanState ch ≥ 2 ∨ ¬ s.fetches owner ∨ s.chanHeld ch ∨
      head = s.getF (dmaReg R.chanTail ch) F.chanTail_tail ∨
      s.ringWaits owner (s.getF (dmaReg R.chanRing ch) F.chanRing_space) then go s
  else
    let space := s.getF (dmaReg R.chanRing ch) F.chanRing_space
    match s.ringReadAs owner (s.chanPasid ch) (s.getF (dmaReg R.chanRing ch) F.chanRing_base * 4096) space (head * 64) 64 host with
    | (.fail c, s) =>
      if space = 1 then go (s.engineStop (ch / 64) c (s.getF (dmaReg R.chanRing ch) F.chanRing_base * 4096 + head * 64))
      else go ((s.chanError ch c).count 0x05 8 owner 1)
    | (.bytes raw, s) =>
      let s := s.setF (dmaReg R.chanHead ch) F.chanHead_head ((head + 1) % s.chanSlots ch)
      go ((s.dmaTake ch head raw).dmaSettle ch)

/-! ## Moving bytes (R238, R240, R242) -/

/-- Write bytes of a descriptor to its destination: 0, or the code of the failure. -/
def State.dmaPut (s : State) (ch space addr : Nat) (l : List Byte) : Nat × State :=
  let owner := s.chanOwner ch
  if space = 0 then
    match s.memWrite 0x06 (ch / 64) 2 owner addr l with
    | (none, s) => (0, s)
    | (some c, s) => (c, s)
  else if space = 1 then
    if s.hostPath (s.sliceFn owner) then
      (0, (s.emitWrites (s.sliceFn owner) (s.chanPasid ch) addr l).logPages owner addr l.length)
    else (s.pathCode (s.sliceFn owner) 0x16, s)
  else if s.portUsable (space - 0x10) then (0, s.emitPortWrites (space - 0x10) addr l)
  else (0x16, s)

/-- Read bytes of a descriptor from its source. -/
def State.dmaGet (s : State) (ch space addr n : Nat) (data : Got) : Got × State :=
  let owner := s.chanOwner ch
  let usable := if space = 1 then s.hostPath (s.sliceFn owner) else s.portUsable (space - 0x10)
  if space = 0 then s.memRead 0x06 (ch / 64) 2 owner addr n
  else if ¬ usable then (.fail (if space = 1 then s.pathCode (s.sliceFn owner) 0x16 else 0x16), s)
  else if space = 1 then s.hostRead (s.sliceFn owner) (s.chanPasid ch) addr n data
  else
    let s := (piecesAt 4096 (n / 4096 + 2) addr n).foldl (fun s p => s.emit (.portRead (space - 0x10) p.1 p.2)) s
    match data with
    | .bytes l => if l.length = n then (.bytes l, s) else (.fail 0x11, s)
    | .fail c => (.fail c, s)

/-- The codes of a bus error (R245); of a write, the refusal by a fenced target is one. -/
def busError (write : Bool) (c : Nat) : Bool := c == 0x11 || c == 0x12 || c == 0x16 || (write && c == 0x15)

/-- Replace the descriptor of a number in a list. -/
def setWorkAt (l : List DmaWork) (w : DmaWork) : List DmaWork := l.map fun x => if x.num = w.num then w else x

/-- A failure of a descriptor in progress, of a write or of a read: a bus error stops the engine; another ends the descriptor alone
(R245, R246). -/
def State.dmaFail (s : State) (ch : Nat) (w : DmaWork) (write : Bool) (code addr : Nat) : State :=
  if busError write code then s.engineStop (ch / 64) (if code = 0x15 then 0x11 else code) addr
  else (s.setWork ch (setWorkAt (s.chanWork ch) { w with issued := true, code := code })).dmaSettle ch

/-- The unit whose tags a request in a space uses: a function, or 2 + p for port p. -/
def State.tagUnit (s : State) (ch space : Nat) : Nat := if space = 1 then s.sliceFn (s.chanOwner ch) else 2 + (space - 0x10)

/-- A request of a channel goes out under a tag: a read of n bytes, or with n = 0 the one that follows the last posted write; none while
no tag is free (R242, R261, R264). -/
def State.dmaRequest (s : State) (ch space a : Nat) (w : DmaWork) (n : Nat) : Option State :=
  match s.issueTag (s.tagUnit ch space) ⟨ch, s.now, w.num, w.asked, n, 0⟩ with
  | (none, _) => none
  | (some _, s) =>
    if space = 1 then some (s.emitReads (s.sliceFn (s.chanOwner ch)) (s.chanPasid ch) a n)
    else some (s.emit (.portRead (space - 0x10) a n))

/-- The zero-length read of a response-wait descriptor whose posted writes are issued: it goes out once (R242). -/
def State.dmaProbe (s : State) (ch : Nat) (w : DmaWork) : State :=
  let space := fieldLE w.raw 3 1
  if space = 0 ∨ s.chanLeave ch ∨ w.acked ∨ (s.tags.any fun e => e.2.who == ch && e.2.num == w.num && e.2.len == 0) then s
  else (s.dmaRequest ch space (fieldLE w.raw 24 8) w 0).getD s

/-- A descriptor's bytes have moved: with the last one its writes are issued (R242). -/
def State.dmaMoved (s : State) (ch : Nat) (w : DmaWork) (n : Nat) : State :=
  let w := { w with done := w.done + n }
  let s := s.count 0x06 1 (ch / 64) n
  let last := decide (w.done ≥ fieldLE w.raw 8 4)
  let w := { w with issued := last }
  let s := s.setWork ch (setWorkAt (s.chanWork ch) w)
  (if last then s.dmaProbe ch w else s).dmaSettle ch

/-- The descriptor that a channel may move bytes of now: the oldest not issued, unless it is fenced and earlier writes are not
acknowledged (R240) (log entry 110, DESIGN CHOICE). -/
def State.dmaNext (s : State) (ch : Nat) : Option DmaWork :=
  if s.chanState ch ≥ 2 ∨ s.chanHeld ch ∨ ¬ s.awake then none
  else match List.find? (fun (w : DmaWork) => !w.issued) (s.chanWork ch) with
    | some w =>
      let earlier := (s.chanWork ch).any fun v => v.issued && (v.code == 0 || decide (v.done > 0)) && !v.acked
      if natBit (fieldLE w.raw 1 1) 1 && earlier then none else some w
    | none => none

/-- The one of an opcode. -/
def State.dmaNow (s : State) (ch op : Nat) : Option DmaWork := (s.dmaNext ch).filter fun w => fieldLE w.raw 0 1 == op

/-- The fabric class of a descriptor. -/
def DmaWork.cls (w : DmaWork) : Nat := natBits (fieldLE w.raw 1 1) 3 2

/-- The channels of an engine that have bytes of a class to ask for or to write. -/
def State.dmaBusy (s : State) (e cls : Nat) : List Nat :=
  (s.dma.filter fun t => t.1 / 64 == e && ((s.dmaNext t.1).map fun w =>
    w.cls == cls && decide ((if fieldLE w.raw 0 1 = 1 then w.asked else w.done) < fieldLE w.raw 8 4)).getD false).map Prod.fst

/-- Whose turn it is within an engine and class, and the bytes of its unit that have moved: channels are served round-robin in units of
4 KiB (R240). -/
def State.dmaTurnOf (s : State) (e cls : Nat) : Option (Nat × Nat) :=
  let t := Tab.get (0, 4096) s.dmaTurn (e * 4 + cls)
  let l := s.dmaBusy e cls
  if l.contains t.1 ∧ t.2 < 4096 then some t
  else ((l.find? fun c => decide (c > t.1)).or l.head?).map fun c => (c, 0)

/-- The bytes of at most n that a channel may move now: 0 while it is another's turn. -/
def State.dmaShare (s : State) (ch : Nat) (w : DmaWork) (n : Nat) : Nat :=
  match s.dmaTurnOf (ch / 64) w.cls with
  | some t => if t.1 = ch then min n (4096 - t.2) else 0
  | none => 0

/-- A channel has moved bytes of its unit. -/
def State.dmaTook (s : State) (ch : Nat) (w : DmaWork) (n : Nat) : State :=
  match s.dmaTurnOf (ch / 64) w.cls with
  | some t => { s with dmaTurn := Tab.insert s.dmaTurn (ch / 64 * 4 + w.cls) (ch, (if t.1 = ch then t.2 else 0) + n) }
  | none => s

/-- Write what a descriptor holds from its next byte on, in address order (R240). -/
def State.dmaDrain (s : State) (ch num : Nat) : Nat → State
  | 0 => s
  | n + 1 =>
    match (s.chanWork ch).find? fun w => w.num == num && !w.issued with
    | none => s
    | some w =>
      match Tab.find? w.held w.done with
      | none => s
      | some l =>
        let dst := fieldLE w.raw 24 8 + w.done
        match s.dmaPut ch (fieldLE w.raw 3 1) dst l with
        | (0, s) => (s.dmaMoved ch { w with held := Tab.erase w.held w.done } l.length).dmaDrain ch num n
        | (c, s) => s.dmaFail ch w true c dst

/-- Bytes of a copy's source arrive, from byte off of the descriptor on: they are written once every earlier byte is. -/
def State.dmaArrive (s : State) (ch : Nat) (w : DmaWork) (off : Nat) (l : List Byte) : State :=
  if l.isEmpty then s
  else
    let w := { w with held := Tab.insert w.held off l }
    (s.setWork ch (setWorkAt (s.chanWork ch) w)).dmaDrain ch w.num w.held.length

/-- The next read of a copy is requested under a tag, of n bytes or fewer; without a free tag it waits (R251, R261, R264). -/
def State.dmaAsk (s : State) (ch : Nat) (w : DmaWork) (n : Nat) : State :=
  let space := fieldLE w.raw 2 1
  let usable := if space = 1 then s.hostPath (s.sliceFn (s.chanOwner ch)) else s.portUsable (space - 0x10)
  let a := fieldLE w.raw 16 8 + w.asked
  let size := 128 * 2 ^ (Tab.get Ep.reset s.ep (s.sliceFn (s.chanOwner ch))).mrrs
  let n := if space = 1 then min n (size - a % size) else min n (4096 - a % 4096)
  if space = 0 ∨ n = 0 then s
  else if ¬ usable then s.dmaFail ch w false (if space = 1 then s.pathCode (s.sliceFn (s.chanOwner ch)) 0x16 else 0x16) a
  else match s.dmaRequest ch space a w n with
    | none => s
    | some t => (t.setWork ch (setWorkAt (t.chanWork ch) { w with asked := w.asked + n })).dmaTook ch w n

/-- DMA_COPY (R238, R240): up to n more bytes of the copy in progress move, or are requested, in the channel's turn. -/
def execDmaCopy (ch n : Nat) (data : Option Got) (s : State) : Result :=
  match s.dmaNow ch 1 with
  | none => go (s.dmaSettle ch)
  | some w =>
    let k := s.dmaShare ch w (min n (fieldLE w.raw 8 4 - w.asked))
    let src := fieldLE w.raw 16 8 + w.asked
    let space := fieldLE w.raw 2 1
    if k = 0 ∨ s.tagWait (s.chanOwner ch) space ∨ (space ≥ 0x10 ∧ s.portUsable (space - 0x10) ∧
        (s.nextTag (s.tagUnit ch space)).isNone) then go s
    else match data with
    | none => go (s.dmaAsk ch w k)
    | some g =>
      let g : Got := match g with
        | .bytes l => .bytes (l.take k)
        | .fail c => .fail c
      match (s.dmaTook ch w k).dmaGet ch (fieldLE w.raw 2 1) src k g with
      | (.fail c, s) => go (s.dmaFail ch w false c src)
      | (.bytes l, s) => go (s.dmaArrive ch { w with asked := w.asked + k } w.asked l)

/-- DMA_FILL (R238, R240): up to n more bytes of the fill in progress, in the channel's turn; the pattern repeats from dst. -/
def execDmaFill (ch n : Nat) (s : State) : Result :=
  match s.dmaNow ch 2 with
  | none => go (s.dmaSettle ch)
  | some w =>
    let k := s.dmaShare ch w (min n (fieldLE w.raw 8 4 - w.done))
    let pat := (w.raw.drop 16).take 8
    let dst := fieldLE w.raw 24 8 + w.done
    if k = 0 then go s
    else match (s.dmaTook ch w k).dmaPut ch (fieldLE w.raw 3 1) dst ((below k).map fun i => pat.getD ((w.done + i) % 8) 0) with
    | (0, s) => go (s.dmaMoved ch w k)
    | (c, s) => go (s.dmaFail ch w true c dst)

/-- The writes of a descriptor are acknowledged (R240, R242). -/
def State.dmaAcked (s : State) (ch : Nat) (w : DmaWork) : State :=
  let l := s.chanWork ch
  (s.setWork ch (if w.left then l.filter fun v => v.num != w.num else setWorkAt l { w with acked := true })).dmaSettle ch

/-- DMA_WRITES_ACKED (R240, R242): the oldest descriptor whose writes are issued has them acknowledged; in response-wait mode those to a
host or port are once the zero-length read behind them completes, which goes out now if no tag was free before. -/
def execDmaWritesAcked (ch : Nat) (s : State) : Result :=
  match (s.chanWork ch).find? fun w => w.issued && (w.code == 0 || (w.left && decide (w.done > 0))) && !w.acked with
  | none => go (s.dmaSettle ch)
  | some w =>
    if fieldLE w.raw 3 1 ≠ 0 ∧ ¬ s.chanLeave ch ∧ ¬ w.left then go ((s.dmaProbe ch w).dmaSettle ch) else go (s.dmaAcked ch w)

/-- DMA_LATE_ERROR (R243): a write of a descriptor whose leave-mode record is written fails: late_error, error state and the daybook; the
record stands. -/
def execDmaLateError (ch code : Nat) (s : State) : Result :=
  match (s.chanWork ch).find? fun w => w.left && w.code == 0 with
  | none => go s
  | some w =>
    let s := s.setWork ch ((s.chanWork ch).filter fun v => v.num != w.num)
    let s := (s.setF (dmaReg R.chanStatus ch) F.chanStatus_late_error 1).chanError ch code
    go ((s.count 0x06 3 (ch / 64) 1).record
      { source := 0x06, inst := (ch / 64), code := 0x0050, slice := (s.chanOwner ch),
        severity := 2, status := code, detail := dAt 20 9 + dAt 22 4 + dAt 24 ch })

/-! ## Pause, errors, squash (R244, R245, R247) -/

/-- DMA_PAUSE (R244): set, a running channel stops issuing reads and an idle one is paused at once; cleared, the channel goes
on. -/
def execDmaPause (ch : Nat) (pause : Bool) (s : State) : Result :=
  if ¬ s.serving then go s else
  let st := s.chanState ch
  let s := s.setF (dmaReg R.chanCtrl ch) F.chanCtrl_pause (bit pause)
  if pause then
    if st = 0 then go (s.setChanState ch 3) else if st = 1 then go ((s.setChanState ch 2).chanRefresh ch) else go s
  else if st = 2 ∨ st = 3 then go ((s.setChanState ch 0).chanRefresh ch) else go s

/-- DMA_PAUSED (R244). -/
def execDmaPaused (ch : Nat) (s : State) : Result :=
  if s.chanState ch = 2 ∧ ¬ (s.tags.any fun e => e.2.who == ch) then go ((s.setChanState ch 3).chanRefresh ch) else go s

/-- DMA_ENGINE_STOP (R245). -/
def execDmaEngineStop (e code addr : Nat) (s : State) : Result :=
  if busError true code then go (s.engineStop e (if code = 0x15 then 0x11 else code) addr) else go s

/-- DMA_CLEAR_ERROR (R245): on a channel that is not in error state the write is ignored. A pause that is set holds. -/
def execDmaClearError (ch : Nat) (s : State) : Result :=
  if ¬ s.serving then go s else
  if s.chanState ch ≠ 4 then go s
  else
    let paused := s.getF (dmaReg R.chanCtrl ch) F.chanCtrl_pause = 1
    go ((s.setChanState ch (if paused then 3 else 0)).chanRefresh ch)

/-- Squash a channel (R247, R286): the tags of its reads are quarantined; its fetched
descriptors complete with 0x0014, in rings of device memory only; it is idle with head at the tail. -/
def State.squashChan (s : State) (ch : Nat) : State :=
  let l := s.chanWork ch
  let s := (s.setWork ch []).quarantineOf ch
  let leave := s.chanLeave ch
  let s := (l.filter DmaWork.open_).foldl (fun s w =>
    let c := (w.outcome leave).getD 0x14
    if s.getF (R.crRing (fieldLE w.raw 12 2)) F.crRing_space = 0 then s.dmaRecord ch w c false (leave && c == 0) else s) s
  let s := s.setF (dmaReg R.chanHead ch) F.chanHead_head (s.getF (dmaReg R.chanTail ch) F.chanTail_tail)
  let s := (s.setChanState ch 0).setF (dmaReg R.chanCtrl ch) F.chanCtrl_pause 0
  s.count 0x06 4 (ch / 64) 1

/-- The channels of a slice that name it in CHAN_CFG and are in use: enabled, with work, or not idle. -/
def State.channelsInUse (s : State) (slice : Nat) : List Nat :=
  let on := (below 16).flatMap fun e =>
    (s.listedWith (R.chanCfg e 0) 0x40 64 [(F.chanCfg_enable, 1), (F.chanCfg_owner, slice)]).map fun c => e * 64 + c
  let moving := (below 16).flatMap fun e =>
    ((s.listed (R.chanStatus e 0) 0x40 64).map fun c => e * 64 + c).filter fun ch => s.chanState ch != 0
  (on ++ (s.dma.map Prod.fst ++ moving).filter fun ch => s.chanOwner ch == slice).eraseDups

/-- Squash every channel of a slice (R247). -/
def State.squashSlice (s : State) (slice : Nat) : State := (s.channelsInUse slice).foldl (fun s ch => s.squashChan ch) s

/-- DMA_SQUASH (R247): the manager's squash of a channel. -/
def execDmaSquash (ch : Nat) (s : State) : Result :=
  if ¬ s.serving then go s else go (s.squashChan ch)

end Sys2Proof.Machine
end

