-- ==== Sys2Proof/Machine/NetOps.lean ====
section
/-! DEFINITION. The transport's shared operations: residence of contexts, answers, records and events, the end of messages,
connection errors, memory regions, the receive side (R354 to R378). -/

namespace Sys2Proof.Machine

/-! ## Contexts in SRAM and the spill area (R359) -/

/-- A spill area exists: the DDR5 channel 7 reserved region, or slice 0 host memory. -/
def State.spills (s : State) : Bool :=
  s.getF R.memLayout F.memLayout_ddr7_use == 1 || s.getF R.spillCfg F.spillCfg_host == 1

/-- The contexts the device can hold: 65,536, and those the spill area has room for at 192 bytes each. -/
def State.connRoom (s : State) : Nat :=
  if s.getF R.memLayout F.memLayout_ddr7_use = 1 then min (2 ^ 24) (65536 + s.ddr.res / 192)
  else if s.getF R.spillCfg F.spillCfg_host = 1 then 2 ^ 24 else 65536

/-- A context may be evicted: no message partly received, no packet unacknowledged (R359). -/
def Conn.evictable (c : Conn) : Bool := c.rx.isEmpty && c.unacked.isEmpty

/-- A connection's context becomes resident and latest used; beyond 65,536 the least recently used evictable one spills
(log entry 250, DESIGN CHOICE). -/
def State.touchConn (s : State) (n : Nat) : State :=
  let r := n :: s.net.resident.filter fun x => x != n
  if r.length ≤ 65536 then { s with net := { s.net with resident := r } }
  else
    let victim := List.find? (fun (x : Nat) => x != n && ((s.conn? x).map Conn.evictable).getD true) r.reverse
    match victim with
    | some v =>
      let s := { s with net := { s.net with resident := r.filter fun x => x != v } }
      s.netCount 8 (((s.conn? v).map Conn.port).getD 0) 1
    | none => { s with net := { s.net with resident := r } }

/-- The context of a connection is in SRAM. -/
def State.isResident (s : State) (n : Nat) : Bool := s.net.resident.contains n

/-! ## Records and events (R362, R378) -/

/-- Write a record of a connection (R362). -/
def State.connRecord (s : State) (n : Nat) (c : Conn) (op tag status bytes imm : Nat) : State :=
  s.post c.cq
    { status := status, queue := n % 2 ^ 16, kind := 0x05, flags := 0, slice := c.owner, tag := tag, byteCount := byteCount32 bytes,
      time := s.now, word := n + op * 2 ^ 24 + imm * 2 ^ 32, irq := false }

/-- Write an event of a connection (R378); one that finds its ring full is counted and dropped (log entry 105, DEDUCED). -/
def State.connEvent (s : State) (n : Nat) (c : Conn) (ev status tag : Nat) : State :=
  if s.crOpen c.evq c.owner ∧ s.crFull c.evq then s.netCount 13 c.port 1
  else s.post c.evq
    { status := status, queue := n % 2 ^ 16, kind := 0x05, flags := 0, slice := c.owner, tag := tag, byteCount := 0, time := s.now,
      word := n + ev * 2 ^ 24, irq := false }

/-- The source of a received message's record. -/
def State.recvRecord (s : State) (n : Nat) (c : Conn) (q : RecvReq) (status bytes imm : Nat) : State :=
  s.connRecord n c 0x10 q.tag status bytes imm

/-! ## Answers (R355, R372) -/

/-- An answer leaves through the ack_queue; of a mirrored slice it waits for the standby (R450). -/
def State.answer (s : State) (n : Nat) (c : Conn) (a : RoceAnswer) : State :=
  if s.replicates 1 c.owner then s.holdAck (c.mirror n) (.answer n c.ackQueue a)
  else s.connFrame c c.ackQueue (.answer n a)

/-- The selective bitmap of a sprayed receiver: PSNs e + 1 to e + 64. -/
def Conn.bitmap (c : Conn) : Nat :=
  (below 64).foldl (fun (m : Nat) i => if c.ahead.contains (psnAdd c.expPsn (1 + i)) then m + 2 ^ i else m) 0

/-- An ACK for e − 1 (R366, R372). -/
def State.sendAck (s : State) (n : Nat) : State :=
  match s.conn? n with
  | none => s
  | some c =>
    let s := s.setConn n { c with sinceAck := 0, ceEcho := false }
    s.answer n c (.ack (psnAdd c.expPsn (2 ^ 24 - 1)) (if c.sprayed then c.bitmap else 0) (c.sprayed && c.ceEcho))

/-- The type of a NAK, as the tally numbers it. -/
def nakType : NakKind → Nat
  | .sequence => 0
  | .invalid => 1
  | .access => 2
  | .operational => 3
  | .rnr _ => 4

/-- A NAK is sent and counted; an invalid request raises event 0x81 (R353, R378). -/
def State.sendNak (s : State) (n : Nat) (c : Conn) (k : NakKind) : State :=
  let s := (s.answer n c (.nak k c.expPsn)).netCount 4 (nakType k) 1
  match k with
  | .invalid => s.connEvent n c 0x81 0 0
  | _ => s

/-- A CNP for a CE-marked packet, at most one in cnp_us (R376). -/
def State.sendCnp (s : State) (n : Nat) (c : Conn) : State :=
  let due := match c.cnpAt with
    | some t => decide (s.since t ≥ usTicks (s.getF R.transportCfg F.transportCfg_cnp_us))
    | none => true
  let s := s.setConn n { c with ceEcho := true, cnpAt := if due then some s.now else c.cnpAt }
  if due then (s.answer n c .cnp).netCount 5 c.port 1 else s

/-! ## The end of messages and connection errors (R361, R362, R377) -/

/-- A message ends with a code at its owner: a record, or the training or storage operation it serves. -/
def State.msgEnd (s : State) (n : Nat) (c : Conn) (m : Msg) (code : Nat) : State :=
  match m.owner with
  | .request tag signalled => if code = 0 ∧ ¬ signalled then s else s.connRecord n c m.op tag code (if code = 0 then m.length else 0) 0
  | .scatter d => s.scatterWrite d code
  | .manifest j => s.manifestWrite j code
  | .storage _ => s

/-- A PSN lies in the range of a message. -/
def Msg.covers (m : Msg) (psn : Nat) : Bool := decide (psnDist m.firstPsn psn ≤ psnDist m.firstPsn m.lastPsn)

/-- A message is complete at its sender: every packet is acknowledged and READ or atomic data have come. -/
def Conn.msgDone (c : Conn) (m : Msg) : Bool :=
  (decide (m.op ≤ 3) || m.answered) && !(c.unacked.any fun p => m.covers p.pkt.psn) && !(c.txq.any fun p => m.covers p.psn)

/-- Complete messages in queue order (R361). -/
def State.completeMsgs (s : State) (n : Nat) : Nat → State
  | 0 => s
  | k + 1 =>
    match s.conn? n with
    | none => s
    | some c =>
      match c.msgs with
      | m :: ms => if c.msgDone m then ((s.setConn n { c with msgs := ms }).msgEnd n c m 0).completeMsgs n k else s
      | [] => s

/-- Every entry of a connection's rings in device memory that is not fetched completes: the first with one code, the others with
0x0014 (R377). -/
def State.flushRing (s : State) (n : Nat) (c : Conn) (send : Bool) (first : Nat) : State :=
  let w : Nat := if send then 5 else 6
  let slots := ringSlots (c.field w (3, 0))
  let head := if send then c.sqHead else c.rqHead
  let tail := if send then c.sqTail else c.rqTail
  if c.field w (4, 4) = 1 then s
  else (below ((tail + slots - head) % slots)).foldl (fun s i =>
    let raw := s.bytesAt (c.field w (63, 12) * 4096 + (head + i) % slots * 64) 64
    s.connRecord n c (fieldLE raw 0 1) (fieldLE raw 4 4) (if i = 0 then first else 0x14) 0 0) s

/-- CONNECTION_ERROR (R377): the failing request carries the code, every other request 0x0014, then event 0x80. failing: the
position of the failing message, beyond the last for a send request that is not fetched; recv: it is the oldest receive request. -/
def State.connError (s : State) (n code failing : Nat) (recv : Bool := false) : State :=
  match s.conn? n with
  | none => s
  | some c =>
    if c.state = 4 then s
    else
      let hostSq := c.field 5 (4, 4) = 1
      let hostRq := c.field 6 (4, 4) = 1
      let s := s.setConn n { c with state := 4, msgs := [], txq := [], unacked := [], rx := [], recvs := [], ahead := [],
                                    sqHead := if hostSq then c.sqHead else c.sqTail, rqHead := if hostRq then c.rqHead else c.rqTail,
                                    rnrWait := false }
      let s := c.msgs.zipIdx.foldl (fun s e => s.msgEnd n c e.1 (if ¬ recv ∧ e.2 = failing then code else 0x14)) s
      let s := s.flushRing n c true (if ¬ recv ∧ c.msgs.length ≤ failing then code else 0x14)
      let taken := c.rx.filterMap RxMsg.recv ++ c.recvs
      let s := taken.zipIdx.foldl (fun s e => s.recvRecord n c e.1 (if recv ∧ e.2 = 0 then code else 0x14) 0 0) s
      let s := s.flushRing n c false (if recv ∧ taken.isEmpty then code else 0x14)
      let s := s.connEvent n c 0x80 code 0
      ((s.ckptConnLost n code).storeConnLost n).tellConn n

/-- The code of a connection that gives up: the port is down, or not (R377) (log entry 103, DEDUCED). -/
def State.giveUpCode (s : State) (c : Conn) : Nat :=
  if s.getF (R.netPortStatus c.port) F.netPortStatus_link_up = 1 then 0x12 else 0x16

/-- The connections of a slice. -/
def State.connsOf (s : State) (slice : Nat) : List Nat := (s.net.conns.filter fun e => e.2.owner == slice).map Prod.fst

/-! ## Memory regions (R363, R364) -/

/-- An entry of the memory region table, cached from the table in memory. -/
def State.mrEntry (s : State) (i : Nat) : Option (List Byte) × State :=
  match Tab.find? s.net.mrs i with
  | some e => (some e, s)
  | none =>
    if i ≥ 2 ^ min 20 (s.getF R.mrTable F.mrTable_log2_entries) then (none, s)
    else match s.memRead 0x0A 0 6 0 (s.getF R.mrTable F.mrTable_base * 4096 + i * 32) 32 with
      | (.bytes l, s) => (some l, { s with net := { s.net with mrs := Tab.insert s.net.mrs i l } })
      | (.fail _, s) => (none, s)

/-- The target of an access to a remote address under a key: space and address, or none where it is refused (R363). perm: the bit
of access it needs. -/
def State.mrTarget (s : State) (c : Conn) (rkey va len perm : Nat) : Option (Nat × Nat) × State :=
  match s.mrEntry (rkey / 256) with
  | (none, s) => (none, s)
  | (some e, s) =>
    let f := fieldLE e
    if natBit (f 29 1) 0 ∧ f 25 1 = rkey % 256 ∧ f 28 1 = c.owner ∧ f 26 2 = c.pd ∧ natBit (f 24 1) perm ∧ f 0 8 ≤ va ∧
        va + len ≤ f 0 8 + f 16 8 then
      (some (natBits (f 29 1) 1 1, f 8 8 + (va - f 0 8)), s)
    else (none, s)

/-- Write bytes for a slice in a space: 0, or the code of the failure. -/
def State.netPut (s : State) (slice space addr : Nat) (l : List Byte) : Nat × State :=
  if l.isEmpty then (0, s)
  else if space = 1 then
    if s.hostPath (s.sliceFn slice) then (0, s.hostWrite slice addr l) else (s.pathCode (s.sliceFn slice) 0x11, s)
  else match s.memWrite 0x0A 0 6 slice addr l with
    | (none, s) => (0, s)
    | (some c, s) => (c, s)

/-- Read bytes for a slice in a space; data: what a host read brings. -/
def State.netGet (s : State) (slice space addr n : Nat) (data : Got) : Got × State :=
  if n = 0 then (.bytes [], s)
  else if space = 1 then
    if s.hostPath (s.sliceFn slice) then s.hostRead (s.sliceFn slice) (s.slicePasid slice) addr n data
    else (.fail (s.pathCode (s.sliceFn slice) 0x11), s)
  else s.memRead 0x0A 0 6 slice addr n

/-! ## The receive side (R361, R365 to R373) -/

/-- A checked field of a work request is set, or a field is out of range (R361); the class must be one its slice may use. -/
def State.badRequest (s : State) (slice : Nat) (raw : List Byte) : Bool :=
  let f := fieldLE raw
  let op := f 0 1
  decide (f 1 1 ≥ 32) || f 2 2 != 0 || f 25 3 != 0 || f 56 8 != 0 || decide (f 24 1 > 1) || decide (f 8 4 > 2 ^ 31) ||
  (decide (op = 5 ∨ op = 6) && (f 8 4 != 8 || f 32 8 % 8 != 0)) ||
  (slice != 0 && !natBit (getBits (s.forceOf slice).policy F.slicePolicy_classes) (natBits (f 1 1) 4 3))

/-- What a receive queue has for the next message: a request, nothing, or a failed read of its ring. -/
inductive RecvGet where
  | got (q : RecvReq)
  | empty
  | fail (code : Nat)
  deriving DecidableEq, Repr

/-- The receive request of an entry of a receive queue (R361). -/
def recvOf (raw : List Byte) : RecvReq := ⟨fieldLE raw 4 4, fieldLE raw 8 4, fieldLE raw 16 8, fieldLE raw 24 1⟩

/-- The next receive request of a connection: one fetched before, or the next of its ring. A bad entry completes with 0x0002, once
those before it are consumed, and the next one follows. -/
def State.takeRecv (s : State) (n : Nat) (host : Got) : Nat → RecvGet × State
  | 0 => (.empty, s)
  | k + 1 =>
    match s.conn? n with
    | none => (.empty, s)
    | some c =>
      match c.recvs with
      | q :: qs => (.got q, s.setConn n { c with recvs := qs })
      | [] =>
        if c.rqHead = c.rqTail ∨ ¬ s.fetches c.owner then (.empty, s)
        else match s.ringRead c.owner (c.field 6 (63, 12) * 4096) (c.field 6 (4, 4)) (c.rqHead * 64) 64 host with
          | (.fail code, s) => (.fail code, s)
          | (.bytes raw, s) =>
            let s := s.setConn n { c with rqHead := (c.rqHead + 1) % ringSlots (c.field 6 (3, 0)) }
            if fieldLE raw 0 1 = 0x10 ∧ ¬ s.badRequest c.owner raw then (.got (recvOf raw), s)
            else
              let s := s.connRecord n c (fieldLE raw 0 1) (fieldLE raw 4 4) 0x02 0 0
              if c.field 6 (4, 4) = 1 then (.empty, s) else s.takeRecv n host k

/-- The entries that a receive queue may have to pass over. -/
def Conn.recvFuel (c : Conn) : Nat := ringSlots (c.field 6 (3, 0)) + 1

/-- A message has arrived whole (R362, R371, R373): the training hand-over of an intake connection, or the record of the receive
request it consumed (log entry 108, DEDUCED). -/
def State.messageDone (s : State) (n : Nat) (c : Conn) (x : RxMsg) : State :=
  match x.recv with
  | some q => s.recvRecord n c q 0 x.bytes (x.imm.getD 0)
  | none => match x.imm with
    | some i => if c.intake then s.handOver c.owner i else s
    | none => s

/-- What the receive side makes of a packet: go on, or refuse it with a NAK, or fail the connection with a code. -/
inductive RxOutcome where
  | ok
  | nak (k : NakKind)
  | fail (code : Nat)
  deriving DecidableEq, Repr

/-- The answer of a READ: its data in packets from its PSN on. -/
def State.answerRead (s : State) (n : Nat) (c : Conn) (psn : Nat) (l : List Byte) : State :=
  (chunks c.mtu (max 1 (ceilDiv l.length c.mtu)) l).zipIdx.foldl (fun s e => s.answer n c (.readData (psnAdd psn e.2) e.1))
    (if l.isEmpty then s.answer n c (.readData psn []) else s)

/-- A READ is checked and answered (R363, R366). -/
def State.doRead (s : State) (n : Nat) (c : Conn) (p : RocePkt) (host : Got) : RxOutcome × State :=
  match s.mrTarget c p.rkey p.va p.len 2 with
  | (none, s) => (.nak .access, s)
  | (some t, s) =>
    match s.netGet c.owner t.1 t.2 p.len host with
    | (.fail _, s) => (.nak .operational, s)
    | (.bytes l, s) => (.ok, s.answerRead n c p.psn l)

/-- An atomic is checked, performed and answered; its result is recorded for its PSN (R353, R363, R366). -/
def State.doAtomic (s : State) (n : Nat) (c : Conn) (p : RocePkt) : RxOutcome × State :=
  if p.va % 8 ≠ 0 then (.nak .invalid, s)
  else match s.mrTarget c p.rkey p.va 8 3 with
    | (none, s) => (.nak .access, s)
    | (some (1, _), s) => (.nak .access, s)
    | (some t, s) =>
      match s.memRead 0x0A 0 6 c.owner t.2 8 with
      | (.fail _, s) => (.nak .operational, s)
      | (.bytes l, s) =>
        let old := leNat l
        let new := if p.op = .cas then (if old = p.operand then p.swap else old) else (old + p.operand) % 2 ^ 64
        match s.memWrite 0x0A 0 6 c.owner t.2 (bytesLE 8 new) with
        | (some _, s) => (.nak .operational, s)
        | (none, s) =>
          let c := (s.conn? n).getD c
          let s := s.setConn n { c with atomics := ((p.psn, old) :: c.atomics).take 16 }
          (.ok, s.answer n c (.atomic p.psn old))

/-- How many packets a WRITE of this packet takes: on a sprayed connection every packet carries the RETH, whose length is the
message's (R371) (log entry 254, DEDUCED). -/
def Conn.packetsOf (c : Conn) (p : RocePkt) : Nat := max 1 (ceilDiv p.len c.mtu)

/-- The first PSN of the message a packet belongs to; none for a packet in the middle of a sprayed WRITE that is not open yet
(R371) (log entry 254, DEDUCED). -/
def Conn.firstOf (c : Conn) (p : RocePkt) : Option Nat :=
  if ¬ c.sprayed then (match c.rx with
    | x :: _ => some (if p.first then p.psn else x.firstPsn)
    | [] => some p.psn)
  else if p.op = .send then some (psnAdd p.psn (2 ^ 24 - p.offset / c.mtu % 2 ^ 24))
  else if p.first then some p.psn
  else if p.last then some (psnAdd p.psn (2 ^ 24 - (c.packetsOf p - 1) % 2 ^ 24))
  else (List.find? (fun (x : RxMsg) => x.isWrite && (match x.lastPsn with
    | some l => decide (psnDist x.firstPsn p.psn ≤ psnDist x.firstPsn l)
    | none => false)) c.rx).map (·.firstPsn)

/-- The last PSN of the message a packet belongs to, where the packet tells it: the last packet does, and so does the first of a
sprayed WRITE (R371) (log entry 254, DEDUCED). -/
def Conn.lastOf (c : Conn) (p : RocePkt) : Option Nat :=
  if p.last then some p.psn
  else if c.sprayed ∧ p.op = .write ∧ p.first then some (psnAdd p.psn (c.packetsOf p - 1))
  else none

/-- Place the bytes of a SEND at a message offset of its receive request (R361) (log entry 100, DEDUCED). -/
def State.placeSend (s : State) (c : Conn) (q : RecvReq) (off : Nat) (l : List Byte) : Nat × State :=
  if off + l.length > q.length then (1, s) else s.netPut c.owner q.space (q.local_ + off) l

/-- Place the held bytes of a SEND in the receive request it took: 0, or the code of the first failure. -/
def State.placeHeld (s : State) (c : Conn) (q : RecvReq) (held : List (Nat × List Byte)) : Nat × State :=
  held.foldl (fun (acc : Nat × State) h => if acc.1 = 0 then acc.2.placeSend c q h.1 h.2 else acc) (0, s)

/-- Put back a message being received. -/
def Conn.setRx (c : Conn) (x : RxMsg) : Conn :=
  if c.rx.any fun y => y.firstPsn == x.firstPsn then { c with rx := c.rx.map fun y => if y.firstPsn = x.firstPsn then x else y }
  else { c with rx := c.rx ++ [x] }

/-- The code of a failed local placement as an outcome: 1 stands for a message longer than its receive request. -/
def placeOutcome (code : Nat) : RxOutcome := if code = 0 then .ok else if code = 1 then .nak .invalid else .fail code

/-- A packet of a SEND (R361, R371): its receive request is taken once every earlier PSN has arrived; until then its bytes wait. -/
def State.doSend (s : State) (n : Nat) (c : Conn) (p : RocePkt) (host : Got) : RxOutcome × State :=
  let first := (c.firstOf p).getD p.psn
  let x := (List.find? (fun (y : RxMsg) => y.firstPsn == first) c.rx).getD ⟨first, none, false, 0, none, none, 0, 0, []⟩
  let off := if c.sprayed then p.offset else x.bytes
  let x : RxMsg := { x with lastPsn := if p.last then some p.psn else x.lastPsn, imm := p.imm.or x.imm,
                            bytes := x.bytes + p.payload.length, held := x.held ++ [(off, p.payload)] }
  let earlier := c.rx.any fun y => y.firstPsn != first && decide (psnDist y.firstPsn first < 2 ^ 23)
  if x.recv.isNone ∧ ((c.expPsn = first ∧ earlier = false) ∨ ¬ c.sprayed) then
    match s.takeRecv n host c.recvFuel with
    | (.empty, s) => (.nak (.rnr c.minRnr), s)
    | (.fail code, s) => (.fail code, s)
    | (.got q, s) =>
      let c := (s.conn? n).getD c
      let r := s.placeHeld c q x.held
      let c := (r.2.conn? n).getD c
      (placeOutcome r.1, r.2.setConn n (c.setRx { x with recv := some q, held := [] }))
  else match x.recv with
    | some q =>
      let r := s.placeSend c q off p.payload
      let c := (r.2.conn? n).getD c
      (placeOutcome r.1, r.2.setConn n (c.setRx { x with held := [] }))
    | none => (.ok, s.setConn n (c.setRx x))

/-- A packet of a WRITE (R363, R371): placed at its own address. -/
def State.doWrite (s : State) (n : Nat) (c : Conn) (p : RocePkt) : RxOutcome × State :=
  let first := c.firstOf p
  let x := (List.find? (fun (y : RxMsg) => some y.firstPsn == first) c.rx).getD
    ⟨first.getD p.psn, none, true, 0, none, none, p.va, p.rkey, []⟩
  let va := if c.sprayed then p.va else x.va + x.bytes
  let rkey := if c.sprayed then p.rkey else x.rkey
  let span := if ¬ c.sprayed ∧ p.first then p.len else p.payload.length
  match s.mrTarget c rkey va span 1 with
  | (none, s) => (.nak .access, s)
  | (some t, s) =>
    match s.netPut c.owner t.1 t.2 p.payload with
    | (0, s) =>
      let c := (s.conn? n).getD c
      let bytes := if c.sprayed ∧ ¬ (p.first ∧ p.last) then p.len else x.bytes + p.payload.length
      (.ok, if first.isNone then s
        else s.setConn n (c.setRx { x with lastPsn := (c.lastOf p).or x.lastPsn, imm := p.imm.or x.imm, bytes := bytes }))
    | (_, s) => (.nak .operational, s)

/-- Execute or place a packet (R365). -/
def State.doPacket (s : State) (n : Nat) (c : Conn) (p : RocePkt) (host : Got) : RxOutcome × State :=
  match p.op with
  | .read => s.doRead n c p host
  | .cas => s.doAtomic n c p
  | .faa => s.doAtomic n c p
  | .send => if c.intake then (.nak .invalid, s) else if c.storage then (.ok, s) else s.doSend n c p host
  | .write => s.doWrite n c p

/-- The expected PSN moves past every PSN received (R365). -/
def Conn.advance (c : Conn) : Nat → Conn
  | 0 => c
  | k + 1 =>
    if c.ahead.contains c.expPsn then
      Conn.advance { c with expPsn := psnAdd c.expPsn 1, ahead := c.ahead.erase c.expPsn, nakSent := false } k
    else c

/-- Whether the expected PSN of a connection has passed the last PSN of a message (R371). -/
def Conn.passed (c : Conn) (x : RxMsg) : Bool := match x.lastPsn with
  | some l => decide (psnDist x.firstPsn l < psnDist x.firstPsn c.expPsn) && decide (psnDist x.firstPsn c.expPsn < 2 ^ 23)
  | none => false

/-- The first, in PSN order, of the messages that the expected PSN has passed (R371). -/
def Conn.nextDone (c : Conn) : Option RxMsg :=
  c.rx.foldl (fun acc x => if c.passed x = false then acc else match acc with
    | none => some x
    | some y => if psnDist x.firstPsn c.expPsn > psnDist y.firstPsn c.expPsn then some x else some y) none

/-- Messages that the expected PSN has passed are done, in PSN order (R371): a SEND whose bytes are held, and a WRITE with immediate
outside training, consumes a receive request; with none the message waits for one. Whether any was done (log entry 249, DESIGN
CHOICE). -/
def State.finishRx (s : State) (n : Nat) (host : Got) : Nat → Bool × State
  | 0 => (false, s)
  | k + 1 =>
    match s.conn? n with
    | none => (false, s)
    | some c =>
      match c.nextDone with
      | none => (false, s)
      | some x =>
        let s1 := s.setConn n { c with rx := c.rx.filter fun y => y.firstPsn != x.firstPsn }
        if (x.isWrite ∧ x.imm.isSome ∧ ¬ c.intake) ∨ (¬ x.isWrite ∧ x.recv.isNone) then
          match s1.takeRecv n host c.recvFuel with
          | (.empty, s2) => (false, s2.setConn n { (s2.conn? n).getD c with rx := c.rx })
          | (.fail code, s2) => (false, s2.connError n code 0 true)
          | (.got q, s2) =>
            let r := s2.placeHeld ((s2.conn? n).getD c) q x.held
            let s3 := r.2
            let c3 := (s3.conn? n).getD c
            if r.1 = 0 then (true, ((s3.messageDone n c3 { x with recv := some q }).finishRx n host k).2)
            else if r.1 = 1 then (false, (s3.violation 0x0A c3.port x.firstPsn (n % 2 ^ 16)).sendNak n c3 .invalid)
            else (false, s3.connError n r.1 0 true)
        else (true, ((s1.messageDone n c x).finishRx n host k).2)

/-- A packet of a plain connection that ends a WRITE with an immediate needs a receive request to consume (R361): go on with one
fetched, or an RNR NAK where there is none. -/
def State.needRecv (s : State) (n : Nat) (c : Conn) (p : RocePkt) (host : Got) : RxOutcome × State :=
  if p.op = .write ∧ p.imm.isSome ∧ ¬ c.intake ∧ ¬ c.sprayed then
    match s.takeRecv n host c.recvFuel with
    | (.got q, s) =>
      let c := (s.conn? n).getD c
      (.ok, s.setConn n { c with recvs := q :: c.recvs })
    | (.empty, s) => (.nak (.rnr c.minRnr), s)
    | (.fail code, s) => (.fail code, s)
  else (.ok, s)

/-- A request packet of a connection that takes packets (R365, R366, R371, R372). -/
def State.rxPacket (s : State) (n : Nat) (c : Conn) (p : RocePkt) (malformed : Bool) (host : Got) : State :=
  let s := if p.ce then s.sendCnp n c else s
  let c := (s.conn? n).getD c
  let d := psnDist c.expPsn p.psn
  let refuse (s : State) (k : NakKind) : State :=
    let c := (s.conn? n).getD c
    let s := match k with
      | .invalid => s.violation 0x0A c.port p.psn (n % 2 ^ 16)
      | _ => s
    s.sendNak n c k
  if malformed then refuse s .invalid
  else if d ≥ 2 ^ 23 then
    let s := s.netCount 3 c.port 1
    match p.op with
    | .read =>
      let r := s.doRead n c p host
      (match r.1 with
       | .ok => r.2.sendAck n
       | .nak k => refuse r.2 k
       | .fail code => r.2.connError n code 0 true)
    | .send => s.sendAck n
    | .write => s.sendAck n
    | _ => match List.find? (fun (a : Nat × Nat) => a.1 == p.psn) c.atomics with
      | some a => (s.answer n c (.atomic p.psn a.2)).sendAck n
      | none => refuse (s.netCount 14 c.port 1) .invalid
  else if d > 0 ∧ ¬ c.sprayed then
    if c.nakSent then s else refuse (s.setConn n { c with nakSent := true }) .sequence
  else if d ≥ 1024 then s.netCount 12 c.port 1
  else if d > 0 ∧ c.ahead.contains p.psn then s
  else if c.sprayed ∧ (p.op = .send ∨ p.op = .write) ∧ c.rx.length ≥ 16 ∧ ¬ (c.rx.any fun x => some x.firstPsn == c.firstOf p) then s
  else
    let w := s.needRecv n c p host
    let r := if w.1 = .ok then w.2.doPacket n ((w.2.conn? n).getD c) p host else w
    let s := r.2
    match r.1 with
    | .nak k => refuse s k
    | .fail code => (refuse s .operational).connError n code 0 true
    | .ok =>
      let c := (s.conn? n).getD c
      let mine := (below (pktPsns p c.mtu)).map fun i => psnAdd p.psn i
      let c : Conn := ({ c with ahead := c.ahead ++ mine.filter fun x => !c.ahead.contains x, sinceAck := c.sinceAck + 1 }).advance
        (c.ahead.length + mine.length + 1)
      let s := s.setConn n c
      let f := s.finishRx n host (c.rx.length + 1)
      let s := f.2
      if c.sprayed then
        if f.1 ∨ d > 0 ∨ c.sinceAck ≥ 16 then s.sendAck n else s
      else if p.op = .send ∨ p.op = .write then (if p.last then s.sendAck n else s)
      else s

end Sys2Proof.Machine
end

