-- ==== Sys2Proof/Machine/SliceOps.lean ====
section
/-! DEFINITION. Stopping, squashing, resetting and destroying a slice (R286 to R289, R271), as slice commands, Function Level
Resets and host losses do it. -/

namespace Sys2Proof.Machine

/-- The resources of R277 with a unit count. -/
def allRes : List Res :=
  [.hbm, .ddr, .benchQueues, .rings, .channels, .queuePairs, .connections, .keySlots, .sequences, .frames]

/-- The DMA channels that count as a slice's use: those whose CHAN_CFG names it, of slice 0 the enabled ones (R277, R502)
(log entry 235, DEDUCED). -/
def State.chansUsed (s : State) (n : Nat) : List Nat :=
  if n = 0 then (s.channelsOf 0).filter fun ch => s.getF (dmaReg R.chanCfg ch) F.chanCfg_enable == 1 else s.channelsOf n

/-- The present use of a resource by a slice, HBM and DDR5 in bytes. -/
def State.use (s : State) (n : Nat) : Res → Nat
  | .hbm => s.regionBytes n [0, 1]
  | .ddr => s.regionBytes n [2]
  | .benchQueues => (s.queuesOf n).length
  | .rings => (s.ringsOf n).length
  | .channels => (s.chansUsed n).length
  | .queuePairs => (s.pairsOf n).length
  | .connections => (s.connsOf n).length
  | .keySlots => s.keysOf n
  | .sequences => s.seqsOf n
  | .frames => s.framesOf n

/-- Where a slice's entry stands. -/
def State.setSliceState (s : State) (n v : Nat) : State := s.setF (R.sliceBind n) F.sliceBind_state v

/-- The packet rings of a slice. -/
def State.packetRings (s : State) (slice : Nat) : List Nat :=
  s.listedWith (R.prCfg 0) 0x20 16384 [(F.prCfg_enable, 1), (F.prCfg_owner, slice)]

/-- The cipher queues of a slice. -/
def State.cipherQueues (s : State) (slice : Nat) : List Nat :=
  s.listedWith (R.cqCfg 0) 0x20 1024 [(F.cqCfg_enable, 1), (F.cqCfg_owner, slice)]

/-- A fetched operation of a slice, or a record of it, is not complete (R288). -/
def State.sliceBusy (s : State) (n : Nat) : Bool :=
  (s.bench.descs.any fun e => e.2.slice == n) || (s.serve.batches.any fun e => e.2.slice == n) ||
  (s.dma.any fun e => s.chanOwner e.1 == n) || (s.cipher.jobs.any fun e => s.getF (R.cqCfg e.1) F.cqCfg_owner == n) ||
  (s.net.conns.any fun e => e.2.owner == n && (!e.2.msgs.isEmpty || !e.2.txq.isEmpty)) ||
  (s.store.cmds.any fun e => e.2.slice == n) || (s.pkt.txs.any fun e => !e.2.isEmpty && s.getF (R.prCfg e.1) F.prCfg_owner == n) ||
  (s.ringWait.any fun e => e.2.any fun r => r.slice == n) || (s.store.waiting.any fun e => !e.2.isEmpty && s.qpSlice e.1 == n)

/-- Attend batches of a slice end with a code, those that wait and those that run (R286, R194). -/
def State.squashBatches (s : State) (n code : Nat) : State :=
  let s := { s with serve := { s.serve with feeds := Tab.mapVals s.serve.feeds fun _ f =>
    if f.slice = n then { f with waiting := none } else f } }
  let s := s.failBatches (fun _ b => b.slice == n) code
  (s.serve.batches.filter fun e => e.2.slice == n).foldl (fun s (e : Nat × Batch) => s.finishBatch e.1 e.2 code 0 0 0) s

/-- The feeds of a slice are closed, and its sequences: their frames go into zeroing (R286, R178). -/
def State.closeServing (s : State) (n : Nat) : State :=
  let s := { s with serve := { s.serve with feeds := Tab.keep s.serve.feeds fun _ f => f.slice != n } }
  ((s.serve.seqs.filter fun e => e.2.slice == n).map Prod.fst).foldl (fun s q =>
    ((s.freeAllOf q).modSeq q fun y => { y with state := .zeroing }).seqRefresh q) s

/-- Training operations and checkpoints of a slice end with a code (R286, R228). -/
def State.squashTraining (s : State) (n code : Nat) : State :=
  let mine := fun (d : Nat) => ((s.desc? d).map fun x => x.slice == n).getD false
  let s := ((s.train.ckpts.filter fun e => mine e.2.desc).map Prod.fst).foldl (fun s j => s.ckptFail j code) s
  ((s.train.scatters.filter fun e => mine e.1).map Prod.fst).foldl (fun s d => s.scatterWrite d code) s

/-- The instances of a slice's kernels end with a code, those that run and those that wait (R286, R107). -/
def State.squashKernels (s : State) (n code : Nat) : State :=
  let s := (below 84).foldl (fun s core =>
    let c := Tab.get Core.clear s.cores core
    match c.role with
    | .kernel d _ => if ((s.desc? d).map fun x => x.slice == n).getD false then s.endInstance core code (exitValue 0x11 c) c.flags.toNat else s
    | _ => s) s
  s.bench.launches.foldl (fun s (e : Nat × Launch) =>
    match s.desc? e.1 with
    | some d =>
      if d.slice = n then
        let l : Launch := { e.2 with insts := e.2.insts.map fun i => if i.outcome.isSome then i else .ended code 0 }
        s.closeLaunch e.1 d l
      else s
    | none => s) s

/-- Every descriptor of a slice in flight ends with a code (R286, R107). -/
def State.squashDescs (s : State) (n code : Nat) : State :=
  let s := (s.endSubs (fun d _ => d.slice == n) code).squashKernels n code
  ((s.bench.descs.filter fun e => e.2.slice == n).map Prod.fst).foldl (fun s d =>
    match s.desc? d with
    | some x => if x.opcode = 0x04 ∨ x.opcode = 0x05 then s.trainDone d x code 0 else s.endWhole d x code 0 x.word02
    | none => s) s

/-- The transmit descriptors of a slice in progress end with a code (R286, R343). -/
def State.squashTx (s : State) (n code : Nat) : State :=
  (s.packetRings n).foldl (fun s r =>
    let l := (Tab.get [] s.pkt.txs r).filter fun j => j.done.isNone
    l.foldl (fun s j => s.txDone (some (r, j.num)) code 0 0 s.now) s) s

/-- All work of a slice in flight is squashed with a code (R286, R271). fate: what becomes of commands with a backend (R310,
R319). -/
def State.squashWork (s : State) (n code fate : Nat) : State :=
  let s := ((s.squashTraining n code).squashBatches n code).squashDescs n code
  let s := (s.squashSlice n).squashJobs n code
  let s := (s.connsOf n).foldl (fun s c => s.connError c code 0) s
  let s := (s.squashTx n code).storeStop n fate
  { s with store := { s.store with ctl := Tab.erase s.store.ctl n } }

/-- Bench-local state that a slice left behind is zeroed (R286, R77). -/
def State.clearBenches (s : State) (n : Nat) : State :=
  let mine := (below 84).filter fun k =>
    s.getF (R.benchStatus (k / 7) (k % 7)) F.benchStatus_running_slice == n && s.getF (R.benchStatus (k / 7) (k % 7)) F.benchStatus_busy == 0
  { s with
    bench := { s.bench with engines := Tab.keep s.bench.engines fun e _ => !mine.contains (e / 9)
                            barriers := Tab.keep s.bench.barriers fun e _ => !mine.contains (e / 16) }
    cores := Tab.keep s.cores fun k _ => !mine.contains k }

/-- A completion ring is emptied: its head moves to its tail, its phase stays, what waits for it is discarded and counted
(R286) (log entry 123, DEDUCED). -/
def State.ringEmpty (s : State) (r : Nat) : State :=
  let held := Tab.get [] s.ringWait r
  let s := { s with ringWait := Tab.erase s.ringWait r }
  let s := held.foldl (fun s x => s.recordLost r x) (s.setF (R.crStatus r) F.crStatus_full 0)
  s.setF (R.crHead r) F.crHead_head (s.getF (R.crStatus r) F.crStatus_tail)

/-- The queue contexts of a slice are enabled and idle, with their heads moved to their present tails (R286). -/
def State.emptyQueues (s : State) (n : Nat) : State :=
  let s := (s.queuesOf n).foldl (fun s q =>
    (s.setF (R.bqStatus q) F.bqStatus_head (s.getF (R.bqTail q) F.bqTail_tail)).setF (R.bqStatus q) F.bqStatus_state 0) s
  let s := (s.cipherQueues n).foldl (fun s q =>
    (s.setF (R.cqStatus q) F.cqStatus_head (s.getF (R.cqTail q) F.cqTail_tail)).setF (R.cqStatus q) F.cqStatus_state 0) s
  let s := (s.packetRings n).foldl (fun s q =>
    (s.setF (R.prStatus q) F.prStatus_head (s.getF (R.prTail q) F.prTail_tail)).setF (R.prStatus q) F.prStatus_state 0) s
  let s := (s.pairsOf n ++ (if s.getF (R.qpCfg (0x1000 + n)) F.qpCfg_enable = 1 then [0x1000 + n] else [])).foldl (fun s q =>
    let s := { s with store := { s.store with removed := Tab.keep s.store.removed (fun k _ => k / 2 ^ 16 != q),
                                              errored := Tab.erase s.store.errored q } }
    (s.setF (R.qpStatus q) F.qpStatus_sq_head (s.getF (R.qpStatus q) F.qpStatus_sq_tail)).setF (R.qpStatus q) F.qpStatus_cq_full 0) s
  (s.ringsOf n).foldl (fun s r => s.ringEmpty r) s

/-- The work rings of a slice's connections in host memory, which are not fetched any more, are left with their head at the tail
(R286, R377) (log entry 237, DEDUCED). -/
def State.hostRingsLeft (s : State) (n : Nat) : State :=
  (s.connsOf n).foldl (fun s k => match s.conn? k with
    | some c => s.setConn k { c with sqHead := c.sqTail, rqHead := c.rqTail }
    | none => s) s

/-- The start of a slice reset (R286): fetching stops, the work in flight is squashed, commands with a backend drain
(log entry 119, DEDUCED). -/
def State.resetStart (s : State) (n : Nat) : State := (((s.setSliceState n 3).squashWork n 0x14 2).hostRingsLeft n).closeServing n

/-- The end of a slice reset (R286): key slots and bench-local state are zeroed, the queue contexts emptied. -/
def State.resetEnd (s : State) (n : Nat) : State := ((s.zeroKeys n).clearBenches n).emptyQueues n

/-- The ports a slice's fields in force name: accelerator ports 0 to 7, drive ports 8 to 15 (R276, R290). -/
def State.slicePorts (s : State) (n : Nat) : Nat :=
  let p := (s.forceOf n).policy
  getBits p F.slicePolicy_acc_ports + getBits p F.slicePolicy_drive_ports % 256 * 256

/-- DP_STATUS.owner of every port follows the fields in force: the slice that names the port, else slice 0
(log entry 125, DEDUCED). -/
def State.portOwners (s : State) : State :=
  (below 16).foldl (fun s p =>
    let o := List.find? (fun (e : Nat × SliceForce) => s.sliceState e.1 != 0 && natBit (s.slicePorts e.1) p) s.force
    s.setF (R.dpStatus p) F.dpStatus_owner ((o.map Prod.fst).getD 0)) s

/-- Restore registers of an array to their reset values. -/
def State.dropRegs (s : State) (l : List Nat) : State := l.foldl (fun s a => s.setReg a (resetOf a)) s

/-- The regions of a slice go into zeroing (R289, R167). -/
def State.dropRegions (s : State) (n : Nat) : State :=
  let mine := s.regions.filter fun e => e.2.owner == n && e.2.state != 2
  let grains := mine.foldl (fun k (e : Nat × Region) => k + e.2.size / (if e.2.tier = 1 then 40 * 2 ^ 20 else 2 ^ 21)) 0
  let s := { s with regions := Tab.mapVals s.regions fun _ r =>
    if r.owner = n ∧ r.state ≠ 2 then { r with state := 2, creating := false } else r }
  s.setF R.zeroStatus F.zeroStatus_backlog (min (2 ^ 32 - 1) (s.getF R.zeroStatus F.zeroStatus_backlog + grains))

/-- A slice is destroyed after its reset (R289): regions, window sets, doorbell and aperture entries, queue contexts, vectors,
connections and jobs go; logging ends; everything is in zeroing. -/
def State.destroySlice (s : State) (n : Nat) : State :=
  let s := s.dropRegions n
  let s := (below 12).foldl (fun s st =>
    (s.listedWith (R.winCtrl st 0 0) 0x20 1024 [(F.winCtrl_owner, n)]).foldl (fun s i =>
      s.dropRegs [R.winVa st 0 i, R.winPa st 0 i, R.winSize st 0 i, R.winCtrl st 0 i]) s) s
  let s := (below 2).foldl (fun s f =>
    let s := s.dropRegs ((s.listedWith (R.doorbellEntry f 0) 8 16384 [(F.doorbellEntry_slice, n), (F.doorbellEntry_valid, 1)]).map
      (R.doorbellEntry f))
    s.dropRegs ((s.listedWith (R.aperCtrl f 0) 0x20 4096 [(F.aperCtrl_slice, n), (F.aperCtrl_valid, 1)]).flatMap fun a =>
      [R.aperBar f a, R.aperPa f a, R.aperSize f a, R.aperCtrl f a])) s
  let s := s.dropRegs ((s.listedWith (R.bqCfg 0) 0x40 1024 [(F.bqCfg_owner, n)]).flatMap fun q =>
    [R.bqRing q, R.bqCfg q, R.bqTail q, R.bqStatus q])
  let s := s.dropRegs ((s.listedWith (R.crCfg 0) 0x20 4096 [(F.crCfg_owner, n)]).flatMap fun q =>
    [R.crRing q, R.crCfg q, R.crHead q, R.crStatus q])
  let s := s.dropRegs ((s.listedWith (R.prCfg 0) 0x20 16384 [(F.prCfg_owner, n)]).flatMap fun q =>
    [R.prRing q, R.prCfg q, R.prTail q, R.prStatus q])
  let s := s.dropRegs ((s.listedWith (R.cqCfg 0) 0x20 1024 [(F.cqCfg_owner, n)]).flatMap fun q =>
    [R.cqRing q, R.cqCfg q, R.cqTail q, R.cqStatus q])
  let s := s.dropRegs ((s.listedWith (R.qpCfg 0) 0x40 4352 [(F.qpCfg_owner, n)]).flatMap fun q =>
    (below 8).map fun i => R.qpCfg q / 64 * 64 + 8 * i)
  let s := s.dropRegs ((s.channelsOf n).flatMap fun ch => (below 8).map fun i => dmaReg R.chanRing ch + 8 * i)
  let s := s.dropRegs [R.logCfg n, R.logBaseA n, R.logBaseB n]
  let s := { s with
    train := { s.train with jobs := Tab.keep s.train.jobs fun _ j => j.slice != n }
    force := Tab.erase s.force n }
  (s.setSliceState n 4).portOwners

/-- The contexts of a slice's connections are gone (R289). -/
def State.dropConns (s : State) (n : Nat) : State :=
  let mine := s.connsOf n
  { s with net := { s.net with conns := Tab.keep s.net.conns fun k _ => !mine.contains k
                               resident := s.net.resident.filter fun k => !mine.contains k
                               waits := Tab.keep s.net.waits fun k _ => !mine.contains k } }

/-- Host loss and a quiesced slice: the queues of a slice stop fetching (R271, R288). -/
def State.stopSlice (s : State) (n : Nat) : State := if s.sliceState n = 1 then s.setSliceState n 2 else s

/-- The slices bound to a function, other than slice 0. -/
def State.slicesOf (s : State) (fn : Nat) : List Nat :=
  ((below 255).map (· + 1)).filter fun n => s.sliceState n != 0 && s.sliceFn n == fn

end Sys2Proof.Machine
end

