-- ==== Sys2Proof/Machine/HostOps.lean ====
section
/-! DEFINITION. What configuration writes, resets and losses do to a host function (R255 to R271). -/

namespace Sys2Proof.Machine

/-- A function's configuration state. -/
def State.epOf (s : State) (fn : Nat) : Ep := Tab.get Ep.reset s.ep fn

/-! ## Tags and timeouts (R261 to R265) -/

/-- The completion timeout of an encoding in microseconds (R261). -/
def timeoutUs (enc : Nat) : Nat :=
  match enc with
  | 1 => 100
  | 5 => 55000
  | 6 => 210000
  | 9 => 900000
  | 10 => 3500000
  | 13 => 13000000
  | 14 => 64000000
  | _ => 10000

/-- The completion timeout of a unit in ticks: of a function, or of port u − 2 (R261, R294). -/
def State.unitTimeout (s : State) (u : Nat) : Nat :=
  usTicks (timeoutUs (if u < 2 then (s.epOf u).cplTimeout else s.getF (R.dpCtrl (u - 2)) F.dpCtrl_cpl_timeout))

/-- A read request of a DMA channel fails as a bus error with a code (R245, R262). -/
def State.readFails (s : State) (use : TagUse) (code : Nat) : State :=
  match (s.chanWork use.who).find? fun w => w.num == use.num && w.code == 0 && !w.left && !w.acked with
  | some w => s.engineStop (use.who / 64) code (if use.len = 0 then fieldLE w.raw 24 8 else fieldLE w.raw 16 8 + use.off)
  | none => s

/-- The requests outstanding on a function's lost link fail with 0x0016, and their tags are free; so do the engines that move bytes over
it (R245). -/
def State.linkFails (s : State) (u : Nat) : State :=
  let mine := s.tags.filter fun e => e.1 / 2 ^ 14 == u
  let s := { s with tags := Tab.keep s.tags fun k _ => k / 2 ^ 14 != u }.tagRefresh u
  let s := mine.foldl (fun s (e : Nat × TagUse) => s.readFails e.2 0x16) s
  s.spaceFails 1 fun ch => s.sliceFn (s.chanOwner ch) == u

/-! ## INTx (R256) -/

/-- Change function fn's configuration state; INTA is deasserted where INTx ends (R256). -/
def State.epWrite (s : State) (fn : Nat) (f : Ep → Ep) : State := (s.epSet fn f).intaDrop

/-! ## Stopping a function (R257, R267, R268) -/

/-- A connection has a message or a receive request in host memory. -/
def Conn.usesHost (c : Conn) : Bool := (c.msgs.any fun m => m.space == 1) || (c.recvs.any fun r => r.space == 1)

/-- A channel has host accesses: its ring, or a descriptor it has fetched, names host memory. -/
def State.chanHost (s : State) (ch : Nat) : Bool :=
  s.getF (dmaReg R.chanRing ch) F.chanRing_space == 1 || (s.chanWork ch).any fun w => w.uses 1

/-- The slices whose host accesses use a function: those bound to it, and slice 0 for function 0 (R267, R502). -/
def State.hostSlices (s : State) (fn : Nat) : List Nat := (if fn = 0 then [0] else []) ++ s.slicesOf fn

/-- Work of a function's slices needs the host: outstanding requests, channels in use, jobs, connections, storage commands. -/
def State.hostBusy (s : State) (fn : Nat) : Bool :=
  let mine (n : Nat) : Bool := s.sliceFn n == fn
  (s.tags.any fun e => e.1 / 2 ^ 14 == fn) || ((s.hostSlices fn).any fun n => (s.channelsInUse n).any fun ch =>
    (n != 0 || s.chanHost ch) && (!(s.chanWork ch).isEmpty ||
      s.getF (dmaReg R.chanHead ch) F.chanHead_head != s.getF (dmaReg R.chanTail ch) F.chanTail_tail)) ||
  (s.cipher.jobs.any fun e => mine (s.getF (R.cqCfg e.1) F.cqCfg_owner) && jobField e.2.raw 2 1 != 0) ||
  (s.net.conns.any fun e => mine e.2.owner && e.2.usesHost) || (s.store.cmds.any fun e => mine e.2.slice)

/-- The requests of a function stop (R267): the tags of its outstanding requests are quarantined, its DMA channels squashed, and
every other operation of its slices that needs a host access fails with 0x0014. The device's own work for slice 0 that needs none goes
on (R266). -/
def State.hostStops (s : State) (fn : Nat) : State :=
  let slices := s.hostSlices fn
  let s := s.quarantineAll fn
  slices.foldl (fun s n =>
    let s := if n = 0 then ((s.channelsInUse 0).filter s.chanHost).foldl (fun s ch => s.squashChan ch) s else s.squashSlice n
    let s := (s.cipher.jobs.filter fun e => s.getF (R.cqCfg e.1) F.cqCfg_owner == n && jobField e.2.raw 2 1 != 0).foldl
      (fun s (e : Nat × CipherJob) => s.jobEnd e.1 e.2.raw e.2.drawn 0x14 0) s
    let s := (s.net.conns.filter fun e => e.2.owner == n && e.2.usesHost).foldl
      (fun s (e : Nat × Conn) => s.connError e.1 0x14 0) s
    if s.store.cmds.any fun e => e.2.slice == n then s.storeStop n 3 else s) s

/-- Bus Master Enable of a function goes from 1 to 0 (R267); during a Function Level Reset the clear is part of it
(log entry 131, DEDUCED). -/
def State.bmeClear (s : State) (fn : Nat) : State :=
  if s.getF (R.epStatus fn) F.epStatus_bme = 0 ∨ s.getF (R.epStatus fn) F.epStatus_flr_busy = 1 then s
  else (s.setF (R.epStatus fn) F.epStatus_bme 0).hostStops fn

/-- The MSI-X tables and pending bits of a function, by register address. -/
def State.msixRegs (s : State) (fn : Nat) : List Nat :=
  (s.regs.map Prod.fst).filter fun a => decide (R.msixTable fn 0 ≤ a) && decide (a < R.epStatus fn)

/-- A function's registers and configuration space return to reset values; what PCIe defines as sticky, or as kept by a Function
Level Reset, stays unless PERST# is asserted (R259, R268) (log entry 127, PRESUMED). -/
def State.functionReset (s : State) (fn : Nat) (perst : Bool) : State :=
  let e := s.epOf fn
  let link := s.reg (R.epStatus fn)
  let s := if fn = 0 ∧ (s.epOf 0).inta then s.emit (.inta false) else s
  let wake := if perst ∧ e.pmeEn then [] else [R.wakeCfg fn, R.wakeStatus fn]
  let s := s.dropRegs (s.msixRegs fn ++ [R.cplLateLog fn, R.hbCfg fn, R.hbCount fn, R.intxPend fn] ++ wake)
  let kept := if perst then { Ep.reset with perst := true, wakeAsserted := e.wakeAsserted, pmeEn := e.pmeEn, pmeStatus := e.pmeStatus }
    else { Ep.reset with aerUnc := e.aerUnc, aerSev := e.aerSev, aerCor := e.aerCor, pmeEn := e.pmeEn, pmeStatus := e.pmeStatus, mps := e.mps,
                         aspm := e.aspm, linkPm := e.linkPm, perst := e.perst, wakeAsserted := e.wakeAsserted }
  let s := s.epSet fn fun _ => kept
  let st := List.foldl (fun w (f : Fld) => setBits w f (getBits link f)) 0
    [F.epStatus_flit, F.epStatus_width, F.epStatus_speed, F.epStatus_low_power, F.epStatus_link_up]
  s.setReg (R.epStatus fn) (setBits (if perst then 0 else st) F.epStatus_flr_busy 1)

/-- A Function Level Reset, or PERST#, acts on a function (R259, R268): a host-loss drain ends, requests stop, its slices other than
slice 0 begin a reset, its registers return to reset values; Request Retry Status begins. -/
def State.functionLevelReset (s : State) (fn : Nat) (perst : Bool) : State :=
  let s := (s.setF (R.epStatus fn) F.epStatus_bme 0).hostStops fn
  let s := (s.slicesOf fn).foldl (fun s n => if s.sliceState n = 1 ∨ s.sliceState n = 2 then s.resetStart n else s) s
  s.functionReset fn perst

/-- A function enters D3hot (R257): its tags are quarantined, and what the driver left running is squashed, which is recorded. -/
def State.enterD3 (s : State) (fn : Nat) : State :=
  if s.getF (R.epStatus fn) F.epStatus_d_state = 3 then s
  else
    let s := if s.hostBusy fn then s.changed 0x04 fn 10 0 3 0 else s
    (s.hostStops fn).setF (R.epStatus fn) F.epStatus_d_state 3

/-! ## Host loss (R270, R271) -/

/-- Host loss is declared for a function, by cause 1 heartbeat, 2 link, 3 disarmed: its slices stop fetching and the drain begins;
during a Function Level Reset the slice resets supersede the quiesce, and the rest of R271 is done. -/
def State.hostLoss (s : State) (fn cause : Nat) : State :=
  let s := (s.count 0x04 7 fn 1).record { source := 0x04, inst := fn, code := 0x0041, severity := 5, detail := dAt 20 cause }
  if (s.epOf fn).draining then s
  else if s.getF (R.epStatus fn) F.epStatus_flr_busy = 1 then (s.setF (R.epStatus fn) F.epStatus_host_lost 1).raise (1 - fn) 0
  else (s.quarantineAll fn).epSet fn fun e => { e with draining := true, drainStart := s.now }

/-- What has not completed of a slice after a host-loss drain is squashed (R271): as a reset does, but an idle connection, a feed
and a sequence stay. -/
def State.squashLeft (s : State) (n : Nat) : State :=
  let s := ((s.squashTraining n 0x14).squashBatches n 0x14).squashDescs n 0x14
  let busyChans := (s.dma.filter fun e => s.chanOwner e.1 == n).map Prod.fst
  let s := busyChans.foldl (fun s ch => s.squashChan ch) s
  let s := s.squashJobs n 0x14
  let s := (s.net.conns.filter fun e => e.2.owner == n && (!e.2.msgs.isEmpty || !e.2.txq.isEmpty)).foldl
    (fun s (e : Nat × Conn) => s.connError e.1 0x14 0) s
  let s := s.squashTx n 0x14
  if s.store.cmds.any fun e => e.2.slice == n then s.storeStop n 3 else s

/-- The host-loss drain of a function ends (R271): what has not completed is squashed, each slice is quiesced, host_lost is set, the
other function's vector 0 is raised. -/
def State.drainEnd (s : State) (fn : Nat) : State :=
  if ¬ (s.epOf fn).draining then s
  else
    let s := (s.slicesOf fn).foldl (fun s n =>
      if s.sliceState n = 1 ∨ s.sliceState n = 2 then (s.squashLeft n).setSliceState n 2 else s) s
    let s := s.epSet fn fun e => { e with draining := false }
    (s.setF (R.epStatus fn) F.epStatus_host_lost 1).raise (1 - fn) 0

end Sys2Proof.Machine
end

