-- ==== Sys2Proof/Machine/PowerOps.lean ====
section
/-! DEFINITION. Emergencies, the sleep states, wakes and OFF (R401 to R420), as the rows that meet them use them. -/

namespace Sys2Proof.Machine

/-- The state of PWR_STATE: 0 A0, 1 A1, 2 S1, 3 S2. -/
def State.pwr (s : State) : Nat := s.getF R.pwrState F.pwrState_state

/-- Set it; leaving A0 abandons the in-service tests that run (R466). -/
def State.setPwr (s : State) (v : Nat) : State :=
  let s := if v = 0 then s else (below 12).foldl (fun s st => s.isstAbandon st) s
  ((s.setF R.pwrState F.pwrState_state v).changed 0x02 0 12 s.pwr v 0).count 0x02 0 v 1

/-! ## Emergencies (R418) -/

/-- STATUS_WORD (R482), with the bits of PMBus 1.4: TEMPERATURE in a thermal or DRAM thermal emergency, VIN_UV and INPUT in the input
emergency. -/
def State.statusWord (s : State) : Nat :=
  let e := s.reg R.emergStatus
  (if getBits e F.emergStatus_thermal = 1 ∨ getBits e F.emergStatus_dram_stacks ≠ 0 then 0x0004 else 0) +
  (if getBits e F.emergStatus_input_low = 1 then 0x2008 else 0)

/-- EMERG_STATUS.active and emerg_rate follow the emergencies; the engines follow the rate (R103, R418); SMBALERT# follows
STATUS_WORD (R482). -/
def State.emergRefresh (s : State) : State :=
  let bits := natBits (s.reg R.emergStatus).toNat 5 1
  let dram := s.getF R.emergStatus F.emergStatus_dram_stacks
  let s := s.setF R.emergStatus F.emergStatus_active (bit (bits != 0 || dram != 0))
  let s := s.setF R.emergStatus F.emergStatus_emerg_rate ((below 12).foldl (fun r st => min r (s.emergencyRate st)) 64)
  let s := { s with pins := { s.pins with smbAlertN := s.statusWord == 0 } }
  s.retargetAll

/-- The kind of the emergency of a bit of EMERG_STATUS, in the order of the table of R418: thermal, DRAM thermal, droop, over-power,
input, link lost (log entry 6, DESIGN CHOICE). -/
def emergencyKind (b : Nat) : Nat :=
  if b = 1 then 0 else if 24 ≤ b ∧ b < 36 then 1 else if b = 2 ∨ 36 ≤ b then 2 else b

/-- A droop or a thermal emergency covers the stack (R465). -/
def State.isstHeld (s : State) (stack : Nat) : Bool :=
  let e := s.reg R.emergStatus
  getBits e F.emergStatus_thermal == 1 || natBit (getBits e F.emergStatus_droop_stacks) stack ||
    natBit (getBits e F.emergStatus_dram_stacks) stack

/-- An emergency starts or ends: bit b of EMERG_STATUS, and its daybook entry, which takes no token (R418, R476); the in-service tests
it covers are abandoned (R465). -/
def State.emergency (s : State) (b : Nat) (on : Bool) (rate : Nat) : State :=
  if natBit (s.reg R.emergStatus).toNat b = on then s
  else
    let s := if on then (s.setBit R.emergStatus b).count 0x02 1 (emergencyKind b) 1 else s.clrBit R.emergStatus b
    let s := if on then ((below 12).filter fun st => s.isstHeld st).foldl (fun s st => s.isstAbandon st) s
      else { s with power := { s.power with lastEmergency := s.now } }
    (s.record { source := 0x02, inst := 0, code := if on then 0x0030 else 0x0031, severity := 3,
                detail := dAt 20 b + dAt 21 rate }).emergRefresh

/-! ## OFF (R401, R405, R407, R420) -/

/-- The device enters OFF with a cause: every rail but the power die's own is removed, so that everything but OFF_CAUSE and the
energy count is as after power-on. -/
def State.powerOff (s : State) (cause : Nat) : State :=
  let off := setBits (setBits 0 F.offCause_valid 1) F.offCause_cause cause
  let t := { State.reset with
    pending := s.pending
    out := s.out
    free := s.free
    boot := { Boot.reset with flash := s.boot.flash } }
  let t := (t.setReg R.offCause off).setReg R.energy (s.reg R.energy)
  { t with power := { t.power with off := true }, pins := { t.pins with thermtripN := s.pins.thermtripN, straps := s.pins.straps } }

/-- An activation is deferred or in progress (R440). -/
def State.activationOpen (s : State) : Bool := s.boot.act.isSome || s.getF R.fwVersion F.fwVersion_deferred == 1

/-- An activation is deferred, in progress, or waits for a reset (R440). -/
def State.activating (s : State) : Bool := s.activationOpen || s.getF R.fwVersion F.fwVersion_at_reset == 1

/-! ## S1 and S2 (R406, R409, R411 to R413) -/

/-- No sub-part and no kernel instance runs. -/
def State.subsQuiet (s : State) : Bool :=
  (s.bench.descs.all fun e => e.2.subs.all fun p => p.phase != .running) &&
  (s.bench.launches.all fun e => e.2.insts.all fun i => match i with
    | .running _ => false
    | _ => true)

/-- No bench sub-part, kernel instance, attend batch or snapshot epoch runs. -/
def State.benchesQuiet (s : State) : Bool := s.subsQuiet && (s.serve.batches.all fun e => !e.2.started) && s.snap.isNone

/-- The conditions of R409, for S2 (deep) or S1. PAIR_STATUS.state 0 is no pair and 4 a lost one. -/
def State.sleepOk (s : State) (deep : Bool) : Bool :=
  ((below 255).all fun i => s.sliceState (i + 1) == 0 || s.sliceState (i + 1) == 2) && s.benchesQuiet &&
  ((below 16).all fun p => s.getF (R.dpStatus p) F.dpStatus_state == 0) && s.getF R.pairStatus F.pairStatus_state == 0 &&
  s.getF R.emergStatus F.emergStatus_link_lost == 0 &&
  (!deep || (s.train.jobs.isEmpty && s.serve.lasts.isEmpty && s.serve.feeds.isEmpty && s.serve.seqs.isEmpty))

/-- A wake source of WAKE_CFG is enabled in a function. -/
def State.wakeEnabled (s : State) (b : Nat) : Bool := natBit (s.reg (R.wakeCfg 0)).toNat b || natBit (s.reg (R.wakeCfg 1)).toNat b

/-- Packets before the end of their action stage are dropped and counted, and their cores stop (R409, R412). -/
def State.packetsDrop (s : State) : State :=
  let waiting := (s.pkt.rx ++ s.pkt.again ++ s.pkt.host).flatMap fun e => e.2.map fun p => (e.1, p)
  let inStage := s.pkt.stage.map fun e => ((e.1 - firstAction) / 16, e.2)
  let left := s.pkt.leaving.map fun l => (l.pipe, l.packet)
  let cores := s.pkt.stage.map Prod.fst
  let s := s.pktSet fun k => { k with rx := [], again := [], host := [], stage := [], leaving := [] }
  let s := cores.foldl (fun s k => s.setCore k Core.clear) s
  (waiting ++ inStage ++ left).foldl (fun s e => ((s.pktCount 6 e.1 1).txDone e.2.tx 0 3 e.2.body.length s.now).pfcSource e.2.source) s

/-- The links of the network ports of a domain that is powered down are down, and the servo has lost its lock (R406)
(log entry 251, DEDUCED). -/
def State.netDown (s : State) (all : Bool) : State :=
  let s := ((below 8).filter fun p => all || p != 0).foldl (fun s p => s.setReg (R.netPortStatus p) 0) s
  s.setF R.servoStatus F.servoStatus_locked 0

/-- Queued frames are dropped and counted, and connections in RTR or RTS enter error with 0x0014 (R409). -/
def State.netStops (s : State) : State :=
  let s := s.packetsDrop
  let s := ((s.pkt.queues.filter fun e => !e.2.frames.isEmpty).map Prod.fst).foldl (fun s q => s.queueDrop q) s
  ((s.net.conns.filter fun e => e.2.state == 2 || e.2.state == 3).map Prod.fst).foldl (fun s n => s.connError n 0x14 0) s

/-- The rails of the domains in S1 or S2, in the order of the table under R402 (AON 0, HUB 1, NET 2, PCIE-UP 3, PCIE-DOWN 4,
BENCH 5 to 16, HBM 17 to 28, DDR 29): 1 retention or self-refresh, 2 off (R406). -/
def State.sleepRails (s : State) (deep : Bool) : Tab Nat :=
  let rail (k : Nat) : Nat :=
    if k = 0 then 0
    else if k = 1 then (if deep then 2 else 1)
    else if k = 2 then (if deep || !s.wakeEnabled 0 then 2 else 0)
    else if k = 3 then (if deep then 2 else 0)
    else if k ≤ 16 then 2
    else 1
  ((below 30).filter fun k => rail k != 0).map fun k => (k, rail k)

/-- The bench dies lose what their logic holds: engines, scratch, bench barriers, issue state, cores; every scratch page is zero and
free (R406, R408, R76, R77) (log entry 212, DEDUCED). -/
def State.benchesOff (s : State) : State :=
  let s := ((below 84).filter fun k => !s.linkFenced (k / 7)).foldl
    (fun s k => s.setF (R.benchStatus (k / 7) (k % 7)) F.benchStatus_free_pages 60) s
  { s with
    bench := { s.bench with engines := [], scratch := [], barriers := [], pages := [], rates := [], leaves := [], entering := [] }
    power := { s.power with gated := [] }
    cores := Tab.keep s.cores fun k _ => decide (k ≥ 84) }

/-- The power-down of a sleep ends every emergency (R420, the hard cases); its end is recorded (R418). -/
def State.emergenciesEnd (s : State) : State :=
  let s := { s with power := { s.power with therm := 64, dram := [] } }
  let s := ([1, 3, 4] ++ (below 24).map fun k => 24 + k).foldl (fun (s : State) b => s.emergency b false 64) s
  (s.setF R.emergStatus F.emergStatus_droop 0).emergRefresh

/-- The registers that hold across S2 (R411, R412): power, clock and reset blocks, WAKE_CFG and HB_CFG, slice entries, repair maps,
training results, daybook counts, the identity; with what the self-tests found of the generator, stacks and benches (R394, R461). -/
def keptRegister (a : Nat) : Bool :=
  decide (a < 0x40000) || a == R.rngStatus ||
  (decide (0x1000000 ≤ a) && decide (a < 0x1C00000) && decide (a % 0x100000 < 0x100)) || a == R.dbStatus || a == R.dbOverwrite || a == R.dbSeq ||
  [R.wakeCfg 0, R.wakeCfg 1, R.hbCfg 0, R.hbCfg 1].contains a ||
  (decide (0x3010000 ≤ a) && decide (a < 0x3020000) && decide (a % 0x100 < 0x50)) ||
  (decide (R.repairLink 0 ≤ a) && decide (a < 0x19000)) || (decide (R.repairGroup 0 ≤ a) && decide (a < R.repairGroup 12)) ||
  (decide (0x1001000 ≤ a) && decide (a < 0x1C00000) && decide (a % 0x100000 ≥ 0x1000) && decide (a % 0x100000 < 0x3000)) ||
  (decide (R.memLayout ≤ a) && decide (a < 0x2000300))

/-- The daybook as it stands across S2 (R472): the last 1,024 entries at indices 0 to 1,023 in their order, the next index 1,024
(log entry 214, DEDUCED). -/
def State.ringKept (s : State) : Tab DbEntry :=
  let next := s.getF R.dbSeq F.dbSeq_next
  (s.daybook.ring.map fun e => ((next + 2 ^ 32 - e.2.seq) % 2 ^ 32, e.2)).foldl
    (fun t e => if 1 ≤ e.1 ∧ e.1 ≤ 1024 then Tab.insert t (1024 - e.1) e.2 else t) []

/-- Enter S1, or S2 (deep): the save in AON SRAM, then the domains as R406 has them, pads latched. After S2 the hub's tables are
lost (R412). -/
def State.sleep (s : State) (deep : Bool) : State :=
  let s := s.netStops.emergenciesEnd
  let s := if deep then (s.listed (R.nsMap 0) 0x20 4096).foldl (fun s n => s.cleanStop n) s else s
  let save : AonSave :=
    { deep := deep, regs := s.regs.filter fun e => keptRegister e.1, regions := s.regions, force := s.force,
      entries := s.ringKept.map Prod.snd }
  let s := s.benchesOff
  let s := { s with power := { s.power with saved := some save, rails := s.sleepRails deep } }
  let held := if deep || !s.wakeEnabled 0 then 7 else 3
  let s := (s.setF R.padStatus F.padStatus_held held).setF R.pwrState F.pwrState_armed 0
  let s := s.setPwr (if deep then 3 else 2)
  let s := ({ s with pkt := { s.pkt with ptp := Ptp.idle } }).netDown (deep || !s.wakeEnabled 0)
  if deep then
    let s := { s with daybook := { s.daybook with ring := s.ringKept } }.setF R.dbStatus F.dbStatus_head 1024
    { s with
      regs := s.regs.filter fun e => keptRegister e.1
      store := Storage.idle
      serve := Serving.idle
      train := Training.idle
      net := Net.idle
      pkt := Packets.idle
      progs := []
      dma := []
      ringWait := []
      cores := []
      dirty := []
      fabric := []
      tags := []
      quarantine := []
      tally := []
      ep := Tab.mapVals s.ep fun _ e => { Ep.reset with perst := e.perst, pmeEn := e.pmeEn, pmeStatus := e.pmeStatus,
                                                        wakeAsserted := e.wakeAsserted }
      bench := Benches.idle
      cipher := { s.cipher with cache := [], wanted := [], jobs := [] } }
  else s

/-- The registers that an image names, of those sel picks, take its values, and engine 15 its use (R427, R237). -/
def State.imageRegs (s : State) (sel : Nat → Bool) : State :=
  match s.image with
  | some i => ((i.regs.filter fun e => sel e.1).foldl (fun s e => s.setReg e.1 (readsAs e.1 e.2)) s).setF (R.engineStatus 15)
      F.engineStatus_ckpt (bit i.dma15)
  | none => s

/-- The registers of an image that name regions of memory: they are written once memory is in service (R427). -/
def namesMemory (a : Nat) : Bool := a == R.keyTable || a == R.mrTable

/-- The Zenza core of a firmware processor (the table under R437). -/
def zenzaCore (core : Nat) : Nat := if core ≥ 11 then core + 73 else core + 96

/-- A firmware core starts its image at level P with clear registers; the spec gives no entry point, so the program counter is a free
value. -/
def State.startCore (s : State) (core : Nat) : State :=
  let r := s.unstated
  let c : Core := { Core.clear with role := .firmware, status := 1, pc := setBits r.1 (1, 0) 0 }
  { r.2 with cores := Tab.put Core.clear r.2.cores (zenzaCore core) c }

/-- After S2 the image is applied and the save restored; the firmware starts on every core, and the hub's blocks serve as they did
in full service (R410, R411, R434) (log entry 256, DEDUCED). -/
def State.deepWake (s : State) : State :=
  let s := s.imageRegs fun _ => true
  let s := match s.power.saved with
    | some v => { v.regs.foldl (fun (t : State) (e : Nat × Word) => t.setReg e.1 e.2) s with regions := v.regions, force := v.force }
    | none => s
  let s := if s.stage = 4 then s.setF R.storCfg F.storCfg_apprentice 0 else s
  let s := (s.setF R.spillCfg F.spillCfg_active (bit s.spills)).portOwners
  (below 23).foldl (fun s k => s.startCore k) s

/-- A function with PME_En set is told of a wake (R260): a PM_PME message in D3hot with its link up, while Bus Master
Enable is set (R267), WAKE# otherwise. -/
def State.pmeWake (s : State) (fn : Nat) : State :=
  if ¬ (s.epOf fn).pmeEn then s
  else
    let s := s.epSet fn fun e => { e with pmeStatus := true }
    if s.getF (R.epStatus fn) F.epStatus_d_state = 3 ∧ s.getF (R.epStatus fn) F.epStatus_link_up = 1 ∧ (s.epOf fn).linkPm ≠ 4 then
      if s.getF (R.epStatus fn) F.epStatus_bme = 1 then s.emit (.pme fn) else s
    else if s.getF (R.epStatus fn) F.epStatus_d_state = 3 ∨ (s.epOf fn).perst then
      (s.epSet fn fun e => { e with wakeAsserted := true }).emit (.wakePin fn true)
    else s

/-- A wake from S1 or S2 by a source of PWR_STATE.wake_src (R410 to R413): after S2 the image is applied and the save restored. A
device that is in neither does not wake. -/
def State.wakeUp (s : State) (source : Nat) : State :=
  if s.pwr < 2 then s
  else
    let deep := s.pwr = 3
    let was := s.pwr
    let held := s.getF R.padStatus F.padStatus_held
    let s := if deep then s.deepWake else s
    let s := (s.setF R.pwrState F.pwrState_armed 0).setF R.pwrState F.pwrState_state was
    let s := { s with power := { s.power with saved := none, rails := [], stopping := false, request := none },
                      clock := { s.clock with pllLocked := s.clock.refclk } }
    let s := ((s.setF R.pwrState F.pwrState_wake_src source).setF R.padStatus F.padStatus_held held).setPwr 0
    let s := if deep then s.changed 0x02 0 11 0 0 0 else s
    let s := s.count 0x02 6 source 1
    (s.pmeWake 0).pmeWake 1

end Sys2Proof.Machine
end

