-- ==== Sys2Proof/Machine/HostEp.lean ====
section
/-! DEFINITION. The host endpoint (R248 to R272). -/

namespace Sys2Proof.Machine

/-! ## Configuration space (R248 to R252, R257) -/

/-- A request of the host comes in at function fn: it is counted, and takes the link out of L1 (R258). -/
def State.tlpIn (s : State) (fn : Nat) : State := (s.linkWake fn).count 0x04 0 fn 1

/-- The address bits of a BAR: 64 MiB for BAR0 and BAR2; BAR4's size code is that of Resizable BAR (R249). -/
def barBits (e : Ep) (i : Nat) : Nat := if i / 2 = 2 then 20 + e.bar4Size else 26

/-- A 64-bit BAR's address (log entry 21, DEDUCED). -/
def barOf (e : Ep) (i : Nat) : Nat := if i / 2 = 0 then e.bar0 else if i / 2 = 1 then e.bar2 else e.bar4

/-- The ID in a capability's header (R251, by PCIe's numbers) (log entry 205, PRESUMED). -/
def capabilityNumber : Capability → Nat
  | .pciExpress => 0x10
  | .powerManagement => 0x01
  | .msix => 0x11
  | .aer => 0x01
  | .serialNumber => 0x03
  | .pasid => 0x1B
  | .resizableBar => 0x15
  | .secondaryPcie => 0x19
  | .dataLinkFeature => 0x25
  | .physical16 => 0x26
  | .physical32 => 0x2A
  | .physical64 => 0x31
  | .laneMargining => 0x27
  | .ltr => 0x18
  | .l1Substates => 0x1E
  | .dataObjectExchange => 0x2E

/-- What a configuration read of function fn brings (R248, R249, R251, R252; PCIe layout) (log entry 126, DESIGN CHOICE)
(log entry 205, PRESUMED). -/
def State.cfgRead (s : State) (fn : Nat) (r : CfgReg) : Nat × State :=
  let e := s.epOf fn
  let st := s.reg (R.epStatus fn)
  let subsys (i : Nat) : Nat := (s.image.bind fun g => g.subsys[2 * fn + i]?).getD 0
  match r with
  | .vendorId => (0x1F5B, s)
  | .deviceId => (0x4300, s)
  | .revisionId => (s.getF R.deviceIdent F.deviceIdent_stepping, s)
  | .classCode => (0x120000, s)
  | .subsystemVendorId => (subsys 0, s)
  | .subsystemId => (subsys 1, s)
  | .headerType => (0, s)
  | .interruptPin => (if fn = 0 then 1 else 0, s)
  | .bar i =>
    if i ≥ 6 then (0, s)
    else if i % 2 = 1 then (barOf e i / 2 ^ 32, s)
    else (barOf e i % 2 ^ 32 + 4 + (if i = 4 then 8 else 0), s)
  | .command => (bit e.memSpace * 2 + getBits st F.epStatus_bme * 4 + bit e.intDisable * 2 ^ 10, s)
  | .status => (bit (fn == 0 && s.reg (R.intxPend 0) != 0) * 8 + 16, s)
  | .deviceControl => (e.mps % 8 * 32 + e.mrrs % 8 * 2 ^ 12 + 2 ^ 8, s)
  | .deviceStatus => (bit (s.getF (R.tagStatus fn) F.tagStatus_outstanding != 0) * 32, s)
  | .deviceControl2 => (e.cplTimeout + bit e.ltrOn * 2 ^ 10, s)
  | .linkControl => (e.aspm, s)
  | .msixControl => (0x7FF + bit e.funcMask * 2 ^ 14 + bit e.msixEnable * 2 ^ 15, s)
  | .pmcsr => (getBits st F.epStatus_d_state + 8 + bit e.pmeEn * 2 ^ 8 + bit e.pmeStatus * 2 ^ 15, s)
  | .aerUncorrectable => (e.aerUnc, s)
  | .aerCorrectable => (e.aerCor, s)
  | .aerSeverity => (e.aerSev, s)
  | .deviceCapabilities => (2 + 2 ^ 5 + 2 ^ 15 + 2 ^ 28, s)
  | .deviceCapabilities2 => (0xF + 2 ^ 7 + 2 ^ 8 + 2 ^ 11, s)
  | .linkCapabilities => (6 + 16 * 2 ^ 4 + 2 * 2 ^ 10, s)
  | .pasidCapability => (20 * 2 ^ 8, s)
  | .pasidControl => (e.pasidCtl, s)
  | .serialNumber k => (fieldLE deviceId (4 * (k % 2)) 4, s)
  | .ltrLatency => (e.ltr, s)
  | .l1ssCapabilities => (2 ^ 1 + 2 ^ 3 + 2 ^ 4, s)
  | .l1ssControl => (e.l1ss, s)
  | .absent _ => (0, s)
  | .resizableBarCapability => (63 * 2 ^ 18, s)
  | .resizableBar => (4 + 2 ^ 5 + e.bar4Size * 2 ^ 8, s)
  | .pmCapabilities => (3 + 2 ^ 14 + 2 ^ 15, s)
  | .msixTable => (0x100000 + fn * 0x80000, s)
  | .msixPba => (0x108000 + fn * 0x80000, s)
  | .capabilityId c => (capabilityNumber c, s)
  | .other _ =>
    let u := s.unstated
    (u.1.toNat % 2 ^ 32, u.2)

/-- A write of 32 bits to a BAR register: the bits below its size stay 0. -/
def Ep.setBar (e : Ep) (i v : Nat) : Ep :=
  let old := barOf e i
  let raw := if i % 2 = 1 then old % 2 ^ 32 + v % 2 ^ 32 * 2 ^ 32 else old / 2 ^ 32 * 2 ^ 32 + v % 2 ^ 32
  let b := 2 ^ barBits e i
  let new := raw / b * b
  if i ≥ 6 then e else if i / 2 = 0 then { e with bar0 := new } else if i / 2 = 1 then { e with bar2 := new } else { e with bar4 := new }

/-- A write of D0 to the Power Management Control/Status register (R257, R410). -/
def State.writeD0 (s : State) (fn : Nat) : State :=
  let s := s.setF (R.epStatus fn) F.epStatus_d_state 0
  let s := if (s.epOf 0).intaOwed then (s.epSet 0 fun e => { e with intaOwed := false }).intaSync else s.intaDrop
  if s.pwr = 2 then s.wakeUp 1 else s

/-- Initiate Function Level Reset is written (R268); while one is in Request Retry Status it is ignored and recorded (R269). -/
def State.flrWrite (s : State) (fn : Nat) : State :=
  if s.getF (R.epStatus fn) F.epStatus_flr_busy = 1 then s.violation 0x04 fn 0 fn else s.functionLevelReset fn false

/-- A configuration write of function fn (R255 to R258, R261, R266 to R268). -/
def State.cfgWrite (s : State) (fn : Nat) (r : CfgReg) (v : Nat) : State :=
  match r with
  | .bar i => s.epSet fn fun e => e.setBar i v
  | .command =>
    let s := s.epWrite fn fun e => { e with memSpace := natBit v 1, intDisable := natBit v 10 }
    if natBit v 2 then s.setF (R.epStatus fn) F.epStatus_bme 1 else s.bmeClear fn
  | .deviceControl =>
    let s := s.epSet fn fun e => { e with mps := min (natBits v 7 5) 2, mrrs := min (natBits v 14 12) 5 }
    if natBit v 15 then s.flrWrite fn else s
  | .deviceControl2 => s.epSet fn fun e => { e with cplTimeout := v % 16, ltrOn := natBit v 10 }
  | .linkControl => s.epSet fn fun e => { e with aspm := v % 4 / 2 * 2 }
  | .msixControl => s.epWrite fn fun e => { e with funcMask := natBit v 14, msixEnable := natBit v 15 }
  | .pmcsr =>
    let s := s.epSet fn fun e => { e with pmeEn := natBit v 8, pmeStatus := e.pmeStatus && !natBit v 15 }
    if v % 4 = 3 then s.enterD3 fn
    else if v % 4 = 0 ∧ s.getF (R.epStatus fn) F.epStatus_d_state = 3 then s.writeD0 fn else s
  | .aerUncorrectable => s.epSet fn fun e => { e with aerUnc := e.aerUnc &&& (2 ^ 32 - 1 - v % 2 ^ 32) }
  | .aerSeverity => s.epSet fn fun e => { e with aerSev := v % 2 ^ 32 }
  | .pasidControl => s.epSet fn fun e => { e with pasidCtl := v % 2 }
  | .ltrLatency => s.epSet fn fun e => { e with ltr := v % 2 ^ 32 }
  | .l1ssControl => s.epSet fn fun e => { e with l1ss := v % 2 ^ 32 / 2 % 2 * 2 + v / 2 ^ 3 % 2 * 2 ^ 3 }
  | .aerCorrectable => s.epSet fn fun e => { e with aerCor := e.aerCor &&& (2 ^ 32 - 1 - v % 2 ^ 32) }
  | .resizableBar => if 14 ≤ natBits v 13 8 ∧ natBits v 13 8 ≤ 19 then s.epSet fn fun e => { e with bar4Size := natBits v 13 8 } else s
  | _ => s

/-- An inbound request of a function is refused: a read completes with UR, a write is dropped; both are counted. -/
def State.refuseTlp (s : State) (fn : Nat) (posted : Bool) : State :=
  if posted then s else (s.emit (.tlpUr fn)).count 0x04 5 fn 1

/-- A disallowed inbound request of a function is refused, counted and recorded (R25, R272). -/
def State.badTlp (s : State) (fn addr : Nat) (posted : Bool) : State := (s.violation 0x04 fn addr fn).refuseTlp fn posted

/-- A malformed TLP of a function is dropped, logged in AER, counted and recorded (R25, R272). -/
def State.malformedTlp (s : State) (fn : Nat) : State := (s.aerLog fn aerMalformed).violation 0x04 fn 0 fn

/-- CONFIG_REQUEST (R248, R251, R252, R268, R272). With PERST# asserted nothing answers. -/
def execConfigRequest (fn : Nat) (req : CfgReq) (s : State) : Result :=
  if fn ≥ 2 ∨ (s.epOf fn).perst then go s
  else
    let s := s.tlpIn fn
    match req with
    | .unsupported => go (s.badTlp fn 0 false)
    | .read r =>
      if s.getF (R.epStatus fn) F.epStatus_flr_busy = 1 then go (s.emit (.tlpRrs fn))
      else
        let x := s.cfgRead fn r
        go (x.2.emit (.tlpData fn (bytesLE 4 x.1)))
    | .write r v =>
      if s.getF (R.epStatus fn) F.epStatus_flr_busy = 1 then
        go ((if r = .deviceControl ∧ natBit v 15 then s.violation 0x04 fn 0 fn else s).emit (.tlpRrs fn))
      else go ((s.cfgWrite fn r v).emit (.tlpData fn []))

/-! ## BAR4 (R250, R280, R287) -/

/-- The valid aperture entry of a function that a BAR4 offset lies in (R280). -/
def State.apertureAt (s : State) (fn off : Nat) : Option Nat :=
  (s.listedWith (R.aperCtrl fn 0) 0x20 4096 [(F.aperCtrl_valid, 1)]).find? fun a =>
    let bar := s.getF (R.aperBar fn a) F.aperBar_bar_base * 2 ^ 21
    decide (bar ≤ off) && decide (off < bar + s.getF (R.aperSize fn a) F.aperSize_units * 2 ^ 21)

/-- What a BAR4 access of n bytes comes to: the device address and slice, or none where no entry serves it (R280). -/
def State.apertureHit (s : State) (fn off n : Nat) (write read : Bool) : Option (Nat × Nat) :=
  let unit := 2 ^ 21
  match s.apertureAt fn off with
  | none => none
  | some a =>
    let c := s.reg (R.aperCtrl fn a)
    let bar := s.getF (R.aperBar fn a) F.aperBar_bar_base * unit
    let slice := getBits c F.aperCtrl_slice
    if (write ∧ getBits c F.aperCtrl_w = 0) ∨ (read ∧ getBits c F.aperCtrl_r = 0) ∨
        off + n > bar + s.getF (R.aperSize fn a) F.aperSize_units * unit ∨ (s.sliceState slice ≠ 1 ∧ s.sliceState slice ≠ 2) then none
    else some (s.getF (R.aperPa fn a) F.aperPa_pa_base * unit + (off - bar), slice)

/-- The slice an aperture miss counts for: that of the entry the offset lies in, else slice 0 (log entry 171, DEDUCED). -/
def State.missSlice (s : State) (fn off : Nat) : Nat :=
  ((s.apertureAt fn off).map fun a => s.getF (R.aperCtrl fn a) F.aperCtrl_slice).getD 0

/-- A BAR4 request that no entry serves: recorded, counted, refused (R250, R280) (log entry 129, DEDUCED). -/
def State.apertureMiss (s : State) (fn off : Nat) (posted : Bool) : State :=
  ((s.count 0x05 2 (s.missSlice fn off) 1).violation 0x04 fn off fn).refuseTlp fn posted

/-- A failed read is answered: uncorrectable data with CA, anything else with UR (R250). -/
def State.failTlp (s : State) (fn code : Nat) : State :=
  if code = 0x10 then (s.emit (.tlpCa fn)).count 0x04 6 fn 1 else s.refuseTlp fn false

/-- BAR4_ACCESS (R250, R272, R280). -/
def execBar4Access (fn off : Nat) (req : MemReq) (s : State) : Result :=
  let s := s.tlpIn fn
  match req with
  | .read len =>
    if ¬ s.barOpen fn then go (s.badTlp fn off false)
    else if ¬ s.serving then go (s.refuseTlp fn false)
    else match s.apertureHit fn off len false true with
      | none => go (s.apertureMiss fn off false)
      | some (a, slice) => match s.memRead 0x04 fn 3 slice a len with
        | (.bytes l, s) => go (s.emit (.tlpData fn l))
        | (.fail c, s) => go (s.failTlp fn c)
  | .write data =>
    if data.length > 128 * 2 ^ (s.epOf fn).mps then go (s.malformedTlp fn)
    else if ¬ s.barOpen fn then go (s.badTlp fn off true)
    else if ¬ s.serving then go s
    else match s.apertureHit fn off data.length true false with
      | none => go (s.apertureMiss fn off true)
      | some (a, slice) => go (s.memWrite 0x04 fn 3 slice a data).2

/-- The operand size of an AtomicOp, and its new value from the old (R250). -/
def atomicNew (op : AtomicReq) (old : Nat) : Option (Nat × Nat) :=
  match op with
  | .fetchAdd n v => some (n, (old + v) % 2 ^ (8 * n))
  | .swap n v => some (n, v % 2 ^ (8 * n))
  | .cas n c v => some (n, if old = c % 2 ^ (8 * n) then v % 2 ^ (8 * n) else old)
  | .other => none

/-- BAR4_ATOMIC (R250): FetchAdd, Swap and CAS of 32 or 64 bits on naturally aligned addresses. -/
def execBar4Atomic (fn off : Nat) (op : AtomicReq) (s : State) : Result :=
  let s := s.tlpIn fn
  match atomicNew op 0 with
  | none => go (s.badTlp fn off false)
  | some (n, _) =>
    if ¬ s.barOpen fn ∨ ¬ (n = 4 ∨ n = 8) ∨ off % n ≠ 0 then go (s.badTlp fn off false)
    else if ¬ s.serving then go (s.refuseTlp fn false)
    else match s.apertureHit fn off n true true with
      | none => go (s.apertureMiss fn off false)
      | some (a, slice) => match s.memRead 0x04 fn 3 slice a n with
        | (.fail c, s) => go (s.failTlp fn c)
        | (.bytes l, s) => match s.memWrite 0x04 fn 3 slice a (bytesLE n (((atomicNew op (leNat l)).map Prod.snd).getD 0)) with
          | (none, s) => go (s.emit (.tlpData fn l))
          | (some c, s) => go (s.failTlp fn c)

/-! ## Interrupts (R255, R256) -/

/-- MSIX_PENDING_SEND (R255). -/
def execMsixPendingSend (fn v : Nat) (s : State) : Result :=
  let pending := natBit (s.reg (R.msixPba fn (v / 64))).toNat (v % 64)
  if pending ∧ (s.epOf fn).msixEnable ∧ s.hostPath fn ∧ ¬ s.vectorMasked fn v ∧ ¬ (s.epOf fn).funcMask then
    go (((s.clrBit (R.msixPba fn (v / 64)) (v % 64)).linkWake fn).emit (.msix fn (s.vectorPasid fn v) v))
  else go s

/-- INTX_PEND_WRITE (R256): writing 1 clears; at zero INTA is deasserted (log entry 128, DEDUCED). -/
def execIntxPendWrite (fn : Nat) (value : Word) (s : State) : Result :=
  if ¬ s.serving then go s else
  if fn ≠ 0 then go s
  else
    let old := s.reg (R.intxPend 0)
    let new := old &&& ~~~value
    go (s.setReg (R.intxPend 0) new).intaDrop

/-! ## Power and link states (R257 to R260) -/

/-- D3HOT_ENTRY (R257). -/
def execD3hotEntry (fn : Nat) (s : State) : Result := go (s.enterD3 fn)

/-- D0_WRITE (R257, R410). -/
def execD0Write (fn : Nat) (s : State) : Result :=
  if s.getF (R.epStatus fn) F.epStatus_d_state = 3 then go (s.writeD0 fn) else go s

/-- L2_ENTRY (R258): from D3hot only; PME_TO_Ack is sent. -/
def execL2Entry (fn : Nat) (s : State) : Result :=
  if s.getF (R.epStatus fn) F.epStatus_d_state ≠ 3 then go s
  else
    let s := (s.epSet fn fun e => { e with linkPm := 4 }).emit (.pmeToAck fn)
    go ((s.setF (R.epStatus fn) F.epStatus_link_up 0).setF (R.epStatus fn) F.epStatus_low_power 0)

/-- PERST_ASSERT (R259): the port's link and function only. -/
def execPerstAssert (fn : Nat) (s : State) : Result :=
  if (s.epOf fn).perst then go s else go (s.functionLevelReset fn true)

/-- PERST_DEASSERT (R259, R260, R410). -/
def execPerstDeassert (fn : Nat) (s : State) : Result :=
  if ¬ (s.epOf fn).perst then go s
  else
    let woken := (s.epOf fn).wakeAsserted
    let s := s.epSet fn fun e => { e with perst := false, wakeAsserted := false }
    let s := if woken then s.emit (.wakePin fn false) else s
    go (if s.pwr = 3 then s.wakeUp 2 else s)

/-- WAKE_SOURCE (R260): WAKE_STATUS shows it; where the source is enabled and PME_En set, the function is woken. -/
def execWakeSource (fn source : Nat) (s : State) : Result :=
  if source ≥ 4 then go s
  else
    let s := s.setBit (R.wakeStatus fn) source
    go (if natBit (s.reg (R.wakeCfg fn)).toNat source then s.pmeWake fn else s)

/-! ## Completions (R261 to R265, R272) -/

/-- COMPLETION_TIMEOUT (R262, R294). -/
def execCompletionTimeout (unit tag : Nat) (s : State) : Result :=
  match Tab.find? s.tags (tagKey unit tag) with
  | none => go s
  | some use =>
    let s := if unit < 2 then s.timedOut unit tag
      else ((((s.quarantineTag unit tag).timeoutRecord unit tag 0).aerLog unit aerTimeout).portEvent (unit - 2) 6).count 0x07 3 (unit - 2) 1
    go (s.readFails use 0x12)

/-- The microseconds since a time. -/
def State.usSince (s : State) (t : Word) : Nat := s.since t / 1600

/-- A completion that matches no outstanding request is discarded (R263): on a quarantined tag an advisory error, CPL_LATE_LOG, and
the tag's release pushed out (R264); on one never issued an Unexpected Completion. -/
def State.strayCompletion (s : State) (unit tag : Nat) : State :=
  match Tab.find? s.quarantine (tagKey unit tag) with
  | some q =>
    let late := s.usSince q.since
    let s := { s with quarantine := Tab.insert s.quarantine (tagKey unit tag) { q with last := s.now } }
    let s := s.timeoutRecord unit tag late
    if unit < 2 then
      let log := setBits (setBits (setBits 0 F.cplLateLog_valid 1) F.cplLateLog_tag tag) F.cplLateLog_late_us (min late (2 ^ 32 - 1))
      let s := (s.setReg (R.cplLateLog unit) log).count 0x04 2 unit 1
      s.epSet unit fun e => { e with aerCor := e.aerCor ||| 2 ^ 13, aerUnc := e.aerUnc ||| 2 ^ aerUnexpected }
    else
      let p := unit - 2
      let s := { s with slots := { s.slots with unc := Tab.update 0 s.slots.unc p fun v => v ||| 2 ^ aerUnexpected
                                                cor := Tab.update 0 s.slots.cor p fun v => v ||| 2 ^ 13 } }
      s.count 0x07 5 p 1
  | none =>
    let s := (s.aerLog unit aerUnexpected).timeoutRecord unit tag 0
    if unit < 2 then s.count 0x04 3 unit 1 else s.count 0x07 5 (unit - 2) 1

/-- COMPLETION_RECEIVED (R263): data of an outstanding request goes on; a completion on a quarantined tag is discarded, logged as an
advisory error and in CPL_LATE_LOG, and pushes the tag's release out (R264); one on a tag never issued is an Unexpected
Completion. -/
def execCompletionReceived (unit tag : Nat) (last : Bool) (data : Got) (s : State) : Result :=
  let k := tagKey unit tag
  match Tab.find? s.tags k with
  | some use =>
    match data with
    | .fail c => go ((s.freeTag unit tag).readFails use c)
    | .bytes l =>
      let l := l.take (use.len - use.got)
      let short := last && use.got + l.length != use.len && use.len != 0
      let s := if last then s.freeTag unit tag
        else { s with tags := Tab.insert s.tags k { use with got := use.got + l.length } }
      if short then go (s.readFails use 0x11)
      else match (s.chanWork use.who).find? fun w => w.num == use.num && w.code == 0 with
        | some w =>
          if use.len ≠ 0 then go (if w.issued then s else s.dmaArrive use.who w (use.off + use.got) l)
          else if last then go (s.dmaAcked use.who w)
          else go s
        | none => go s
  | none => go (s.strayCompletion unit tag)

/-- TAG_QUARANTINE_RELEASE (R264): one timeout period after the start of its quarantine and after the last completion discarded
on it. -/
def execTagQuarantineRelease (unit tag : Nat) (s : State) : Result :=
  match Tab.find? s.quarantine (tagKey unit tag) with
  | none => go s
  | some q =>
    if s.since q.since < s.unitTimeout unit ∨ s.since q.last < s.unitTimeout unit then go s
    else go ({ s with quarantine := Tab.erase s.quarantine (tagKey unit tag) }.tagRefresh unit)

/-! ## Resets (R266 to R269) -/

/-- BUS_MASTER_DISABLE (R267). -/
def execBusMasterDisable (fn : Nat) (s : State) : Result := go (s.bmeClear fn)

/-- FUNCTION_LEVEL_RESET (R268, R269). -/
def execFunctionLevelReset (fn : Nat) (s : State) : Result := go (s.flrWrite fn)

/-- FLR_COMPLETE (R268): once the slice resets of the function have ended. -/
def execFlrComplete (fn : Nat) (s : State) : Result :=
  if s.getF (R.epStatus fn) F.epStatus_flr_busy = 0 ∨ (s.slicesOf fn).any fun n => s.sliceState n == 3 then go s
  else go (s.setF (R.epStatus fn) F.epStatus_flr_busy 0)

/-! ## Heartbeat and host loss (R270, R271) -/

/-- HB_CFG_WRITE (R270): a period of 0 is ignored and leaves the one before, above 10,000 reads as 10,000; arming clears host_lost; disarming while slices are
bound declares host loss. -/
def execHbCfgWrite (fn : Nat) (value : Word) (s : State) : Result :=
  if ¬ s.serving then go s else
  let period := getBits value F.hbCfg_period_ms
  let on := getBits value F.hbCfg_enable
  let was := s.getF (R.hbCfg fn) F.hbCfg_enable
  if fn ≥ 2 then go s
  else
    let s := if period = 0 then s.writeIgnored 0x04 fn (R.hbCfg fn) value else s
    let kept := if period = 0 then s.getF (R.hbCfg fn) F.hbCfg_period_ms else min period 10000
    let s := s.setReg (R.hbCfg fn) (setBits (setBits 0 F.hbCfg_enable on) F.hbCfg_period_ms kept)
    if on = 1 then
      go ((s.setF (R.epStatus fn) F.epStatus_host_lost 0).epSet fn fun e => { e with lastBeat := s.now })
    else if was = 1 ∧ ¬ (s.slicesOf fn).isEmpty then go (s.hostLoss fn 3)
    else go s

/-- HB_COUNT_WRITE (R270): a value that differs from the last restarts the count of periods (log entry 132, DEDUCED). -/
def execHbCountWrite (fn : Nat) (value : Word) (s : State) : Result :=
  if ¬ s.serving then go s else
  if fn ≥ 2 then go s
  else
    let s := if value ≠ s.reg (R.hbCount fn) then s.epSet fn fun e => { e with lastBeat := s.now } else s
    go (s.setReg (R.hbCount fn) value)

/-- HEARTBEAT_MISS (R270): an unarmed heartbeat declares nothing. -/
def execHeartbeatMiss (fn : Nat) (s : State) : Result :=
  if s.getF (R.hbCfg fn) F.hbCfg_enable = 1 then go (s.hostLoss fn 1) else go s

/-- UPSTREAM_LINK_DOWN (R270): not under PERST#, nor after L2 (a D3cold transition) (log entry 130, DEDUCED). -/
def execUpstreamLinkDown (fn : Nat) (s : State) : Result :=
  if s.getF (R.epStatus fn) F.epStatus_link_up = 1 ∨ (s.epOf fn).perst ∨ (s.epOf fn).linkPm = 4 then go s
  else go (s.hostLoss fn 2)

/-- HOST_LOSS_DRAIN_END (R271). -/
def execHostLossDrainEnd (fn : Nat) (s : State) : Result := go (s.drainEnd fn)

/-! ## Partner errors and links (R258, R270, R272) -/

/-- MALFORMED_TLP (R272). -/
def execMalformedTlp (fn : Nat) (s : State) : Result := go ((s.malformedTlp fn).count 0x04 0 fn 1)

/-- POISONED_TLP (R272): a poisoned write is dropped whole; a poisoned completion fails its request with 0x0011. -/
def execPoisonedTlp (fn : Nat) (tag : Option Nat) (s : State) : Result :=
  let s := ((s.aerLog fn aerPoisoned).violation 0x04 fn 0 fn).count 0x04 0 fn 1
  match tag with
  | none => go s
  | some t => match Tab.find? s.tags (tagKey fn t) with
    | some use => go ((s.freeTag fn t).readFails use 0x11)
    | none => go (s.strayCompletion fn t)

/-- UPSTREAM_LINK_CHANGE (R258, R270): EP_STATUS follows the link; requests outstanding on a lost link fail; vector 0 of the
function tells of the change. -/
def execUpstreamLinkChange (fn : Nat) (up flit narrowed : Bool) (width speed : Nat) (s : State) : Result :=
  if fn ≥ 2 then go s
  else
    let r := R.epStatus fn
    let low := up && flit && narrowed
    let s := ((s.setF r F.epStatus_link_up (bit up)).setF r F.epStatus_flit (bit (up && flit))).setF r F.epStatus_low_power (bit low)
    let s := (s.setF r F.epStatus_width (if up then width else 0)).setF r F.epStatus_speed (if up then speed else 0)
    let s := s.epSet fn fun e => { e with linkPm := if low then 3 else if up then 0 else e.linkPm }
    let s := s.record { source := 0x04, inst := fn, code := 0x0042, detail := dAt 20 (bit up) + dAt 21 width }
    let s := if up then s.count 0x04 8 fn 1 else s.linkFails fn
    go (s.raise fn 0)

/-- ASPM_IDLE_ENTRY (R258): L1 where Link Control enables it, L1.1 where L1 PM Substates does too (log entry 133, DEDUCED). -/
def execAspmIdleEntry (fn : Nat) (deep : Bool) (s : State) : Result :=
  if (s.epOf fn).aspm = 2 ∧ (deep → natBit (s.epOf fn).l1ss 3) ∧ s.getF (R.epStatus fn) F.epStatus_link_up = 1 ∧ (s.epOf fn).linkPm = 0 then
    go ((s.epSet fn fun e => { e with linkPm := if deep then 2 else 1 }).setF (R.epStatus fn) F.epStatus_low_power 1)
  else go s

end Sys2Proof.Machine
end

