-- ==== Sys2Proof/Machine/Serving.lean ====
section
/-! DEFINITION. The commands of the chapter on serving: sequences, lasts, arenas, feeds, attend batches, gathers, staging
and sampling (R171 to R199). -/

namespace Sys2Proof.Machine

/-- An attend operation completes with a code; a refusal for the state of its object is recorded (R26). -/
def State.attendDone (s : State) (n : Nat) (d : Desc) (index code : Nat) : State :=
  let op := d.field 40 1
  let s := if code = 1 then s.cmdRefused 0x0F 0xFF d.slice index op 1 else s
  s.endWhole n d code 0 (attendWord op 0 0)

/-- The frame of an attend operation: the descriptor is of this op and not yet performed, its wait is over, and ops 8 to 13 are
slice 0's (R171). -/
def State.attendOp (s : State) (n op : Nat) (f : Desc → State → State) : Result :=
  match s.desc? n with
  | none => go s
  | some d =>
    if d.opcode ≠ 0x01 ∨ d.field 40 1 ≠ op ∨ d.performed then go s
    else match s.gate n d with
      | none => go s
      | some c =>
        if c ≠ 0 then go (s.endWhole n d c 0 (attendWord op 0 0))
        else if op ≥ 8 ∧ d.slice ≠ 0 then go ((s.blockedName 0x0F 0xFF d.slice).endWhole n d 0x08 0 (attendWord op 0 0))
        else go (f d s)

/-! ## Sequences (R177 to R179) -/

/-- What opening a sequence on a stack set comes to (R177): 0 or a code. set is 0 for every stack the slice may use
(log entry 59, DEDUCED). -/
def State.openCode (s : State) (d : Desc) (stackIds : List Nat) : Nat :=
  let named := maskList 12 (d.field 52 4)
  match s.last? (d.field 42 2) with
  | none => 0x01
  | some l =>
    if (s.seq? (d.field 48 4)).isSome then 0x01
    else if ¬ l.permits d.slice then 0x08
    else if named.any fun st => !s.mayUseStack d.slice st then 0x03
    else if stackIds.isEmpty ∨ s.seqsOf d.slice ≥ s.limit d.slice .sequences then 0x04
    else 0

/-- The stack list of a sequence (R175, R177): the stacks of its set whose memory is in service. -/
def State.stackList (s : State) (slice set : Nat) : List Nat :=
  (maskList 12 (if set = 0 then 2 ^ 12 - 1 else set)).filter fun st => (set != 0 || s.mayUseStack slice st) && s.stackMem st

/-- SEQUENCE_OPEN (R177). -/
def execSequenceOpen (d : Nat) (s : State) : Result :=
  s.attendOp d 1 fun x s =>
    let stackIds := s.stackList x.slice (x.field 52 4)
    let c := s.openCode x stackIds
    let s := if c = 0 then s.setSeq (x.field 48 4) ⟨.active, x.slice, x.field 42 2, x.field 16 8, stackIds, [], []⟩
      else if c = 0x08 then s.blockedName 0x0F 0xFF x.slice else s
    s.attendDone d x (x.field 48 4) c

/-- An operation on a sequence: of another slice 0x0008; not accepted in its state, or held by a running batch, 0x0001
(R178). -/
def State.seqOp (s : State) (n : Nat) (d : Desc) (ok : List SeqState) (f : Seqn → State → Nat × State) : State :=
  let q := d.field 48 4
  match s.seq? q with
  | none => s.attendDone n d q 0x01
  | some x =>
    if x.slice ≠ d.slice then (s.blockedName 0x0F 0xFF d.slice).attendDone n d q 0x08
    else if ¬ ok.contains x.state ∨ s.seqHeld q then s.attendDone n d q 0x01
    else
      let r := f x s
      r.2.attendDone n d q r.1

/-- SEQUENCE_CLOSE (R178): every frame is freed; the entry is free when they are zeroed. -/
def execSequenceClose (d : Nat) (s : State) : Result :=
  s.attendOp d 2 fun x s => s.seqOp d x [.active, .parked, .lost] fun _ s =>
    let q := x.field 48 4
    (0, ((s.freeAllOf q).modSeq q fun y => { y with state := .zeroing }).seqRefresh q)

/-- SEQUENCE_TRUNCATE (R178): the length becomes arg, at most the present one, and the pages wholly above it are freed
(log entry 54, DEDUCED). -/
def execSequenceTruncate (d : Nat) (s : State) : Result :=
  s.attendOp d 3 fun x s => s.seqOp d x [.active] fun y s =>
    let q := x.field 48 4
    let n := x.field 52 4
    if n > y.length then (0x02, s)
    else
      let s := s.freePagesOf q fun _ k => decide (k * 64 ≥ n)
      (0, s.modSeq q fun y => { y with lens := (Tab.mapVals y.lens fun _ m => min m n).filter fun e => e.2 != 0 })

/-- The KV cold tier exists: channel 7's reserved region, given to it (R179). -/
def State.coldTier (s : State) : Bool := s.getF R.memLayout F.memLayout_ddr7_use == 2 && decide (s.ddr.res > 0)

/-- The lowest place for n bytes in the cold tier, after the slots from address a on (R179). -/
def coldPlace (n limit : Nat) : Nat → Tab Nat → Option Nat
  | a, [] => if a + n ≤ limit then some a else none
  | a, (b, m) :: r => if a + n ≤ b then (if a + n ≤ limit then some a else none) else coldPlace n limit (b + m) r

/-- Slots of the cold tier for k frames of n bytes, or none when they do not fit (log entry 58, DESIGN CHOICE). -/
def State.coldSlots (s : State) (n : Nat) : Nat → Option (List Nat × State)
  | 0 => some ([], s)
  | k + 1 =>
    match coldPlace n (0x40000000000 + s.ddr.res) 0x40000000000 s.serve.cold with
    | none => none
    | some a =>
      (State.coldSlots { s with serve := { s.serve with cold := Tab.insert s.serve.cold a n } } n k).map fun r => (a :: r.1, r.2)

/-- Copy the frames of a sequence of a slice within device memory under the identity of slice 0, each after the check of the frame table:
the code of the first failure, or 0. The cold tier is the device's own (R176, R179). -/
def State.copyFrames (s : State) (q slice n : Nat) (toCold : Bool) : List (Nat × Nat) → Nat × State
  | [] => (0, s)
  | (a, b) :: r =>
    let frame := if toCold then a else b
    if ¬ s.frameOk frame q slice then (0x08, s.recordBlocked 0x0E (frame / 2 ^ 35) slice 0x08 frame)
    else if toCold then
      match s.memRead 0x0F (a / 2 ^ 35) 6 0 a n with
      | (.fail c, s) => (c, s)
      | (.bytes l, s) => (s.storeAnew b l).copyFrames q slice n toCold r
    else if s.ddrFenced a n then (0x15, s)
    else if s.uncorrectable a n then (0x10, s.logUncorrectable 0 0 a)
    else
      match s.memWrite 0x0F (b / 2 ^ 35) 6 0 b (s.bytesAt a n) with
      | (some c, s) => (c, s)
      | (none, s) => s.copyFrames q slice n toCold r

/-- SEQUENCE_PARK (R179): every frame is copied to the cold tier and freed. -/
def execSequencePark (d : Nat) (s : State) : Result :=
  s.attendOp d 4 fun x s => s.seqOp d x [.active] fun y s =>
    let q := x.field 48 4
    let n := ((s.last? y.last).map LastRec.frameBytes).getD 4096
    if ¬ s.coldTier then (0x04, s)
    else match s.coldSlots n y.pages.length with
      | none => (0x04, s)
      | some (slots, s') =>
        if s'.ddr.fenced.contains 7 then (0x04, s)
        else
          let old := y.pages.map Prod.snd
          match s'.copyFrames q y.slice n true (old.zip slots) with
          | (0, s) =>
            let s := s.freeFrames old
            (0, s.modSeq q fun y => { y with state := .parked, pages := (y.pages.zip slots).map fun e => (e.1.1, e.2) })
          | (c, s) =>
            let s := s.freeCold slots
            (c, if c = 0x10 then s.loseSeq q else s)

/-- SEQUENCE_UNPARK (R179): frames are allocated on the same stack list and the sequence is copied back. -/
def execSequenceUnpark (d : Nat) (s : State) : Result :=
  s.attendOp d 5 fun x s => s.seqOp d x [.parked] fun y s =>
    let q := x.field 48 4
    let n := ((s.last? y.last).map LastRec.frameBytes).getD 4096
    let slots := y.pages.map Prod.snd
    if ¬ s.coldTier ∨ s.framesOf y.slice + slots.length > s.limit y.slice .frames then (0x04, s)
    else match s.allocPages (y.pages.map fun e => (q, e.1 / 1024, e.1 % 1024)) with
      | none => (0x04, s)
      | some (frames, s) =>
        match s.copyFrames q y.slice n false (slots.zip frames) with
        | (0, s) => (0, (s.freeCold slots).modSeq q fun y => { y with state := .active })
        | (c, s) =>
          let s := (s.freeFrames frames).setSeq q y
          (c, if c = 0x10 then s.modSeq q fun y => { y with state := .lost } else s)

/-- FRAME_ZEROING_DONE (R175): the frame is zero and can be allocated again; a closed sequence with its last frame zeroed is
free. -/
def execFrameZeroingDone (addr : Nat) (s : State) : Result :=
  match Tab.find? s.serve.frames addr with
  | none => go s
  | some f =>
    if ¬ f.zeroing then go s
    else
      let s := s.zeroAnew addr f.bytes
      go (({ s with serve := { s.serve with frames := Tab.erase s.serve.frames addr } }).seqRefresh f.seq)

/-! ## Lasts and arenas (R172 to R174) -/

/-- The fields of a last record are in their ranges (R172, R173). -/
def lastOk (l : LastRec) : Bool :=
  decide (1 ≤ l.layerCount) && decide (l.layerCount ≤ 256) && decide (1 ≤ l.kvHeads) && decide (l.kvHeads ≤ 64) &&
  l.qHeads % l.kvHeads == 0 && decide (1 ≤ l.group) && decide (l.group ≤ 16) &&
  decide (16 ≤ l.dim) && decide (l.dim ≤ 512) && l.dim % 16 == 0 && decide (l.kvFormat ≤ 5) && decide (l.kvIn ≤ 1) &&
  decide (l.field 10 1 ≤ 1) && decide (l.field 11 1 ≤ 1) && decide (1 ≤ l.stripe) && decide (l.stripe ≤ 16) &&
  decide (l.field 13 1 ≤ 2) && l.field 14 2 == 0 && (fp32.decode (l.field 16 4)).isFin && !(fp32.decode (l.field 16 4)).isZero &&
  decide (1 ≤ l.maxTokens) && decide (l.maxTokens ≤ 65536) && l.field 36 4 % 64 == 0 && decide (l.field 36 4 ≤ 65536) &&
  l.field 80 48 == 0 && (!l.mx || l.rowElems % 32 == 0) && l.qElems % 32 == 0 && decide (l.frameBytes ≤ 32 * 4096)

/-- The fields of a layer entry are in their ranges. -/
def layerOk (e : List Byte) : Bool :=
  fieldLE e 8 8 % 64 == 0 && decide (fieldLE e 24 2 ≤ 4096) && fieldLE e 26 6 == 0

/-- The ranges that a last names: base and bytes. -/
def LastRec.ranges (l : LastRec) : List (Nat × Nat) :=
  ((if l.field 24 8 = 0 then [] else [(l.field 24 8, l.field 32 4 * l.field 36 4)]) ++
   l.layers.flatMap fun e => [(fieldLE e 0 8, fieldLE e 8 8), (fieldLE e 16 8, fieldLE e 24 2 * 16)]).filter fun r => r.2 != 0

/-- LAST_BIND (R173): the record and the layer table are read once and copied. -/
def execLastBind (d : Nat) (s : State) : Result :=
  s.attendOp d 8 fun x s =>
    let k := x.field 42 2
    let a := x.field 56 8
    let fin (s : State) (c : Nat) : State := s.attendDone d x k c
    if a % 64 ≠ 0 ∨ ¬ s.owned 0 a 128 then fin s 0x02
    else match s.memRead 0x0F 0xFF 6 0 a 128 with
      | (.fail c, s) => fin s c
      | (.bytes raw, s) =>
        let l : LastRec := ⟨raw, []⟩
        if ¬ lastOk l ∨ ¬ s.owned 0 (l.field 40 8) (l.layerCount * 32) then fin s 0x02
        else match s.memRead 0x0F 0xFF 6 0 (l.field 40 8) (l.layerCount * 32) with
          | (.fail c, s) => fin s c
          | (.bytes t, s) =>
            let l : LastRec := ⟨raw, chunks 32 l.layerCount t⟩
            if ¬ l.layers.all layerOk ∨ ¬ l.ranges.all fun r => s.owned 0 r.1 r.2 then fin s 0x02
            else if (s.last? k).isSome then fin s 0x01
            else
              let v := s.standbySays 3 0
              let s := v.2.tell 3 0 (.last k raw l.layers)
              if v.1 ≠ 0 then fin s v.1
              else fin { s with serve := { s.serve with lasts := Tab.insert s.serve.lasts k l } } 0

/-- LAST_UNBIND (R173): 0x0001 while a sequence, feed or arena refers to the slot. -/
def execLastUnbind (d : Nat) (s : State) : Result :=
  s.attendOp d 9 fun x s =>
    let k := x.field 42 2
    if (s.last? k).isNone ∨ (s.serve.seqs.any fun e => e.2.last == k) ∨ (s.serve.feeds.any fun e => e.2.last == k) ∨
        (s.serve.arenas.any fun e => e.2.last == k) then s.attendDone d x k 0x01
    else
      let v := s.standbySays 3 0
      let s := v.2.tell 3 0 (.lastGone k)
      if v.1 ≠ 0 then s.attendDone d x k v.1
      else ({ s with serve := { s.serve with lasts := Tab.erase s.serve.lasts k } }).attendDone d x k 0

/-- The frames that the bound arenas hold. -/
def State.arenaFrames (s : State) : Nat := s.serve.arenas.foldl (fun n e => n + e.2.size / e.2.frame) 0

/-- ARENA_BIND (R174): an active plain HBM region of slice 0 is cut into frames of the last's size. -/
def execArenaBind (d : Nat) (s : State) : Result :=
  s.attendOp d 10 fun x s =>
    let k := x.field 42 2
    let a := x.field 56 8
    let fin (s : State) (c : Nat) : State := s.attendDone d x k c
    match s.last? k, List.find? (fun (e : Nat × Region) => e.2.base == a) s.regions with
    | _, none => fin s 0x02
    | l, some (_, r) =>
      if r.tier ≠ 0 then fin s 0x02
      else if r.owner ≠ 0 then fin (s.recordBlocked 0x0F 0xFF 0 0x08 a) 0x08
      else match l with
        | none => fin s 0x01
        | some l =>
          if r.state ≠ 1 ∨ (Tab.find? s.serve.arenas a).isSome then fin s 0x01
          else if s.arenaFrames + r.size / l.frameBytes > 4194304 then fin s 0x04
          else
            let v := s.standbySays 3 0
            let s := v.2.tell 3 0 (.arena a k r.size l.frameBytes)
            if v.1 ≠ 0 then fin s v.1
            else fin { s with serve := { s.serve with arenas := Tab.insert s.serve.arenas a ⟨k, r.size, l.frameBytes⟩ } } 0

/-- ARENA_RELEASE (R174): 0x0001 while any frame of the arena is allocated, one in zeroing aside (R175). -/
def execArenaRelease (d : Nat) (s : State) : Result :=
  s.attendOp d 13 fun x s =>
    let a := x.field 56 8
    match Tab.find? s.serve.arenas a with
    | none => s.attendDone d x 0 0x01
    | some r =>
      if s.serve.frames.any fun e => !e.2.zeroing && decide (a ≤ e.1) && decide (e.1 < a + r.size) then
        s.attendDone d x r.last 0x01
      else
        let v := s.standbySays 3 0
        let s := v.2.tell 3 0 (.arenaGone a)
        if v.1 ≠ 0 then s.attendDone d x r.last v.1
        else ({ s with serve := { s.serve with arenas := Tab.erase s.serve.arenas a } }).attendDone d x r.last 0

/-! ## Feeds (R181 to R183) -/

/-- A buffer of a feed against the slice's regions (R181): 0x0008 where its base is in none, 0x0002 where it does not hold its
entries. -/
def State.bufferCode (s : State) (slice a n : Nat) : Nat :=
  if ¬ s.owned slice a 1 then 0x08 else if ¬ s.owned slice a n then 0x02 else 0

/-- FEED_OPEN (R181) (log entry 55, DEDUCED) (log entry 66, DEDUCED). -/
def execFeedOpen (d : Nat) (s : State) : Result :=
  s.attendOp d 11 fun x s =>
    let f := x.field 48 4
    let owner := x.field 52 4
    let cap := x.field 46 2
    match s.last? (x.field 42 2) with
    | none => s.attendDone d x f 0x01
    | some l =>
      let n := 64 + alignUp (4 * cap) 64 + alignUp (cap * l.qRow) 64 + cap * l.kvRow
      let codes := [s.bufferCode owner (x.field 56 8) n, s.bufferCode owner (x.field 64 8) n]
      let c :=
        if codes.contains 0x02 then 0x02
        else if codes.contains 0x08 ∨ s.getF (R.dpStatus (x.field 41 1)) F.dpStatus_owner ≠ owner ∨ ¬ l.permits owner then 0x08
        else if (s.feed? f).isSome then 0x01 else 0
      let s := if c = 0 then s.setFeed f ⟨owner, x.field 41 1, x.field 42 2, cap, x.field 56 8, x.field 64 8, x.field 72 8,
          x.field 80 8, x.field 88 4, 0, 1, none, false, none⟩
        else if c = 0x08 then
          (match [x.field 56 8, x.field 64 8].find? fun a => s.bufferCode owner a n == 0x08 with
           | some a => s.recordBlocked 0x0F 0xFF owner 0x08 a
           | none => s.blockedName 0x0F 0xFF owner)
        else s
      s.attendDone d x f c

/-- FEED_CLOSE (R181): the feed is freed, once its batches have ended. -/
def execFeedClose (d : Nat) (s : State) : Result :=
  s.attendOp d 12 fun x s =>
    let f := x.field 48 4
    match s.feed? f with
    | none => s.attendDone d x f 0x01
    | some y =>
      if y.closing.isSome then s.attendDone d x f 0x01
      else ((s.setDesc d { x with performed := true }).setFeed f { y with closing := some d }).feedNext f

/-- A feed doorbell (R183): a doorbell of a feed of another port, closed or in error is dropped; one that names a buffer whose
batch runs or waits gets a record with 0x0001; else the batch is taken in, or waits behind the running one. -/
def State.feedBell (s : State) (port f value : Nat) : State :=
  let buf := value % 2
  let ticket := natBits value 31 16
  match s.feed? f with
  | none => ((s.bellDropped 0).violation 0x07 port (f * 64) port)
  | some x =>
    if x.port ≠ port then s.bellDropped x.slice
    else if x.error ∨ x.closing.isSome then ((s.bellDropped x.slice).violation 0x07 port (f * 64) port)
    else
      let running : Bool := s.serve.batches.any fun e => match e.2.feed with
        | some (g, b, _) => g == f && b == buf
        | none => false
      let waits : Bool := match x.waiting with
        | some (b, _) => b == buf
        | none => false
      if running ∨ waits then ((s.cmdRefused 0x0F 0xFF x.slice f 12 1).feedRecord f ticket 0x01 0 (attendWord 0 0 0) 0)
      else if s.feedBusy f then (s.setFeed f { x with waiting := some (buf, ticket) })
      else ((s.intakeFeed f buf ticket).feedNext f)

/-- A refused inbound request of a port (R25, R296): the address is logged, a port event raised; a non-posted request completes with
UR. -/
def State.portRefuse (s : State) (p bus : Nat) (posted : Bool) : State :=
  let s := s.setReg (R.dpViolLog p) (BitVec.ofNat 64 bus)
  let s := ((s.violation 0x07 p bus p).portEvent p 4).count 0x07 0 p 1
  if posted then s else s.emit (.portUr p)

/-- FEED_DOORBELL (R183, R297): the write to the page of an enabled port, which decodes it while DP_DB_BASE enables it
(log entry 63, DEDUCED). -/
def execFeedDoorbell (port f value : Nat) (s : State) : Result :=
  if ¬ s.portUsable port ∨ port ≥ 8 ∨ s.getF (R.dpDbBase port) F.dpDbBase_enable = 0 then
    go (s.portRefuse port (s.getF (R.dpDbBase port) F.dpDbBase_base * 4096 + f * 64) true)
  else go (s.feedBell port f value)

/-! ## Attend batches (R185 to R195) -/

/-- ATTEND_BATCH (R185): hub intake takes the batch of a descriptor (log entry 62, DEDUCED). -/
def execAttendBatch (d : Nat) (s : State) : Result :=
  s.attendOp d 0 fun x s =>
    let n := x.field 46 2
    match s.memRead 0x0F 0xFF 6 x.slice (x.field 56 8) (4 * n) with
    | (.fail c, s) => s.attendDone d x 0 c
    | (.bytes l, s) =>
      let ws := elems 4 n l
      let b : Batch := { Batch.fresh with desc := some d, slice := x.slice, last := x.field 42 2, layer := x.field 44 2,
                                          entries := ws.map batchEntry, q := x.field 64 8, kv := x.field 72 8,
                                          out := x.field 80 8 }
      (s.setDesc d { x with performed := true }).intake b (ws.any fun w => natBits w 30 12 != 0)

/-- ATTEND_BATCH_START (R185): a waiting batch starts once no earlier batch holds its sequences. -/
def execAttendBatchStart (n : Nat) (s : State) : Result :=
  match s.batch? n with
  | none => go s
  | some b =>
    if b.started ∨ s.batchWaits n b then go s
    else
      let s := s.startBatch n b false
      match b.feed with
      | some (f, _, _) => go (if (s.batch? n).isSome then s else s.feedNext f)
      | none => go s

/-- Element c of a packed row with its block's scale byte; a plain row has scale 2⁰. -/
def rowOperand (mx : Bool) (f : Fmt) (bits : Nat) (elements scales : List Byte) (c : Nat) : Operand :=
  ⟨f.decode (packedElem bits elements c), if mx then (scales.getD (c / 32) 0).toNat else 127⟩

/-- The element format of K and V rows. -/
def LastRec.kvFmt (l : LastRec) : Fmt := if l.mx then mxFmt l.kvTarget else bf16

/-- A token's K and V rows. -/
abbrev KvRow := List Operand × List Operand

/-- The K and V rows of the first m token slots of a page (R174), or the code of a failure: a frame that is not the
sequence's is blocked (R176). -/
def State.pageRows (s : State) (b : Batch) (l : LastRec) (q k m : Nat) : Except Nat (List KvRow) × State :=
  match s.seq? q with
  | none => (.error 0x01, s)
  | some x =>
    let a := Tab.get 0 x.pages (pageKey b.layer k)
    let inst := a / 2 ^ 35
    let kv := l.kb + l.sb
    if ¬ s.frameOk a q b.slice then (.error 0x08, s.recordBlocked 0x0E inst b.slice 0x08 a)
    else
      match s.memRead 0x0E inst 0 0 a (m * l.kb) with
      | (.fail c, s) => (.error c, s)
      | (.bytes ke, s) =>
        match s.memRead 0x0E inst 0 0 (a + 64 * l.kb) (m * l.sb) with
        | (.fail c, s) => (.error c, s)
        | (.bytes ks, s) =>
          match s.memRead 0x0E inst 0 0 (a + 64 * kv) (m * l.kb) with
          | (.fail c, s) => (.error c, s)
          | (.bytes ve, s) =>
            match s.memRead 0x0E inst 0 0 (a + 64 * (kv + l.kb)) (m * l.sb) with
            | (.fail c, s) => (.error c, s)
            | (.bytes vs, s) =>
              (.ok ((below m).map fun t =>
                let row (e sc : List Byte) : List Operand :=
                  let e := (e.drop (t * l.kb)).take l.kb
                  let sc := (sc.drop (t * l.sb)).take l.sb
                  (below l.rowElems).map (rowOperand l.mx l.kvFmt l.kvBits e sc)
                (row ke ks, row ve vs)), s)

/-- The rows of an entry's tokens that a part takes, as the parts were formed (R187, R193). -/
def State.entryRows (s : State) (b : Batch) (l : LastRec) (stack q count : Nat) : List Nat → Except Nat (List KvRow) × State
  | [] => (.ok [], s)
  | k :: ks =>
    let mine : Bool := match s.seq? q with
      | some x => b.taker q (Tab.get 0 x.pages (pageKey b.layer k) / 2 ^ 35) == some stack
      | none => false
    if ¬ mine then s.entryRows b l stack q count ks
    else match s.pageRows b l q k (min 64 (count - 64 * k)) with
      | (.error c, s) => (.error c, s)
      | (.ok rs, s) => match s.entryRows b l stack q count ks with
        | (.ok more, s) => (.ok (rs ++ more), s)
        | r => r

/-- A product of two elements with both scales; NaN where a scale is NaN (R37). -/
def scaledProduct (a b : Operand) : Num :=
  if a.scale = 0xFF ∨ b.scale = 0xFF then .nan
  else (a.value.mul b.value).scale ((a.scale : Int) - 127 + (b.scale : Int) - 127)

/-- Pairs grouped by runs of one pair of blocks: each run is one contribution (R52). -/
def blockRuns : List (Nat × Num) → List (Nat × List Num)
  | [] => []
  | (k, v) :: r => match blockRuns r with
    | (k', vs) :: g => if k' = k then (k, v :: vs) :: g else (k, [v]) :: (k', vs) :: g
    | [] => [(k, [v])]

/-- Add a contribution to an exact entry: its exact sum truncated to a multiple of 2⁻¹⁹², special values as flags (R53,
R55). -/
def addContribution (en : Entry) (vs : List Num) : Entry :=
  let fl := vs.foldl (fun f v => f ||| specialFlags v) en.flags
  match (vs.filter Num.isFin).foldl Num.add (.fin false 0 0) with
  | .fin neg m e =>
    let c := truncShift m (e + 192)
    { en with val := if neg then en.val - c.1 else en.val + c.1, flags := if c.2 then fl ||| flRangeLow else fl }
  | _ => { en with flags := fl }

/-- A score s[h][i] (R188): FP32 code and flags (log entry 61, DEDUCED). -/
def attendScore (l : LastRec) (h : Nat) (qRow kRow : List Operand) : Nat × Nat :=
  let d := l.dim
  let kh := h / l.group
  let none : Operand := ⟨.fin false 0 0, 127⟩
  let pairs := (below d).map fun j =>
    let cq := h * d + j
    let ck := kh * d + j
    (cq / 32 * 65536 + (if l.mx then ck / 32 else 0), scaledProduct (qRow.getD cq none) (kRow.getD ck none))
  let en := ((blockRuns pairs).map Prod.snd).foldl addContribution Entry.zero
  en.output (fp32.decode (l.field 16 4)) (.fin false 1 0) (fp32.convert · rne) (fp32.convert · rne)

/-- The operands of a Q row. -/
def qOperands (l : LastRec) (raw : List Byte) : List Operand :=
  (below l.qElems).map (rowOperand true (mxFmt (l.field 10 1)) 8 (raw.take l.qElems) (raw.drop l.qElems))

/-- Phase one of one entry over the rows of a part (R189): the maxima of the scores, and X or M of the V rows. -/
def phaseOne (l : LastRec) (acc : RowAcc) (q : List Operand) (rows : List KvRow) : RowAcc :=
  rows.foldl (fun acc r =>
    let sc := (below l.qHeads).map fun h => attendScore l h q r.1
    let x := if l.mx then
        (acc.x.zip (below (l.rowElems / 32))).map fun e =>
          let v := (r.2.getD (e.2 * 32) ⟨.nan, 0xFF⟩).scale
          if v = 0xFF then e.1 else max e.1 (v : Int)
      else (acc.x.zip r.2).map fun e => match binExp e.2.value with
        | some k => max e.1 k
        | none => e.1
    { acc with m := (acc.m.zip sc).map fun e => (f32Max e.1 e.2.1).1, x := x,
               flags := sc.foldl (fun f c => f ||| c.2) acc.flags }) acc

/-- The least k with every element of kv_format below 2ᵏ in magnitude (R191). -/
def LastRec.anchorExp (l : LastRec) : Int := [3, 5, 3, 9, 16].getD l.kvFormat 0

/-- trunc(v × 2^k) of a finite value, 0 of another. -/
def truncNum (v : Num) (k : Int) : Int :=
  match v with
  | .fin neg m e => let t := (truncShift m (e + k)).1; if neg then -t else t
  | _ => 0

/-- The weight p of a score under a head's maximum (R190): the value of its BF16 code. -/
def attendWeight (score m : Nat) : Num :=
  bf16.decode (bf16.convert (fp32.decode (special 0 (f32Sub score m rne).1 rne).1) rne).1

/-- The anchor A of N for channel c of a V row (R191). -/
def LastRec.anchor (l : LastRec) (x : List Int) (c : Nat) : Int :=
  if l.mx then x.getD (c / 32) 0 - 127 + l.anchorExp else x.getD c 0 + 1

/-- Phase two of one entry over the rows of a part (R190 to R192): the sums L and N, and the heads that give NaN: those with a NaN
or infinity among their products of Q and K, their weights or their products with V. -/
def phaseTwo (l : LastRec) (acc : RowAcc) (q : List Operand) (rows : List KvRow) : RowAcc :=
  rows.foldl (fun acc r =>
    let sc := (below l.qHeads).map fun h => attendScore l h q r.1
    let ps := (below l.qHeads).map fun h => attendWeight (sc.getD h (0, 0)).1 (acc.m.getD h 0)
    let terms := (below l.qHeads).map fun h => (below l.dim).map fun j =>
      let c := h / l.group * l.dim + j
      let v := r.2.getD c ⟨.nan, 0xFF⟩
      (c, scaledProduct ⟨ps.getD h .nan, 127⟩ v)
    { acc with
      l := (acc.l.zip ps).map fun e => e.1 + truncNum e.2 51
      n := (acc.n.zip terms.flatten).map fun e => e.1 + truncNum e.2.2 (52 - l.anchor acc.x e.2.1)
      nan := (acc.nan.zip (sc.zip (ps.zip terms))).map fun e =>
        e.1 || decide (e.2.1.2 / flNan % 8 ≠ 0) || !e.2.2.1.isFin || e.2.2.2.any fun t => !t.2.isFin }) acc

/-- An output row and its flags (R192). -/
def outputRow (l : LastRec) (acc : RowAcc) : List Byte × Nat :=
  let fmt := if l.field 11 1 = 0 then bf16 else fp32
  let w := if l.field 11 1 = 0 then 2 else 4
  let os := (below l.qElems).map fun i =>
    let h := i / l.dim
    let c := h / l.group * l.dim + i % l.dim
    if acc.nan.getD h true then (fmt.nan, flNan)
    else
      let n := (fp32.convert (ofScaled (acc.n.getD i 0) (l.anchor acc.x c - 52)) rne).1
      let d := (fp32.convert (ofScaled (acc.l.getD h 0) (-51)) rne).1
      let r := f32Div n d rne
      let o := fmt.convert (fp32.decode r.1) rne
      (o.1, r.2 ||| o.2)
  (os.flatMap fun o => bytesLE w o.1, os.foldl (fun f o => f ||| o.2) acc.flags)

/-- A phase of a batch's part over its entries from j on: the accumulators, or the failing sequence and code. -/
def State.partPhase (s : State) (b : Batch) (l : LastRec) (stack : Nat)
    (f : RowAcc → List Operand → List KvRow → RowAcc) :
    Nat → List ((Nat × Bool) × Nat × RowAcc) → Except (Nat × Nat) (List RowAcc) × State
  | _, [] => (.ok [], s)
  | j, ((q, _), count, acc) :: es =>
    match s.entryRows b l stack q count (below (ceilDiv count 64)) with
    | (.error c, s) => (.error (q, c), s)
    | (.ok rows, s) =>
      match s.memRead 0x0E stack 0 b.slice (b.q + j * l.qRow) l.qRow with
      | (.fail c, s) => (.error (2 ^ 12, c), s)
      | (.bytes raw, s) =>
        match s.partPhase b l stack f (j + 1) es with
        | (.ok more, s) => (.ok (f acc (qOperands l raw) rows :: more), s)
        | r => r

/-- Run a phase of a part and go on with the batch, or the part fails; uncorrectable KV data loses its sequence. -/
def State.runPhase (s : State) (n : Nat) (b : Batch) (l : LastRec) (stack : Nat)
    (f : RowAcc → List Operand → List KvRow → RowAcc) (k : Batch → State → State) : State :=
  match s.partPhase b l stack f 0 (b.entries.zip (b.counts.zip b.rows)) with
  | (.ok rows, s) => k { b with rows := rows } s
  | (.error (q, c), s) =>
    let s := s.partFail n b stack c
    if c = 0x10 then s.loseSeq q else s

/-- A part's local maxima join the batch's (R189). -/
def State.maximaIn (s : State) (n : Nat) (b : Batch) (l : LastRec) (stack : Nat) (k : Batch → State → State) : State :=
  s.runPhase n b l stack (phaseOne l) fun b s => k { b with maxDone := stack :: b.maxDone } s

/-- MAXIMA_EXCHANGE (R189): a part starts, on a stack that starts work (R110), on its benches. -/
def execMaximaExchange (n stack : Nat) (s : State) : Result :=
  match s.batch? n with
  | none => go s
  | some b =>
    match s.last? b.last with
    | none => go s
    | some l =>
      if ¬ b.started ∨ ¬ b.parts.contains stack ∨ b.maxDone.contains stack ∨ (b.failed.any fun e => e.1 == stack) ∨
          ¬ s.partOpenOn stack b.slice false then go s
      else go (s.onBenches stack b (s.partBenches stack false) fun s => s.maximaIn n b l stack fun b s => s.settleBatch n b)

/-- Write the output rows of a batch from entry j on (R192): the code of the first failure, or 0. A feed's go through its
port. -/
def State.writeOutputs (s : State) (b : Batch) (l : LastRec) : Nat → List (List Byte) → Nat × State
  | _, [] => (0, s)
  | j, r :: rs =>
    let a := b.out + j * l.outRow
    match b.feed with
    | some (f, _, _) =>
      match s.feed? f with
      | some x => if s.portUsable x.port then (s.emitPortWrites x.port a r).writeOutputs b l (j + 1) rs else (0x16, s)
      | none => (0x16, s)
    | none =>
      match s.memWrite 0x0F 0xFF 6 b.slice a r with
      | (none, s) => s.writeOutputs b l (j + 1) rs
      | (some c, s) => (c, s)

/-- Write a batch's output rows, once every access is allowed (R33). -/
def State.putOutputs (s : State) (b : Batch) (l : LastRec) (rows : List (List Byte)) : Nat × State :=
  let ranges := if b.feed.isSome then [] else rows.zipIdx.map fun e => (b.out + e.2 * l.outRow, e.1.length)
  match s.refusals 0x0F 0xFF b.slice ranges with
  | (c :: cs, s) => (combineCodes (c :: cs), s)
  | ([], s) => s.writeOutputs b l 0 rows

/-- The last part is merged: the output rows are written, then the record (R192, R195). -/
def State.attendEnd (s : State) (n : Nat) (b : Batch) (l : LastRec) : State :=
  let outs := b.rows.map (outputRow l)
  match s.putOutputs b l (outs.map Prod.fst) with
  | (0, s) =>
    let fls := outs.map Prod.snd
    let flags := fls.foldl (· ||| ·) 0
    s.finishBatch n b (finalCode [] flags) (outs.length * l.outRow) (fls.filter (· != 0)).length flags
  | (c, s) =>
    let s := match b.feed with
      | some (f, _, _) => if c = 0x16 then match s.feed? f with
          | some x => s.setFeed f { x with error := true, waiting := none }
          | none => s
        else s
      | none => s
    (s.setBatch n b).failBatch n c

/-- A part's partial sums are merged; with the last one the batch ends. -/
def State.mergeIn (s : State) (n : Nat) (b : Batch) (l : LastRec) (stack : Nat) : State :=
  s.runPhase n b l stack (phaseTwo l) fun b s =>
    let b := { b with merged := stack :: b.merged }
    if b.parts.all b.merged.contains ∧ b.failed.isEmpty then s.attendEnd n b l else s.settleBatch n b

/-- PARTIAL_MERGE (R191, R192): once the maxima of the parts it exchanges with are in, on its benches; a part whose sequences lie on one
stack needs no exchange (R187). -/
def execPartialMerge (n stack : Nat) (s : State) : Result :=
  match s.batch? n with
  | none => go s
  | some b =>
    match s.last? b.last with
    | none => go s
    | some l =>
      if ¬ b.started ∨ ¬ b.parts.contains stack ∨ b.merged.contains stack ∨ (b.failed.any fun e => e.1 == stack) then go s
      else
        let begun := b.maxDone.contains stack
        let run := s.onBenches stack b (s.partBenches stack begun)
        if ¬ s.partOpenOn stack b.slice begun then go s
        else if b.exchanged stack then go (run fun s => s.mergeIn n b l stack)
        else if b.alone stack then go (run fun s => s.maximaIn n b l stack fun b s => s.mergeIn n b l stack)
        else go s

/-! ## Gather, staging and sampling (R198, R199) -/

/-- The frame of a gather operation of a kind: its last permits the slice, and a port is the slice's (R198). -/
def State.gatherOp (s : State) (n kind : Nat) (f : Desc → LastRec → State → State) : Result :=
  match s.desc? n with
  | none => go s
  | some d =>
    let fin (s : State) (c : Nat) : State := s.endWhole n d c 0 (attendWord kind 0 0)
    if d.opcode ≠ 0x02 ∨ d.field 40 1 ≠ kind then go s
    else match s.gate n d with
      | none => go s
      | some c =>
        let port := d.field 41 1
        if c ≠ 0 then go (fin s c)
        else match s.last? (d.field 42 2) with
          | none => go (fin (s.cmdRefused 0x0F 0xFF d.slice (d.field 42 2) 2 1) 0x01)
          | some l =>
            if ¬ l.permits d.slice ∨ (port ≠ 0xFF ∧ s.getF (R.dpStatus port) F.dpStatus_owner ≠ d.slice) then
              go (fin (s.blockedName 0x0F 0xFF d.slice) 0x08)
            else go (f d l s)

/-- Write the outputs of a gather in turn to device memory: the code of the failures, or 0. -/
def State.gatherPuts (s : State) (d : Desc) : List (Nat × List Byte) → Nat × State
  | [] => (0, s)
  | (a, l) :: ws =>
    match s.memWrite 0x0F 0xFF 6 d.slice a l with
    | (none, s) => s.gatherPuts d ws
    | (some c, s) => let r := s.gatherPuts d ws; (combineCodes [c, r.1], r.2)

/-- Write the outputs of a gather, to device memory or through a port: the code of the failures (R35), or 0; where the access to one
is refused, none is written (R33). -/
def State.gatherWrites (s : State) (d : Desc) (ws : List (Nat × List Byte)) : Nat × State :=
  let port := d.field 41 1
  if port ≠ 0xFF then
    if s.portUsable port then (0, ws.foldl (fun s w => s.emitPortWrites port w.1 w.2) s) else (if ws.isEmpty then 0 else 0x16, s)
  else
    match s.refusals 0x0F 0xFF d.slice (ws.map fun w => (w.1, w.2.length)) with
    | ([], s) => s.gatherPuts d ws
    | r => (combineCodes r.1, r.2)

/-- Read several ranges under slice 0, the last's owner: the byte lists, or the code of the failures. -/
def State.lastReads (s : State) : List (Nat × Nat) → Except Nat (List (List Byte)) × State
  | [] => (.ok [], s)
  | (a, n) :: rs =>
    match s.memRead 0x0F 0xFF 6 0 a n with
    | (.fail c, s) => match s.lastReads rs with
      | (.ok _, s) => (.error c, s)
      | (.error c', s) => (.error (combineCodes [c, c']), s)
    | (.bytes l, s) => match s.lastReads rs with
      | (.ok more, s) => (.ok (l :: more), s)
      | r => r

/-- Copy ranges read under slice 0 to destinations, and complete the descriptor. -/
def State.gatherCopy (s : State) (n : Nat) (d : Desc) (kind : Nat) (moves : List (Nat × Nat × Nat)) : State :=
  match s.lastReads (moves.map fun m => (m.1, m.2.1)) with
  | (.error c, s) => s.endWhole n d c 0 (attendWord kind 0 0)
  | (.ok ls, s) =>
    let r := s.gatherWrites d ((moves.map fun m => m.2.2).zip ls)
    r.2.endWhole n d r.1 (if r.1 = 0 then moves.foldl (fun t m => t + m.2.1) 0 else 0) (attendWord kind 0 0)

/-- EMBEDDING_GATHER (R199): row id[j] of the embedding table goes to dst + j × embed_row_bytes. -/
def execEmbeddingGather (d : Nat) (s : State) : Result :=
  s.gatherOp d 0 fun x l s =>
    let n := x.field 48 4
    match s.memRead 0x0F 0xFF 6 x.slice (x.field 56 8) (4 * n) with
    | (.fail c, s) => s.endWhole d x c 0 (attendWord 0 0 0)
    | (.bytes raw, s) =>
      let ids := elems 4 n raw
      let rows := if l.field 24 8 = 0 then 0 else l.field 32 4
      let w := l.field 36 4
      if ids.any fun i => decide (i ≥ rows) then s.endWhole d x 0x02 0 (attendWord 0 0 0)
      else s.gatherCopy d x 0 ((ids.zip (below n)).map fun p => (l.field 24 8 + p.1 * w, w, x.field 64 8 + p.2 * w))

/-- STAGE (R199): expert e[j] of a layer, or its dense weights for 0xFFFF, goes to dst + j × dst_stride. The directory is read
at each staging (R173). -/
def execStage (d : Nat) (s : State) : Result :=
  s.gatherOp d 1 fun x l s =>
    let n := x.field 48 4
    let fin (s : State) (c : Nat) : State := s.endWhole d x c 0 (attendWord 1 0 0)
    match l.layers[x.field 44 2]? with
    | none => fin s 0x02
    | some lay =>
      match s.memRead 0x0F 0xFF 6 x.slice (x.field 56 8) (2 * n) with
      | (.fail c, s) => fin s c
      | (.bytes raw, s) =>
        let es := elems 2 n raw
        if es.any fun e => e != 0xFFFF && decide (e ≥ fieldLE lay 24 2) then fin s 0x02
        else match s.lastReads (es.map fun e => (fieldLE lay 16 8 + 16 * e, if e = 0xFFFF then 0 else 16)) with
          | (.error c, s) => fin s c
          | (.ok dirs, s) =>
            let src := (es.zip dirs).map fun p =>
              if p.1 = 0xFFFF then (fieldLE lay 0 8, fieldLE lay 8 8) else (fieldLE p.2 0 8, fieldLE p.2 8 4)
            if src.any fun r => r.2 % 64 != 0 || decide (r.2 > x.field 72 8) then fin s 0x02
            else s.gatherCopy d x 1 ((src.zip (below n)).map fun p => (p.1.1, p.1.2, x.field 64 8 + p.2 * x.field 72 8))

/-- a comes before b: the larger logit, NaN last, then the lower index (log entry 60, DEDUCED). -/
def logitBefore (a b : Nat × Nat) : Bool :=
  let x := fp32.decode a.1
  let y := fp32.decode b.1
  if x.isNan then y.isNan && decide (a.2 < b.2)
  else if y.isNan || y.lt x then true
  else if x.lt y then false else decide (a.2 < b.2)

/-- Put an entry into a list ordered by logitBefore, keeping at most k. -/
def rankInsert (k : Nat) (a : Nat × Nat) : List (Nat × Nat) → List (Nat × Nat)
  | [] => [a]
  | b :: r => if logitBefore a b then (a :: b :: r).take k else b :: (rankInsert (k - 1) a r).take (k - 1)

/-- The key of a candidate (R199): its logit, or with Gumbel noise. -/
def sampleKey (invT : Nat) (key : SrKey) (index logit : Nat) : Nat :=
  if invT = 0 then logit
  else
    let u := (fp32.convert (.fin false (2 * (srWord key index / 2 ^ 9) + 1) (-24)) rne).1
    let g := (special 2 (fp32.convert (fp32.decode (special 2 u rne).1).neg rne).1 rne).1
    (f32Sub (f32Mul logit invT rne).1 g rne).1

/-- The token of one logit row (R199): the largest key over the candidates, the lowest index on ties; 0xFFFF_FFFF with has_nan
where every key is NaN. -/
def sampleRow (invT topK vocab r : Nat) (key : SrKey) (logits : List Nat) : Nat × Nat :=
  let all := logits.zip (below vocab)
  let cand := if topK = 0 then all else all.foldl (fun l a => rankInsert topK a l) []
  let best := cand.foldl (fun (b : Option (Nat × Nat)) c =>
    let k := (sampleKey invT key (r * vocab + c.2) c.1, c.2)
    if (fp32.decode k.1).isNan then b
    else match b with
      | none => some k
      | some b => some (if logitBefore k b then k else b)) none
  match best with
  | some b => (b.2, 0)
  | none => (0xFFFFFFFF, flNan)

/-- SAMPLE (R199): one token per logit row. -/
def execSample (d : Nat) (s : State) : Result :=
  s.gatherOp d 2 fun x _ s =>
    let n := x.field 48 4
    let vocab := x.field 52 4
    let w := if x.field 84 1 = 0 then 4 else 2
    match s.memRead 0x0F 0xFF 6 x.slice (x.field 56 8) (n * vocab * w) with
    | (.fail c, s) => s.endWhole d x c 0 (attendWord 2 0 0)
    | (.bytes raw, s) =>
      let rows := (chunks (vocab * w) n raw).map fun r =>
        (elems w vocab r).map fun c => if w = 2 then c * 2 ^ 16 else c
      let toks := (rows.zip (below n)).map fun p => sampleRow (x.field 80 4) (x.field 46 2) vocab p.2 x.key p.1
      let flags := toks.foldl (fun f t => f ||| t.2) 0
      let r := s.gatherWrites x [(x.field 64 8, toks.flatMap fun t => bytesLE 4 t.1)]
      if r.1 = 0 then r.2.endWhole d x (finalCode [] flags) (4 * n) (attendWord 2 (toks.filter fun t => t.2 != 0).length flags)
      else r.2.endWhole d x r.1 0 (attendWord 2 0 0)

end Sys2Proof.Machine
end

