-- ==== Sys2Proof/Machine/Ports.lean ====
section
/-! DEFINITION. Downstream ports (R290 to R304). -/

namespace Sys2Proof.Machine

/-- The state of a port (R300): 0 off, 1 powering, 2 training, 3 link up, 4 down. -/
def State.portState (s : State) (p : Nat) : Nat := s.getF (R.dpStatus p) F.dpStatus_state

/-- Set the state of a port and its PERST# land (R300). -/
def State.setPort (s : State) (p v : Nat) (perst : Bool) : State :=
  let s := s.setF (R.dpStatus p) F.dpStatus_state v
  let m := s.pins.portPerst
  { s with pins := { s.pins with portPerst := if perst then m ||| 2 ^ p else m &&& (0xFFFF - 2 ^ p) } }

/-- The engines with a request outstanding below a port stop with 0x0016 (R245, R295). -/
def State.portFails (s : State) (p : Nat) : State := s.spaceFails (0x10 + p) fun _ => true

/-- A port leaves state 3 (R300, R303, and the hard cases): state 4, traffic fails. -/
def State.portLost (s : State) (p : Nat) : State := if s.portState p = 3 then (s.portDown p).portFails p else s

/-- A port stops being usable without leaving state 3 (R293, R295). -/
def State.portDisabled (s : State) (p : Nat) : State :=
  let s := (s.setF (R.dpCtrl p) F.dpCtrl_port_enable 0).quarantineAll (2 + p)
  ((s.servePortDown p).storePortDown p).portFails p

/-- DP_CFG_ACCESS (R291, R292): a request below a port whose link is not up, or that fails, reads all ones. -/
def execDpCfgAccess (p : Nat) (write : Bool) (value : Word) (reply : Option Nat) (s : State) : Result :=
  if ¬ s.serving ∨ p ≥ 16 then go s
  else
    let s := if write then s.setF (R.dpCfgData p) F.dpCfgData_function (getBits value F.dpCfgData_function) else s
    let f := s.getF (R.dpCfgData p) F.dpCfgData_function
    let reg := s.getF (R.dpCfgAddr p) F.dpCfgAddr_reg / 4 * 4
    let up := s.portState p = 3
    let s := if up then
        s.emit (.portConfig p f reg (if write then some (getBits value F.dpCfgData_data) else none)) else s
    if write then go (s.setF (R.dpCfgData p) F.dpCfgData_data (getBits value F.dpCfgData_data))
    else
      let v := if up then reply.getD 0xFFFFFFFF else 0xFFFFFFFF
      let s := s.setF (R.dpCfgData p) F.dpCfgData_data v
      go (s.emit (.regData (s.reg (R.dpCfgData p))))

/-! ## Inbound traffic (R296 to R298) -/

/-- A range of bytes meets the feed doorbell page of a port (R297). -/
def State.onDoorbellPage (s : State) (p bus n : Nat) : Bool :=
  decide (p < 8) && s.getF (R.dpDbBase p) F.dpDbBase_enable == 1 && meets bus n (s.getF (R.dpDbBase p) F.dpDbBase_base * 4096) 4096

/-- A range of bus addresses is one no window of a port may cover: the enabled doorbell page (R297), a drive port's proxy range
(R315). -/
def State.windowBarred (s : State) (p bus n : Nat) : Bool :=
  s.onDoorbellPage p bus n || (decide (8 ≤ p) && meets bus n (2 ^ 63) (2 ^ 63))

/-- Window w of a port is valid and ignored (log entry 47, DEDUCED). -/
def State.windowIgnored (s : State) (p w : Nat) : Bool :=
  s.getF (R.iwCtrl p w) F.iwCtrl_valid == 1 &&
  s.windowBarred p (s.getF (R.iwBus p w) F.iwBus_bus_base * 2 ^ 21) (s.getF (R.iwSize p w) F.iwSize_units * 2 ^ 21)

/-- The device address that a window of a port gives n bytes at a bus address, with permission (R296); a window over the enabled
doorbell page or the proxy range is ignored. -/
def State.windowHit (s : State) (p bus n : Nat) (write read : Bool) : Option Nat :=
  let unit := 2 ^ 21
  match (below 16).find? fun w =>
      let b := s.getF (R.iwBus p w) F.iwBus_bus_base * unit
      let len := s.getF (R.iwSize p w) F.iwSize_units * unit
      s.getF (R.iwCtrl p w) F.iwCtrl_valid == 1 && decide (b ≤ bus) && decide (bus < b + len) && !s.windowBarred p b len with
  | none => none
  | some w =>
    let b := s.getF (R.iwBus p w) F.iwBus_bus_base * unit
    let c := s.reg (R.iwCtrl p w)
    if (write ∧ getBits c F.iwCtrl_w = 0) ∨ (read ∧ getBits c F.iwCtrl_r = 0) ∨
        bus + n > b + s.getF (R.iwSize p w) F.iwSize_units * unit then none
    else some (s.getF (R.iwPa p w) F.iwPa_pa_base * unit + (bus - b))

/-- A write to the feed doorbell page (R183): the word of feed f stands at offset f × 64. -/
def State.portBell (s : State) (p bus : Nat) (data : List Byte) : State :=
  let off := bus % 4096
  if data.length = 4 ∧ off % 64 = 0 then s.feedBell p (off / 64) (leNat data) else s.portRefuse p bus true

/-- A failed inbound read: uncorrectable data with CA, the owner check with UR (R250, R296). -/
def State.portReadFails (s : State) (p bus code : Nat) : State :=
  if code = 0x10 then s.emit (.portCa p) else s.portRefuse p bus false

/-- A bad TLP of a port is dropped, logged in the Root Port's AER, counted and recorded (R272, R298). -/
def State.portDrop (s : State) (p bus b : Nat) : State := ((s.aerLog (2 + p) b).violation 0x07 p bus p).count 0x07 0 p 1

/-- INBOUND_PORT_REQUEST (R296 to R298, R250, R272). -/
def execInboundPortRequest (p bus : Nat) (req : PortReq) (s : State) : Result :=
  let owner := s.getF (R.dpStatus p) F.dpStatus_owner
  if p ≥ 16 then go s
  else match req with
    | .malformed => go (s.portDrop p bus aerMalformed)
    | .poisoned none => go (s.portDrop p bus aerPoisoned)
    | .poisoned (some t) =>
      let s := s.portDrop p bus aerPoisoned
      (match Tab.find? s.tags (tagKey (2 + p) t) with
      | some use => go ((s.freeTag (2 + p) t).readFails use 0x11)
      | none => go (s.strayCompletion (2 + p) t))
    | .bad posted => go (s.portRefuse p bus posted)
    | .mem (.read n) =>
      if ¬ s.portUsable p ∨ s.onDoorbellPage p bus n then go (s.portRefuse p bus false)
      else match s.windowHit p bus n false true with
        | none => go (s.portRefuse p bus false)
        | some a => match s.memRead 0x07 p 6 owner a n with
          | (.bytes l, s) => go (s.emit (.portData p l))
          | (.fail c, s) => go (s.portReadFails p bus c)
    | .mem (.write data) =>
      if data.length > 512 then go (s.portDrop p bus aerMalformed)
      else if ¬ s.portUsable p then go (s.portRefuse p bus true)
      else if s.onDoorbellPage p bus data.length then go (s.portBell p bus data)
      else match s.windowHit p bus data.length true false with
        | none => go (s.portRefuse p bus true)
        | some a => match s.memWrite 0x07 p 6 owner a data with
          | (none, s) => go s
          | (some c, s) => if c = 0x08 ∨ c = 0x11 then go (s.portRefuse p bus true) else go s
    | .atomic op => match atomicNew op 0 with
      | none => go (s.portRefuse p bus false)
      | some (n, _) =>
        if ¬ s.portUsable p ∨ s.onDoorbellPage p bus n ∨ ¬ (n = 4 ∨ n = 8) ∨ bus % n ≠ 0 then go (s.portRefuse p bus false)
        else match s.windowHit p bus n true true with
          | none => go (s.portRefuse p bus false)
          | some a => match s.memRead 0x07 p 6 owner a n with
            | (.fail c, s) => go (s.portReadFails p bus c)
            | (.bytes l, s) => match s.memWrite 0x07 p 6 owner a (bytesLE n (((atomicNew op (leNat l)).map Prod.snd).getD 0)) with
              | (none, s) => go (s.emit (.portData p l))
              | (some c, s) => go (s.portReadFails p bus c)

/-! ## Slots (R299 to R304) -/

/-- A port's slot power goes off (R300, R302): traffic fails as in surprise removal, state 0. -/
def State.slotOff (s : State) (p : Nat) : State :=
  let s := (s.portLost p).setF (R.dpSlotCtrl p) F.dpSlotCtrl_power_ctrl 0
  s.setPort p 0 true

/-- The bits of an input that two frames in succession agree on are accepted (R299). -/
def sgpioAccept (old last now : Nat) : Nat :=
  (below 3).foldl (fun n i => n + (if natBit last i = natBit now i then bit (natBit now i) else bit (natBit old i)) * 2 ^ i) 0

/-- What the accepted inputs of a port change (R300 to R302, R304). -/
def State.slotChange (s : State) (p old new : Nat) : State :=
  let s := if natBit old 0 = natBit new 0 then s
    else
      let s := (s.setF (R.dpSlotStatus p) F.dpSlotStatus_presence (bit (natBit new 0))).portEvent p 0
      if natBit new 0 then s else s.portLost p
  let s := if natBit new 1 ∧ ¬ natBit old 1 then s.portEvent p 1 else s
  if natBit new 2 ∧ ¬ natBit old 2 then ((s.slotOff p).portEvent p 2).count 0x07 2 p 1 else s

/-- The SDataOut bits of a port (R299). -/
def State.slotOut (s : State) (p : Nat) : Nat :=
  let c := s.reg (R.dpSlotCtrl p)
  getBits c F.dpSlotCtrl_power_ctrl + 2 * getBits c F.dpSlotCtrl_attn_ind + 8 * getBits c F.dpSlotCtrl_pwr_ind

/-- SGPIO_FRAME (R299 to R302, R304): inputs first, then the outputs of the next frame. -/
def execSgpioFrame (bits : List (BitVec 8)) (s : State) : Result :=
  go ((below 16).foldl (fun s p =>
    let now := bits.getD p 0
    let old := Tab.get 0 s.slots.accepted p
    let new := BitVec.ofNat 8 (sgpioAccept old.toNat (Tab.get 0 s.slots.last p).toNat now.toNat)
    let s := { s with slots := { s.slots with last := Tab.put 0 s.slots.last p now, accepted := Tab.put 0 s.slots.accepted p new } }
    let s := s.slotChange p old.toNat new.toNat
    { s with slots := { s.slots with driven := Tab.put 0 s.slots.driven p (BitVec.ofNat 8 (s.slotOut p)) } }) s)

/-- POWER_CTRL_WRITE (R300): off is refused while port_enable is 1. -/
def execPowerCtrlWrite (p : Nat) (on : Bool) (s : State) : Result :=
  if ¬ s.serving ∨ p ≥ 16 then go s
  else if on then
    let s := s.setF (R.dpSlotCtrl p) F.dpSlotCtrl_power_ctrl 1
    if s.portState p = 0 then go (s.setPort p 1 true) else go s
  else if s.getF (R.dpCtrl p) F.dpCtrl_port_enable = 1 then go (s.writeIgnored 0x07 p (R.dpSlotCtrl p) 0)
  else go (s.slotOff p)

/-- POWERING_END (R300). -/
def execPoweringEnd (p : Nat) (s : State) : Result := if s.portState p = 1 then go (s.setPort p 2 false) else go s

/-- PORT_LINK_UP (R300). -/
def execPortLinkUp (p width speed : Nat) (flit : Bool) (s : State) : Result :=
  if s.portState p ≠ 2 then go s
  else
    let s := (s.setPort p 3 false).setF (R.dpStatus p) F.dpStatus_width width
    let s := (s.setF (R.dpStatus p) F.dpStatus_speed speed).setF (R.dpStatus p) F.dpStatus_flit (bit flit)
    go (s.record { source := 0x07, inst := p, code := 0x0042, detail := dAt 20 3 + dAt 21 width })

/-- PORT_LINK_DOWN (R300, R303). -/
def execPortLinkDown (p : Nat) (s : State) : Result := go (s.portLost p)

/-- TRAIN_FAIL (R300): the port remains in training. -/
def execTrainFail (p : Nat) (s : State) : Result := if s.portState p = 2 then go (s.portEvent p 7) else go s

/-- HOT_RESET (R300): ignored while port_enable is 1, and without slot power (log entry 46, DESIGN CHOICE). -/
def execHotReset (p : Nat) (s : State) : Result :=
  if ¬ s.serving ∨ p ≥ 16 then go s
  else if s.getF (R.dpCtrl p) F.dpCtrl_port_enable = 1 ∨ s.portState p ≤ 1 then
    go (s.writeIgnored 0x07 p (R.dpCtrl p) (setBits 0 F.dpCtrl_hot_reset 1))
  else go ((s.portLost p).setPort p 2 false)

/-- PORT_ENABLE_WRITE (R293, R303): refused unless the port is in state 3. -/
def execPortEnableWrite (p : Nat) (on : Bool) (s : State) : Result :=
  if ¬ s.serving ∨ p ≥ 16 then go s
  else if on then
    if s.portState p ≠ 3 then go (s.writeIgnored 0x07 p (R.dpCtrl p) (setBits 0 F.dpCtrl_port_enable 1))
    else go ((s.setF (R.dpCtrl p) F.dpCtrl_port_enable 1).storePortUp p)
  else if s.getF (R.dpCtrl p) F.dpCtrl_port_enable = 1 then go (s.portDisabled p) else go s

/-- ERR_MESSAGE (R291, the hard cases): logged; a message of severity 1 or 2 raises a port event, and the link is left to the
manager. -/
def execErrMessage (p severity : Nat) (s : State) : Result :=
  if p ≥ 16 ∨ severity ≥ 3 then go s
  else
    let s := { s with slots := { s.slots with errors := Tab.put 0 s.slots.errors p (Tab.get 0 s.slots.errors p ||| 2 ^ severity) } }
    let s := s.count 0x07 4 p 1
    go (if severity ≥ 1 then s.portEvent p 5 else s)

end Sys2Proof.Machine
end

