-- ==== Sys2Proof/Machine/Power.lean ====
section
/-! DEFINITION. Power, thermal and droop control (R401 to R420). -/

namespace Sys2Proof.Machine

/-- A row of power acts only while the device is not in OFF. -/
def State.powered (s : State) (f : State → State) : Result := if s.power.off then go s else go (f s)

/-! ## Supply (R401, R405, R418, R420) -/

/-- INPUT_LOW (R401). -/
def execInputLow (s : State) : Result := s.powered fun s => s.emergency 4 true 32

/-- INPUT_RECOVER (R401). -/
def execInputRecover (s : State) : Result := s.powered fun s => s.emergency 4 false 32

/-- INPUT_OVERVOLTAGE (R401). -/
def execInputOvervoltage (s : State) : Result := s.powered fun s => (s.changed 0x02 0 13 0 1 0).raise 0 0

/-- INPUT_FAULT_OFF (R401). -/
def execInputFaultOff (high : Bool) (s : State) : Result := s.powered fun s => s.powerOff (if high then 2 else 1)

/-- POWER_ALERT (R403, R418): over-power. -/
def execPowerAlert (s : State) : Result := s.powered fun s => s.emergency 3 true 8

/-- OVERPOWER_CLEAR (R418). -/
def execOverpowerClear (s : State) : Result := s.powered fun s => s.emergency 3 false 8

/-- THERMTRIP (R420): THERMTRIP# is asserted and stays so in OFF. -/
def execThermtrip (s : State) : Result :=
  s.powered fun s => ({ s with pins := { s.pins with thermtripN := false } }).powerOff 3

/-- POWER_DIE_FALLBACK (R405). -/
def execPowerDieFallback (overLimit : Bool) (s : State) : Result :=
  s.powered fun s => if overLimit then s.powerOff 4 else { s with power := { s.power with fallback := true } }

/-! ## State commands and the power link (R403, R404, R407 to R409) -/

/-- A state command ends with a status. -/
def State.pwrDone (s : State) (status : Nat) : State :=
  let s := (s.setF R.pwrState F.pwrState_last_status status).setF R.pwrState F.pwrState_busy 0
  { s with power := { s.power with request := none, stopping := false } }

/-- The benches are powered down in A1 (R406). -/
def State.benchRails (s : State) (off : Bool) : State :=
  { s with power := { s.power with rails := if off then ((below 12).map fun k => (k + 5, 2)) else [] } }

/-- A write of PWR_STATE_CMD with an op (R407): ignored and recorded while busy; refused with 0x0001 where the power link is lost or
the state has no such command (R26). -/
def State.pwrCmd (s : State) (value : Word) (op : Nat) (ok : State → Bool) (f : State → State) : Result :=
  if s.power.off ∨ ¬ s.serving ∨ getBits value F.pwrStateCmd_op ≠ op then go s
  else if s.getF R.pwrState F.pwrState_busy = 1 then go (s.writeIgnored 0x02 0 R.pwrStateCmd value)
  else if s.getF R.emergStatus F.emergStatus_link_lost = 1 ∨ ¬ ok s then
    go ((s.pwrDone 0x01).cmdRefused 0x02 0 0 0 op 0x01)
  else go (f s)

/-- A rail request goes out on the power link, and the command stays in progress. -/
def State.pwrAsk (s : State) (op : Nat) : State :=
  let s := s.setF R.pwrState F.pwrState_busy 1
  { s with power := { s.power with request := some ⟨op, false⟩, stopping := false } }

/-- TO_A0 (R407): the benches are powered up from A1. -/
def execToA0 (value : Word) (s : State) : Result := s.pwrCmd value 1 (fun s => s.pwr == 1) fun s => s.pwrAsk 1

/-- TO_A1 (R408): no new bench work starts. -/
def execToA1 (value : Word) (s : State) : Result :=
  s.pwrCmd value 2 (fun s => s.pwr == 0) fun s =>
    let s := s.setF R.pwrState F.pwrState_busy 1
    { s with power := { s.power with stopping := true } }

/-- Every bench is idle: no sub-part or kernel instance runs, and no attend part that has begun is still to go on. -/
def State.benchesIdle (s : State) : Bool :=
  s.subsQuiet && s.serve.batches.all fun e => (below 12).all fun st => !e.2.begunOn st

/-- A1_ENTRY (R408): the device enters A1; the command ends with the power die's answer. -/
def execA1Entry (s : State) : Result :=
  s.powered fun s => if s.power.stopping ∧ s.benchesIdle then ((s.setPwr 1).benchRails true).pwrAsk 2 else s

/-- A1_TIMEOUT (R408). -/
def execA1Timeout (s : State) : Result := s.powered fun s => if s.power.stopping then s.pwrDone 0x12 else s

/-- Bench work is ready to start: a bench has a sub-part, an instance or an attend part whose turn it is. -/
def State.benchReady (s : State) : Bool := (below 12).any fun st => (below 7).any fun b => !(s.benchClaims st b).isEmpty

/-- AUTO_A0 (R407). -/
def execAutoA0 (s : State) : Result :=
  s.powered fun s =>
    if s.pwr = 1 ∧ s.getF R.pwrCfg F.pwrCfg_auto_a0 = 1 ∧ s.benchReady ∧ s.getF R.pwrState F.pwrState_busy = 0 then s.pwrAsk 1 else s

/-- The command that waits for the power die fails with a code, every domain as it was before it (R403, R404). -/
def State.pwrFails (s : State) (op code : Nat) : State :=
  if op = 2 then ((s.setPwr 0).benchRails false).pwrDone code
  else if op = 1 then s.pwrDone code
  else { s with power := { s.power with request := none } }

/-- POWER_LINK_ANSWER (R403). A bench powered up on leaving A1 is cleared first (R408). -/
def execPowerLinkAnswer (ack : Bool) (s : State) : Result :=
  s.powered fun s =>
    let s := { s with power := { s.power with fallback := false } }
    match s.power.request with
    | none => s
    | some r =>
      if ¬ ack then (s.count 0x02 5 0 1).pwrFails r.op 0x11
      else if r.op = 1 then ((s.benchesOff.benchRails false).setPwr 0).pwrDone 0
      else if r.op = 2 then s.benchesOff.pwrDone 0
      else { s with power := { s.power with request := none } }

/-- POWER_LINK_TIMEOUT (R404): the request is resent once; after the resend the link is lost. -/
def execPowerLinkTimeout (s : State) : Result :=
  s.powered fun s =>
    let r := s.power.request.getD ⟨0, false⟩
    if ¬ r.resent then ({ s with power := { s.power with request := some ⟨r.op, true⟩ } }).count 0x02 4 0 1
    else
      let s := (s.pwrFails r.op 0x01).emergency 5 true 16
      (s.setF R.capStatus F.capStatus_stale 1).setF R.plinkStatus F.plinkStatus_link_ok 0

/-- POWER_LINK_RETRY (R404): on the first answer the rails and the meter are read back and the emergency ends. -/
def execPowerLinkRetry (answered : Bool) (s : State) : Result :=
  s.powered fun s =>
    if ¬ answered then s
    else
      let s := { s with power := { s.power with fallback := false } }
      let s := (s.setF R.capStatus F.capStatus_stale 0).setF R.plinkStatus F.plinkStatus_link_ok 1
      s.emergency 5 false 16

/-- ARM_S1 (R409): deferred where the conditions hold. -/
def execArmS1 (value : Word) (s : State) : Result :=
  s.pwrCmd value 3 (fun s => decide (s.pwr ≤ 1) && s.sleepOk false && !s.activationOpen) fun s => (s.setF R.pwrState F.pwrState_armed 2).pwrDone 0x40

/-- ARM_S2 (R409). -/
def execArmS2 (value : Word) (s : State) : Result :=
  s.pwrCmd value 4 (fun s => decide (s.pwr ≤ 1) && s.sleepOk true && !s.activationOpen) fun s => (s.setF R.pwrState F.pwrState_armed 3).pwrDone 0x40

/-- DISARM (R409). -/
def execDisarm (value : Word) (s : State) : Result :=
  s.pwrCmd value 5 (fun _ => true) fun s => (s.setF R.pwrState F.pwrState_armed 0).pwrDone 0

/-- A triggered entry: the conditions are checked again (R409); a power link lost on the way abandons it (the hard cases). -/
def State.sleepTry (s : State) (deep linkLost : Bool) : State :=
  if ¬ s.sleepOk deep then
    let s := (s.setF R.pwrState F.pwrState_armed 0).setF R.pwrState F.pwrState_last_status 0x01
    s.cmdRefused 0x02 0 0 0 (if deep then 4 else 3) 0x01
  else if linkLost then
    let s := (s.setF R.pwrState F.pwrState_armed 0).changed 0x02 0 14 s.pwr s.pwr 0
    let s := (s.setF R.capStatus F.capStatus_stale 1).setF R.plinkStatus F.plinkStatus_link_ok 0
    s.emergency 5 true 16
  else s.sleep deep

/-- S1_ENTRY (R407, R409, R411): once a command in progress has ended (log entry 213, DEDUCED). -/
def execS1Entry (linkLost : Bool) (s : State) : Result :=
  s.powered fun s =>
    if s.getF R.pwrState F.pwrState_armed = 2 ∧ s.pwr ≤ 1 ∧ s.getF R.pwrState F.pwrState_busy = 0 ∧ s.getF (R.epStatus 0) F.epStatus_d_state = 3 ∧
        s.getF (R.epStatus 1) F.epStatus_d_state = 3 then s.sleepTry false linkLost else s

/-- S2_ENTRY (R407, R409, R411, R412): once a command in progress has ended. -/
def execS2Entry (linkLost : Bool) (s : State) : Result :=
  s.powered fun s =>
    let l2 := (s.epOf 0).linkPm = 4 ∧ (s.epOf 1).linkPm = 4
    let perst := (s.epOf 0).perst ∧ (s.epOf 1).perst
    if s.getF R.pwrState F.pwrState_armed = 3 ∧ s.pwr ≤ 1 ∧ s.getF R.pwrState F.pwrState_busy = 0 ∧ (l2 ∨ perst) then s.sleepTry true linkLost else s

/-- WAKE (R410): a source of WAKE_CFG has to be enabled in a function, and the timer's time be reached; D0 wakes from S1, PERST# from
S2. -/
def execWake (source : Nat) (s : State) : Result :=
  s.powered fun s =>
    let ok := (source = 1 ∧ s.pwr = 2) ∨ (source = 2 ∧ s.pwr = 3) ∨ (3 ≤ source ∧ source ≤ 6 ∧ s.wakeEnabled (source - 3) ∧ (source = 6 → s.now ≥ s.reg R.wakeTimer))
    if ¬ ok ∨ s.pwr < 2 then s
    else
      let s := if source ≥ 3 then (s.setBit (R.wakeStatus 0) (source - 3)).setBit (R.wakeStatus 1) (source - 3) else s
      s.wakeUp source

/-- PAD_RELEASE (R413): host writes are ignored and recorded. -/
def execPadRelease (core : Bool) (value : Word) (s : State) : Result :=
  s.powered fun s =>
    if ¬ core then s.writeIgnored 0x02 0 R.padRelease value
    else s.setF R.padStatus F.padStatus_held (s.getF R.padStatus F.padStatus_held &&& (7 - getBits value F.padRelease_release))

/-! ## Meter, cap and phases (R414 to R416) -/

/-- ENERGY_UPDATE (R414): not while the power link is lost (R404). -/
def execEnergyUpdate (uj pin vin iin : Nat) (s : State) : Result :=
  s.powered fun s =>
    if s.getF R.emergStatus F.emergStatus_link_lost = 1 then s
    else
      let w := setBits (setBits (setBits 0 F.powerNow_iin_ma iin) F.powerNow_vin_mv vin) F.powerNow_pin_w pin
      let s := { s with power := { s.power with samples := s.power.samples + 1 } }
      (s.setReg R.energy (BitVec.ofNat 64 uj)).setReg R.powerNow w

/-- cap_rate binds a busy engine: of no quiet partition, and of a stack whose phase, and whose emergencies, would let it run as fast
or faster (R415). -/
def State.capBinds (s : State) : Bool :=
  let rate := s.getF R.capStatus F.capStatus_cap_rate
  (below 12).any fun st =>
    decide (rate ≤ s.getF (R.opPoint (s.phaseOf st)) F.opPoint_rate_max) && decide (rate ≤ s.emergencyRate st) &&
    (engKeys st).any fun k => !(Tab.get EngRate.rest s.bench.rates k).idle &&
      (s.quietOf (s.getF (R.benchStatus st (k % 48 / 8)) F.benchStatus_running_slice)).isNone

/-- CAP_LOOP (R415): not while the power core restarts (R437); the rate of quiet partitions is lowered only once the others are at 1/64. -/
def execCapLoop (p : Nat) (s : State) : Result :=
  s.powered fun s =>
    if (Tab.find? s.boot.down 1).isSome then s else
    let cap := max 500 (min 1000 (s.getF R.capCfg F.capCfg_cap_w))
    let rate := s.getF R.capStatus F.capStatus_cap_rate
    let cut := (p - cap + 5) / 6
    let new := if p > cap then max 1 (rate - cut)
      else if p + 12 < cap ∧ s.power.quietCut = 0 ∧ s.capBinds then min 64 (rate + 1) else rate
    let quiet := if p > cap ∧ rate = 1 then s.power.quietCut + cut
      else if p + 12 < cap ∧ s.power.quietCut > 0 then s.power.quietCut - 1 else s.power.quietCut
    let overs := if new = 1 ∧ p > cap then s.power.capOver + 1 else 0
    let s := if quiet = s.power.quietCut then s else s.changed 0x02 0 15 (min 255 s.power.quietCut) (min 255 quiet) 0
    let s := { s with power := { s.power with capOver := overs, quietCut := quiet } }
    let s := if new < rate then s.count 0x02 2 0 1 else s
    let s := s.setF R.capStatus F.capStatus_cap_rate new
    let s := if overs ≥ 10 then s.setF R.capStatus F.capStatus_unmet 1
      else if p ≤ cap then s.setF R.capStatus F.capStatus_unmet 0 else s
    s.retargetAll

/-- PHASE_CTRL_WRITE (R416). -/
def execPhaseCtrlWrite (value : Word) (s : State) : Result :=
  if ¬ s.serving then go s else
  s.powered fun s =>
    let ph := getBits value F.phaseCtrl_phase
    if ph > 4 then s.cmdRefused 0x02 0 0 0 ph 0x02
    else
      let stackIds := (below 12).filter fun st => natBit (getBits value F.phaseCtrl_stacks) st
      let s := stackIds.foldl (fun s st => (s.setF R.phaseStatus (4 * st + 2, 4 * st) ph).count 0x02 3 st 1) s
      s.retargetAll

/-- BENCH_GATE_IDLE (R416): the bench powers down and loses its local state (R76, R77); it powers up for its next work. -/
def execBenchGateIdle (stack b : Nat) (s : State) : Result :=
  s.powered fun s =>
    if s.getF (R.opPoint (s.phaseOf stack)) F.opPoint_gate_idle = 0 ∨ s.benchBusy stack b then s
    else
      let k := benchKey stack b
      { s with
        power := { s.power with gated := Tab.insert s.power.gated k () }
        bench := { s.bench with engines := Tab.keep s.bench.engines fun e _ => e / 9 != k
                                barriers := Tab.keep s.bench.barriers fun e _ => e / 16 != k
                                scratch := Tab.keep s.bench.scratch fun a _ => a / 2 ^ 22 != k }
        cores := Tab.erase s.cores k }

/-! ## Thermal and droop (R418, R419) -/

/-- The rule of R419: the new rate, and whether it was raised. -/
def thermRule (rate t hot cool : Nat) (due : Bool) : Nat × Bool :=
  if t ≥ hot then (max 8 (rate - 4), false)
  else if t < cool ∧ due then (min 64 (rate + 1), true)
  else (rate, false)

/-- The thermal rule of the DRAM of a stack (R418, R419). -/
def State.dramTherm (s : State) (stack t : Nat) : State :=
  let due := decide (s.since (Tab.get 0 s.power.dramRaise stack) ≥ usTicks 1000)
  let r := thermRule (Tab.get 64 s.power.dram stack) t 95 93 due
  let s := { s with power := { s.power with
    dram := Tab.put 64 s.power.dram stack r.1
    dramRaise := if r.2 then Tab.put 0 s.power.dramRaise stack s.now else s.power.dramRaise } }
  if t ≥ 95 then s.emergency (24 + stack) true r.1
  else if r.1 = 64 then s.emergency (24 + stack) false 64
  else s

/-- THERMAL_LOOP (R418, R419). -/
def execThermalLoop (dies dram : List Nat) (s : State) : Result :=
  s.powered fun s =>
    let t := dies.foldl max 0
    let hottest := (dies.findIdx? fun x => x == t).getD 0
    let s := ((s.setF R.tempStatus F.tempStatus_tj_max t).setF R.tempStatus F.tempStatus_hottest_die hottest).setF
      R.tempStatus F.tempStatus_dram_max (dram.foldl max 0)
    let r := thermRule s.power.therm t 105 103 (decide (s.since s.power.thermRaise ≥ usTicks 1000))
    let s := { s with power := { s.power with therm := r.1, thermRaise := if r.2 then s.now else s.power.thermRaise } }
    let s := if t ≥ 105 then s.emergency 1 true r.1 else if r.1 = 64 then s.emergency 1 false 64 else s
    ((below 12).foldl (fun s st => s.dramTherm st (dram.getD st 0)) s).emergRefresh

/-- The droop bit is set while any stack is under droop. -/
def State.droopRefresh (s : State) : State :=
  (s.setF R.emergStatus F.emergStatus_droop (bit (s.getF R.emergStatus F.emergStatus_droop_stacks != 0))).emergRefresh

/-- DROOP (R418). -/
def execDroop (stack : Nat) (s : State) : Result :=
  s.powered fun s => if stack < 12 then (s.emergency (36 + stack) true 8).droopRefresh else s

/-- DROOP_CLEAR (R418). -/
def execDroopClear (stack : Nat) (s : State) : Result :=
  s.powered fun s => if stack < 12 then (s.emergency (36 + stack) false 8).droopRefresh else s

end Sys2Proof.Machine
end

