-- ==== Sys2Proof/Machine/Storage.lean ====
section
/-! DEFINITION. The commands of the chapter on the storage service: queue pairs, admin commands and mediation, I/O commands,
mirrors, the proxy range (R305 to R320). -/

namespace Sys2Proof.Machine

/-! ## Doorbells and fetching (R306, R307) -/

/-- A doorbell at another offset of a page (R306, R360): the same checks as at offset 0; no register acts as one. -/
def State.bellAt (s : State) (kind off : Nat) (b : Bell) : BellHit :=
  match b with
  | .page fn p o len v => if o = off then s.bell kind (.page fn p 0 len v) else
      .dropped (if s.getF (R.doorbellEntry fn p) F.doorbellEntry_valid = 1 then
        s.getF (R.doorbellEntry fn p) F.doorbellEntry_slice else 0)
  | .reg _ _ => .dropped 0

/-- An index beyond a queue pair's queue is ignored and recorded, and puts the pair in error: it fetches no more until it is enabled
anew (R25, R306) (log entry 242, DESIGN CHOICE). -/
def State.qpBeyond (s : State) (q i : Nat) : State :=
  let s := s.bellBeyond (s.qpSlice q) q i
  { s with store := { s.store with errored := Tab.insert s.store.errored q () } }

/-- A queue pair takes doorbells: enabled, not being deleted, its slice active (R279). -/
def State.qpOpen (s : State) (q : Nat) : Bool :=
  s.getF (R.qpCfg q) F.qpCfg_enable == 1 && (Tab.find? s.store.deleting q).isNone && s.sliceState (s.qpSlice q) == 1

/-- NVME_SQ_DOORBELL (R306): a new submission tail; one beyond the queue is ignored and recorded (R25) (log entry 79, DEDUCED). -/
def execNvmeSqDoorbell (bell : Bell) (s : State) : Result :=
  match s.bellAt 4 0 bell with
  | .dropped _ => go (s.storeCount 8 0 1)
  | .hit q i =>
    if ¬ s.qpOpen q then go (s.storeCount 8 0 1)
    else if i ≥ s.sqSlots q then go (s.qpBeyond q i)
    else go (s.setF (R.qpStatus q) F.qpStatus_sq_tail i)

/-- NVME_CQ_DOORBELL (R306): a new completion head; held entries go out. The completion queue of a pair that drains still takes
its head (R310) (log entry 83, DEDUCED). -/
def execNvmeCqDoorbell (bell : Bell) (s : State) : Result :=
  match s.bellAt 4 4 bell with
  | .dropped _ => go (s.storeCount 8 0 1)
  | .hit q i =>
    if ¬ s.qpOpen q ∧ ((Tab.find? s.store.deleting q).isNone ∨ s.sliceState (s.qpSlice q) ≠ 1) then go (s.storeCount 8 0 1)
    else if i ≥ s.cqSlots q then go (s.qpBeyond q i)
    else
      let s := { s with store := { s.store with cqHead := Tab.put 0 s.store.cqHead q i } }
      go (s.cqeFlush q ((Tab.get [] s.store.waiting q).length + 1))

/-- The admin opcodes that R308 lists, firmware commands apart. -/
def adminListed (op : Nat) : Bool :=
  [0x00, 0x01, 0x02, 0x04, 0x05, 0x06, 0x08, 0x09, 0x0A, 0x0C, 0x0D, 0x15, 0x18, 0x80, 0x81, 0x82, 0x84].contains op

/-- The admin opcodes that are forwarded (R308): queues, namespaces, Format NVM, Sanitize, Security. -/
def adminForwarded (op : Nat) : Bool := [0x00, 0x01, 0x04, 0x05, 0x0D, 0x15, 0x80, 0x81, 0x82, 0x84].contains op

/-- A queue pair has a command to fetch and room for its entry (R307). -/
def State.qpReady (s : State) (q : Nat) : Bool :=
  s.qpOpen q && (Tab.find? s.store.errored q).isNone && s.fetches (s.qpSlice q) && (Tab.get [] s.store.waiting q).isEmpty &&
  s.getF (R.qpStatus q) F.qpStatus_sq_head != s.getF (R.qpStatus q) F.qpStatus_sq_tail

/-- The queue pair of a slice whose turn it is (R307): the next in number after the last served, round the slice's pairs, the admin
pair after the others (log entry 208, DESIGN CHOICE). -/
def State.qpTurn (s : State) (slice : Nat) : Option Nat :=
  let l := (s.pairsOf slice ++ [0x1000 + slice]).filter fun q => s.qpReady q
  match Tab.find? s.store.turn slice with
  | none => l.head?
  | some last => match l.find? fun q => decide (q > last) with
    | some q => some q
    | none => l.head?

/-- NVME_COMMAND_FETCH (R307, R308, R311): the next command in ring order of the queue whose turn it is is accepted; a slot that
an Abort removed is passed over; an opcode that is not listed completes with 0/0x01. Apprentice service holds 256 commands in
all (log entry 80, DEDUCED). -/
def execNvmeCommandFetch (q : Nat) (host : Got) (s : State) : Result :=
  let slice := s.qpSlice q
  let head := s.getF (R.qpStatus q) F.qpStatus_sq_head
  if s.qpTurn slice ≠ some q ∨ s.ringWaits slice 1 ∨
      (s.getF R.storCfg F.storCfg_apprentice = 1 ∧ s.store.cmds.length ≥ 256) then go s
  else
    let next := (head + 1) % s.sqSlots q
    if (Tab.find? s.store.removed (q * 2 ^ 16 + head)).isSome then
      go (({ s with store := { s.store with removed := Tab.erase s.store.removed (q * 2 ^ 16 + head) } }).setF
        (R.qpStatus q) F.qpStatus_sq_head next)
    else
      let s := { s with store := { s.store with turn := Tab.insert s.store.turn slice q } }
      match s.ringRead slice (s.getF (R.qpSq q) F.qpSq_base * 4096) 1 (head * 64) 64 host with
      | (.fail c, s) =>
        go ((s.record
          { source := 0x08, inst := 0, code := 0x0050, slice := slice, status := c, severity := 2,
            detail := dAt 20 8 + dAt 22 4 + dAt 24 q }).count 0x05 8 slice 1)
      | (.bytes raw, s) =>
        let id := s.store.nextCmd
        let c : NvmeCmd := ⟨q, slice, raw, none, [], [], 0, false, false, 0⟩
        let s := { s with store := { s.store with nextCmd := id + 1, cmds := Tab.insert s.store.cmds id c } }
        let s := (s.setF (R.qpStatus q) F.qpStatus_sq_head next).storeCount 0 c.op 1
        let s := s.tell 1 c.slice (.nvmeCmd q (c.field 2 2) true)
        let s := s.tell 1 c.slice (.nvme q next (s.getF (R.qpStatus q) F.qpStatus_cq_tail) (s.getF (R.qpStatus q) F.qpStatus_phase))
        let known := if c.admin then adminListed c.op else [0x00, 0x01, 0x02, 0x08, 0x09].contains c.op
        if known then go s else go (s.nvmeBad id 0x001)

/-! ## Data pointers (R311) -/

/-- Walk a chain of PRP lists for need page addresses, the list beginning at an offset of its page. -/
def prpWalk (need off : Nat) : List Got → Nat × List Nat
  | [] => (0x004, [])
  | .fail _ :: _ => (0x004, [])
  | .bytes l :: rest =>
    let cap := (4096 - off) / 8
    let es := elems 8 (min need cap) l
    if need ≤ cap then (0, es)
    else
      let r := prpWalk (need - (cap - 1)) (es.getD (cap - 1) 0 % 4096) rest
      (r.1, es.take (cap - 1) ++ r.2)

/-- The host buffer of two PRP entries: 0 and its address and length pairs, or the status it fails with (R320). -/
def prpBuffer (prp1 prp2 len : Nat) (lists : List Got) : Nat × List (Nat × Nat) :=
  let n0 := min len (4096 - prp1 % 4096)
  let rest := len - n0
  if prp1 % 4 ≠ 0 then (0x013, [])
  else if rest = 0 then (0, [(prp1, n0)])
  else
    let pages : Nat × List Nat := if rest ≤ 4096 then (0, [prp2]) else
      if prp2 % 4 ≠ 0 then (0x013, []) else prpWalk (ceilDiv rest 4096) (prp2 % 4096) lists
    if pages.1 ≠ 0 then (pages.1, [])
    else if pages.2.any fun a => a % 4 != 0 then (0x013, [])
    else (0, (prp1, n0) :: pages.2.zipIdx.map fun e => (e.1, min 4096 (rest - e.2 * 4096)))

/-- The descriptors of an SGL segment: address, length, type byte. -/
def sglDescs (l : List Byte) : List (Nat × Nat × Nat) :=
  (chunks 16 (l.length / 16) l).map fun d => (fieldLE d 0 8, fieldLE d 8 4, fieldLE d 15 1)

/-- The data blocks at the head of a list of SGL descriptors, and the descriptor after them. -/
def sglHead (ds : List (Nat × Nat × Nat)) : List (Nat × Nat) × Option (Nat × Nat × Nat) :=
  let blocks := ds.takeWhile fun d => d.2.2 / 16 == 0
  (blocks.map fun d => (d.1, d.2.1), (ds.drop blocks.length).head?)

/-- Walk SGL segments: data blocks in order, then a segment or last segment descriptor; other types give 0/0x02 (R311). -/
def sglWalk : List Got → List (Nat × Nat × Nat) → Nat × List (Nat × Nat)
  | [], ds =>
    match sglHead ds with
    | (here, none) => (0, here)
    | (_, some d) => (if d.2.2 / 16 = 2 ∨ d.2.2 / 16 = 3 then 0x004 else 0x002, [])
  | g :: rest, ds =>
    match sglHead ds, g with
    | (here, none), _ => (0, here)
    | (here, some d), .bytes l =>
      if d.2.2 / 16 = 2 ∨ d.2.2 / 16 = 3 then
        let r := sglWalk rest (sglDescs (l.take d.2.1))
        (r.1, here ++ r.2)
      else (0x002, [])
    | (_, some d), .fail _ => (if d.2.2 / 16 = 2 ∨ d.2.2 / 16 = 3 then 0x004 else 0x002, [])

/-- The host buffer of a command's data pointer for len bytes. -/
def NvmeCmd.buffer (c : NvmeCmd) (len : Nat) (lists : List Got) : Nat × List (Nat × Nat) :=
  if len = 0 then (0, [])
  else if c.field 1 1 / 64 = 0 then prpBuffer (c.field 24 8) (c.field 32 8) len lists
  else
    let r := sglWalk lists [(c.field 24 8, c.field 32 4, c.field 39 1)]
    if r.1 ≠ 0 then r
    else if (r.2.foldl (fun n (b : Nat × Nat) => n + b.2) 0) ≠ len then (0x00F, [])
    else r

/-- The reads of PRP list pages that a walk makes, the list beginning at an address: addresses, lengths, what they bring. -/
def prpReads : Nat → Nat → List Got → List (Nat × Nat × Got)
  | _, _, [] => []
  | need, a, .fail c :: _ => [(a, min need ((4096 - a % 4096) / 8) * 8, .fail c)]
  | need, a, .bytes l :: rest =>
    let cap := (4096 - a % 4096) / 8
    (a, min need cap * 8, .bytes l) ::
      (if need ≤ cap then [] else prpReads (need - (cap - 1)) ((elems 8 cap l).getD (cap - 1) 0) rest)

/-- The reads of SGL segments that a walk makes. -/
def sglReads : List Got → List (Nat × Nat × Nat) → List (Nat × Nat × Got)
  | [], _ => []
  | g :: rest, ds =>
    match sglHead ds with
    | (_, none) => []
    | (_, some d) =>
      if d.2.2 / 16 ≠ 2 ∧ d.2.2 / 16 ≠ 3 then []
      else (d.1, d.2.1, g) :: (match g with
        | .bytes l => sglReads rest (sglDescs (l.take d.2.1))
        | .fail _ => [])

/-- The host reads behind a command's data pointer leave the device (R254, R261, R311). -/
def State.pointerReads (s : State) (c : NvmeCmd) (len : Nat) (lists : List Got) : State :=
  let n0 := min len (4096 - c.field 24 8 % 4096)
  let l := if len = 0 then []
    else if c.field 1 1 / 64 ≠ 0 then sglReads lists [(c.field 24 8, c.field 32 4, c.field 39 1)]
    else if len - n0 ≤ 4096 ∨ c.field 24 8 % 4 ≠ 0 ∨ c.field 32 8 % 4 ≠ 0 then []
    else prpReads (ceilDiv (len - n0) 4096) (c.field 32 8) lists
  if s.hostPath (s.sliceFn c.slice) then
    l.foldl (fun s r => (s.hostRead (s.sliceFn c.slice) (s.slicePasid c.slice) r.1 r.2.1 r.2.2).2) s
  else s

/-- The pieces of a range of a buffer: addresses and lengths. -/
def bufRange : List (Nat × Nat) → Nat → Nat → List (Nat × Nat)
  | [], _, _ => []
  | (a, n) :: bs, off, len =>
    if len = 0 then []
    else if off ≥ n then bufRange bs (off - n) len
    else
      let k := min len (n - off)
      (a + off, k) :: bufRange bs 0 (len - k)

/-- Write bytes to a range of a slice's host buffer (log entry 77, DESIGN CHOICE). -/
def State.bufWrite (s : State) (slice : Nat) (buf : List (Nat × Nat)) (off : Nat) (data : List Byte) : State :=
  ((bufRange buf off data.length).foldl (fun (acc : State × List Byte) r =>
    (acc.1.hostWrite slice r.1 (acc.2.take r.2), acc.2.drop r.2)) (s, data)).1

/-- Read a range of a slice's host buffer; of a failed read the first piece fails. -/
def State.bufRead (s : State) (slice : Nat) (buf : List (Nat × Nat)) (off n : Nat) (got : Got) : State :=
  let get (k : Nat) (r : Nat × Nat) (s : State) : State :=
    (s.hostRead (s.sliceFn slice) (s.slicePasid slice) r.1 r.2 (match got with
      | .bytes l => .bytes ((l.drop k).take r.2)
      | .fail c => .fail c)).2
  let l := bufRange buf off n
  match got, l with
  | .fail _, r :: _ => get 0 r s
  | _, _ => (l.foldl (fun (acc : State × Nat) r => (get acc.2 r acc.1, acc.2 + r.2)) (s, 0)).1

/-! ## Admin commands (R308) -/

/-- The reserved bytes of the admin commands that the device handles, by opcode: offset, length and the bits that are reserved, of
NVMe 2.0; those of every command apart (log entry 243, PRESUMED). -/
def adminReserved (op : Nat) : List (Nat × Nat × Nat) :=
  match op with
  | 0x06 => [(41, 1, 0xFF)]
  | 0x0A => [(40, 4, 0xFFFFF800)]
  | 0x09 => [(40, 4, 0x7FFFFF00)]
  | 0x08 => [(44, 8, 2 ^ 64 - 1), (52, 8, 2 ^ 64 - 1), (60, 4, 2 ^ 32 - 1)]
  | 0x0C | 0x18 => [(40, 8, 2 ^ 64 - 1), (48, 8, 2 ^ 64 - 1), (56, 8, 2 ^ 64 - 1)]
  | _ => []

/-- A reserved field of an entry that every command has is set: fusing, bits 13–10 of dword 0, both transfer bits, dwords 2 and 3. -/
def NvmeCmd.headReserved (c : NvmeCmd) : Bool := c.field 1 1 % 64 != 0 || c.field 1 1 / 64 == 3 || c.field 8 8 != 0

/-- A reserved field of a device-handled admin command is set (R320). -/
def NvmeCmd.adminBad (c : NvmeCmd) : Bool :=
  c.headReserved || (adminReserved c.op).any fun f => c.field f.1 f.2.1 &&& f.2.2 != 0

/-- Perform a device-handled admin command; one with a reserved field set ends with 0/0x02 (R320). -/
def State.adminDo (s : State) (id op : Nat) (f : NvmeCmd → Result) : Result :=
  match s.nvme? id with
  | some c =>
    if ¬ c.admin ∨ c.op ≠ op ∨ c.started then go s
    else if c.adminBad then go (s.nvmeBad id 0x002)
    else f c
  | none => go s

/-- Deliver data of a device-handled command to its buffer and complete it. -/
def State.adminData (s : State) (id : Nat) (c : NvmeCmd) (data : List Byte) (lists : List Got) : State :=
  let s := s.pointerReads c data.length lists
  match c.buffer data.length lists with
  | (0, buf) =>
    if s.hostPath (s.sliceFn c.slice) then (s.bufWrite c.slice buf 0 data).nvmeEnd id 0 false 0 else s.nvmeEnd id 0x004 false 0
  | (st, _) => if st = 0x004 then s.nvmeEnd id st false 0 else s.nvmeBad id st

/-- Set bytes of a page at an offset. -/
def putAt (page : List Byte) (off : Nat) (l : List Byte) : List Byte := page.take off ++ l ++ page.drop (off + l.length)

/-- The Identify Controller page: the values R305 and R310 give; the rest as NVM Express Base 2.0 needs it
(log entry 78, PRESUMED). -/
def identifyController : List Byte :=
  [(0, bytesLE 2 0x1F5B), (77, [9]), (80, bytesLE 4 0x00020000), (92, bytesLE 4 0x100), (111, [1]), (256, bytesLE 2 0x000B), (259, [3]),
   (512, [0x66]), (513, [0x44]), (516, bytesLE 4 256), (520, bytesLE 2 0x000C), (536, bytesLE 4 1)].foldl (fun p e => putAt p e.1 e.2) (zeros 4096)

/-- The atomic write unit a namespace reports, in LBAs, 0-based: 64 KiB where R312 holds, else its backends' least (R310). -/
def State.nawupf (s : State) (ns : Nat) : Nat :=
  if s.atomic64 ns then 65536 / s.lbaBytes ns - 1
  else ((s.legsOf ns).filterMap fun k => (s.legBackend ns k).map fun b => s.getF (R.beStatus b) F.beStatus_awupf).foldl min 0xFFFF

/-- The Identify Namespace page: size, the atomic units of R310, one LBA format. -/
def State.identifyNamespace (s : State) (ns : Nat) : List Byte :=
  let size := s.getF (R.nsSize ns) F.nsSize_lbas
  let unit := s.nawupf ns
  [(0, bytesLE 8 size), (8, bytesLE 8 size), (16, bytesLE 8 size), (24, [2]), (34, bytesLE 2 unit), (36, bytesLE 2 unit),
   (44, bytesLE 2 unit), (130, [if s.lbaBytes ns = 4096 then 12 else 9])].foldl (fun p e => putAt p e.1 e.2) (zeros 4096)

/-- The NSIDs attached to a slice, rising. -/
def State.nsids (s : State) (slice : Nat) : List Nat :=
  (below 257).filter fun i => (s.nsOf slice i).isSome && decide (i ≥ 1)

/-- IDENTIFY (R308, R310): controller, active namespace list, namespace, identification descriptors; other pages give 0/0x02. The
identifiers of the descriptors are not stated. -/
def execIdentify (id : Nat) (s : State) : Result :=
  s.adminDo id 0x06 fun c =>
    let nsid := c.field 4 4
    match c.field 40 1 with
    | 1 => go (s.adminData id c identifyController [])
    | 2 => go (s.adminData id c (padTo 4096 (((s.nsids c.slice).filter fun i => decide (i > nsid)).flatMap fun i => bytesLE 4 i)) [])
    | 0 => match s.nsOf c.slice nsid with
      | some ns => go (s.adminData id c (s.identifyNamespace ns) [])
      | none => go (s.nvmeBad id 0x00B)
    | 3 => match s.nsOf c.slice nsid with
      | some _ =>
        let a := s.unstated
        let b := a.2.unstated
        go (b.2.adminData id c (padTo 4096 ([2, 16, 0, 0] ++ bytesLE 8 a.1.toNat ++ bytesLE 8 b.1.toNat)) [])
      | none => go (s.nvmeBad id 0x00B)
    | _ => go (s.nvmeBad id 0x002)

/-- n bytes that the spec does not state (log entry 44, DESIGN CHOICE). -/
def State.unstatedBytes (s : State) : Nat → List Byte × State
  | 0 => ([], s)
  | n + 1 =>
    let r := s.unstated
    let t := r.2.unstatedBytes n
    (bytesLE 1 (r.1.toNat % 256) ++ t.1, t.2)

/-- GET_LOG_PAGE (R308): the page's event type is unmasked and Changed Namespace List cleared, unless the command retains the event
(log entry 238, PRESUMED); above MDTS it gives 0/0x02 (R320); the contents of Error Information and SMART / Health are not
stated; other pages give 0/0x02. -/
def execGetLogPage (id : Nat) (lists : List Got) (s : State) : Result :=
  s.adminDo id 0x02 fun c =>
    let len := (c.field 42 2 + c.field 44 2 * 2 ^ 16 + 1) * 4
    let off := c.field 48 8
    let ctl := s.nvmeCtl c.slice
    let keep := natBit (c.field 41 1) 7
    let read (kind : Nat) (s : State) : State :=
      if keep then s else s.setCtl c.slice { ctl with masked := ctl.masked.filter fun k => k != kind,
                                                      changed := if kind = 2 then [] else ctl.changed }
    if len > 2 ^ 21 then go (s.nvmeBad id 0x002)
    else match c.field 40 1 with
    | 1 =>
      let r := s.unstatedBytes (min len 4096)
      go ((read 0 r.2).adminData id c (padTo len r.1) lists)
    | 2 =>
      let r := s.unstatedBytes (min len 512)
      go ((read 1 r.2).adminData id c (padTo len r.1) lists)
    | 4 =>
      let page := padTo 4096 (ctl.changed.flatMap fun i => bytesLE 4 i)
      go ((read 2 s).adminData id c (padTo len (page.drop off)) lists)
    | _ => go (s.nvmeBad id 0x002)

/-- The Number of Queues feature: the slice's quota, 0-based, for both kinds (R308). -/
def State.queuesFeature (s : State) (slice : Nat) : Nat :=
  let n := s.limit slice .queuePairs - 1
  min n 65535 + min n 65535 * 2 ^ 16

/-- GET_FEATURES (R308). -/
def execGetFeatures (id : Nat) (s : State) : Result :=
  s.adminDo id 0x0A fun c =>
    let ctl := s.nvmeCtl c.slice
    match c.field 40 1 with
    | 0x01 => go (s.nvmeEnd id 0 false ctl.arbitration)
    | 0x07 => go (s.nvmeEnd id 0 false (s.queuesFeature c.slice))
    | 0x0B => go (s.nvmeEnd id 0 false ctl.events)
    | 0x0F => go (s.nvmeEnd id 0 false ctl.keepAlive)
    | _ => go (s.nvmeBad id 0x002)

/-- SET_FEATURES (R308): Number of Queues answers from the quota (log entry 40, PRESUMED). -/
def execSetFeatures (id : Nat) (s : State) : Result :=
  s.adminDo id 0x09 fun c =>
    let ctl := s.nvmeCtl c.slice
    let v := c.field 44 4
    match c.field 40 1 with
    | 0x01 => go ((s.setCtl c.slice { ctl with arbitration := v }).nvmeEnd id 0 false 0)
    | 0x07 => go (s.nvmeEnd id 0 false (s.queuesFeature c.slice))
    | 0x0B => go ((s.setCtl c.slice { ctl with events := v }).nvmeEnd id 0 false 0)
    | 0x0F => go ((s.setCtl c.slice { ctl with keepAlive := v }).nvmeEnd id 0 false 0)
    | _ => go (s.nvmeBad id 0x002)

/-- ASYNCHRONOUS_EVENT_REQUEST (R308): up to four wait; an event that is queued completes the request at once. A fifth gives the
standard's 1/0x05 (log entry 82, PRESUMED). -/
def execAsynchronousEventRequest (id : Nat) (s : State) : Result :=
  s.adminDo id 0x0C fun c =>
    let ctl := s.nvmeCtl c.slice
    match ctl.queued with
    | e :: es =>
      go ((s.setCtl c.slice { ctl with queued := es.filter fun x => eventType x != eventType e,
                                       masked := eventType e :: ctl.masked }).nvmeEnd id 0 false e)
    | [] =>
      if ctl.waiting.length ≥ 4 then go (s.nvmeBad id 0x105)
      else go ((s.setNvme id { c with started := true }).setCtl c.slice { ctl with waiting := ctl.waiting ++ [id] })

/-- KEEP_ALIVE (R308). -/
def execKeepAlive (id : Nat) (s : State) : Result :=
  s.adminDo id 0x18 fun _ => go (s.nvmeEnd id 0 false 0)

/-- NVME_ABORT (R308): a command not yet fetched is removed and completes with 0/0x07; otherwise dword 0 bit 0 reads 1. -/
def execNvmeAbort (id : Nat) (entries : Got) (s : State) : Result :=
  s.adminDo id 0x08 fun c =>
    let sq := c.field 40 2
    let q := sqOfId c.slice sq
    let cid := c.field 42 2
    let head := s.getF (R.qpStatus q) F.qpStatus_sq_head
    let n := (s.getF (R.qpStatus q) F.qpStatus_sq_tail + s.sqSlots q - head) % s.sqSlots q
    let found : Option Nat := match entries with
      | .bytes l => if s.qpSlice q ≠ c.slice ∨ ¬ s.qpOpen q then none else
          (below n).find? fun i => fieldLE (l.drop (i * 64)) 2 2 == cid &&
            (Tab.find? s.store.removed (q * 2 ^ 16 + (head + i) % s.sqSlots q)).isNone
      | .fail _ => none
    let s := if s.qpSlice q ≠ c.slice ∨ ¬ s.qpOpen q then s
      else (below n).foldl (fun s i =>
        (s.ringRead c.slice (s.getF (R.qpSq q) F.qpSq_base * 4096) 1 ((head + i) % s.sqSlots q * 64) 64 (match entries with
          | .bytes l => .bytes ((l.drop (i * 64)).take 64)
          | .fail e => .fail e)).2) s
    match found with
    | some i =>
      let s := { s with store := { s.store with removed := Tab.insert s.store.removed (q * 2 ^ 16 + (head + i) % s.sqSlots q) () } }
      let s := s.cqePost q ⟨0, head, sqIdOf q, cid, 0x007, false⟩
      go (s.nvmeEnd id 0 false 0)
    | none => go (s.nvmeEnd id 0 false 1)

/-! ## Mediation (R309) -/

/-- FORWARDED_ADMIN_COMMAND (R309): the command enters the mediation ring with a tag; a full ring holds it. -/
def execForwardedAdminCommand (id : Nat) (s : State) : Result :=
  match s.nvme? id with
  | none => go s
  | some c =>
    let slots := 2 ^ (s.getF R.medRing F.medRing_size + 6)
    let tail := s.getF R.medPtr F.medPtr_tail
    if ¬ c.admin ∨ ¬ adminForwarded c.op ∨ c.started ∨ (tail + 1) % slots = s.getF R.medPtr F.medPtr_head % slots then go s
    else
      let tag := s.store.nextTag
      let entry := c.raw ++ [BitVec.ofNat 8 c.slice, 0] ++ bytesLE 2 (sqIdOf c.queue) ++ bytesLE 4 tag
      match s.memWrite 0x08 0 6 0 (s.getF R.medRing F.medRing_base * 4096 + tail * 72) entry with
      | (some _, s) => go (s.nvmeEnd id 0x004 false 0)
      | (none, s) =>
        let s := { s with store := { s.store with nextTag := (tag + 1) % 2 ^ 32, med := Tab.insert s.store.med tag id } }
        let s := s.setF R.medPtr F.medPtr_tail ((tail + 1) % slots)
        go ((s.setNvme id { c with started := true }).storeCount 7 0 1)

/-- MED_REPLY (R309, R310): a tag that is not outstanding is ignored and recorded. -/
def execMedReply (value : Word) (s : State) : Result :=
  let tag := getBits value F.medReply_tag
  if ¬ s.serving then go s
  else if (Tab.find? s.store.med tag).isNone ∨ s.store.held.any (fun h => h.1 == tag) then
    go (s.writeIgnored 0x08 0 R.medReply value)
  else go (s.medAnswer tag (getBits value F.medReply_status) (s.getF R.medDw0 F.medDw0_dw0))

/-- MEDIATION_TIMEOUT (R309): 0/0x06. -/
def execMediationTimeout (tag : Nat) (s : State) : Result :=
  match Tab.find? s.store.med tag with
  | none => go s
  | some id =>
    go (({ s with store := { s.store with med := Tab.erase s.store.med tag,
                                          held := s.store.held.filter fun h => h.1 != tag } }).nvmeEnd id 0x006 false 0)

/-! ## Queue pairs (R310) -/

/-- The queue pair is deleted (R310, R320): its commands with a backend are drained, those forwarded wait for the manager, the others
end, each with 0/0x08. -/
def State.qpDelete (s : State) (q : Nat) : State :=
  let s := s.setF (R.qpCfg q) F.qpCfg_enable 0
  let ended := s.store.cmds.filter fun e => e.2.queue == q && !e.2.withBackend && !(s.store.med.any fun m => m.2 == e.1)
  let ctl := s.nvmeCtl (s.qpSlice q)
  let s := s.setCtl (s.qpSlice q) { ctl with waiting := ctl.waiting.filter fun i => !(ended.any fun e => e.1 == i) }
  let s := { s with store := { s.store with
    cmds := s.store.cmds.map fun (e : Nat × NvmeCmd) =>
      if e.2.queue = q then (e.1, ({ e.2 with fate := max e.2.fate 1 } : NvmeCmd)) else e } }
  let s := if s.qpDraining q then { s with store := { s.store with deleting := Tab.insert s.store.deleting q () } } else s
  ended.foldl (fun s e => s.nvmeEnd e.1 0x008 true 0) s

/-- QUEUE_PAIR_ENABLE (R310, R281, R275): enabling asks an active owner, its quota and its vectors; disabling stops fetching, and
the commands passed to a backend are drained with 0/0x08. -/
def execQueuePairEnable (q : Nat) (value : Word) (s : State) : Result :=
  let owner := if q ≥ 0x1000 then q - 0x1000 else getBits value F.qpCfg_owner
  let on := s.getF (R.qpCfg q) F.qpCfg_enable
  let want := getBits value F.qpCfg_enable
  let v := List.foldl (fun w (f : Fld) => setBits w f (getBits value f)) 0
    [F.qpCfg_enable, F.qpCfg_sq_size, F.qpCfg_cq_size, F.qpCfg_irq, F.qpCfg_vector]
  let vectorOk := s.vectorOk owner (getBits value F.qpCfg_vector)
  if ¬ s.serving ∨ q ≥ 0x1100 then go s
  else if on = 1 then
    if want = 1 then go (s.writeIgnored 0x08 0 (R.qpCfg q) value)
    else go ((s.tell 3 owner (.writes [(R.qpCfg q, value)])).qpDelete q)
  else if want = 0 then
    if (Tab.find? s.store.deleting q).isSome then go (s.writeIgnored 0x08 0 (R.qpCfg q) value)
    else go (s.setReg (R.qpCfg q) (setBits v F.qpCfg_owner owner))
  else if (Tab.find? s.store.deleting q).isSome ∨ s.sliceState owner ≠ 1 ∨ getBits value F.qpCfg_sq_size = 0 ∨
      getBits value F.qpCfg_cq_size = 0 ∨ ¬ vectorOk then go (s.writeIgnored 0x08 0 (R.qpCfg q) value)
  else if q < 0x1000 ∧ (s.pairsOf owner).length + 1 > s.limit owner .queuePairs then
    go ((s.writeIgnored 0x08 0 (R.qpCfg q) value).count 0x05 3 owner 1)
  else
    let w := s.standbySays 3 owner
    let s := w.2.tell 3 owner (.writes [(R.qpSq q, s.reg (R.qpSq q)), (R.qpCq q, s.reg (R.qpCq q)), (R.qpCfg q, value)])
    if w.1 ≠ 0 then go (s.writeIgnored 0x08 0 (R.qpCfg q) value) else
    let s := s.setReg (R.qpCfg q) (setBits v F.qpCfg_owner owner)
    let s := s.setReg (R.qpStatus q) (resetOf (R.qpStatus q))
    go { s with store := { s.store with cqHead := Tab.erase s.store.cqHead q,
                                        waiting := Tab.erase s.store.waiting q,
                                        errored := Tab.erase s.store.errored q,
                                        removed := Tab.keep s.store.removed fun k _ => k / 2 ^ 16 != q } }

/-! ## I/O commands (R311, R313, R314, R320) -/

/-- Command id is an I/O command of an opcode that has not been performed, with its namespace if it is attached. -/
def State.ioCmd (s : State) (id op : Nat) : Option NvmeCmd :=
  match s.nvme? id with
  | some c => if ¬ c.admin ∧ c.op = op ∧ ¬ c.started then some c else none
  | none => none

/-- The first failure of a list of causes with their statuses, in the table's order (R320). -/
def firstCause (l : List (Bool × Nat × Bool)) : Option (Nat × Bool) := (l.find? fun c => c.1).map fun c => c.2

/-- The reserved bits of the I/O commands by opcode, of the NVM Command Set: offset, length, bits (log entry 243, PRESUMED). -/
def ioReserved (op : Nat) : List (Nat × Nat × Nat) :=
  match op with
  | 0x00 => [(40, 8, 2 ^ 64 - 1), (48, 8, 2 ^ 64 - 1), (56, 8, 2 ^ 64 - 1)]
  | 0x01 => [(48, 4, 0x02FF0000), (52, 4, 0xFF00)]
  | 0x02 => [(48, 4, 0x02FF0000), (52, 4, 0xFFFFFF00)]
  | 0x08 => [(48, 4, 0x00FF0000), (52, 4, 0xFFFF)]
  | 0x09 => [(40, 4, 0xFFFFFF00), (44, 4, 0xFFFFFFF8), (48, 8, 2 ^ 64 - 1), (56, 8, 2 ^ 64 - 1)]
  | _ => []

/-- A reserved field of an I/O command's entry is set (R320). -/
def NvmeCmd.reservedSet (c : NvmeCmd) : Bool :=
  c.headReserved || (ioReserved c.op).any fun f => c.field f.1 f.2.1 &&& f.2.2 != 0

/-- The statuses of a command that no leg can serve: none is usable, or the good leg of a resynchronisation is not (R318, R320). -/
def State.legsCause (s : State) (ns : Nat) : List (Bool × Nat × Bool) :=
  let usable := (s.legsOf ns).filter fun k => s.legUsable ns k
  [(s.getF (R.nsStatus ns) F.nsStatus_state == 0 || usable.isEmpty, 0x022, false),
   (match Tab.find? s.store.resync ns with
    | some (good, _) => !s.legUsable ns good
    | none => false, 0x082, false)]

/-- The pieces of a range (R313): whole within one 64 KiB unit, else split at 64 KiB boundaries (log entry 86, DEDUCED). -/
def splitPieces (lbaBytes slba nlb : Nat) (legs : List Nat) : List NvmePiece :=
  let unit := 65536 / lbaBytes
  let first := slba / unit
  let last := (slba + nlb - 1) / unit
  (below (last - first + 1)).map fun i =>
    let a := max slba ((first + i) * unit)
    let b := min (slba + nlb) ((first + i + 1) * unit)
    ⟨a, b - a, (a - slba) * lbaBytes, legs, none⟩

/-- Start an I/O command with its pieces; a write waits until the clean flag of its mirror is cleared (R313, R317). -/
def State.startIo (s : State) (id ns : Nat) (c : NvmeCmd) (buf : List (Nat × Nat)) (pieces : List NvmePiece) : State :=
  let s := s.setNvme id { c with ns := some ns, buf := buf, pieces := pieces, started := true }
  let s := if pieces.length > 1 then s.storeCount 2 0 1 else s
  if c.writes then
    let s := { s with store := { s.store with unflushed := Tab.insert s.store.unflushed ns () } }
    if (Tab.find? s.store.clean ns).isSome ∨ s.flagBusy ns then
      { s with store := { s.store with
          flagging := Tab.insert s.store.flagging ns (Tab.get [] s.store.flagging ns ++ [id]) } }.flagNext ns
    else s.issuePieces id ns
  else s.issuePieces id ns

/-- A Read, Write or Write Zeroes: the causes of R320 in the table's order, then its pieces. -/
def State.rangeIo (s : State) (id : Nat) (c : NvmeCmd) (lists : List Got) : State :=
  match s.nsServing c.slice (c.field 4 4) with
  | none => s.nvmeBad id 0x00B
  | some ns =>
    let z := s.lbaBytes ns
    let len := c.nlb * z
    let data := c.op != 0x08
    let buf : Nat × List (Nat × Nat) := if data then c.buffer len lists else (0, [])
    let path := s.hostPath (s.sliceFn c.slice)
    let s := if data then s.pointerReads c len lists else s
    let causes : List (Bool × Nat × Bool) :=
      [(decide (c.slba + c.nlb > s.getF (R.nsSize ns) F.nsSize_lbas), 0x080, true),
       (c.reservedSet || (data && decide (len > 2 ^ 21)) || buf.1 == 0x002, 0x002, true),
       (buf.1 == 0x013, 0x013, true), (buf.1 == 0x00F, 0x00F, true),
       (c.op != 0x02 && s.getF R.storCfg F.storCfg_apprentice == 1, 0x020, false),
       (buf.1 == 0x004 || (data && !path), 0x004, false)] ++ s.legsCause ns
    match firstCause causes with
    | some r => s.nvmeRefused id r
    | none =>
      let legs := (s.legsOf ns).filter fun k => s.legUsable ns k
      (s.startIo id ns c buf.2 (splitPieces z c.slba c.nlb legs)).storeCount 1 0 (if data then len else 0)

/-- Put a piece into pieces that rise in LBA, behind those of the same LBA. -/
def lbaInsert (p : NvmePiece) : List NvmePiece → List NvmePiece
  | [] => [p]
  | q :: l => if p.lba < q.lba then p :: q :: l else q :: lbaInsert p l

/-- Pieces in LBA order (R313). -/
def byLba (l : List NvmePiece) : List NvmePiece := l.foldl (fun r p => lbaInsert p r) []

/-- NVME_FLUSH (R314): it waits until every write of the namespace accepted before it has completed. -/
def execNvmeFlush (id : Nat) (s : State) : Result :=
  match s.ioCmd id 0x00 with
  | none => go s
  | some c =>
    match s.nsServing c.slice (c.field 4 4) with
    | none => go (s.nvmeBad id 0x00B)
    | some ns =>
      match firstCause ((c.reservedSet, 0x002, true) :: s.legsCause ns) with
      | some r => go (s.nvmeRefused id r)
      | none => go ((s.setNvme id { c with ns := some ns, started := true }).flushTry ns)

/-- NVME_WRITE (R311, R313, R317). -/
def execNvmeWrite (id : Nat) (lists : List Got) (s : State) : Result :=
  match s.ioCmd id 0x01 with
  | none => go s
  | some c => go (s.rangeIo id c lists)

/-- NVME_READ (R311, R317). -/
def execNvmeRead (id : Nat) (lists : List Got) (s : State) : Result :=
  match s.ioCmd id 0x02 with
  | none => go s
  | some c => go (s.rangeIo id c lists)

/-- WRITE_ZEROES (R311). -/
def execWriteZeroes (id : Nat) (s : State) : Result :=
  match s.ioCmd id 0x08 with
  | none => go s
  | some c => go (s.rangeIo id c [])

/-- DATASET_MANAGEMENT (R311, R313): deallocate goes to every leg, the pieces of each range; other attributes do nothing. -/
def execDatasetManagement (id : Nat) (lists : List Got) (ranges : Got) (s : State) : Result :=
  match s.ioCmd id 0x09 with
  | none => go s
  | some c =>
    match s.nsServing c.slice (c.field 4 4) with
    | none => go (s.nvmeBad id 0x00B)
    | some ns =>
      let n := c.field 40 1 + 1
      let raw : List Byte := match ranges with
        | .bytes l => l
        | .fail _ => []
      let rs := (chunks 16 n (padTo (n * 16) raw)).map fun r => (fieldLE r 8 8, fieldLE r 4 4)
      let size := s.getF (R.nsSize ns) F.nsSize_lbas
      let buf := c.buffer (n * 16) lists
      let s := s.pointerReads c (n * 16) lists
      let s := if buf.1 = 0 ∧ s.hostPath (s.sliceFn c.slice) then s.bufRead c.slice buf.2 0 (n * 16) ranges else s
      let causes : List (Bool × Nat × Bool) :=
        [(rs.any fun r => decide (r.1 + r.2 > size), 0x080, true), (c.reservedSet || buf.1 == 0x002, 0x002, true),
         (buf.1 == 0x013, 0x013, true), (buf.1 == 0x00F, 0x00F, true),
         (natBit (c.field 44 4) 2 && s.getF R.storCfg F.storCfg_apprentice == 1, 0x020, false),
         (decide (raw.length < n * 16) || buf.1 == 0x004 || !s.hostPath (s.sliceFn c.slice), 0x004, false)] ++ s.legsCause ns
      match firstCause causes with
      | some r => go (s.nvmeRefused id r)
      | none =>
        if ¬ natBit (c.field 44 4) 2 then go (s.nvmeEnd id 0 false 0)
        else
          let legs := (s.legsOf ns).filter fun k => s.legUsable ns k
          let pieces := byLba (rs.flatMap fun r => if r.2 = 0 then [] else splitPieces (s.lbaBytes ns) r.1 r.2 legs)
          if pieces.isEmpty then go (s.nvmeEnd id 0 false 0) else go (s.startIo id ns c buf.2 pieces)

/-! ## Backends (R312, R314, R317 to R319) -/

/-- BACKEND_COMPLETION (R314, R317, R318, R320): the data of a Read of an NVMe-oF backend is placed first, the data of a Write read for
its target (R315) (log entry 85, DESIGN CHOICE); a failed write fails
its mirror leg, one whose data could not be read apart (log entry 86, DEDUCED). -/
def execBackendCompletion (id status : Nat) (dnr : Bool) (data : List Byte) (s : State) : Result :=
  match Tab.find? s.store.backs id with
  | none => go s
  | some b =>
    let s := match b.cmd.bind s.nvme? with
      | some c =>
        let p := c.pieces.getD b.piece ⟨0, 0, 0, [], none⟩
        if b.op = 2 ∧ status = 0 ∧ s.getF (R.beCfg b.backend) F.beCfg_kind ≠ 1 ∧ c.fate ≤ 1 ∧ s.hostPath (s.sliceFn c.slice) then
          s.bufWrite c.slice c.buf p.off data
        else if b.op = 1 ∧ s.getF (R.beCfg b.backend) F.beCfg_kind ≠ 1 ∧ s.hostPath (s.sliceFn c.slice) then
          (s.bufRead c.slice c.buf p.off data.length (.bytes data)).emit (.backendData id data)
        else s
      | none => s
    let mem := match b.cmd.bind s.nvme? with
      | some c => c.status == 0x004
      | none => false
    go ((if status ≠ 0 ∧ [0x01, 0x08, 0x09].contains b.op ∧ mem = false then s.legFail b.ns b.leg else s).backEnd id status dnr)

/-- BACKEND_TIMEOUT (R318, R319): aborted on a drive; the leg of a mirror fails. -/
def execBackendTimeout (id : Nat) (s : State) : Result :=
  match Tab.find? s.store.backs id with
  | none => go s
  | some b =>
    let s := s.storeCount 6 0 1
    let s := if s.getF (R.beCfg b.backend) F.beCfg_kind = 1 then s.emit (.backendAbort id) else s
    go ((s.legFail b.ns b.leg).backEnd id 0x300 false)

/-- PROXY_ACCESS (R315): an access within the buffer of a command in flight of that port is performed for its slice; another is
refused under R296. A host access that fails ends the command with 0/0x04 (R320). -/
def execProxyAccess (port addr n : Nat) (data : Option (List Byte)) (host : Got) (s : State) : Result :=
  let off := addr % 2 ^ 24
  let len := match data with
    | some l => l.length
    | none => n
  let hit := List.find? (fun (e : Nat × NvmeCmd) => proxyAddr e.1 0 == addr - off && decide (addr ≥ 2 ^ 63) && decide (e.2.fate ≤ 2) &&
    !e.2.admin && decide (off + len ≤ e.2.buf.foldl (fun t (b : Nat × Nat) => t + b.2) 0) &&
    s.store.backs.any fun k => k.2.cmd == some e.1 && k.2.op == (if data.isSome then 0x02 else 0x01) && s.getF (R.beCfg k.2.backend) F.beCfg_kind == 1 &&
      s.getF (R.beCfg k.2.backend) F.beCfg_port == port) s.store.cmds
  let refuse (s : State) : State :=
    let s := (s.setReg (R.dpViolLog port) (BitVec.ofNat 64 addr)).violation 0x07 port addr port
    let s := (s.count 0x07 0 port 1).portEvent port 4
    if data.isSome then s else s.emit (.portUr port)
  if ¬ s.portUsable port then go (refuse s)
  else match hit with
    | none => go (refuse s)
    | some e =>
      let slice := e.2.slice
      let failed (s : State) : State := s.setNvme e.1 (e.2.failed 0x004 false)
      if ¬ s.hostPath (s.sliceFn slice) then go (if data.isSome then failed s else (failed s).emit (.portUr port))
      else match data with
        | some l => go (s.bufWrite slice e.2.buf off l)
        | none =>
          let s := s.bufRead slice e.2.buf off n host
          match host with
          | .bytes l => go (s.emit (.portData port (l.take n)))
          | .fail _ => go ((failed s).emit (.portUr port))

/-- CLEAN_FLAG_SET (R317): a mirror that is idle and flushed has its clean flag set on each leg. -/
def execCleanFlagSet (ns : Nat) (s : State) : Result :=
  if ¬ s.mirrored ns ∨ s.getF (R.nsMap ns) F.nsMap_valid = 0 ∨ s.store.cmds.any (fun e => e.2.ns == some ns) ∨
      (Tab.find? s.store.unflushed ns).isSome ∨ (Tab.find? s.store.clean ns).isSome ∨ (Tab.find? s.store.resync ns).isSome then go s
  else go (s.flagWrite ns true)

/-- NS_REARM (R318): after the failure of a leg, resynchronisation from the other begins, from leg 0 where both had failed; a leg
whose backend is not ready fails again. -/
def execNsRearm (ns : Nat) (s : State) : Result :=
  let failed := s.getF (R.nsStatus ns) F.nsStatus_failed
  if ¬ s.serving ∨ s.getF (R.nsStatus ns) F.nsStatus_state ≠ 2 ∨ failed = 0 then go s
  else
    let bad := if failed = 1 then 0 else 1
    let s1 := s.setF (R.nsStatus ns) F.nsStatus_failed 0
    if ¬ s1.legUsable ns bad then go (if s1.legUsable ns (1 - bad) then s1.legFail ns bad else s)
    else if ¬ s1.legUsable ns (1 - bad) then go (if failed = 3 then s1.legFail ns (1 - bad) else s)
    else
      let s := { s1 with store := { s1.store with resync := Tab.insert s1.store.resync ns (1 - bad, 0) } }
      go ((s.setF (R.nsStatus ns) F.nsStatus_state 3).setF (R.nsStatus ns) F.nsStatus_resync_pct 0)

/-- The commands of a resynchronisation's copy go out: a Read of the good leg, and a Write of the other where the data came (R318). -/
def State.resyncSend (s : State) (ns good lba n : Nat) (came : Bool) : State :=
  let cmd (leg op : Nat) (s : State) : State := match s.legBackend ns leg with
    | some be =>
      let id := s.store.nextBack
      { s with store := { s.store with nextBack := id + 1 } }.sendBack id
        { cmd := none, piece := 0, ns := ns, leg := leg, backend := be, op := op, lba := lba + s.getF (R.beOffset be) F.beOffset_lba,
          count := n } 0
    | none => s
  let s := cmd good 2 s
  if came then cmd (1 - good) 1 s else s

/-- RESYNC_COPY (R318): the next LBAs go from the good leg to the other; after the last the namespace is normal. A failed write
fails the other leg; a range whose read fails is tried again (log entry 84, DEDUCED). -/
def execResyncCopy (ns n readStatus writeStatus : Nat) (s : State) : Result :=
  match Tab.find? s.store.resync ns with
  | none => go s
  | some (good, lba) =>
    let size := s.getF (R.nsSize ns) F.nsSize_lbas
    let s := s.resyncSend ns good lba (min n (size - lba)) (readStatus == 0)
    if readStatus ≠ 0 then go (if readStatus / 256 % 8 = 3 then (s.legFail ns good).legDrop ns good else s)
    else if writeStatus ≠ 0 then go ((s.legFail ns (1 - good)).legDrop ns (1 - good))
    else
      let next := lba + n
      if next ≥ size then
        let s := { s with store := { s.store with resync := Tab.erase s.store.resync ns } }
        go ((s.setF (R.nsStatus ns) F.nsStatus_state 1).setF (R.nsStatus ns) F.nsStatus_resync_pct 100)
      else
        let s := { s with store := { s.store with resync := Tab.insert s.store.resync ns (good, next) } }
        go (s.setF (R.nsStatus ns) F.nsStatus_resync_pct (next * 100 / size))

/-- BACKEND_READY (R312, R317): the backend is ready with its atomic figures, and its namespaces begin to answer; one whose atomic
unit fell below 64 KiB is reported and recorded. -/
def execBackendReady (b awupf : Nat) (format : BackendFormat) (clean : Bool) (s : State) : Result :=
  if s.getF (R.beStatus b) F.beStatus_state ≠ 1 then go s
  else
    let r := R.beStatus b
    let s := ((s.setF r F.beStatus_state 2).setF r F.beStatus_awupf awupf).setF r F.beStatus_boundary format.boundary
    let marks := if clean then Tab.erase s.store.unclean b else Tab.insert s.store.unclean b ()
    let wide := if format.lba4k then Tab.insert s.store.lba4k b () else Tab.erase s.store.lba4k b
    let s := { s with store := { s.store with unclean := marks, lba4k := wide, nabo := Tab.put 0 s.store.nabo b format.offset } }
    go ((s.backendUsers b).foldl (fun s u =>
      let was := s.getF (R.nsStatus u.1) F.nsStatus_atomic64
      let s := s.nsRefresh u.1
      if was = 1 ∧ s.getF (R.nsStatus u.1) F.nsStatus_atomic64 = 0 then
        (s.changed 0x08 0 3 1 0 u.1).nsChanged u.1 else s) s)

end Sys2Proof.Machine
end

