-- ==== Sys2Proof/Machine/BootOps.lean ====
section
/-! DEFINITION. The flash and its containers, the validator, ownership, resets and the security mailbox, as the rows of boot
and firmware use them (R421 to R444). -/

namespace Sys2Proof.Machine

/-! ## The flash (R421 to R423) -/

/-- A byte of the flash; an erased one reads 0xFF (log entry 136, DESIGN CHOICE). -/
def State.flashByte (s : State) (a : Nat) : Byte := Tab.get 0xFF s.boot.flash.bytes a

/-- n bytes of the flash. -/
def State.flashRead (s : State) (a n : Nat) : List Byte := (below n).map fun i => s.flashByte (a + i)

/-- Store bytes in a flash. -/
def Flash.store (f : Flash) (a : Nat) (l : List Byte) : Flash :=
  { f with bytes := ((below l.length).zip l).foldl (fun (t : Tab Byte) e => Tab.put 0xFF t (a + e.1) e.2) f.bytes }

/-- Change the flash. -/
def State.setFlash (s : State) (f : Flash) : State := { s with boot := { s.boot with flash := f } }

/-- RPMC counter k. -/
def State.rpmc (s : State) (k : Nat) : Nat := s.boot.flash.counters.getD k 0

/-- Raise RPMC counter k to v. -/
def State.setRpmc (s : State) (k v : Nat) : State :=
  s.setFlash { s.boot.flash with counters := s.boot.flash.counters.set k v }

/-- Firmware slot k's address (R422). -/
def fwBase (k : Nat) : Nat := 0x100000 + k * 0x2000000
/-- Image slot k's address (R422). -/
def imgBase (k : Nat) : Nat := 0x4100000 + k * 0x800000
/-- The owner endorsement's address (R422). -/
def endorseBase : Nat := 0x30000

/-! ## Identity and ownership (R430, R431) -/

/-- A signature verifies under a key's bytes over a message with SHA-384 (R424). -/
def signedBy (key msg sig : List Byte) : Bool :=
  match ptOfBytes key with
  | some q => ecdsaVerify q (sha384 msg) sig
  | none => false

/-- The endorsement in the flash is valid: identifier, signature of the identity key, epoch (R430). -/
def State.endorsed (s : State) : Bool :=
  let e := s.flashRead endorseBase 304
  e.take 48 == deviceId && fieldLE e 148 4 == s.rpmc 2 &&
    signedBy (ptBytes (publicPoint Config.identityScalar)) (e.take 208) (e.drop 208)

/-- The endorsed owner's key (R430). -/
def State.ownerKey (s : State) : List Byte := s.flashRead (endorseBase + 48) 97

/-- Endorse an owner key: counter 2 rises by one and the new endorsement is written (R431) (log entry 140, DEDUCED). -/
def State.endorse (s : State) (key : List Byte) : State :=
  let epoch := s.rpmc 2 + 1
  let head := deviceId ++ key ++ zeros 3 ++ bytesLE 4 epoch ++ zeros 56
  let s := s.setRpmc 2 epoch
  let s := s.setFlash (s.boot.flash.store endorseBase (head ++ ecdsaSign Config.identityScalar (sha384 head)))
  s.setF R.bootStatus F.bootStatus_owned 1

/-! ## Containers (R424, R425) -/

/-- The bytes of a container at an address of the flash: header, certificate (firmware only), body, signature block. -/
structure Container where
  header : List Byte
  cert : List Byte
  body : List Byte
  sig : List Byte

/-- Its bytes in order. -/
def Container.whole (c : Container) : List Byte := c.header ++ c.cert ++ c.body ++ c.sig
/-- security_version. -/
def Container.version (c : Container) : Nat := fieldLE c.header 8 4

/-- The container at an address in a slot of some size: none where magic, format or body_len is not one's; its reserved bytes are
taken as 0 (R2). -/
def State.container (s : State) (base slotSize : Nat) (fw : Bool) : Option Container :=
  let h := s.flashRead base 128
  let len := fieldLE h 12 4
  if fieldLE h 0 4 ≠ (if fw then 0x57464E43 else 0x49434E43) ∨ fieldLE h 4 2 ≠ 1 ∨ len + 536 > slotSize then none
  else
    let c := if fw then 304 else 0
    some ⟨h, s.flashRead (base + 128) c, s.flashRead (base + 128 + c) len, s.flashRead (base + 128 + c + len) 104⟩

/-- What R424 says of the bundle in slot k: 0, or the status of the first condition that fails (log entry 134, DEDUCED). -/
def State.bundleCode (s : State) (k : Nat) : Nat :=
  match s.container (fwBase k) 0x2000000 true with
  | none => 0x02
  | some c =>
    if sha384 (c.cert.take 97) ≠ Config.rootKeyHash then 0x21
    else if ¬ signedBy (c.cert.take 97) ((c.cert.drop 100).take 108) (c.cert.drop 208) then 0x21
    else if ¬ signedBy ((c.cert.drop 100).take 97) (c.header ++ c.cert ++ c.body) (c.sig.take 96) then 0x21
    else if sha384 c.body ≠ (c.header.drop 80).take 48 then 0x20
    else if ¬ natBit (fieldLE c.header 20 4) (s.getF R.deviceIdent F.deviceIdent_stepping) then 0x05
    else if c.version < s.rpmc 0 then 0x23
    else 0

/-! ## The validator (R426, R428, R500) -/

/-- The header of a section of a configuration image, with whether its contents fit and its reserved bytes are 0. -/
structure ImgSection where
  type : Nat
  version : Nat
  fits : Bool
  clean : Bool

/-- The sections of a body; fuel bounds their number. -/
def imgSections : Nat → List Byte → List ImgSection
  | 0, _ => []
  | _ + 1, [] => []
  | n + 1, l =>
    let len := fieldLE l 4 4
    ⟨fieldLE l 0 2, fieldLE l 2 2, decide (16 + len ≤ l.length), fieldLE l 8 8 == 0⟩ :: imgSections n (l.drop (16 + len))

/-- The first section that breaks check 1: not above the one before, too long, a reserved byte set. -/
def brokenSection : Nat → List ImgSection → Option Nat
  | _, [] => none
  | p, x :: xs => if x.type ≤ p ∨ ¬ x.fits ∨ ¬ x.clean then some x.type else brokenSection x.type xs

/-- The first section that check 2 refuses: unknown and mandatory, or of a version the firmware does not support (R426). -/
def unknownSection (l : List ImgSection) : Option Nat :=
  (List.find? (fun (x : ImgSection) =>
    if 1 ≤ x.type ∧ x.type ≤ 0x0D then !Config.sectionSupported x.type x.version else !natBit x.type 15) l).map ImgSection.type

/-- The value an image gives a register, or its reset value. -/
def imageReg (i : Image) (a : Nat) : Word :=
  ((List.find? (fun (e : Nat × Word) => e.1 == a) i.regs).map Prod.snd).getD (resetOf a)

/-- The section that names a register, by its block (the table of sections). -/
def regSection (a : Nat) : Nat :=
  if a = R.memLayout then 0x02
  else if a = R.pipeCfg then 0x03
  else if a = R.timeSrc ∨ a = R.ptpCfg then 0x04
  else if a = R.storCfg ∨ (0xC00000 ≤ a ∧ a < 0xD00000) then 0x0C
  else if 0x20000 ≤ a ∧ a < 0x30000 then 0x0A
  else if 0xE00000 ≤ a ∧ a < 0xF00000 then 0x0D
  else if 0x400000 ≤ a ∧ a < 0x500000 then 0x0B
  else 0x09

/-- A word lies within the ranges of a register's writable fields. -/
def RegDesc.inRange (d : RegDesc) (v : Word) : Bool :=
  d.fields.all fun f => (f.ty != .rw && f.ty != .rwl) ||
    (decide (f.least ≤ getBits v (f.hi, f.lo)) && decide (getBits v (f.hi, f.lo) ≤ f.most))

/-- The register's word with its writable fields as v gives them. -/
def imageWord (a : Nat) (v : Word) : Word :=
  match regAt a with
  | some d => d.fields.foldl (fun w f => if f.ty = .rw ∨ f.ty = .rwl then setBits w (f.hi, f.lo) (getBits v (f.hi, f.lo)) else w)
      d.resetWord
  | none => 0

/-- The slot bytes of an image (R22). -/
def imageSlots (i : Image) : List Nat :=
  (below 64).map fun n => getBits (imageReg i (R.quietSlots (n / 8))) (8 * (n % 8) + 7, 8 * (n % 8))

/-- The slot table that R22 rejects: a reserved value, a partition that the image does not declare, a declared one without a slot,
fewer than 16 open slots. -/
def slotTableBad (i : Image) : Bool :=
  let l := imageSlots i
  (l.any fun b => b != 0xFF && decide (b ≥ min 4 i.quiet.length)) || ((below i.quiet.length).any fun q => !l.contains q) ||
  decide ((l.filter fun b => b == 0xFF).length < 16)

/-- A quiet partition of the image holds at least one whole stack, of the stacks there are, and no more cipher units than there are
(R21, R383) (log entry 187, DEDUCED). -/
def quietHoldingBad (q : ImgQuiet) : Bool := q.stackIds == 0 || decide (q.stackIds ≥ 2 ^ 12) || decide (q.cipher > 64)

/-- Check 3 of R428: the first section with a field outside its range. -/
def imageRangeFault (i : Image) : Option Nat :=
  let classes := getBits (imageReg i R.pairCfg) F.pairCfg_classes
  match List.find? (fun (e : Nat × Word) => !((regAt e.1).map fun d => d.inRange e.2).getD false) i.regs with
  | some e => some (regSection e.1)
  | none =>
    if getBits (imageReg i R.netCfg) F.netCfg_mode = 3 then some (regSection R.netCfg)
    else if getBits (imageReg i R.pairCfg) F.pairCfg_pair_time = 3 ∨ (classes % 8 ≠ 0 ∧ classes < 8) then some 0x0D
    else if i.policies.any fun p => p.limitUs == 0 || decide (p.limitUs ≥ 2 ^ 32) then some 0x06
    else if i.quiet.length > 4 ∨ slotTableBad i ∨ i.quiet.any quietHoldingBad then some 0x07
    else if i.keys.length > 16 then some 0x08
    else if (i.boot.any fun b => decide (b.fn > 1) || b.slice == 0 || decide (b.slice > 255)) ∨
        (i.boot.filter fun b => b.fn == 0).length > 1 ∨ (i.boot.filter fun b => b.fn == 1).length > 1 then some 0x0B
    else i.badRange

/-- Two quiet partitions claim the same stack, engine or network port, or together more cipher units than there are. -/
def quietClash : List ImgQuiet → Bool
  | [] => false
  | q :: qs => (qs.any fun r => q.stackIds &&& r.stackIds != 0 || q.engines &&& r.engines != 0 || q.ports &&& r.ports != 0) || quietClash qs

/-- Check 4 of R428: the section of the first contention (log entry 135, DEDUCED). -/
def imageContention (i : Image) : Option Nat :=
  let ppsOut := getBits (imageReg i R.ptpCfg) F.ptpCfg_pps_out = 1
  if ppsOut ∧ (getBits (imageReg i R.pairCfg) F.pairCfg_pair_time = 2 ∨ getBits (imageReg i R.timeSrc) (1, 0) ≥ 2) then some 0x04
  else if i.daybookKib + getBits (imageReg i R.pipeCfg) F.pipeCfg_slow_kib + getBits (imageReg i R.pipeCfg) F.pipeCfg_recirc_kib > 2048 then some 0x03
  else if i.dma15 ∧ (i.dma15General ∨ (i.quiet.any fun q => natBit q.engines 15)) then some 0x05
  else if i.ddr7Spill ∧ i.ddr7Kv then some 0x02
  else if quietClash i.quiet ∨ i.quiet.foldl (fun n q => n + q.cipher) 0 > 64 then some 0x07
  else none

/-- Check 5 of R428: the boot slices' minimum shares exceed a stack or a network port. -/
def imageShares (i : Image) : Bool :=
  let rate := [1600, 800, 400, 400].getD (getBits (imageReg i R.netCfg) F.netCfg_mode) 400
  let uses (b : ImgBoot) (st : Nat) : Bool :=
    match List.find? (fun (q : ImgQuiet) => q.slices.contains b.slice) i.quiet with
    | some q => natBit q.stackIds st
    | none => true
  ((below 12).any fun st =>
    decide ((i.boot.filter fun b => uses b st).foldl (fun k b => k + getBits b.share F.sliceShare_bench_share) 0 > 256)) ||
  decide (i.boot.foldl (fun k b => k + getBits b.share F.sliceShare_net_min_gbps) 0 > rate)

/-- The validator (R428): status 0, or the status of the first check that fails and the section it concerns
(log entry 8, DESIGN CHOICE). -/
def validate (i : Image) (body : List Byte) : Nat × Nat :=
  let secs := imgSections (body.length / 16 + 1) body
  match (brokenSection 0 secs).or i.badReserved with
  | some t => (0x02, t)
  | none =>
    match unknownSection secs with
    | some t => (0x05, t)
    | none =>
      match imageRangeFault i with
      | some t => (0x02, t)
      | none =>
        match imageContention i with
        | some t => (0x03, t)
        | none => if imageShares i then (0x04, 0x0B) else (0, 0)

/-- What R425 says of the image in slot k whose body says i: 0, or the status of the first condition that fails, with the section
the validator names. -/
def State.imageCode (s : State) (k : Nat) (i : Image) : Nat × Nat :=
  if ¬ s.endorsed then (0x21, 0)
  else
    match s.container (imgBase k) 0x800000 false with
    | none => (0x02, 0)
    | some c =>
      let who := (c.header.drop 32).take 48
      if c.sig.getD 96 0 ≠ 0 ∨ ¬ signedBy s.ownerKey (c.header ++ c.body) (c.sig.take 96) then (0x21, 0)
      else if sha384 c.body ≠ (c.header.drop 80).take 48 then (0x20, 0)
      else if who ≠ zeros 48 ∧ who ≠ deviceId then (0x21, 0)
      else if c.version < s.rpmc 1 then (0x23, 0)
      else validate i c.body

/-! ## Resets (R435, R494, R496) -/

/-- Everything a warm reset ends and keeps (R435): the daybook, OFF_CAUSE, FATAL_STATUS (R470), the energy count (R414), the
timebase, which never decreases (R13), the flash, a staged bundle (R440) and the lands stay. failed: a trial failed (R436)
(log entry 141, DEDUCED). -/
def State.warmReset (s : State) (failed : Bool) : State :=
  let b := s.boot
  let h := b.flash.header
  let t : State := { State.reset with
    pending := s.pending
    out := s.out
    free := s.free
    clock := { s.clock with frac := 0, step := 0, latch := 0, pllLocked := s.clock.refclk }
    daybook := s.daybook
    ep := Tab.mapVals s.ep fun _ e => { Ep.reset with perst := e.perst }
    pins := { Pins.reset with pwrEn := s.pins.pwrEn, pwrGood := s.pins.pwrGood, devResetN := s.pins.devResetN,
                              testMode := s.pins.testMode, straps := s.pins.straps, tap := s.pins.tap }
    boot := { Boot.reset with
      flash := if failed then { b.flash with header := { h with fwTrial := none, imgTrial := none } } else b.flash
      staged := b.staged
      fwFell := failed && b.fwTrying
      imgFell := failed && b.imgTrying } }
  let t := [R.offCause, R.energy, R.fatalStatus, R.dbStatus, R.dbSeq, R.dbOverwrite].foldl (fun t a => t.setReg a (s.reg a)) t
  t.setF R.fwVersion F.fwVersion_staged (bit b.staged.isSome)

/-- The boot ROM starts: after a warm reset the daybook thaws and its first entry is the reset's (R477). -/
def State.bootRom (s : State) (warm : Bool) : State :=
  let s := s.setF R.dbStatus F.dbStatus_frozen 0
  let s := if warm then s.changed 0x01 0 1 0 0 (s.getF R.fatalStatus F.fatalStatus_cause) else s
  (s.count 0x01 0 0 1).setF R.plinkStatus F.plinkStatus_link_ok 1

/-- Enter a start-up stage (R432): BOOT_STATUS, the daybook, the tally. -/
def State.enterStage (s : State) (n : Nat) : State :=
  ((s.setF R.bootStatus F.bootStatus_stage n).changed 0x01 0 16 s.stage n 0).count 0x01 0 n 1

/-- The boot stops in a stage with a status (R421, R423, R430, R432). -/
def State.bootStop (s : State) (n code : Nat) : State := (s.enterStage n).setF R.bootStatus F.bootStatus_fail_code code

/-- A slot other than the active one had to be used (R436). -/
def State.fellBack (s : State) (f : Fld) (slot : Nat) : State :=
  ((s.setF R.bootStatus f 1).changed 0x01 0 17 (1 - slot) slot 0).count 0x01 1 0 1

/-! ## The mailbox (R444) -/

/-- A mailbox command ends: its status, a record where MBOX_CFG asks for one on a ring of slice 0, vector 0 of function 0. The
spec gives the record's source_word no content. -/
def State.mboxDone (s : State) (op status : Nat) : State :=
  let s := (s.setF R.mboxCmd F.mboxCmd_busy 0).setF R.mboxCmd F.mboxCmd_status status
  let s := if [0x01, 0x03, 0x04, 0x23].contains status then s.cmdRefused 0x03 0 0 0 op status else s
  let s := if s.getF R.mboxCfg F.mboxCfg_record = 1 then
      let r := s.getF R.mboxCfg F.mboxCfg_cq
      let w := s.unstated
      if s.crOpen r 0 then
        w.2.post r { status := status, queue := 0, kind := 0x0C, flags := 0, slice := 0, tag := 0, byteCount := 0, time := s.now,
                     word := w.1.toNat, irq := true }
      else s.blockedName 0x03 0 0
    else s
  s.raise 0 0

/-- A write of MBOX_CMD with an op: ignored while busy, not answered in the boot ROM stage (R432, R444). f gives the status, or none
where the command goes on (log entry 137, DEDUCED). -/
def State.mbox (s : State) (value : Word) (op : Nat) (f : State → Option Nat × State) : Result :=
  if s.stage = 0 ∨ getBits value F.mboxCmd_op ≠ op then go s
  else if s.getF R.mboxCmd F.mboxCmd_busy = 1 then go (s.writeIgnored 0x03 0 R.mboxCmd value)
  else
    match f s with
    | (some c, s) => go (s.mboxDone op c)
    | (none, s) => go (s.setF R.mboxCmd F.mboxCmd_busy 1)

/-- The 4 KiB of MBOX_BUF. -/
def State.mboxBytes (s : State) : List Byte := (below 512).flatMap fun i => bytesLE 8 (s.reg (R.mboxBuf i)).toNat

/-- The mailbox may change [a, a + n): within an inactive slot or the owner area (R422, R444). -/
def State.mboxArea (s : State) (a n : Nat) : Bool :=
  let h := s.boot.flash.header
  let inside (base size : Nat) : Bool := decide (base ≤ a) && decide (a + n ≤ base + size)
  inside (fwBase (1 - h.fwActive)) 0x2000000 || inside (imgBase (1 - h.imgActive)) 0x800000 ||
    inside 0x5100000 (s.boot.flash.size - 0x5100000)

/-! ## Watchdogs and activation (R437 to R440) -/

/-- A core is taken from work, as while it restarts: a control core keeps its stack from starting sub-parts, the scheduler keeps all
from starting (R110, R437). -/
def State.coreDown (s : State) (core : Nat) : State :=
  let s := { s with boot := { s.boot with down := Tab.insert s.boot.down core () } }
  if core ≥ 11 then { s with bench := { s.bench with stalled := Tab.insert s.bench.stalled (core - 11) () } }
  else if core = 2 then { s with bench := { s.bench with stalled := Tab.insert s.bench.stalled 12 () } }
  else s

/-- A core runs again: barriers that broke while it did not are released (R110). -/
def State.coreUp (s : State) (core : Nat) : State :=
  let s := { s with boot := { s.boot with down := Tab.erase s.boot.down core } }
  if core ≥ 11 then ({ s with bench := { s.bench with stalled := Tab.erase s.bench.stalled (core - 11) } }).breaksDue (core - 11)
  else if core = 2 then ({ s with bench := { s.bench with stalled := Tab.erase s.bench.stalled 12 } }).breaksDue 12
  else s

/-- The cores an activation switches, in order: control cores of stacks that are not lost, hub cores, scheduler, security (R439). -/
def State.activationCores (s : State) : List Nat :=
  (((below 12).filter fun k => !s.linkFenced k).map fun k => k + 11) ++ (below 8).map (fun k => k + 3) ++ [2, 0]

/-- The core at the head of an activation switches: it is paused; while the security core is, the mailbox reads busy (R439). -/
def State.switchNext (s : State) (a : Activation) : State :=
  let s := { s with boot := { s.boot with act := some { a with held := false } } }
  match a.queue with
  | c :: _ => if c = 0 then s.setF R.mboxCmd F.mboxCmd_busy 1 else s.coreDown c
  | [] => s

/-- An activation starts (R439). waits: a mailbox command completes with it. -/
def State.activationStart (s : State) (waits : Bool) : State :=
  (s.count 0x01 3 0 1).switchNext ⟨s.activationCores, [], false, waits⟩

/-- An activation is over: a mailbox command that waits for it completes; else a mailbox busy for the security core is free
(log entry 138, DEDUCED). -/
def State.activationOver (s : State) (waits : Bool) (status : Nat) : State :=
  let s := { s with boot := { s.boot with act := none } }
  if waits then s.mboxDone 0x04 status else s.setF R.mboxCmd F.mboxCmd_busy 0

end Sys2Proof.Machine
end

