-- ==== Sys2Proof/Machine/Boot.lean ====
section
/-! DEFINITION. Boot, configuration image, firmware and ownership (R421 to R444). -/

namespace Sys2Proof.Machine

/-! ## Start-up (R421 to R427, R432 to R436) -/

/-- The bundle of a slot runs (R432, R436) (log entry 142, DESIGN CHOICE). -/
def State.startFirmware (s : State) (slot : Nat) (trying fell : Bool) (calibOk : Bool) : State :=
  let c := (s.container (fwBase slot) 0x2000000 true).getD ⟨[], [], [], []⟩
  let staged := if s.boot.staged.any fun x => x.slot == slot then none else s.boot.staged
  let s := { s with boot := { s.boot with fwSlot := slot, fwTrying := trying, fwDigest := sha384 c.whole, calibrated := calibOk,
                                          staged := staged } }
  let s := if fell then s.setFlash { s.boot.flash with header := { s.boot.flash.header with fwTrial := none } } else s
  let w := setBits (setBits (setBits 0 F.fwVersion_security_version c.version) F.fwVersion_active_slot slot)
    F.fwVersion_staged (bit staged.isSome)
  let s := (s.setReg R.fwVersion w).setReg R.hostIfRev (BitVec.ofNat 64 (fieldLE c.header 16 4))
  let s := s.setF R.bootStatus F.bootStatus_owned (bit s.endorsed)
  let s := if fell then s.fellBack F.bootStatus_fw_fallback slot else s
  let s := if calibOk then s else s.changed 0x01 0 19 1 0 0
  (s.startCore 0).enterStage 1

/-- The device can start: powered, DEV_RESET_N high, TEST_MODE low, in the boot ROM stage (R494, R496, the hard cases). -/
def State.booting (s : State) : Bool :=
  s.stage == 0 && s.pins.pwrGood && s.pins.devResetN && !s.pins.testMode && !s.power.off

/-- BOOT_VERIFY (R421 to R424, R430, R436, R443): identity, counters, then the slot marked for trial or the active one, then the
other (log entry 144, DEDUCED). -/
def execBootVerify (seen : BootSeen) (s : State) : Result :=
  if ¬ s.booting then go s
  else
    let s := s.setFlash { s.boot.flash with size := seen.flashSize }
    let s := s.setF R.rngStatus F.rngStatus_ok (bit seen.rngOk)
    if ¬ seen.identityOk then go (s.bootStop 9 0x21)
    else if seen.counters < 4 then go (s.bootStop 8 0x05)
    else
      let s := s.setFlash { s.boot.flash with rooted := true }
      let h := s.boot.flash.header
      let first := h.fwTrial.getD h.fwActive
      let c := s.bundleCode first
      if ¬ seen.rpmcOk then go (s.bootStop 8 0x21)
      else if c = 0 then go (s.startFirmware first h.fwTrial.isSome s.boot.fwFell seen.calibOk)
      else if s.bundleCode (1 - first) = 0 then go (s.startFirmware (1 - first) false true seen.calibOk)
      else go (s.bootStop 9 c)

/-- A boot slice is created at apply with its namespaces and drive ports (R427, R276) (log entry 145, DEDUCED). -/
def State.bootSlice (s : State) (b : ImgBoot) : State :=
  let bind := setBits (setBits b.bind F.sliceBind_state 1) F.sliceBind_function b.fn
  let policy := setBits b.policy F.slicePolicy_drive_ports b.drivePorts
  let n := b.slice
  let s := ((s.setReg (R.sliceBind n) bind).setReg (R.slicePolicy n) policy).setReg (R.sliceQuotaMem n) b.quotaMem
  let s := ((s.setReg (R.sliceQuotaQ n) b.quotaQ).setReg (R.sliceQuotaNet n) b.quotaNet).setReg (R.sliceQuotaServe n) b.quotaServe
  let s := s.setReg (R.sliceShare n) b.share
  let s := { s with force := Tab.insert s.force n ⟨policy, b.quotaMem, b.quotaQ, b.quotaNet, b.quotaServe, b.share, 0, 0, 0, true⟩ }
  b.namespaces.foldl (fun s k => (s.setF (R.nsMap k) F.nsMap_owner n).setF (R.nsMap k) F.nsMap_valid 1) s

/-- Apply the image of a slot (R427): every register it names that needs no memory, slice 0 and the boot slices; the RWL fields are
locked from then on. -/
def State.applyImage (s : State) (slot : Nat) (i : Image) (trying fell : Bool) : State :=
  let c := (s.container (imgBase slot) 0x800000 false).getD ⟨[], [], [], []⟩
  let i := { i with regs := i.regs.map fun e => (e.1, imageWord e.1 e.2) }
  let s := { s with
    image := some i
    boot := { s.boot with imgSlot := slot, imgTrying := trying, imgDigest := sha384 c.whole, imgVersion := c.version } }
  let s := s.imageRegs fun a => !namesMemory a
  let n := 32768 + 32 * i.daybookKib
  let s := (s.setF R.dbStatus F.dbStatus_entries n).setF R.dbStatus F.dbStatus_head (s.getF R.dbStatus F.dbStatus_head % n)
  let s := s.setSliceState 0 1
  let s := (i.boot.foldl (fun s b => s.bootSlice b) s).portOwners
  let s := if fell then
      (s.setFlash { s.boot.flash with header := { s.boot.flash.header with imgTrial := none } }).fellBack F.bootStatus_image_fallback slot
    else s
  let s := (below 22).foldl (fun s k => s.startCore (k + 1)) s
  s.enterStage 2

/-- IMAGE_APPLY (R425 to R427, R436): once per reset; with no valid image in either slot the device is unconfigured. -/
def execImageApply (content0 content1 : Image) (s : State) : Result :=
  if s.stage ≠ 1 then go s
  else
    let h := s.boot.flash.header
    let first := h.imgTrial.getD h.imgActive
    let content (k : Nat) : Image := if k = 0 then content0 else content1
    let c := (s.imageCode first (content first)).1
    if c = 0 then go (s.applyImage first (content first) h.imgTrial.isSome s.boot.imgFell)
    else if (s.imageCode (1 - first) (content (1 - first))).1 = 0 then
      go (s.applyImage (1 - first) (content (1 - first)) false true)
    else go (s.bootStop 8 c)

/-- The level and the unit of a failure of R461, where it has a repair map. -/
def postPlace : PostUnit → Option (RepairLevel × Nat)
  | .lane st b e l => some (laneLevel st b e, l)
  | .engine st b e => some (engineLevel st b, e)
  | .bench st b => some (benchLevel st, b)
  | .group g l => some (groupLevel g, l)
  | .control _ | .hbm _ | .net _ => none

/-- The stack a failure concerns. -/
def postStack : PostUnit → Option Nat
  | .lane st _ _ _ | .engine st _ _ | .bench st _ | .control st | .hbm st => some st
  | .group _ _ | .net _ => none

/-- A unit that failed is fenced and its spare substituted; where none is left the level above loses it (R461, R467). -/
def State.postFence (s : State) (u : PostUnit) : State :=
  let s := s.count 0x11 2 0 1
  match u with
  | .lane st b e l =>
    match s.fenceUnit (laneLevel st b e) l with
    | (.out _, s) => (s.fenceUnit (engineLevel st b) e).2
    | (_, s) => s
  | .engine st b e => (s.fenceUnit (engineLevel st b) e).2
  | .bench st b => (s.fenceUnit (benchLevel st) b).2.refreshPositions st
  | .control st => s.loseStack st
  | .hbm st => (s.loseMemory st).loseBenches st
  | .group g l =>
    match s.fenceUnit (groupLevel g) l with
    | (.out _, s) => s.setF R.postStatus F.postStatus_io_lane 1
    | (_, s) => s
  | .net _ => s.setF R.postStatus F.postStatus_io_lane 1

/-- A failure is of a unit in the maps of a stack behind a fenced link, where it is not entered (R503). -/
def State.postLost (s : State) : PostUnit → Bool
  | .lane st _ _ _ | .engine st _ _ | .bench st _ => s.linkFenced st
  | _ => false

/-- The results of a part of the self-test (R461): every failed unit reads 0 in its present map first. -/
def State.postResults (s : State) (failed : List PostUnit) : State :=
  let failed := failed.filter fun u => !s.postLost u
  let s := (failed.filterMap postPlace).foldl (fun s p => s.clrBit p.1.base (p.1.bitFor p.2)) s
  let s := (failed.filterMap postStack).foldl (fun s st => s.setBit R.postStatus (12 + st)) s
  failed.foldl (fun s u => s.postFence u) s

/-- APPRENTICE_SERVICE_START (R433, R459): the running slots have proved themselves and are active, and a mark of a running slot for
trial is gone; one that the mailbox has set since for another slot stays (R436). -/
def execApprenticeServiceStart (failed : List PostUnit) (s : State) : Result :=
  if s.stage ≠ 2 then go s
  else
    let b := s.boot
    let h := b.flash.header
    let kept (trial : Option Nat) (slot : Nat) : Option Nat := if trial = some slot then none else trial
    let s := s.setFlash { b.flash with header := ⟨b.fwSlot, b.imgSlot, kept h.fwTrial b.fwSlot, kept h.imgTrial b.imgSlot⟩ }
    let s := { s with boot := { s.boot with fwTrying := false, imgTrying := false } }
    go (((s.postResults failed).setF R.postStatus F.postStatus_short_done 1).enterStage 3)

/-- A region entry at start-up: the device's own, or one the image gives slice 0 (R151, R152, R427, R464). -/
def State.startRegion (s : State) (i base size tier : Nat) (bulk : Bool) : State :=
  { s with regions := Tab.insert s.regions i ⟨base, size, 0, tier, bulk, 1, false⟩ }

/-- The device's regions: a save region on each stack in service, channel 7's reserved region, staging (R151, R152, R464). -/
def State.deviceRegions (s : State) : State :=
  let s := ((below 12).filter fun st => s.stackMem st).foldl
    (fun s st => s.startRegion (4080 + st) (st * 2 ^ 35 + 2 ^ 35 - s.stitchedSize - 2 ^ 21) (2 ^ 21) 0 false) s
  let s := if s.ddr.res > 0 then s.startRegion 4094 0x40000000000 s.ddr.res 3 false else s
  if s.stagingSize > 0 then s.startRegion 4095 (0x10000000000 + s.mainSize - s.stagingSize) s.stagingSize 4 false else s

/-- Slice 0's initial regions; one that R153 would refuse is refused the same way and recorded (R427). -/
def State.imageRegions (s : State) : State :=
  ((s.image.map fun i => i.regions0).getD []).foldl (fun s r =>
    let x : RegionArgs := { index := r.entry, base := r.base, granules := r.granules,
                            owner := 0, tier := r.tier, bulk := r.bulk }
    let c := if x.index ≥ 4080 then 0x02 else s.createStatus x
    if c = 0 then s.startRegion x.index x.base x.size x.tier x.bulk else s.cmdRefused 0x0D 0xFF 0 x.index 1 c) s

/-- The stacks whose benches and memory serve after the self-test (R461, R146). -/
def State.stacksServe (s : State) : State :=
  (below 12).foldl (fun s st =>
    let up := s.anyBench st && !s.linkFenced st && !natBit (s.reg (R.repairStack + 8)).toNat st &&
      s.getF (R.hbmStatus st) F.hbmStatus_trained == 1
    let s := s.setF (R.stackStatus st) F.stackStatus_in_service (bit up)
    let s := if s.anyBench st then s else s.setBit R.postStatus (24 + st)
    if s.stackMem st then s else s.setBit R.postStatus (36 + st)) s

/-- FULL_SERVICE_START (R434): once memory is trained. Failures of the self-test are fenced, memory reads zero, the memory objects
of R427 exist, the pipelines take LOOKUP_LIST, vector 0 of both functions is raised. -/
def execFullServiceStart (failed : List PostUnit) (s : State) : Result :=
  if s.stage ≠ 3 ∨ ¬ s.boot.trained then go s
  else
    let s := ((s.postResults failed).count 0x11 0 0 1).stacksServe
    let s := { s with mem := [], bad := [] }
    let s := (((s.setF R.postStatus F.postStatus_done 1).enterStage 4).imageRegs namesMemory).deviceRegions.imageRegions
    let s := (s.setF R.spillCfg F.spillCfg_active (bit s.spills)).drawEpoch
    let s := s.setF R.storCfg F.storCfg_apprentice 0
    go ((s.raise 0 0).raise 1 0)

/-- BOOT_LATE (R433, R434): the bound passes before the service has begun. -/
def execBootLate (full : Bool) (s : State) : Result :=
  if s.pins.pwrGood ∧ s.stage < (if full then 4 else 3) then
    go ((s.setF R.bootStatus F.bootStatus_late 1).record { source := 0x01, inst := 0, code := 0x0043, severity := 3 })
  else go s

/-- RESET_CTRL_WRITE (R435). -/
def execResetCtrlWrite (value : Word) (s : State) : Result :=
  if s.stage = 0 ∨ getBits value F.resetCtrl_warm ≠ 0xA55A then go s else go ((s.warmReset false).bootRom true)

/-- DEV_RESET_N_LOW (R496): accepted after ten samples; the device is held in reset. During OFF it has no further effect. -/
def execDevResetNLow (samples : Nat) (s : State) : Result :=
  if samples < 10 ∨ s.power.off ∨ ¬ s.pins.pwrGood ∨ ¬ s.pins.devResetN then go s
  else
    let s := s.warmReset false
    go { s with pins := { s.pins with devResetN := false } }

/-- DEV_RESET_N_RISE (R496, R494): the boot ROM starts, and the pads return to the device (R499). -/
def execDevResetNRise (s : State) : Result :=
  if s.pins.devResetN then go s
  else
    let warm := !s.pins.firstStart
    let s := { s with pins := { s.pins with devResetN := true, firstStart := false,
                                            tap := if s.pins.tap ≥ 3 then 1 else s.pins.tap } }
    if s.power.off ∨ ¬ s.pins.pwrGood then go s else go (s.bootRom warm)

/-! ## Watchdogs (R437, R110) -/

/-- The power link is lost with its core: the emergency rate of R418. -/
def State.powerCoreLost (s : State) : State := (s.setF R.capStatus F.capStatus_stale 1).emergency 5 true 16

/-- What the expiry of a core's watchdog brings (R437): second: within 1 s of the one before. -/
def State.expiry (s : State) (core : Nat) (second : Bool) (handled : List Nat) : State :=
  if core = 0 then
    if s.stage < 3 ∧ (s.boot.fwTrying ∨ s.boot.imgTrying) then (s.warmReset true).bootRom true else s.fatal 0x03
  else if core ≥ 11 then
    if second then s.loseStack (core - 11) else s.coreDown core
  else if second then
    (if core = 1 then (s.coreDown 1).powerCoreLost else s.coreDown core).fatal 0x04
  else
    let s := s.coreDown core
    if core ≥ 3 then
      handled.foldl (fun s n => match s.desc? n with
        | some d => if d.subs.isEmpty then s.endWhole n d 0x13 0 0 else s
        | none => s) s
    else s

/-- A core's watchdog expires, or the core halts (R437). -/
def State.watchdog (s : State) (core : Nat) (handled : List Nat) : State :=
  let second : Bool := match Tab.find? s.boot.expiries core with
    | some t => decide (s.since t < usTicks 1000000)
    | none => false
  let s := s.setBit R.wdogStatus core
  let s := { s with boot := { s.boot with expiries := Tab.insert s.boot.expiries core s.now } }
  let s := s.record { source := 0x12, inst := core, code := 0x0040, severity := 3, detail := dAt 20 (1 + bit second) }
  (s.count 0x01 5 core 1).expiry core second handled

/-- WATCHDOG_EXPIRY (R437): of a core that runs firmware. -/
def execWatchdogExpiry (core : Nat) (handled : List Nat) (s : State) : Result :=
  if core > 22 ∨ s.power.off ∨ ¬ s.pins.pwrGood ∨ s.stage = 9 ∨ (core ≥ 11 ∧ s.linkFenced (core - 11)) ∨
      (Tab.find? s.boot.down core).isSome then go s
  else go (s.watchdog core handled)

/-- CORE_RESTART (R437, R110). A core that an activation holds, or that stays halted, does not restart. -/
def execCoreRestart (core : Nat) (s : State) : Result :=
  let switching : Bool := match s.boot.act with
    | some a => a.queue.head? == some core && !a.held
    | none => false
  if (Tab.find? s.boot.down core).isNone ∨ s.stage = 9 ∨ switching then go s else go ((s.coreUp core).startCore core)

/-! ## The flash (R444) -/

/-- FLASH_WRITE (R444). -/
def execFlashWrite (value : Word) (s : State) : Result :=
  s.mbox value 1 fun s =>
    let a := (s.reg R.mboxArg0).toNat
    let n := (s.reg R.mboxArg1).toNat
    if n > 4096 then (some 0x02, s)
    else if ¬ s.mboxArea a n then (some 0x08, s)
    else (some 0, s.setFlash (s.boot.flash.store a (s.mboxBytes.take n)))

/-- FLASH_ERASE (R444, R421): the 64 KiB sector that begins at the offset. -/
def execFlashErase (value : Word) (s : State) : Result :=
  s.mbox value 2 fun s =>
    let a := (s.reg R.mboxArg0).toNat
    if a % 65536 ≠ 0 then (some 0x02, s)
    else if ¬ s.mboxArea a 65536 then (some 0x08, s)
    else
      let f := s.boot.flash
      (some 0, s.setFlash { f with bytes := Tab.keep f.bytes fun k _ => decide (k < a) || decide (a + 65536 ≤ k) })

/-! ## Staging, activation, commit (R438 to R441) -/

/-- A staging that is refused is counted. -/
def State.stageRefused (s : State) (code : Nat) : Option Nat × State := (some code, s.count 0x01 2 0 1)

/-- STAGE_FIRMWARE (R438, R441): the bundle of the inactive slot (log entry 139, DEDUCED). -/
def execStageFirmware (value : Word) (s : State) : Result :=
  s.mbox value 3 fun s =>
    let k := (s.reg R.mboxArg0).toNat
    if k > 1 then s.stageRefused 0x02
    else if k = s.boot.flash.header.fwActive then s.stageRefused 0x01
    else
      let c := s.bundleCode k
      if c ≠ 0 then s.stageRefused c
      else
        let x := (s.container (fwBase k) 0x2000000 true).getD ⟨[], [], [], []⟩
        let s := { s with boot := { s.boot with staged := some ⟨k, x.version, fieldLE x.header 16 4, sha384 x.whole⟩ } }
        (some 0, s.setF R.fwVersion F.fwVersion_staged 1)

/-- ACTIVATE_FIRMWARE (R439, R440). -/
def execActivateFirmware (value : Word) (s : State) : Result :=
  s.mbox value 4 fun s =>
    match s.boot.staged with
    | none => (some 0x01, s)
    | some x =>
      if s.activating then (some 0x01, s)
      else if natBits x.hostIf 31 16 ≠ s.getF R.hostIfRev F.hostIfRev_major then
        let h := s.boot.flash.header
        let s := s.setFlash { s.boot.flash with header := { h with fwTrial := some x.slot } }
        (some 0x40, s.setF R.fwVersion F.fwVersion_at_reset 1)
      else if s.getF R.emergStatus F.emergStatus_active = 1 then
        (some 0x40, ((s.setF R.fwVersion F.fwVersion_deferred 1).changed 0x01 0 18 0 1 0).count 0x01 4 0 1)
      else (none, s.activationStart true)

/-- ACTIVATION_RESUME (R440): a deferred activation starts, a held one takes its next step, once no emergency has been active for
100 ms. -/
def execActivationResume (s : State) : Result :=
  if s.getF R.emergStatus F.emergStatus_active = 1 ∨ s.since s.power.lastEmergency < usTicks 100000 then go s
  else
    match s.boot.act with
    | some a => if a.held then go (s.switchNext a) else go s
    | none =>
      if s.getF R.fwVersion F.fwVersion_deferred = 0 then go s
      else go (((s.setF R.fwVersion F.fwVersion_deferred 0).changed 0x01 0 18 1 0 0).activationStart false)

/-- The last core is ready: the boot header names the new slot, which runs (R439). -/
def State.activated (s : State) (waits : Bool) : State :=
  match s.boot.staged with
  | none => s.activationOver waits 0
  | some x =>
    let h := s.boot.flash.header
    let s := s.setFlash { s.boot.flash with header := { h with fwActive := x.slot } }
    let s := { s with boot := { s.boot with fwSlot := x.slot, fwDigest := x.digest, staged := none } }
    let w := setBits (setBits (setBits 0 F.fwVersion_security_version x.version) F.fwVersion_power_pending 1)
      F.fwVersion_active_slot x.slot
    ((s.setReg R.fwVersion w).setReg R.hostIfRev (BitVec.ofNat 64 x.hostIf)).activationOver waits 0

/-- ACTIVATION_CORE_READY (R439, R440): an emergency holds the next step. -/
def execActivationCoreReady (core : Nat) (s : State) : Result :=
  match s.boot.act with
  | none => go s
  | some a =>
    if a.held ∨ a.queue.head? ≠ some core then go s
    else
      let s := (s.coreUp core).startCore core
      let b : Activation := { a with queue := a.queue.tail, switched := core :: a.switched }
      if b.queue.isEmpty then go (s.activated a.waits)
      else if s.getF R.emergStatus F.emergStatus_active = 1 then
        go { s with boot := { s.boot with act := some { b with held := true } } }
      else go (s.switchNext b)

/-- ACTIVATION_TIMEOUT (R439): every core already switched returns to the old image; the boot header is unchanged. -/
def execActivationTimeout (s : State) : Result :=
  match s.boot.act with
  | none => go s
  | some a =>
    if a.held then go s
    else
      match a.queue with
      | c :: _ =>
        let s := (c :: a.switched).foldl (fun s k => (s.coreUp k).startCore k) s
        go (s.activationOver a.waits 0x20)
      | [] => go s

/-- COMMIT_FIRMWARE (R441). -/
def execCommitFirmware (value : Word) (s : State) : Result :=
  s.mbox value 5 fun s =>
    if s.getF R.fwVersion F.fwVersion_power_pending = 1 ∨ s.getF R.fwVersion F.fwVersion_deferred = 1 ∨
        s.getF R.fwVersion F.fwVersion_at_reset = 1 then (some 0x01, s)
    else (some 0, s.setRpmc 0 (max (s.rpmc 0) (s.getF R.fwVersion F.fwVersion_security_version)))

/-- STAGE_IMAGE (R438, R428, R441): the image of the inactive slot, for the next reset; the validator's section goes to ARG1. -/
def execStageImage (value : Word) (content : Image) (s : State) : Result :=
  s.mbox value 6 fun s =>
    let k := (s.reg R.mboxArg0).toNat
    if k > 1 then s.stageRefused 0x02
    else
      match s.imageCode k content with
      | (0, _) =>
        let h := s.boot.flash.header
        (some 0, s.setFlash { s.boot.flash with header := { h with imgTrial := some k } })
      | (c, t) => (s.setReg R.mboxArg1 (BitVec.ofNat 64 t)).stageRefused c

/-- COMMIT_IMAGE (R441); with no image applied there is no version to commit. -/
def execCommitImage (value : Word) (s : State) : Result :=
  s.mbox value 7 fun s =>
    if s.image.isNone then (some 0x01, s) else (some 0, s.setRpmc 1 (max (s.rpmc 1) s.boot.imgVersion))

/-! ## Ownership (R431) -/

/-- CLAIM_OWNERSHIP (R431). -/
def execClaimOwnership (value : Word) (s : State) : Result :=
  s.mbox value 8 fun s =>
    if s.endorsed then (some 0x01, s) else (some 0, s.endorse (s.mboxBytes.take 97))

/-- TRANSFER_OWNERSHIP (R431): the current owner's signature over the device identifier, the new key, the epoch plus one. -/
def execTransferOwnership (value : Word) (s : State) : Result :=
  s.mbox value 9 fun s =>
    let b := s.mboxBytes
    let msg := deviceId ++ b.take 97 ++ bytesLE 4 (s.rpmc 2 + 1)
    if s.endorsed ∧ signedBy s.ownerKey msg ((b.drop 97).take 96) then (some 0, s.endorse (b.take 97)) else (some 0x21, s)

/-! ## Attestation (R442) -/

/-- A measurement by its index. -/
def State.measurement (s : State) (i : Nat) : List Byte :=
  match i with
  | 1 => Config.romDigest
  | 2 => s.boot.fwDigest
  | 3 => s.boot.imgDigest
  | 4 => bytesLE 4 (s.rpmc 0) ++ bytesLE 4 (s.rpmc 1) ++ bytesLE 4 (s.rpmc 2)
  | 5 => sha384 (s.flashRead endorseBase 304)
  | 6 => sha384 (s.flashRead 0x20000 0x10000)
  | _ => match s.boot.staged with
    | some x => x.digest
    | none => zeros 48

/-- The security core is paused by an activation: SPDM answers Busy (R439). -/
def State.securityPaused (s : State) : Bool := match s.boot.act with
  | some a => a.queue.head? == some 0 && !a.held
  | none => false

/-- SPDM_REQUEST (R442): not offered in the boot ROM, firmware and image-applied stages (R432) (log entry 143, PRESUMED). -/
def execSpdmRequest (transport : Nat) (req : SpdmReq) (s : State) : Result :=
  if s.stage < 3 ∨ s.power.off ∨ transport > 3 then go s
  else if s.securityPaused then go (s.emit (.spdmError transport 0x03))
  else
    let agreed := (Tab.find? s.boot.spdm transport).isSome
    match req with
    | .getVersion => go ({ s with boot := { s.boot with spdm := Tab.erase s.boot.spdm transport } }.emit (.spdmVersion transport))
    | .getCapabilities => go (s.emit (.spdmCapabilities transport))
    | .negotiateAlgorithms h b =>
      let t := if h ∧ b then Tab.insert s.boot.spdm transport () else Tab.erase s.boot.spdm transport
      go ({ s with boot := { s.boot with spdm := t } }.emit (.spdmAlgorithms transport h b))
    | .getDigests => go (s.emit (.spdmDigests transport))
    | .getCertificate slot off len =>
      if slot = 0 then go (s.emit (.spdmCertificate transport slot off len)) else go (s.emit (.spdmError transport 0x01))
    | .challenge slot =>
      if ¬ agreed then go (s.emit (.spdmError transport 0x07))
      else if slot = 0 then go (s.emit (.spdmChallengeAuth transport slot)) else go (s.emit (.spdmError transport 0x01))
    | .getMeasurements i sig =>
      if sig ∧ ¬ agreed then go (s.emit (.spdmError transport 0x07))
      else if i = 0 then go (s.emit (.spdmMeasurements transport [] sig))
      else if i = 255 then
        go (s.emit (.spdmMeasurements transport ((below 7).map fun k => (k + 1, s.measurement (k + 1))) sig))
      else if i ≤ 7 then go (s.emit (.spdmMeasurements transport [(i, s.measurement i)] sig))
      else go (s.emit (.spdmError transport 0x01))
    | .chunkGet h k => go (s.emit (.spdmChunk transport h k))
    | .other _ => go (s.emit (.spdmError transport 0x07))

end Sys2Proof.Machine
end

