-- ==== Sys2Proof/Machine/Daybook.lean ====
section
/-! DEFINITION. Daybook buckets, tally, PLDM and PMBus (R472 to R482). -/

namespace Sys2Proof.Machine

/-- DAYBOOK_TOKEN_REFILL (R476): every source class gains per_ms tokens, up to burst. -/
def execDaybookTokenRefill (s : State) : Result :=
  let burst := max 1 (s.getF R.dbRate F.dbRate_burst)
  let gain := max 1 (s.getF R.dbRate F.dbRate_per_ms)
  go { s with daybook := { s.daybook with
    buckets := (below 18).foldl (fun (t : Tab Bucket) i =>
      Tab.update Bucket.full t (i + 1) fun b => { b with tokens := min burst (b.tokens + gain) }) s.daybook.buckets } }

/-- What a tally counter reads as; a use count of R277 is the slice's present use, HBM and DDR5 in GiB (log entry 6, DESIGN CHOICE). -/
def State.tallyAt (s : State) (block item inst : Nat) : Word :=
  match if block = 0x05 ∧ 9 ≤ item then allRes[item - 9]? else none with
  | some r => if inst < 256 then BitVec.ofNat 64 (s.use inst r / (if r = .hbm ∨ r = .ddr then gib else 1)) else 0
  | none => Tab.get 0 s.tally (tallyKey block item inst)

/-- TALLY_SEL (R480): the named counter is sampled (log entry 22, DESIGN CHOICE). -/
def execTallySel (value : Word) (s : State) : Result :=
  if ¬ s.serving then go s
  else
    let now := s.tallyAt (getBits value F.tallySel_block) (getBits value F.tallySel_item) (getBits value F.tallySel_instance)
    go ((s.setReg R.tallySel (BitVec.ofNat 64 (value.toNat % 2 ^ 32))).setReg R.tallyVal now)

/-- TALLY_DUMP ends with a status and its record (R480). -/
def State.dumpDone (s : State) (value : Word) (status bytes : Nat) : State :=
  let cq := getBits value F.tallyDump_cq
  let s := s.setReg R.tallyDump (setBits (setBits 0 F.tallyDump_status status) F.tallyDump_cq cq)
  let sel := s.reg R.tallySel
  let word := getBits sel F.tallySel_block * 2 ^ 24 + getBits sel F.tallySel_item * 2 ^ 16 + getBits sel F.tallySel_instance
  s.post cq { status := status, queue := 0, kind := 0x0B, flags := 0, slice := 0, tag := 0, byteCount := bytes, time := s.now,
              word := word, irq := true }

/-- TALLY_DUMP (R480): count instances from TALLY_SEL's on, 8 bytes each. -/
def execTallyDump (value : Word) (s : State) : Result :=
  let n := getBits value F.tallyDump_count
  let a := s.getF R.tallyDumpAddr F.tallyDumpAddr_addr * 8
  let sel := s.reg R.tallySel
  if ¬ s.serving then go s
  else if s.getF R.tallyDump F.tallyDump_busy = 1 then go (s.writeIgnored 0x01 0 R.tallyDump value)
  else if n = 0 ∨ n > 4096 then go (s.dumpDone value 0x02 0)
  else if ¬ s.owned 0 a (8 * n) then go ((s.recordBlocked 0x01 0 0 0x08 a).dumpDone value 0x08 0)
  else
    let data := (below n).flatMap fun i =>
      bytesLE 8 (s.tallyAt (getBits sel F.tallySel_block) (getBits sel F.tallySel_item) ((getBits sel F.tallySel_instance + i) % 65536)).toNat
    match s.memWrite 0x01 0 0 0 a data with
    | (none, s) => go (s.dumpDone value 0 (8 * n))
    | (some c, s) => go (s.dumpDone value c 0)

/-! ## PLDM (R481) -/

/-- The reading of a numeric sensor. -/
def State.sensor (s : State) (id : Nat) : Option Nat :=
  match id with
  | 1 => some (s.getF R.tempStatus F.tempStatus_tj_max)
  | 2 => some (s.getF R.tempStatus F.tempStatus_dram_max)
  | 3 => some (s.getF R.powerNow F.powerNow_vin_mv)
  | 4 => some (s.getF R.powerNow F.powerNow_iin_ma)
  | 5 => some (s.getF R.powerNow F.powerNow_pin_w)
  | 6 => some ((s.reg R.energy).toNat / 1000000)
  | _ => none

/-- The state of a state sensor: device state, boot stage, emergency active. -/
def State.stateSensor (s : State) (id : Nat) : Option Nat :=
  match id with
  | 7 => some s.pwr
  | 8 => some s.stage
  | 9 => some (s.getF R.emergStatus F.emergStatus_active)
  | _ => none

/-- PLDM_REQUEST (R481), with the command and completion codes of DSP0240 and DSP0248. -/
def execPldmRequest (req : PldmReq) (s : State) : Result :=
  if s.stage = 0 ∨ s.power.off then go s
  else
    match req with
    | .getTid =>
      let r := s.unstated
      go (r.2.emit (.pldm 0 [r.1.toNat % 256]))
    | .getPldmTypes => go (s.emit (.pldm 0 [0, 2]))
    | .getPldmCommands t =>
      if t = 0 then go (s.emit (.pldm 0 [0x02, 0x04, 0x05]))
      else if t = 2 then go (s.emit (.pldm 0 [0x0B, 0x11, 0x21, 0x50, 0x51]))
      else go (s.emit (.pldm 0x83 []))
    | .getPdrRepositoryInfo => go (s.emit (.pldm 0 [9]))
    | .getPdr r => if 1 ≤ r ∧ r ≤ 9 then go (s.emit (.pldm 0 [r])) else go (s.emit (.pldm 0x82 []))
    | .getSensorReading id =>
      match s.sensor id with
      | some v => go (s.emit (.pldm 0 [v]))
      | none => go (s.emit (.pldm 0x80 []))
    | .getStateSensorReadings id =>
      match s.stateSensor id with
      | some v => go (s.emit (.pldm 0 [v]))
      | none => go (s.emit (.pldm 0x80 []))
    | .pollForPlatformEventMessage =>
      match s.daybook.events with
      | [] => go (s.emit (.pldm 0 []))
      | e :: es => go ({ s with daybook := { s.daybook with events := es } }.emit (.pldm 0 [e.seq, e.source, e.code, e.detail]))
    | .other _ _ => go (s.emit (.pldm 0x05 []))

/-! ## PMBus (R482) -/

/-- LINEAR11 of num / den: the 11-bit mantissa with the most fraction bits that hold it, for values at or above 0
(log entry 146, PRESUMED). -/
def linear11 (num den : Nat) : Nat :=
  let fits (k : Nat) : Bool := decide ((num * 2 ^ k + den / 2) / den ≤ 1023)
  let k := (List.find? fits ((below 16).map fun i => 15 - i)).getD 0
  (if k = 0 then 0 else 32 - k) * 2048 + min 1023 ((num * 2 ^ k + den / 2) / den)

/-- READ_EIN: byte count, the 15-bit energy count in J, its rollovers, the samples. -/
def State.readEin (s : State) : List Byte :=
  let j := (s.reg R.energy).toNat / 1000000
  bytesLE 1 6 ++ bytesLE 2 (j % 32768) ++ bytesLE 1 (j / 32768 % 256) ++ bytesLE 3 (s.power.samples % 2 ^ 24)

/-- PMBUS_COMMAND (R482): answered in every state but OFF. -/
def execPmbusCommand (code : Nat) (s : State) : Result :=
  if s.power.off ∨ ¬ s.pins.pwrGood then go s
  else
    let word (n : Nat) : Result := go (s.emit (.pmbus (bytesLE 2 n)))
    match code with
    | 0x88 => word (linear11 (s.getF R.powerNow F.powerNow_vin_mv) 1000)
    | 0x89 => word (linear11 (s.getF R.powerNow F.powerNow_iin_ma) 1000)
    | 0x97 => word (linear11 (s.getF R.powerNow F.powerNow_pin_w) 1)
    | 0x8D => word (linear11 (s.getF R.tempStatus F.tempStatus_tj_max) 1)
    | 0x8E => word (linear11 (s.getF R.tempStatus F.tempStatus_dram_max) 1)
    | 0x86 => go (s.emit (.pmbus s.readEin))
    | 0x79 => word s.statusWord
    | 0x03 => go (s.emit (.pmbus []))
    | _ => go (s.emit .pmbusNack)

/-- CLEAR_FAULTS (R482): accepted; STATUS_WORD tells of emergencies while they last, so that nothing else is to be cleared. -/
def execClearFaults (s : State) : Result :=
  if s.power.off ∨ ¬ s.pins.pwrGood then go s else go (s.emit (.pmbus []))

end Sys2Proof.Machine
end

