-- ==== Sys2Proof/Machine/Fabric.lean ====
section
/-! DEFINITION. The commands of the chapter on architecture: BAR0 access shape, die-to-die links, clocks and timebase, the
hub fabric (R5, R11 to R16, R22, R28). -/

namespace Sys2Proof.Machine

/-! ## BAR0 access shape -/

/-- BAR0_MISALIGNED_ACCESS (R28): a read completes with UR, a write is dropped; both are recorded. An access of the right
shape is not this command's. -/
def execBar0MisalignedAccess (fn addr len : Nat) (write : Bool) (s : State) : Result :=
  if (len = 4 ∨ len = 8) ∧ addr % len = 0 then go s
  else
    let s := s.violation 0x04 fn addr fn
    go ((if write then s else s.emit (.tlpUr fn)).count 0x04 5 fn (bit (!write)))

/-! ## Die-to-die links (R5) -/

/-- The state of link k. -/
def State.link (s : State) (k : Nat) : Link := (Tab.find? s.links k).getD ⟨.up, 0, false, 0⟩

/-- Set the state of link k. -/
def State.setLink (s : State) (k : Nat) (l : Link) : State := { s with links := Tab.insert s.links k l }

/-- A link's change is entered in the daybook. -/
def State.linkChange (s : State) (k new : Nat) : State :=
  s.record { source := 0x01, inst := 0, code := 0x0042, severity := 4, detail := dAt 20 new + dAt 24 k }

/-- A flit whose CRC-64 matches: bytes 248–255 hold the CRC of the 248 bytes before them, low byte first
(log entry 175, DESIGN CHOICE). -/
def flitOk (flit : List Byte) : Bool := flit.length == 256 && crc64 (flit.take 248) == leNat (flit.drop 248)

/-- LINK_FLIT_RECEIVE (R5): the good flit that is next in order is delivered and ends the run of failures; a bad one is asked for
again, and the eighth in succession makes the link retrain. Go-back replay: until the missing flit comes, the flits after it are
dropped, as are flits delivered before. -/
def execLinkFlitReceive (k : Nat) (flit : LinkFlit) (s : State) : Result :=
  let l := s.link k
  if l.phase ≠ .up then go s
  else if flitOk flit.bytes then
    if flit.seq = l.delivered then go (s.setLink k { l with crcFails := 0, replay := false, delivered := l.delivered + 1 }) else go s
  else
    let n := l.crcFails + 1
    let s := (s.emit (.linkReplay k)).count 0x01 6 k 1
    go (s.setLink k { l with crcFails := n, replay := true, phase := if n ≥ 8 then .retrain else .up })

/-- A module after a training that found every lane good: present and not fenced, but for one of whose lanes a spare serves (R6). -/
def State.moduleRefresh (s : State) (k m : Nat) : State :=
  let w := s.reg (R.repairLink k + 16)
  let held := (below 2).any fun i => (substEntry w i).1 && (substEntry w i).2.2 / 64 == m
  if held then s else (s.clrBit (R.repairLink k + 8) m).setBit (R.repairLink k) m

/-- Every module of link k after a training that found every lane good (R6). -/
def State.linkTrained (s : State) (k : Nat) : State := (below (linkModules k)).foldl (fun s m => s.moduleRefresh k m) s

/-- LINK_RETRAIN (R5): a link that eight failures have put in retrain comes up again, or waits 1 ms for its retry. -/
def execLinkRetrain (k : Nat) (ok : Bool) (s : State) : Result :=
  let l := s.link k
  if l.phase ≠ .retrain then go s
  else if ok then go (((s.setLink k { l with phase := .up, crcFails := 0, replay := false }).linkTrained k).count 0x01 7 k 1)
  else go ((s.setLink k { l with phase := .waitRetry }).linkChange k 0)

/-- LINK_TRAIN_RETRY (R5): the second attempt brings the link up or fences the die behind it. -/
def execLinkTrainRetry (k : Nat) (ok : Bool) (s : State) : Result :=
  let l := s.link k
  if l.phase ≠ .waitRetry then go s
  else if ok then go (((s.setLink k { l with phase := .up, crcFails := 0, replay := false }).linkTrained k).linkChange k 1)
  else
    let s := s.record { source := 0x01, inst := 0, code := 0x0020, severity := 4,
                        detail := dAt 20 (R.repairLink k) + dAt 24 0xFF }
    go (s.fenceDie k)

/-- LANE_SPARE_SUBSTITUTE (R5, R6): the lane is fenced and a spare takes its position; with no spare left the link retrains
once, and a failed retrain fences the die. -/
def execLaneSpareSubstitute (k lane : Nat) (training retrainOk : Bool) (s : State) : Result :=
  let l := linkLevel k
  if (s.link k).phase = .fenced then go s
  else
    let s := if training then s.clrBit (R.repairLink k) (l.bitFor lane) else s
    match s.fenceUnit l lane with
    | (.substituted _ _, s) =>
      go (s.record { source := 0x01, inst := 0, code := 0x0011, severity := 1, detail := dAt 20 lane + dAt 24 0 })
    | (.idleUnit, s) => go s
    | (.out _, s) =>
      let s := s.record { source := 0x01, inst := 0, code := 0x0011, severity := 3, detail := dAt 20 lane + dAt 24 1 }
      if retrainOk then go ((s.linkTrained k).count 0x01 7 k 1) else go (s.fenceDie k)

/-! ## Clocks and the timebase (R11 to R14) -/

/-- The device is in A0 or A1. -/
def State.active (s : State) : Bool := !s.power.off && decide (s.getF R.pwrState F.pwrState_state ≤ 1)

/-- ROOT_PLL_LOCK_LOSS (R11): in A0 or A1 a device fatal event of cause 0x01. -/
def execRootPllLockLoss (s : State) : Result :=
  let wasActive := s.active
  let s := { s with clock := { s.clock with pllLocked := false } }
  if wasActive then go (s.fatal 0x01) else go s

/-- REFCLK_LOSS (R11): the AON domain continues on the internal ring oscillator; without its reference the root PLL loses
lock. -/
def execRefclkLoss (s : State) : Result :=
  let wasActive := s.active
  let s := { s with clock := { s.clock with refclk := false, aonRing := true, pllLocked := false } }
  let s := s.changed 0x01 0 2 1 0 0
  if wasActive ∧ s.stage ≠ 9 then go (s.fatal 0x01) else go s

/-- REFCLK_RESTORE (R11): the AON domain and the timebase leave the ring oscillator; outside the safe state the root PLL locks
again (log entry 164, DEDUCED). -/
def execRefclkRestore (s : State) : Result :=
  let locked := s.clock.pllLocked || s.stage != 9
  go ({ s with clock := { s.clock with refclk := true, aonRing := false, pllLocked := locked } }.changed 0x01 0 2 0 1 0)

/-- TIMEBASE_READ (R12): a read of the low half latches the high half for the next read of it. -/
def execTimebaseRead (part : Nat) (s : State) : Result :=
  let t := s.clock.ticks
  match part with
  | 0 =>
    go ({ s with clock := { s.clock with latch := (t >>> 32).setWidth 32 } }.emit (.regData ((t.setWidth 32).setWidth 64)))
  | 1 => go (s.emit (.regData (s.clock.latch.setWidth 64)))
  | _ => go (s.emit (.regData t))

/-- The servo owns TIME_RATE and TIME_STEP (R14). -/
def State.servoOwns (s : State) : Bool := s.getF R.timeSrc F.timeSrc_src != 0 || s.followsPair

/-- TIME_RATE_WRITE (R13, R14). -/
def execTimeRateWrite (value : Word) (s : State) : Result :=
  if s.servoOwns then go (s.writeIgnored 0x01 0 R.timeRate value)
  else go (s.setF R.timeRate F.timeRate_rate_adj (value.toNat % 2 ^ 32))

/-- TIME_STEP_WRITE (R13, R14): the step waits for the next cycle. -/
def execTimeStepWrite (value : Word) (s : State) : Result :=
  if s.servoOwns then go (s.writeIgnored 0x01 0 R.timeStep value)
  else go { s with clock := { s.clock with step := s.clock.step + value } }

/-- TIME_SRC_WRITE (R14). -/
def execTimeSrcWrite (value : Word) (s : State) : Result :=
  go (s.setF R.timeSrc F.timeSrc_src (value.toNat % 4))

/-- One cycle of the timebase (R11, R13): one tick of the 1.6 GHz clock with the correction and the pending step; 16 ticks
of the 100 MHz reference in S1 and S2 or without root lock; 64 of the ring oscillator without the reference
(log entry 1, DESIGN CHOICE) (log entry 45, DEDUCED). -/
def State.tick (s : State) : State :=
  let s := if s.getF R.servoStatus F.servoStatus_pps_seen = 1 ∧ s.clock.ticks.toNat ≥ s.pkt.ptp.edge + 3200000000 then
      s.setF R.servoStatus F.servoStatus_pps_seen 0 else s
  let c := s.clock
  if s.power.off then s
  else if s.active ∧ c.pllLocked then
    let t : Int := (c.frac : Int) + s.rateAdj
    let whole := 1 + t / (2 ^ 40 : Nat)
    { s with clock := { c with ticks := c.ticks + BitVec.ofNat 64 whole.toNat + c.step,
                               frac := (t % ((2 ^ 40 : Nat) : Int)).toNat, step := 0, cycles := c.cycles + 1 } }
  else { s with clock := { c with ticks := c.ticks + (if c.aonRing then 64 else 16) } }

/-! ## The hub fabric (R15, R16, R21, R22) -/

/-- Tokens of a class, in eighths of a beat. -/
def FabricPort.tok (p : FabricPort) (c : Nat) : Nat :=
  match c with
  | 0 => p.tok0
  | 1 => p.tok1
  | 2 => p.tok2
  | _ => p.tok3

/-- The credits left in the pool of a class. -/
def FabricPort.credit (p : FabricPort) (c : Nat) : Nat :=
  match c with
  | 0 => p.cred0
  | 1 => p.cred1
  | 2 => p.cred2
  | _ => p.cred3

/-- Credits of a class come back, up to its pool (R16). -/
def FabricPort.refund (p : FabricPort) (e : Nat × Nat) : FabricPort :=
  match e.1 with
  | 0 => { p with cred0 := min creditPool (p.cred0 + e.2) }
  | 1 => { p with cred1 := min creditPool (p.cred1 + e.2) }
  | 2 => { p with cred2 := min creditPool (p.cred2 + e.2) }
  | 3 => { p with cred3 := min creditPool (p.cred3 + e.2) }
  | _ => p

end Sys2Proof.Machine

namespace Sys2Proof

/-- The class of a kind of traffic (the table under R15). -/
def Traffic.cls : Traffic → Nat
  | .barrier => 0
  | .fenceMessage => 0
  | .powerEmergency => 0
  | .doorbell => 0
  | .heartbeat => 0
  | .interruptMessage => 0
  | .attend => 1
  | .transportAck => 1
  | .completionRecord => 1
  | .latencyQueue => 1
  | .mirror => 2
  | .dma => 3
  | .storageData => 3
  | .checkpoint => 3
  | .gather => 3
  | .packetPayload => 3
  | .descriptor c => c % 4

/-- The class of a request. -/
def FabricRequest.cls (r : FabricRequest) : Nat := r.traffic.cls

/-- The packet of a request has a size of its class: 1 beat in class 0, 1 to 16 in the others (R15). -/
def FabricRequest.sized (r : FabricRequest) : Bool :=
  decide (1 ≤ r.beats) && decide (r.beats ≤ if r.cls = 0 then 1 else 16)

end Sys2Proof

namespace Sys2Proof.Machine

/-- The last initiator served in a class. -/
def FabricPort.lastOf (p : FabricPort) (c : Nat) : Nat :=
  match c with
  | 0 => p.last0
  | 1 => p.last1
  | 2 => p.last2
  | _ => p.last3

/-- Buckets after n cycles: each class gains its share of target cycles, 1/8, 5/8, 1/8 and 1/8 of a beat a cycle, up to its
burst of 64, 1,024, 256 and 256 beats. -/
def FabricPort.refill (p : FabricPort) (n : Nat) : FabricPort :=
  { p with tok0 := min 512 (p.tok0 + n), tok1 := min 8192 (p.tok1 + 5 * n), tok2 := min 2048 (p.tok2 + n),
           tok3 := min 2048 (p.tok3 + n), left := p.left - n }

/-- A grant: the class's tokens, as far as it has them (log entry 215, DESIGN CHOICE), and its credits pay the packet's beats, the
initiator was served, the packet is in progress. -/
def FabricPort.serve (p : FabricPort) (r : FabricRequest) : FabricPort :=
  let cost := 8 * r.beats
  match r.cls with
  | 0 => { p with tok0 := p.tok0 - cost, last0 := r.initiator, left := r.beats, cred0 := p.cred0 - r.beats }
  | 1 => { p with tok1 := p.tok1 - cost, last1 := r.initiator, left := r.beats, cred1 := p.cred1 - r.beats }
  | 2 => { p with tok2 := p.tok2 - cost, last2 := r.initiator, left := r.beats, cred2 := p.cred2 - r.beats }
  | _ => { p with tok3 := p.tok3 - cost, last3 := r.initiator, left := r.beats, cred3 := p.cred3 - r.beats }

/-- The owner of the running slot: 0xFF open (R22). -/
def State.slotOwner (s : State) : Nat :=
  natBits (s.reg (R.quietSlots (s.quietSlot / 8))).toNat (8 * (s.quietSlot % 8) + 7) (8 * (s.quietSlot % 8))

/-- A request may be granted in the running slot: class 0 always, a quiet partition's in its own slots, other traffic in
open ones (R21, R22). -/
def State.slotAdmits (s : State) (r : FabricRequest) : Bool :=
  r.cls == 0 ||
  (match r.partition with
   | some q => s.slotOwner == q
   | none => s.slotOwner == 0xFF)

/-- The next of a class's requests in round-robin order after initiator last. -/
def nextInitiator (last : Nat) (rs : List FabricRequest) : Option FabricRequest :=
  rs.foldl (fun best r =>
    match best with
    | none => some r
    | some b => if (r.initiator + 63 - last % 64) % 64 < (b.initiator + 63 - last % 64) % 64 then some r else some b) none

/-- The request the arbiter grants: of the highest class that waits and holds tokens, else of the highest that waits. A class holds
tokens while its bucket is above 0 (R16; log entry 215, DESIGN CHOICE). -/
def arbitrate (p : FabricPort) (rs : List FabricRequest) : Option FabricRequest :=
  let of_ (c : Nat) := rs.filter fun r => r.cls == c
  let withTokens := (below 4).find? fun c => !(of_ c).isEmpty && decide (p.tok c > 0)
  let any := (below 4).find? fun c => !(of_ c).isEmpty
  match withTokens.or any with
  | some c => nextInitiator (p.lastOf c) (of_ c)
  | none => none

/-- A request that the arbiter may grant now: of its class's size, in its slot, and its class's own pool holds credits for it
(R15, R16, R21). -/
def State.grantable (s : State) (p : FabricPort) (r : FabricRequest) : Bool :=
  s.slotAdmits r && r.sized && decide (r.beats ≤ p.credit r.cls)

/-- FABRIC_GRANT (R16): with a packet in progress nothing is granted (log entry 15, DEDUCED). -/
def execFabricGrant (port : Nat) (elapsed : PortElapsed) (waiting : List FabricRequest) (s : State) : Result :=
  let p := elapsed.returned.foldl FabricPort.refund ((Tab.get FabricPort.idle s.fabric port).refill elapsed.cycles)
  let put (s : State) (p : FabricPort) : State := { s with fabric := Tab.put FabricPort.idle s.fabric port p }
  if p.left > 0 then go (put s p)
  else
    match arbitrate p (waiting.filter (s.grantable p)) with
    | some r => go ((put s (p.serve r)).emit (.grant port r.cls r.initiator r.beats))
    | none => go (put s p)

/-- QUIET_SLOT_ADVANCE (R22): every target port moves to the next of the 64 slots. -/
def execQuietSlotAdvance (s : State) : Result := go { s with quietSlot := (s.quietSlot + 1) % 64 }

end Sys2Proof.Machine
end

