-- ==== Sys2Proof/Machine/CopOps.lean ====
section
/-! DEFINITION. The coprocessors of the Zenza cores: the checks at issue and what each operation does (R129 to R133). -/

namespace Sys2Proof.Machine

/-! ## Coprocessor 0: the engine array (R131) -/

/-- A field of the control word. -/
def ctl (b : Word) (hi lo : Nat) : Nat := natBits b.toNat hi lo

/-- The logical engine positions of a control word's mask. -/
def ctlEngines (b : Word) : List Nat := maskList 8 (ctl b 7 0)

/-- The largest K of one pass for operand format f in buffer A; buffer B's is twice as large (the table under R73). -/
def maxK (f : Nat) : Nat :=
  match engineBits f with
  | 8 => 1024
  | 6 => 1344
  | 4 => 2048
  | 16 => 512
  | _ => 256

/-- The bytes of n elements of format f. -/
def elemBytes (f n : Nat) : Nat := ceilDiv (n * engineBits f) 8

/-- The elements that k bytes of format f hold. -/
def bytesElems (f k : Nat) : Nat := k * 8 / engineBits f

/-- The form ECLR sets, and an ERUN needs, for two operand formats and the fast bit (R131, R58, R66). -/
def formFor (fa fb : Nat) (fast : Bool) : Form :=
  if engineInt fa || engineInt fb then .exact
  else if fast then .fast
  else if engineWide fa || engineWide fb then .binned
  else .exact

/-- The form for a control word. -/
def ctlForm (b : Word) : Form := formFor (ctl b 31 28) (ctl b 27 24) (ctl b 20 20 == 1)

/-- The key of the engine that holds a logical position's state on a bench. -/
def State.engKey (s : State) (core e : Nat) : Nat := core * 9 + s.servingUnit (engineLevel (core / 7) (core % 7)) e

/-- The engine at a logical position. -/
def State.engine (s : State) (core e : Nat) : Engine := Tab.get Engine.clear s.bench.engines (s.engKey core e)

/-- Set the engine at a logical position. -/
def State.setEngine (s : State) (core e : Nat) (v : Engine) : State :=
  { s with bench := { s.bench with engines := Tab.put Engine.clear s.bench.engines (s.engKey core e) v } }

/-- The entries that 512 records restore, or none where EREST fails with 0x0002 (R131) (log entry 42, DESIGN CHOICE). -/
def restoreEntries (l : List Byte) : Option (List Entry) :=
  let es := (chunks 48 512 l).map fun r => (entryOfRecord r, fieldLE r 44 2 / 256 % 2)
  if es.any (fun e => e.1.isNone || e.2 == 1) then none
  else
    let vs := es.filterMap Prod.fst
    match vs with
    | [] => none
    | v :: _ => if vs.all fun w => w.form == v.form then some vs else none

/-- The form and contributions of an engine after a queued EREST (R56, R131), as its records stand at issue: it clears the entries where it
fails (log entry 191, DESIGN CHOICE). -/
def State.restForm (s : State) (core e : Nat) (o : CopOp) : Form × Nat :=
  match (s.coreRead core (s.core core) (.bytes []) (o.a.toNat + e * 24576) 24576).1 with
  | .fail _ => (.exact, 0)
  | .bytes l => match restoreEntries l with
    | some (v :: _) => (v.form, 1)
    | _ => (.exact, 0)

/-- The form and the most contributions of an engine's entries, when every queued operation before has acted: what is asked at
issue (R56, R74). -/
def State.predictEngine (s : State) (core e : Nat) (q : List CopOp) (start : Form × Nat) : Form × Nat :=
  q.foldl (fun a o =>
    if (ctlEngines o.b).contains e then
      (if o.func = 3 then (ctlForm o.b, 0)
       else if o.func = 6 then s.restForm core e o
       else if o.func = 2 then (a.1, a.2 + ceilDiv (ctl o.b 63 48) 32) else a)
    else a) start

/-- An engine's form and contributions as they stand: every entry has one form, so entry 0 tells it. -/
def Engine.standing (g : Engine) : Form × Nat :=
  let e := Tab.get Entry.zero g.acc 0
  (e.form, e.groups)

/-- Set a list of table entries from a key on. -/
def putList {α : Type} [DecidableEq α] (d : α) : Tab α → Nat → List α → Tab α
  | t, _, [] => t
  | t, k, v :: l => putList d (Tab.put d t k v) (k + 1) l

/-- The ranges an ELDA or ELDB reads for an engine: data by row or column, and scales (R131). lines: 32 rows or 16 columns. -/
def loadRanges (o : CopOp) (e lines : Nat) : List (Nat × Nat) × List (Nat × Nat) :=
  let k := ctl o.b 63 48
  let pitch := ctl o.b 47 32
  let bc := ctl o.b 15 15
  let isA := o.func == 0
  let f := if isA then ctl o.b 31 28 else ctl o.b 27 24
  let mx := if isA then ctl o.b 19 19 == 1 else ctl o.b 18 18 == 1
  let eOff := if bc = 1 then 0 else lines * e
  let n := ceilDiv (bytesElems f k) 32
  ((below lines).map fun l => (o.a.toNat + (eOff + l) * pitch, k),
   if mx then (below lines).map fun l => (o.c.toNat + (eOff + l) * 128, n) else [])

/-- The virtual ranges an operation touches: first byte, bytes, whether it is written (R131 to R133). -/
def copRanges (cop : Nat) (o : CopOp) : List (Nat × Nat × Bool) :=
  let a := o.a.toNat
  let b := o.b.toNat
  let c := o.c.toNat
  match cop, o.func with
  | 0, 0 => (ctlEngines o.b).flatMap fun e => let r := loadRanges o e 32; (r.1 ++ r.2).map fun x => (x.1, x.2, false)
  | 0, 1 => (ctlEngines o.b).flatMap fun e => let r := loadRanges o e 16; (r.1 ++ r.2).map fun x => (x.1, x.2, false)
  | 0, 4 => (ctlEngines o.b).map fun e => (a + e * 512 * (engineBits (ctl o.b 27 24) / 8), 512 * (engineBits (ctl o.b 27 24) / 8), true)
  | 0, 5 => (ctlEngines o.b).map fun e => (a + e * 24576, 24576, true)
  | 0, 6 => (ctlEngines o.b).map fun e => (a + e * 24576, 24576, false)
  | 1, 0x08 => [(a, 4 * natBits c 39 8, false), (b, 4 * natBits c 39 8, true)]
  | 1, 0x10 =>
    let n := natBits c 39 8
    let d := natBits c 3 0
    [(a, 32 * n * (if natBit c 4 then 2 else 4), false), (b, 32 * n * targetBits d / 8 + (if d ≤ 4 then n else 0), true)]
  | 1, 0x11 =>
    let n := natBits c 39 8
    let d := natBits c 3 0
    [(a, 32 * n * targetBits d / 8 + (if d ≤ 4 then n else 0), false), (b, 128 * n, true)]
  | 2, 0x00 => [(a, 4 * b, false)]
  | 2, 0x02 => [(a, 4 * b, false)]
  | 2, 0x03 => [(a, 48, false)]
  | 2, 0x04 => [(a, 48, true)]
  | 3, 0x00 => [(c, b, false), (a, b, true)]
  | 3, 0x01 => [(a, 64, false)]
  | 6, 0x01 => [(a, b, false)]
  | 7, 0x01 => [(a, 16, false)]
  | _, _ => []

/-- The range HFIN writes is as long as the digest of the context that will be open when it acts. -/
def hfinRange (open_ : Option (Nat × List Byte)) (q : List CopOp) (o : CopOp) : List (Nat × Nat × Bool) :=
  let kind := q.foldl (fun k p => if p.func = 0 then some (p.a.toNat % 2) else if p.func = 2 then none else k)
    (open_.map Prod.fst)
  match kind with
  | some 0 => [(o.a.toNat, 32, true)]
  | some _ => [(o.a.toNat, 48, true)]
  | none => []

/-- The reserved values and ranges of a coprocessor 0 control word for an operation (R131). -/
def engineCtlBad (s : State) (core : Nat) (q : List CopOp) (o : CopOp) : Bool :=
  let b := o.b
  let k := ctl b 63 48
  let fa := ctl b 31 28
  let fb := ctl b 27 24
  let mxA := ctl b 19 19 == 1
  let mxB := ctl b 18 18 == 1
  let noMx (f : Nat) : Bool := decide (5 ≤ f)
  ctl b 14 8 != 0 ||
  (match o.func with
   | 0 => decide (fa > 9) || decide (k > elemBytes fa (maxK fa)) || (mxA && noMx fa)
   | 1 => decide (fb > 9) || decide (k > elemBytes fb (2 * maxK fb)) || (mxB && noMx fb)
   | 2 => decide (fa > 9) || decide (fb > 9) || decide (k > maxK fa) || decide (k > 2 * maxK fb) ||
      (mxA && noMx fa) || (mxB && noMx fb) ||
      (ctlEngines b).any fun e =>
        let p := s.predictEngine core e q (s.engine core e).standing
        p.1 != ctlForm b || decide (p.2 + ceilDiv k 32 > 2 ^ 31 - 1)
   | 3 => decide (fa > 9) || decide (fb > 9) ||
      (ctlForm b == .binned && (decide (signed 16 (ctl b 47 32) < -320) || decide (signed 16 (ctl b 47 32) > 320)))
   | 4 => !(List.contains [0, 1, 5, 7, 8, 9] fb) || ctl b 23 22 == 3 ||
      !(fp32.decode (o.c.toNat % 2 ^ 32)).isFin || !(fp32.decode (o.c.toNat / 2 ^ 32)).isFin
   | _ => false)

/-- The control words and operands that raise the bad-control exception at issue (R131 to R133); a dst_format that is no target of R90
is one (log entry 201, DEDUCED). -/
def copBadControl (s : State) (core cop : Nat) (q : List CopOp) (o : CopOp) : Bool :=
  let c := o.c.toNat
  match cop, o.func with
  | 0, 0x3F => false
  | 0, _ => engineCtlBad s core q o
  | 1, 0x08 => natBits c 2 0 ≥ 5 || natBits c 4 3 == 3 || natBits c 7 5 != 0 || natBits c 63 40 != 0
  | 1, 0x10 => natBits c 6 5 == 3 || natBits c 63 40 != 0 || natBits c 3 0 > 9
  | 1, 0x11 => natBits c 6 5 == 3 || natBits c 63 40 != 0 || natBits c 3 0 > 9
  | 2, 0x01 => o.a.toInt < -320 || o.a.toInt > 320
  | 6, 0x00 => o.a != 0 && o.a != 1
  | _, _ => false

/-- Rounding from RMODE as it stood at issue. -/
def CopOp.rnd (o : CopOp) (i : Nat) : Rnd :=
  rndAt (natBits o.rmode.toNat 1 0) (natBit o.rmode.toNat 2) ⟨o.seed.toNat, o.tensor.toNat, o.step.toNat⟩ i

/-- Rounding with a mode and sat bit of the operation's own (R132). -/
def CopOp.rndAs (o : CopOp) (mode : Nat) (sat : Bool) (i : Nat) : Rnd :=
  rndAt mode sat ⟨o.seed.toNat, o.tensor.toNat, o.step.toNat⟩ i

/-- What an operation came to: flags, failure code or 0, the registers it writes. -/
structure CopDone where
  flags : Nat
  code : Nat
  regs : List (Nat × Word)
  deriving DecidableEq, Repr

/-- A failure without effect. -/
def CopDone.failed (c : Nat) : CopDone := ⟨0, c, []⟩

/-- Done without flags. -/
def CopDone.ok : CopDone := ⟨0, 0, []⟩

/-- Read the ranges of a list in turn. -/
def State.coreReads (s : State) (core : Nat) (c : Core) (data : Got) : List (Nat × Nat) → Except Nat (List (List Byte)) × State
  | [] => (.ok [], s)
  | (va, n) :: l =>
    match s.coreRead core c data va n with
    | (.fail x, s) => (.error x, s)
    | (.bytes b, s) =>
      match s.coreReads core c data l with
      | (.ok bs, s) => (.ok (b :: bs), s)
      | (.error x, s) => (.error x, s)

/-- ELDA and ELDB for one engine: row l of buffer A is at 2,048 × l, column l of buffer B at 4,096 × l, each half of it for one half of
the buffer (R73). -/
def State.engineLoad (s : State) (core : Nat) (c : Core) (data : Got) (o : CopOp) (e : Nat) : Nat × State :=
  let isA := o.func == 0
  let lines := if isA then 32 else 16
  let pitch := if isA then 2048 else 4096
  let half := if isA then ctl o.b 17 17 else ctl o.b 16 16
  let r := loadRanges o e lines
  match s.coreReads core c data (r.1 ++ r.2) with
  | (.error x, s) => (x, s)
  | (.ok bs, s) =>
    let put (t : Tab Byte) (step : Nat) (l : List (List Byte)) (base : Nat) : Tab Byte :=
      (l.zip (below lines)).foldl (fun t p => putList 0 t (base + p.2 * step) p.1) t
    let g := s.engine core e
    let d := bs.take lines
    let sc := bs.drop lines
    let g' := if isA then
        { g with bufA := put g.bufA pitch d (half * 1024), sclA := put g.sclA 64 sc (half * 2048) }
      else { g with bufB := put g.bufB pitch d (half * 2048), sclB := put g.sclB 128 sc (half * 2048) }
    (0, s.setEngine core e g')

/-- Element i of a row or column in a buffer, with its scale (R37, R73). -/
def operandAt (buf scl : Tab Byte) (base sclBase f : Nat) (mx : Bool) (i : Nat) : Operand :=
  let bits := engineBits f
  let at_ := bits * i / 8
  let raw := leNat ((below 5).map fun j => Tab.get 0 buf (base + at_ + j)) / 2 ^ (bits * i % 8) % 2 ^ bits
  ⟨engineValue f raw, if mx then (Tab.get 0 scl (sclBase + i / 32)).toNat else 127⟩

/-- The issue groups of a lane and a column over k elements (R72). -/
def groupsOf (b : Word) (g : Engine) (lane col : Nat) : List (List (Operand × Operand)) :=
  let fa := ctl b 31 28
  let fb := ctl b 27 24
  let ha := ctl b 17 17
  let hb := ctl b 16 16
  let pairs := (below (ctl b 63 48)).map fun i =>
    (operandAt g.bufA g.sclA (lane * 2048 + ha * 1024) (ha * 2048 + lane * 64) fa (ctl b 19 19 == 1) i,
     operandAt g.bufB g.sclB (col * 4096 + hb * 2048) (hb * 2048 + col * 128) fb (ctl b 18 18 == 1) i)
  chunks 32 (ctl b 63 48) pairs

/-- ERUN on one engine: the entries, and the flags the groups set. -/
def engineRun (b : Word) (g : Engine) : Engine × Nat :=
  (below 512).foldl (fun a i =>
    let e := Tab.get Entry.zero a.1.acc i
    let e' := (groupsOf b a.1 (i / 16) (i % 16)).foldl Entry.addGroup { e with flags := 0 }
    ({ a.1 with acc := Tab.put Entry.zero a.1.acc i { e' with flags := e'.flags ||| e.flags } }, a.2 ||| e'.flags)) (g, 0)

/-- The entry ECLR sets (R131, R58, R66). -/
def eclrEntry (b : Word) : Entry :=
  match ctlForm b with
  | .exact => Entry.zero
  | .fast => ⟨.fast, 0, 0, 0, 0⟩
  | .binned => ⟨.binned, 0, signed 16 (ctl b 47 32) + 1, 0, 0⟩

/-- The 512 entries of an engine, lane by lane. -/
def Engine.entries (g : Engine) : List Entry := (below 512).map fun i => Tab.get Entry.zero g.acc i

/-- EOUT for one engine: bytes and flags (R57, R63). Under SR the random words are keyed by the SR_ registers, with element index
512e + 16ℓ + j (R48; log entry 190, DEDUCED). -/
def engineOut (o : CopOp) (g : Engine) (e : Nat) : List Byte × Nat :=
  let f := ctl o.b 27 24
  let sa := fp32.decode (o.c.toNat % 2 ^ 32)
  let sb := fp32.decode (o.c.toNat / 2 ^ 32)
  let outs := (g.entries.zip (below 512)).map fun p =>
    let rd := o.rndAs (ctl o.b 23 22) (ctl o.b 21 21 == 1) (512 * e + p.2)
    p.1.output sa sb (outConv f rd) (outConv f { rd with sat := false })
  ((outs.map fun r => bytesLE (engineBits f / 8) r.1).flatten, outs.foldl (fun a r => a ||| r.2) 0)

/-- Apply an operation to each engine of the mask in turn: code and flags. -/
def State.overEngines (s : State) (l : List Nat) (f : State → Nat → Nat × Nat × State) : Nat × Nat × State :=
  l.foldl (fun (a : Nat × Nat × State) e =>
    let r := f a.2.2 e
    (combineCodes [a.1, r.1], a.2.1 ||| r.2.1, r.2.2)) (0, 0, s)

/-- The engine positions that issue the tiles of some positions: each its own; the tiles of positions out of service are dealt in order to
those in service (R106). -/
def State.issuers (s : State) (core : Nat) (es : List Nat) : List Nat :=
  let up (e : Nat) : Bool := s.posInService (engineLevel (core / 7) (core % 7)) e
  let ps := (below 8).filter up
  (es.filter up ++ ((es.filter fun e => !up e).zipIdx.map fun x => dealt ps x.2)).eraseDups

/-- A coprocessor 0 operation (R131); engines that an ERUN finds idle leave idle (R102). ERUN holds the flags its groups set,
EOUT and ESAVE those of the outputs or records they write (R67; log entry 192, DEDUCED). -/
def State.engineOp (s : State) (core : Nat) (c : Core) (data : Got) (o : CopOp) : CopDone × State :=
  let es := ctlEngines o.b
  let pos := s.benchPos (core / 7) (core % 7)
  let s := if o.func = 2 then s.leaveIdle (core / 7) c.slice ((s.issuers core es).map fun e => pos * 8 + e) else s
  let r : Nat × Nat × State := s.overEngines es fun s e =>
    match o.func with
    | 0 => let x := s.engineLoad core c data o e; (x.1, 0, x.2)
    | 1 => let x := s.engineLoad core c data o e; (x.1, 0, x.2)
    | 2 => let x := engineRun o.b (s.engine core e); (0, x.2, s.setEngine core e x.1)
    | 3 =>
      let g := s.engine core e
      (0, 0, s.setEngine core e { g with acc := putList Entry.zero [] 0 (List.replicate 512 (eclrEntry o.b)) })
    | 4 =>
      let x := engineOut o (s.engine core e) e
      let w := s.coreWrite core c data (o.a.toNat + e * x.1.length) x.1
      (w.1.getD 0, x.2, w.2)
    | 5 =>
      let w := s.coreWrite core c data (o.a.toNat + e * 24576) ((s.engine core e).entries.map Entry.record).flatten
      (w.1.getD 0, (s.engine core e).entries.foldl (fun a v => a ||| v.recordFlags) 0, w.2)
    | _ =>
      let g := s.engine core e
      match s.coreRead core c data (o.a.toNat + e * 24576) 24576 with
      | (.fail x, s) => (x, 0, s.setEngine core e { g with acc := [] })
      | (.bytes l, s) =>
        match restoreEntries l with
        | some vs => (0, 0, s.setEngine core e { g with acc := putList Entry.zero [] 0 vs })
        | none => (0x02, 0, s.setEngine core e { g with acc := [] })
  (⟨r.2.1, r.1, []⟩, r.2.2)

/-! ## Coprocessors 1 and 2 (R132) -/

/-- DQNT: FP32 codes and flags of n blocks (R47, R132). A plain source's values are FP32 values, so its conversion is exact and an
infinity stays one, whatever sat (R44). -/
def dequantizeAll (dst n : Nat) (l : List Byte) (rnd : Nat → Rnd) : List (Nat × Nat) :=
  let bits := targetBits dst
  let scales := l.drop (32 * n * bits / 8)
  (below (32 * n)).map fun i =>
    let code := packedElem bits l i
    if dst ≤ 4 then dequantize dst (scales.getD (i / 32) 0).toNat code (rnd i)
    else
      let v : Num := match dst with
        | 5 => e4m3.decode code
        | 6 => e5m2.decode code
        | 7 => bf16.decode code
        | 8 => ofScaled (signed 8 code) 0
        | _ => ofScaled (signed 4 code) 0
      fp32.convert v { rnd i with sat := false }

/-- A coprocessor 1 operation (R132). -/
def State.specialOp (s : State) (core : Nat) (c : Core) (data : Got) (o : CopOp) : CopDone × State :=
  let k := o.c.toNat
  if o.func ≤ 4 then
    let r := special o.func (o.a.toNat % 2 ^ 32) (o.rnd 0)
    (⟨r.2, 0, [(o.rc, BitVec.ofNat 64 r.1)]⟩, s)
  else if o.func = 0x08 then
    let n := natBits k 39 8
    match s.coreRead core c data o.a.toNat (4 * n) with
    | (.fail x, s) => (.failed x, s)
    | (.bytes l, s) =>
      let rs := ((elems 4 n l).zip (below n)).map fun p =>
        special (natBits k 2 0) p.1 (o.rndAs (natBits k 4 3) (natBit o.rmode.toNat 2) p.2)
      let w := s.coreWrite core c data o.b.toNat (rs.map fun r => bytesLE 4 r.1).flatten
      (⟨rs.foldl (fun a r => a ||| r.2) 0, w.1.getD 0, []⟩, w.2)
  else
    let n := natBits k 39 8
    let d := natBits k 3 0
    let rnd := o.rndAs (natBits k 6 5) (natBit k 7)
    if o.func = 0x10 then
      let src := natBits k 4 4
      match s.coreRead core c data o.a.toNat (32 * n * (if src = 1 then 2 else 4)) with
      | (.fail x, s) => (.failed x, s)
      | (.bytes l, s) =>
        let q := quantizeAll src d n l rnd
        let w := s.coreWrite core c data o.b.toNat (q.1 ++ if d ≤ 4 then q.2.1 else [])
        (⟨q.2.2.foldl (· ||| ·) 0, w.1.getD 0, []⟩, w.2)
    else
      match s.coreRead core c data o.a.toNat (32 * n * targetBits d / 8 + (if d ≤ 4 then n else 0)) with
      | (.fail x, s) => (.failed x, s)
      | (.bytes l, s) =>
        let rs := dequantizeAll d n l rnd
        let w := s.coreWrite core c data o.b.toNat (rs.map fun r => bytesLE 4 r.1).flatten
        (⟨rs.foldl (fun a r => a ||| r.2) 0, w.1.getD 0, []⟩, w.2)

/-- Bin set k of the running program. -/
def Core.bin (c : Core) (k : Nat) : Entry := Tab.get Entry.bins c.bins k

/-- Set a bin set. -/
def Core.setBin (c : Core) (k : Nat) (e : Entry) : Core := { c with bins := Tab.put Entry.bins c.bins k e }

/-- A coprocessor 2 operation (R132): what it came to, the core, the state. RADD holds the flags its terms set, RMRG and RSAVE those of
the set they leave or write (R67; log entry 192, DEDUCED). -/
def State.sumOp (s : State) (core : Nat) (c : Core) (data : Got) (o : CopOp) : CopDone × Core × State :=
  match o.func with
  | 0x00 =>
    match s.coreRead core c data o.a.toNat (4 * o.b.toNat) with
    | (.fail x, s) => (.failed x, c, s)
    | (.bytes l, s) =>
      let p := passOne ((elems 4 o.b.toNat l).map fp32.decode)
      (⟨p.2, 0, [(o.rc, BitVec.ofInt 64 p.1)]⟩, c, s)
  | 0x01 => (.ok, c.setBin o.rc (binsAt (o.a.toInt + 1)), s)
  | 0x02 =>
    match s.coreRead core c data o.a.toNat (4 * o.b.toNat) with
    | (.fail x, s) => (.failed x, c, s)
    | (.bytes l, s) =>
      let e := c.bin o.rc
      let e' := ((elems 4 o.b.toNat l).map fp32.decode).foldl Entry.addTerm { e with flags := 0 }
      (⟨e'.flags, 0, []⟩, c.setBin o.rc { e' with flags := e'.flags ||| e.flags }, s)
  | 0x03 =>
    match s.coreRead core c data o.a.toNat 48 with
    | (.fail x, s) => (.failed x, c, s)
    | (.bytes l, s) =>
      match entryOfRecord l with
      | some r =>
        if r.form = .binned then
          let e := (c.bin o.rc).mergeBins r
          (⟨e.flags, 0, []⟩, c.setBin o.rc e, s)
        else (.failed 0x02, c, s)
      | none => (.failed 0x02, c, s)
  | 0x04 =>
    let w := s.coreWrite core c data o.a.toNat (c.bin o.rc).record
    (⟨(c.bin o.rc).recordFlags, w.1.getD 0, []⟩, c, w.2)
  | _ =>
    let r := (c.bin o.rc).binResult (.fin false 1 0) (fp32.convert · (o.rnd 0)) (fp32.convert · { o.rnd 0 with sat := false })
    (⟨r.2, 0, [(o.rc, BitVec.ofNat 64 r.1)]⟩, c, s)

/-! ## Coprocessors 3 to 7 (R132, R133) -/

/-- The cipher pipeline that counts a core's operations: an action core's own, 4 for every other core. -/
def copPipe (core : Nat) : Nat := if isAction core then (core - firstAction) / 16 else 4

/-- What comes with the completion of a hash operation tells that the two halves of its engine disagree (R399) (log entry 255, DESIGN
CHOICE). -/
def hashMismatch (o : CopOp) (data : Got) : Bool := o.func != 0 && data == .fail 0x20

/-- A coprocessor 6 operation (R133): hash context. A mismatch of the engine's halves fails it with 0x0020 (R399). -/
def State.hashOp (s : State) (core : Nat) (c : Core) (data : Got) (o : CopOp) : CopDone × Core × State :=
  if c.hash.isSome ∧ hashMismatch o data then (.failed 0x20, c, s.count 0x0B 1 (copPipe core) 1) else
  match o.func with
  | 0x00 => (.ok, { c with hash := some (o.a.toNat, []) }, s)
  | 0x01 =>
    match c.hash with
    | none => (.failed 0x01, c, s)
    | some (k, acc) =>
      match s.coreRead core c data o.a.toNat o.b.toNat with
      | (.fail x, s) => (.failed x, c, s)
      | (.bytes l, s) => (.ok, { c with hash := some (k, acc ++ l) }, s)
  | _ =>
    match c.hash with
    | none => (.failed 0x01, c, s)
    | some (k, acc) =>
      let w := s.coreWrite core c data o.a.toNat (if k = 0 then sha256 acc else sha384 acc)
      (⟨0, w.1.getD 0, []⟩, { c with hash := none }, w.2)

/-- A 128-bit block of two registers: byte 0 is the low byte of the even one (R133). -/
def pairBlock (lo hi : Word) : List Byte := bytesLE 8 lo.toNat ++ bytesLE 8 hi.toNat

/-- The registers a block result is written to. -/
def blockRegs (rc : Nat) (l : List Byte) : List (Nat × Word) :=
  [(rc, BitVec.ofNat 64 (leNat (l.take 8))), (rc + 1, BitVec.ofNat 64 (leNat (l.drop 8)))]

/-- PHX: the words of Philox4x32-10 (R49, R133). -/
def phxRegs (rc : Nat) (counter : List Byte) (key : Nat) : List (Nat × Word) :=
  let w (i : Nat) := fieldLE counter (4 * i) 4
  let o := philox (w 0, w 1, w 2, w 3) (key % 2 ^ 32, key / 2 ^ 32)
  [(rc, BitVec.ofNat 64 (o.2.1 * 2 ^ 32 + o.1)), (rc + 1, BitVec.ofNat 64 (o.2.2.2 * 2 ^ 32 + o.2.2.1))]

/-- A memory operation that runs asynchronously, as it completes (log entry 39, DESIGN CHOICE). -/
def State.copAct (s : State) (core cop : Nat) (c : Core) (data : Got) (o : CopOp) : CopDone × Core × State :=
  match cop with
  | 0 => let r := s.engineOp core c data o; (r.1, c, r.2)
  | 1 => let r := s.specialOp core c data o; (r.1, c, r.2)
  | 2 => s.sumOp core c data o
  | 3 =>
    match s.coreRead core c data o.c.toNat o.b.toNat with
    | (.fail x, s) => (.failed x, c, s)
    | (.bytes l, s) =>
      let w := s.coreWrite core c data o.a.toNat l
      (⟨0, w.1.getD 0, []⟩, c, w.2)
  | 6 => s.hashOp core c data o
  | _ => (.ok, c, s)

/-- A coprocessor of a core. -/
def Core.cop (c : Core) (k : Nat) : Cop := Tab.get Cop.idle c.cops k

/-- Set a coprocessor of a core. -/
def Core.setCop (c : Core) (k : Nat) (v : Cop) : Core := { c with cops := Tab.put Cop.idle c.cops k v }

/-- Note what an operation came to for the next WAIT (R130, R35). -/
def Core.note (c : Core) (cop : Nat) (d : CopDone) : Core :=
  let x := c.cop cop
  c.setCop cop { x with flags := x.flags ||| d.flags, code := combineCodes [x.code, d.code] }

/-- An engine that an operation of coprocessor 0 names is powering up or substituting a lane, and issues nothing (R105). -/
def State.engineEntering (s : State) (core cop : Nat) (o : CopOp) : Bool :=
  cop == 0 && (ctlEngines o.b).any fun e => (Tab.find? s.bench.entering (s.engKey core e)).isSome

/-- The oldest outstanding operation of a coprocessor completes (R129); one whose engine is not in service yet waits (R105). -/
def State.copComplete (s : State) (core cop : Nat) (c : Core) (data : Got) : Core × State :=
  match (c.cop cop).queue with
  | [] => (c, s)
  | o :: q =>
    if s.engineEntering core cop o then (c, s) else
    let c := c.setCop cop { c.cop cop with queue := q }
    let r := s.copAct core cop c data o
    (r.2.1.note cop r.1, r.2.2)

/-- Every outstanding operation of a coprocessor completes: before a synchronous one, which follows them in order (R129). -/
def State.copDrain (s : State) (core cop : Nat) (c : Core) (data : Got) : Nat → Core × State
  | 0 => (c, s)
  | n + 1 => let r := s.copComplete core cop c data; r.2.copDrain core cop r.1 data n

/-- An operation writes a register, so it is over before the next bundle (R129). -/
def copSync (cop func : Nat) : Bool :=
  match cop with
  | 1 => decide (func ≤ 4)
  | 2 => func == 0 || func == 5
  | 4 => true
  | 5 => true
  | 7 => true
  | _ => false

end Sys2Proof.Machine
end

