-- ==== Sys2Proof/Machine/Zenza.lean ====
section
/-! DEFINITION. A bundle of the Zenza instruction set as one step: what each syllable asks for, exceptions, the end of a bundle
(R115 to R140). -/

namespace Sys2Proof.Machine

/-! ## Exceptions (R135) -/

/-- A synchronous exception: its cause, the unit that raises it, TVAL, and the status an instance ends with. -/
structure Exc where
  cause : Nat
  unit : Nat
  tval : Word
  status : Nat
  deriving DecidableEq, Repr

/-- The rank of a cause (the table under R135). -/
def causeRank (c : Nat) : Nat :=
  match c with
  | 0x0D => 7
  | 0x07 => 8
  | 0x08 => 9
  | 0x09 => 10
  | 0x0A => 11
  | 0x0B => 12
  | 0x0C => 13
  | n => n

/-- The exception a bundle takes: the highest-ranked, of the earliest unit. -/
def pickExc : List Exc → Option Exc
  | [] => none
  | e :: l =>
    match pickExc l with
    | none => some e
    | some f =>
      if causeRank f.cause < causeRank e.cause ∨ (causeRank f.cause = causeRank e.cause ∧ f.unit < e.unit) then some f
      else some e

/-- The cause of a failed access with a status. -/
def accessCause (status : Nat) : Nat := if status = 0x08 then 0x08 else if status = 0x10 then 0x09 else 0x0A

/-- The status a kernel instance ends with (the table under R138), for causes that fix it. -/
def causeStatus (cause : Nat) : Nat :=
  match cause with
  | 0x01 => 0x15
  | 0x02 => 0x08
  | 0x08 => 0x08
  | 0x03 => 0x10
  | 0x09 => 0x10
  | 0x0A => 0x11
  | 0x10 => 0x12
  | 0x11 => 0x14
  | _ => 0x02

/-! ## What the syllables of a bundle ask for -/

/-- What a syllable asks to take effect at the end of its bundle (R116). -/
inductive Eff where
  | reg (r : Nat) (v : Word)
  | pred (k : Nat) (v : Bool)
  | jump (target : Word)
  | csr (n : Nat) (v : Word)
  | store (va : Word) (data : List Byte)
  | hwStore (a : Nat) (data : List Byte)
  | field (k : Nat) (v : Word)
  | exit (value : Nat)
  | eret
  | bar (scope : BarScope) (n op rd : Nat)
  | gathered (cop flags : Nat)
  | issue (cop : Nat) (op : CopOp)
  /-- A synchronous operation with the blocks its register pairs hold. -/
  | sync (cop : Nat) (word : Nat) (op : CopOp) (x y : List Byte)
  | post (channel : Nat) (desc : List Byte)
  | exc (e : Exc)
  /-- The bundle stalls and nothing takes effect. -/
  | hold
  deriving DecidableEq, Repr

/-- An exception of a syllable with its own word in TVAL. -/
def excOf (u : Unit_) (cause w : Nat) : Eff := .exc ⟨cause, u.rank, BitVec.ofNat 64 w, causeStatus cause⟩

/-- An exception of an access, with its address in TVAL. -/
def excAt (u : Unit_) (cause : Nat) (va : Word) : Eff := .exc ⟨cause, u.rank, va, causeStatus cause⟩

/-- The core runs at level P (STATUS bit 0). -/
def Core.isP (c : Core) : Bool := natBit c.status.toNat 0

/-- An integer syllable (R120, R121). -/
def intEffects (c : Core) (p : Placed) : List Eff :=
  let w := p.word
  let rd := natBits w 21 17
  let ra := c.reg (natBits w 16 12)
  let rb := c.reg (natBits w 11 7)
  let compare (a b : Word) (cond : Nat) : List Eff :=
    let v := condOf cond a b
    .pred (natBits w 21 19) v :: (if natBits w 18 16 = 0 then [] else [.pred (natBits w 18 16) (!v)])
  match syMajor w with
  | 0x00 => [.reg rd (intOp (natBits w 6 0) ra rb)]
  | 0x01 => [.reg rd (ra + p.imm 12)]
  | 0x02 => [.reg rd (ra &&& p.imm 12)]
  | 0x03 => [.reg rd (ra ||| p.imm 12)]
  | 0x04 => [.reg rd (ra ^^^ p.imm 12)]
  | 0x05 => [.reg rd (shift64 (natBits w 11 10) ra (natBits w 5 0))]
  | 0x06 => [.reg rd (p.imm 17)]
  | 0x07 => [.reg rd (BitVec.ofNat 64 (natBits w 16 0 * 2 ^ 47 + (c.reg rd).toNat % 2 ^ 47))]
  | 0x08 => compare (c.reg (natBits w 15 11)) (c.reg (natBits w 10 6)) (natBits w 5 3)
  | 0x09 => compare (c.reg (natBits w 15 11)) (p.imm 8) (natBits w 10 8)
  | 0x0A => [.reg rd (if c.pred (natBits w 6 4) then ra else rb)]
  | 0x0B =>
    let op := natBits w 12 10
    [.pred (natBits w 21 19)
      (if op = 4 then c.reg (natBits w 9 5) != 0 else predOp op (c.pred (natBits w 18 16)) (c.pred (natBits w 15 13)))]
  | _ => [.reg rd (divOp (natBits w 6 0) ra rb)]

/-- The operation of an atomic on the old value (R125). -/
def atomicOp (f : Nat) (old b d : Word) : Word :=
  match f with
  | 1 => b
  | 2 => old + b
  | 3 => old &&& b
  | 4 => old ||| b
  | 5 => if old.ult b then b else old
  | _ => if old = d then b else old

/-- A FENCE whose pred names C and whose succ names anything stalls its bundle until the coprocessor operations this core issued are
performed (R125, R141); loads, stores and fetches are performed in order in any case. -/
def fenceEffects (c : Core) (w : Nat) : List Eff :=
  if natBit w 3 ∧ natBits w 2 0 ≠ 0 ∧ c.cops.any (fun e => !e.2.queue.isEmpty) then [.hold] else []

/-- A load, store, fence or atomic (R122, R125): its effects, and the state with what its read left recorded. -/
def State.memEffects (s : State) (core : Nat) (c : Core) (feed : Feed) (p : Placed) : List Eff × State :=
  let w := p.word
  let m := syMajor w
  if m = 0x1E then
    let f := syFunc w
    if f = 0 then (fenceEffects c w, s)
    else
      let va := c.reg (natBits w 12 8)
      let rd := natBits w 17 13
      if va.toNat % 8 ≠ 0 then ([excAt p.unit 0x07 va], s)
      else
        match s.coreCheck core c va.toNat 8 true with
        | (some _, s) => ([excAt p.unit 0x08 va], s)
        | (none, s) =>
          match s.coreRead core c feed.data va.toNat 8 with
          | (.fail x, s) => ([excAt p.unit (accessCause x) va], s)
          | (.bytes l, s) =>
            let old := BitVec.ofNat 64 (leNat l)
            ([.store va (bytesLE 8 (atomicOp f old (c.reg (natBits w 7 3)) (c.reg rd)).toNat), .reg rd old], s)
  else
    let rd := natBits w 21 17
    let va := c.reg (natBits w 16 12) + p.imm 12
    let n := 2 ^ (m % 4)
    if va.toNat % n ≠ 0 then ([excAt p.unit 0x07 va], s)
    else if m < 0x14 then
      match s.coreRead core c feed.data va.toNat n with
      | (.fail x, s) => ([excAt p.unit (accessCause x) va], s)
      | (.bytes l, s) => ([.reg rd (BitVec.ofNat 64 (leNat l))], s)
    else
      match s.coreCheck core c va.toNat n true with
      | (some _, s) => ([excAt p.unit 0x08 va], s)
      | (none, s) => ([.store va (bytesLE n (c.reg rd).toNat)], s)

/-- The operand of a memory-operand form: where it lies (R127). -/
inductive AccOperand where
  | hw (a : Nat)
  | alm (a : Nat)
  | imm (v : Word)
  | field (k : Nat)
  | bad
  deriving DecidableEq, Repr

/-- The operand of a memory-operand form. -/
def accOperand (c : Core) (p : Placed) (n : Nat) : AccOperand :=
  let mode := natBits p.word 19 17
  let d := p.imm 17
  let inHw (a : Word) : AccOperand := if a.toNat + n ≤ 1024 then .hw a.toNat else .bad
  let inAlm (a : Word) : AccOperand := if a.toNat + n ≤ 65536 then .alm a.toNat else .bad
  match mode with
  | 0 => inHw d
  | 1 => inHw (c.reg 2 + d)
  | 2 => inHw (c.reg 3 + d)
  | 3 => inAlm d
  | 4 => inAlm (c.reg 2 + d)
  | 5 => inAlm (c.reg 3 + d)
  | 6 => .imm (BitVec.ofNat 64 (extValue 17 (natBits p.word 16 0) p.ext).1)
  | _ => if d.toNat ≤ 31 then .field d.toNat else .bad

/-- A memory-operand form (R127, R128). -/
def State.accEffects (s : State) (c : Core) (p : Placed) : List Eff :=
  let w := p.word
  let n := 2 ^ natBits w 21 20
  let a := c.reg 1
  let o := accOperand c p n
  let denied := [excOf p.unit 0x08 w]
  if syMajor w = 0x21 then
    match o with
    | .hw x => [.hwStore x (bytesBE n a.toNat)]
    | .field k =>
      if fieldReadOnly k then denied
      else
        let old := (Tab.get 0 c.fields k).toNat
        [.field k (BitVec.ofNat 64 (old / 2 ^ (8 * n) * 2 ^ (8 * n) + a.toNat % 2 ^ (8 * n)))]
    | _ => denied
  else
    let v : Option Word := match o with
      | .hw x => some (BitVec.ofNat 64 (beNat ((below n).map fun i => c.hwByte (x + i))))
      | .alm x => some (BitVec.ofNat 64 (beNat ((below n).map fun i => s.almByte c (x + i))))
      | .imm v => some (BitVec.ofNat 64 (v.toNat % 2 ^ (8 * n)))
      | .field k => some (BitVec.ofNat 64 ((if k = 31 then 0 else (Tab.get 0 c.fields k).toNat) % 2 ^ (8 * n)))
      | .bad => none
    match v with
    | none => denied
    | some v =>
      match syMajor w with
      | 0x20 => [.reg 1 v]
      | 0x22 => [.reg 1 (a + v)]
      | 0x23 => [.reg 1 (a - v)]
      | 0x24 => [.reg 1 (a &&& v)]
      | 0x25 => [.reg 1 (a ||| v)]
      | 0x26 => [.reg 1 (a ^^^ v)]
      | 0x27 => [.pred 1 (a == v), .pred 2 (a.ult v)]
      | 0x28 => [.reg 2 v]
      | 0x29 => [.reg 3 v]
      | _ =>
        let t := a.toNat % 65536 + v.toNat
        [.reg 1 (BitVec.ofNat 64 (t % 65536 + t / 65536))]

/-- The cycles a core's clock has made: of a 1.6 GHz core those of the timebase's clock, of a 1.2 GHz core three for four, of a 2.4 GHz core
three for two (R111, R134) (log entry 12, DESIGN CHOICE). -/
def State.cycle (s : State) (core : Nat) : Word :=
  let n := s.clock.cycles.toNat
  if core < 84 ∨ isAction core then s.clock.cycles
  else BitVec.ofNat 64 (if core < 99 then n * 3 / 4 else n * 3 / 2)

/-- A CSR as software reads it (R134). -/
def State.csrRead (s : State) (core : Nat) (c : Core) (n : Nat) : Word × State :=
  match n with
  | 0x000 => (s.cycle core, s)
  | 0x001 => (s.now, s)
  | 0x002 => (c.retired, s)
  | 0x008 => (c.flags, s)
  | 0x009 => (c.rmode, s)
  | 0x00A => (c.srSeed, s)
  | 0x00B => (c.srTensor, s)
  | 0x00C => (c.srStep, s)
  | 0x010 => (c.position, s)
  | 0x100 => (c.status, s)
  | 0x101 => (c.tvec, s)
  | 0x102 => (c.epc, s)
  | 0x103 => (c.cause, s)
  | 0x104 => (c.tval, s)
  | 0x105 => (c.ienable, s)
  | 0x106 => (c.ipend, s)
  | 0x107 => (c.scratch0, s)
  | _ => (0, s)

/-- Write a CSR; a read-only one ignores it, reserved bits stay 0 (R134) (log entry 224, DEDUCED). -/
def Core.csrWrite (c : Core) (n : Nat) (v : Word) : Core :=
  match n with
  | 0x008 => { c with flags := v &&& 0xFFFF }
  | 0x009 => { c with rmode := v &&& 7 }
  | 0x00A => { c with srSeed := v }
  | 0x00B => { c with srTensor := v &&& 0xFFFFFFFF }
  | 0x00C => { c with srStep := v }
  | 0x100 => { c with status := v &&& 0xF }
  | 0x101 => { c with tvec := v &&& ~~~ 3 }
  | 0x102 => { c with epc := v }
  | 0x103 => { c with cause := v &&& 0xFF }
  | 0x104 => { c with tval := v }
  | 0x105 => { c with ienable := v }
  | 0x107 => { c with scratch0 := v }
  | _ => c

/-- The barrier a BAR names on a core, if the core has it (R124) (log entry 219, DEDUCED). -/
def barScopeOf (core scope : Nat) : Option BarScope :=
  match scope with
  | 1 => if isBenchCore core then some (.bench (core / 7) (core % 7)) else none
  | 2 => if isBenchCore core then some (.stack (core / 7)) else if 84 ≤ core ∧ core < 96 then some (.stack (core - 84)) else none
  | 3 => some .device
  | _ => none

/-- A branch or system syllable (R123, R124). len: the bundle's bytes. -/
def State.branchEffects (s : State) (core : Nat) (c : Core) (p : Placed) (len : Nat) : List Eff × State :=
  let w := p.word
  let link : Eff := .reg 31 (c.pc + BitVec.ofNat 64 len)
  match syMajor w with
  | 0x18 => ([.jump (c.pc + p.imm 22 * 4)], s)
  | 0x19 => ([link, .jump (c.pc + p.imm 22 * 4)], s)
  | 0x1A =>
    let t := c.reg (natBits w 18 14) &&& ~~~ 3
    (if natBits w 21 19 = 1 then [link, .jump t] else [.jump t], s)
  | 0x1B =>
    let rd := natBits w 21 17
    let v := if rd = 0 then 0 else c.reg rd - 1
    (.reg rd v :: (if v = 0 then [] else [.jump (c.pc + p.imm 17 * 4)]), s)
  | _ =>
    let reg := natBits w 17 13
    let arg := natBits w 11 0
    match syFunc w with
    | 3 => ([.exit ((c.reg reg).toNat % 2 ^ 32)], s)
    | 4 => ([excOf p.unit 0x0C w], s)
    | 5 => (if c.isP then [.eret] else [excOf p.unit 0x05 w], s)
    | 6 => (if ¬ c.isP then [excOf p.unit 0x05 w] else if (c.ienable &&& c.ipend) = 0 then [.hold] else [], s)
    | 7 =>
      match barScopeOf core (natBits arg 11 10) with
      | none => ([excOf p.unit 0x08 w], s)
      | some sc =>
        if s.barSlice sc (natBits arg 3 0) = c.actsFor then ([.bar sc (natBits arg 3 0) (natBits arg 9 8) reg], s)
        else ([excOf p.unit 0x08 w], s.blockedName 0x0E (core / 7) c.actsFor)
    | f =>
      if arg ≥ 0x100 ∧ ¬ c.isP then ([excOf p.unit 0x05 w], s)
      else
        let r := s.csrRead core c arg
        let v := c.reg reg
        match f with
        | 0 => ([.reg reg r.1], r.2)
        | 1 =>
          if arg = 0x009 ∧ (natBits v.toNat 1 0 = 3 ∨ v.toNat ≥ 8) then ([excOf p.unit 0x0D w], s)
          else ([.csr arg v], s)
        | _ => ([.reg reg r.1, .csr arg 0], r.2)

/-- The check of every range of an operation at issue: the first address refused. -/
def State.checkRanges (s : State) (core : Nat) (c : Core) : List (Nat × Nat × Bool) → Option Nat × State
  | [] => (none, s)
  | (va, n, wr) :: l =>
    match s.coreCheck core c va n wr with
    | (some _, s) => (some va, s)
    | (none, s) => s.checkRanges core c l

/-- A coprocessor syllable (R129 to R133) (log entry 222, DEDUCED) (log entry 225, DEDUCED). -/
def State.copEffects (s : State) (core : Nat) (c : Core) (feed : Feed) (p : Placed) : List Eff × State :=
  let w := p.word
  let cop := syCop w
  if ¬ hasCop core cop then ([excOf p.unit 0x06 w], s)
  else
    let f := coFunc w
    let x := c.cop cop
    let lit := cop = 2 ∧ f ≠ 0
    let x1 := pairBlock (c.reg (coRa w)) (c.reg (coRa w + 1))
    let x2 := pairBlock (c.reg (coRb w)) (c.reg (coRb w + 1))
    let o : CopOp :=
      ⟨f, coRc w, c.reg (coRa w), c.reg (coRb w), if lit then 0 else c.reg (coRc w), c.rmode, c.srSeed, c.srTensor, c.srStep⟩
    if f = 0x3F then
      if ¬ x.queue.isEmpty then ([.hold], s)
      else if x.code ≠ 0 then
        ([.exc ⟨0x0B, p.unit.rank, BitVec.ofNat 64 w, x.code⟩], s)
      else ([.reg (coRc w) (BitVec.ofNat 64 x.flags), .gathered cop x.flags], s)
    else if cop = 3 ∧ f = 1 ∧ ¬ c.isP then ([excOf p.unit 0x05 w], s)
    else if copBadControl s core cop x.queue o then ([excOf p.unit 0x0D w], s)
    else if cop = 0 ∧ f = 3 ∧ ctlForm o.b = .fast ∧ ¬ (s.policyOf c.actsFor).fastOk then
      ([.exc ⟨0x0B, p.unit.rank, BitVec.ofNat 64 w, 0x03⟩], s)
    else
      let ranges := if cop = 6 ∧ f = 2 then hfinRange c.hash x.queue o else copRanges cop o
      match s.checkRanges core c ranges with
      | (some va, s) => ([excAt p.unit 0x08 (BitVec.ofNat 64 va)], s)
      | (none, s) =>
        if cop = 4 then
          let slice := if core = 96 then none else some c.actsFor
          let refusal := s.slotRefusal (o.b.toNat % 65536) slice (isAction core) (f == 0)
          if o.b.toNat ≥ 65536 then ([.exc ⟨0x0B, p.unit.rank, BitVec.ofNat 64 w, 0x02⟩], s)
          else if refusal ≠ 0 then ([.exc ⟨0x0B, p.unit.rank, BitVec.ofNat 64 w, refusal⟩], s)
          else if isAction core ∧ (s.cachedKey ((core - firstAction) / 16) (o.b.toNat)).isNone then
            ([.hold], s.wantKey ((core - firstAction) / 16) o.b.toNat)
          else ([.sync cop w o x1 x2], s)
        else if cop = 3 ∧ f = 1 then
          match s.coreRead core c feed.data o.a.toNat 64 with
          | (.bytes l, s) => ([.post o.b.toNat l], s)
          | (.fail x, s) => ([.sync cop w { o with c := BitVec.ofNat 64 x } x1 x2], s)
        else if copSync cop f then ([.sync cop w o x1 x2], s)
        else if x.queue.length ≥ 16 then ([.hold], s)
        else ([.issue cop o], s)

/-- The effects of every syllable that runs, from the state before the bundle (R116, R117). -/
def State.bundleEffects (s : State) (core : Nat) (c : Core) (feed : Feed) (len : Nat) : List Placed → List Eff × State
  | [] => ([], s)
  | p :: ps =>
    let r : List Eff × State :=
      if ¬ c.pred (syPred p.word) then ([], s)
      else match majorKind (syMajor p.word) with
        | .integer => (intEffects c p, s)
        | .memform => (s.accEffects c p, s)
        | .memory => s.memEffects core c feed p
        | .branch => s.branchEffects core c p len
        | .coprocessor => s.copEffects core c feed p
        | _ => ([], s)
    let t := r.2.bundleEffects core c feed len ps
    (r.1 ++ t.1, t.2)

/-! ## The end of a bundle -/

/-- A synchronous coprocessor operation (R129, R132, R133): it follows what is outstanding; a failure leaves its destination
unchanged and waits for the next WAIT. -/
def State.copSyncOp (s : State) (core cop w : Nat) (c : Core) (feed : Feed) (o : CopOp) (x1 x2 : List Byte) : Core × State :=
  let r := s.copDrain core cop c feed.data (c.cop cop).queue.length
  let c := r.1
  let s := r.2
  let pipe := copPipe core
  let x : CopDone × Core × State := match cop with
    | 1 => let r := s.specialOp core c feed.data o; (r.1, c, r.2)
    | 2 =>
      let r := s.sumOp core c feed.data o
      ({ r.1 with regs := r.1.regs.map fun e => (if o.func = 5 then coRa w else e.1, e.2) }, r.2.1, r.2.2)
    | 3 => (.failed o.c.toNat, c, s)
    | 4 =>
      let k := s.slot o.b.toNat
      let unwrapped := if isAction core then (s.cachedKey pipe o.b.toNat).getD 0 else s.unwrapCode o.b.toNat
      let m := s.blockMismatch pipe feed.mismatch
      let s := m.2.count 0x0B 0 (bit k.inverse) 1
      if unwrapped ≠ 0 then (.failed unwrapped, c, s)
      else if m.1 ≠ 0 ∨ ¬ s.rngOk then (.failed 0x20, c, s)
      else
        let out := if o.func = 0 then aesEnc k.key x1 else aesDec k.key x1
        (⟨0, 0, blockRegs o.rc out⟩, c, s)
    | 5 =>
      let out := gfMul128 x1 x2
      (⟨0, 0, blockRegs o.rc out⟩, c, s)
    | _ =>
      if o.func = 0 then
        if s.rngOk then
          let d := s.draw
          (⟨0, 0, [(o.rc, d.1)]⟩, c, d.2)
        else (.failed 0x20, c, s)
      else
        match s.coreRead core c feed.data o.a.toNat 16 with
        | (.fail e, s) => (.failed e, c, s)
        | (.bytes l, s) => (⟨0, 0, phxRegs o.rc l o.b.toNat⟩, c, s)
  let c := x.2.1.note cop x.1
  ((x.1.regs).foldl (fun c e => c.setReg e.1 e.2) c, x.2.2)

/-- A store reaches memory; one that is not performed is held for the next bundle boundary (R136, R139, R165)
(log entry 38, DESIGN CHOICE). -/
def State.coreStore (s : State) (core : Nat) (c : Core) (data : Got) (va : Word) (l : List Byte) : Core × State :=
  match s.coreWrite core c data va.toNat l with
  | (none, s) => (c, s)
  | (some x, s) => ({ c with fails := c.fails ++ [(va, x != 0x10)] }, s)

/-- BAR (R124): the generation is recorded before the arrival; at a broken barrier the register takes 0x0015 at once. -/
def State.barOp (s : State) (c : Core) (sc : BarScope) (n op rd : Nat) : Core × State :=
  let w := s.barrier sc n
  let broken := getBits w barBroken = 1
  let s := if natBit op 0 then s.arrive sc n false else s
  if broken then (c.setReg rd 0x15, s)
  else if natBit op 1 then ({ c with stall := .bar sc n rd }, s)
  else (c.setReg rd 0, s)

/-- One effect, at the end of the bundle (log entry 220, DEDUCED). -/
def State.effect (s : State) (core : Nat) (c : Core) (feed : Feed) : Eff → Core × State
  | .reg r v => (c.setReg r v, s)
  | .pred k v => (c.setPred k v, s)
  | .jump t => ({ c with pc := t }, s)
  | .csr n v => (c.csrWrite n v, s)
  | .store va l => s.coreStore core c feed.data va l
  | .hwStore a l => (Core.setHwBytes c a l, s)
  | .field k v => ({ c with fields := Tab.put 0 c.fields k v }, s)
  | .exit v => ({ c with stall := .exiting v }, s)
  | .eret =>
    let prior := c.status.toNat / 2 % 2
    ({ c with status := setBits (setBits c.status (0, 0) prior) (2, 2) 0, pc := c.epc }, s)
  | .bar sc n op rd => s.barOp c sc n op rd
  | .gathered cop fl =>
    ({ c.setCop cop Cop.idle with flags := c.flags ||| BitVec.ofNat 64 fl }, s)
  | .issue cop o => (c.setCop cop { c.cop cop with queue := (c.cop cop).queue ++ [o] }, s)
  | .sync cop w o x y => s.copSyncOp core cop w c feed o x y
  | _ => (c, s)

/-- All effects in the order of the units. -/
def State.effects (s : State) (core : Nat) (c : Core) (feed : Feed) : List Eff → Core × State
  | [] => (c, s)
  | e :: l => let r := s.effect core c feed e; r.2.effects core r.1 feed l

/-! ## Taking an exception, ending a program -/

/-- What a step of a core comes to for the rest of the device. -/
inductive CoreEvent where
  /-- An action program ended with a verdict word. -/
  | verdict (v : Nat)
  /-- An action program took an exception (R140). -/
  | actionExc (cause : Nat)
  /-- The core halted: an exception in a handler (R137). -/
  | halted
  /-- POST: a descriptor for a DMA channel (R132). -/
  | post (channel : Nat) (desc : List Byte)
  deriving DecidableEq, Repr

/-- An exception at P (R137): the saved registers, the level, the handler; in a handler the core halts. -/
def Core.trap (c : Core) (cause : Nat) (tval : Word) : Core :=
  let level := c.status.toNat % 2
  { c with epc := c.pc, cause := BitVec.ofNat 64 cause, tval := tval,
           status := setBits (setBits (setBits c.status (1, 1) level) (0, 0) 1) (2, 2) 1, pc := c.tvec }

/-- A kernel instance faults: a partner's violation, counted and recorded (R25); a TRAP is the kernel's own end. -/
def State.kernelFaulted (s : State) (core : Nat) (c : Core) (cause : Nat) : State :=
  if cause = 0x0C then s
  else
    (s.count 0x0E 63 c.slice 1).record { source := 0x0E, inst := core / 7, code := 0x0003, slice := c.slice, severity := 5,
                                         detail := dAt 20 c.pc.toNat + dAt 28 c.slice }

/-- A core takes an exception with the status a kernel instance ends with and the low 24 bits of a TRAP's exit value
(R137, R138, R140). -/
def State.takeExc (s : State) (core : Nat) (c : Core) (e : Exc) (code : Option Nat) : List CoreEvent × State :=
  match c.role with
  | .kernel _ _ =>
    let exit := match code with
      | some t => e.cause * 2 ^ 24 + t
      | none => exitValue e.cause c
    ([], ((s.kernelFaulted core c e.cause).setCore core c).endInstance core e.status exit c.flags.toNat)
  | .action _ => ([.actionExc e.cause], s.setCore core c)
  | _ =>
    let c := { c with stall := .none }
    if natBit c.status.toNat 2 then ([.halted], s.setCore core { c with halted := true })
    else ([], s.setCore core (c.trap e.cause e.tval))

/-- A machine check (R135), cause 0x01: a kernel's is handled as a fault of its bench (R105, R107, R138); TVAL is a value the spec does not
state. -/
def State.machineCheck (s : State) (core : Nat) (c : Core) : List CoreEvent × State :=
  match c.role with
  | .kernel _ _ => ([], (s.kernelFaulted core c 0x01).benchFaulted (core / 7) (core % 7))
  | _ => let u := s.unstated; u.2.takeExc core c ⟨0x01, 0, u.1, 0x15⟩ none

/-- A core whose EXIT found a failed operation stands at the bundle of the EXIT again; the header-window stores of that bundle do not take
effect (R138 to R140) (log entry 198, DEDUCED). -/
def Core.atExit (c : Core) : Core := { c with stall := .none, pc := c.here, hw := if c.kept.isEmpty then c.hw else c.kept }

/-- An EXIT whose bundle has taken effect (R139): it waits for outstanding coprocessor operations and stores, gathers their
flags, and ends the program, with cause 0x0B where one of the operations failed. -/
def State.tryExit (s : State) (core : Nat) (c : Core) (v : Nat) : List CoreEvent × State :=
  if c.cops.any (fun e => !e.2.queue.isEmpty) ∨ ¬ c.fails.isEmpty then ([], s.setCore core c)
  else
    let fl := c.cops.foldl (fun a e => a ||| e.2.flags) 0
    let code := combineCodes (c.cops.map fun e => e.2.code)
    let c := { c with flags := c.flags ||| BitVec.ofNat 64 fl, cops := [] }
    if code ≠ 0 then s.takeExc core c.atExit ⟨0x0B, 4, 0, code⟩ none
    else match c.role with
      | .kernel _ _ => ([], (s.setCore core c).endInstance core 0 v c.flags.toNat)
      | .action _ => ([.verdict v], s.setCore core c)
      | _ => ([], s.setCore core { c with role := .free, stall := .none })

/-- An interrupt can be taken: at P, enabled, no handler running, a pending line enabled (R136). -/
def Core.interruptDue (c : Core) : Bool :=
  c.isP && natBit c.status.toNat 3 && !natBit c.status.toNat 2 && (c.ienable &&& c.ipend) != 0

/-- The lowest pending and enabled interrupt line. -/
def Core.dueLine (c : Core) : Nat := ctz64 (c.ienable &&& c.ipend)

/-- Take an interrupt between bundles (R136, R137): EPC names the next bundle; the line is no longer pending (log entry 13, DEDUCED);
TVAL is a value the spec does not state. -/
def State.takeInterrupt (s : State) (core : Nat) (c : Core) : State :=
  let u := s.unstated
  let c := { c with ipend := c.ipend &&& ~~~ ((1 : Word) <<< c.dueLine) }
  u.2.setCore core (c.trap 0x12 u.1)

/-- What a failed fetch leaves recorded. -/
def State.fetchFault (s : State) (core : Nat) (c : Core) (va : Word) : State :=
  match c.role with
  | .kernel _ _ =>
    match winSpans (s.windows (core / 7) c.winSet) (fun w => w.x) 1 va.toNat 4 with
    | some ((pa, _) :: _) => (s.memRead 0x0E (core / 7) 1 c.slice pa 4).2
    | _ => s.blockedVa core c.slice va.toNat
  | _ => s

/-- The bundle whose effects, all of a legal bundle's syllables, are l: a stalled one has none yet; else they take place together, and an
EXIT acts after them (R116, R129, R130). -/
def State.endBundle (s : State) (core : Nat) (c : Core) (feed : Feed) (len : Nat) (l : List Eff) : List CoreEvent × State :=
  if l.contains .hold then ([], s.setCore core { c with stall := .held })
  else
    let c' := { c with pc := c.pc + BitVec.ofNat 64 len, retired := c.retired + 1, bundles := c.bundles + 1, here := c.pc,
                       stall := .none }
    let posts := l.filterMap fun e => match e with
      | .post ch d => some (CoreEvent.post ch d)
      | _ => none
    let r := s.effects core c' feed l
    match r.1.stall with
    | .exiting v =>
      let t := r.2.tryExit core { r.1 with kept := c.hw } v
      (posts ++ t.1, t.2)
    | _ => (posts, r.2.setCore core r.1)

/-- Execute the bundle at the program counter (R115, R116). A TRAP beside a stalled syllable waits, since the exception of a WAIT ranks
above it (R135). A WAIT that raises 0x0B has gathered its coprocessor's flags and failure code, which are gone with it and reach FLAGS
neither; the code it carries is a kernel's status, and no CSR shows it at P (R130, R138) (log entry 202, DEDUCED). -/
def State.runBundle (s : State) (core : Nat) (c : Core) (feed : Feed) : List CoreEvent × State :=
  match s.fetchFrom core c feed.code 7 0 with
  | .error (cause, status, va) => (s.fetchFault core c va).takeExc core c ⟨cause, 0, va, status⟩ none
  | .ok ws =>
    match decodeBundle core ws with
    | .error w => s.takeExc core c ⟨0x04, 0, BitVec.ofNat 64 w, 0x02⟩ none
    | .ok ps =>
      let r := s.bundleEffects core c feed (4 * ws.length) ps
      let excs := r.1.filterMap fun e => match e with
        | .exc x => some x
        | _ => none
      match pickExc excs with
      | some e =>
        if e.cause = 0x0C ∧ r.1.contains .hold then r.2.endBundle core c feed (4 * ws.length) r.1
        else
          let code := if e.cause = 0x0C then some (natBits e.tval.toNat 11 0) else none
          let c := if e.cause = 0x0B then
              (match ps.find? fun p => p.unit == .c && coFunc p.word == 0x3F with
               | some p => c.setCop (syCop p.word) Cop.idle
               | none => c)
            else c
          r.2.takeExc core c e code
      | none => r.2.endBundle core c feed (4 * ws.length) r.1

/-- The oldest failed store is taken (R136): cause 0x09 for one not performed under R165, 0x0A for a bus error; TVAL the address. -/
def State.takeStoreFailure (s : State) (core : Nat) (c : Core) : List CoreEvent × State :=
  match c.fails with
  | [] => ([], s.setCore core { c with due := false })
  | (va, bus) :: rest =>
    let e : Exc := if bus then ⟨0x0A, 0, va, 0x11⟩ else ⟨0x09, 0, va, 0x10⟩
    s.takeExc core { c with fails := rest, stall := .none, due := false } e none

/-- One step of a core: what waits, a store failure that became known during a stall, an interrupt due, or the next bundle; a stalled bundle is tried again before an interrupt is taken
(R136). An action program that has run 256 bundles waits for its time limit (R335). -/
def State.coreStep (s : State) (core : Nat) (feed : Feed) : List CoreEvent × State :=
  let c := s.core core
  if c.role = .free ∨ c.halted then ([], s)
  else match c.stall with
    | .bar _ _ _ => ([], s)
    | .exiting v => s.tryExit core c v
    | .held => if feed.check then s.machineCheck core { c with stall := .none } else s.runBundle core c feed
    | .none =>
      if feed.check then s.machineCheck core c
      else if c.due then s.takeStoreFailure core c
      else if c.interruptDue then ([], s.takeInterrupt core c)
      else if isAction core ∧ c.bundles ≥ 256 then ([], s)
      else s.runBundle core c feed

end Sys2Proof.Machine
end

