-- ==== Sys2Proof/Machine/PacketOps.lean ====
section
/-! DEFINITION. The pass of a packet: parse graph, lookups, policer, action program, verdict, slow path, load spreading,
recirculation, delivery (R327 to R343, R349). -/

namespace Sys2Proof.Machine

/-! ## Packets (R328) -/

/-- The fields of a packet at its first pass (R328): fields 3 to 23 all ones. -/
def freshFields (source ring len slice stamp : Nat) (stampReq : Bool) : Tab Word :=
  let t : Tab Word := (below 21).foldl (fun t i => Tab.put 0 t (3 + i) (2 ^ 64 - 1)) []
  [(0, source + 2 ^ 8 + ring * 2 ^ 16), (1, len), (2, slice), (26, bit stampReq), (28, stamp)].foldl
    (fun t e => Tab.put 0 t e.1 (BitVec.ofNat 64 e.2)) t

/-- A byte of the header window of a frame body: bytes past the body read 0 (log entry 96, DEDUCED). -/
def winByte (body : List Byte) (i : Nat) : Nat := if i < 1024 then (body.getD i 0).toNat else 0

/-! ## Parsing (R329, R330) -/

/-- The big-endian 16-bit value at an offset. -/
def be16 (body : List Byte) (i : Nat) : Nat := winByte body i * 256 + winByte body (i + 1)

/-- The failure of a node's checker at an offset, 0 for none (R330). -/
def parseCheck (check : Nat) (ttl : Bool) (body : List Byte) (off : Nat) : Nat :=
  let n := body.length
  match check with
  | 1 =>
    let ihl := winByte body off % 16 * 4
    let total := be16 body (off + 2)
    if off + 20 > n ∨ winByte body off / 16 ≠ 4 ∨ total < ihl ∨ off + total > n ∨ off + ihl > n ∨
        ipv4Sum ((below ihl).map fun i => BitVec.ofNat 8 (winByte body (off + i))) ≠ be16 body (off + 10) then 0x04
    else if be16 body (off + 6) % 2 ^ 14 ≠ 0 then 0x01
    else if ihl > 20 then 0x02
    else if ttl ∧ winByte body (off + 8) ≤ 1 then 0x03 else 0
  | 2 =>
    if off + 40 > n ∨ winByte body off / 16 ≠ 6 ∨ off + 40 + be16 body (off + 4) > n then 0x04
    else if ttl ∧ winByte body (off + 7) ≤ 1 then 0x03 else 0
  | 3 => 0x01
  | _ => 0

/-- A transition of a node: valid, next code, value. -/
def State.transition (s : State) (n t : Nat) : Bool × Nat × Nat :=
  let w := (s.reg (if t < 2 then R.pnT01 n else R.pnT23 n)).toNat >>> (32 * (t % 2))
  (natBit w 31, natBits w 24 16, natBits w 15 0)

/-- The walk of the parse graph (R329): the fields it records, or the slow-path reason it ends with. fuel: the visits left. -/
def State.parseWalk (s : State) (body : List Byte) : Nat → Nat → Nat → Nat → Tab Word → Nat × Tab Word
  | 0, node, _, _, meta_ =>
    if node > 0xFF then (if node = 0x100 then 0 else if node = 0x101 then 0x05 else 0x04, meta_)
    else (if s.getF (R.pnA node) F.pnA_valid = 1 then 0x06 else 0x05, meta_)
  | fuel + 1, node, off, layers, meta_ =>
    if node > 0xFF then (if node = 0x100 then 0 else if node = 0x101 then 0x05 else 0x04, meta_)
    else
      let a (f : Fld) := s.getF (R.pnA node) f
      let b (f : Fld) := s.getF (R.pnB node) f
      if a F.pnA_valid = 0 then (0x05, meta_)
      else if off + a F.pnA_min_len > body.length then (0x04, meta_)
      else
        let r := a F.pnA_rec_field
        let meta_ := if r ≠ 0 then Tab.put 0 meta_ r (BitVec.ofNat 64 off) else meta_
        let at_ := off + b F.pnB_len_off
        if at_ ≥ body.length then (0x04, meta_)
        else
          let v := (winByte body at_ &&& b F.pnB_len_mask) >>> b F.pnB_rshift
          let len := (v + b F.pnB_len_add) <<< b F.pnB_lshift
          if len < a F.pnA_min_len then (0x04, meta_)
          else
            let c := parseCheck (a F.pnA_check) (a F.pnA_ttl_check == 1) body off
            if c ≠ 0 then (c, meta_)
            else
              let so := off + a F.pnA_sel_off
              let wide := a F.pnA_sel_wide = 1
              if so + (if wide then 1 else 0) ≥ body.length then (0x04, meta_)
              else
                let sel := (if wide then be16 body so else winByte body so) &&& a F.pnA_sel_mask
                let next := match ((below 4).map (s.transition node)).find? fun t => t.1 && t.2.2 == sel with
                  | some t => t.2.1
                  | none => a F.pnA_default_next
                let layers := layers + a F.pnA_layer
                if a F.pnA_layer = 1 ∧ layers > 24 then (0x06, meta_)
                else if off + len > 512 then (0x06, meta_)
                else s.parseWalk body fuel next (off + len) layers meta_

/-- PARSE (R329): from the start node of the source or of recirculation. -/
def State.parse (s : State) (p : Packet) : Nat × Packet :=
  let start := if p.pass ≥ 2 then s.getF R.pipeCfg F.pipeCfg_recirc_start
    else if p.source = 0x80 then s.getF R.pipeCfg F.pipeCfg_start_host else s.getF R.pipeCfg F.pipeCfg_start_net
  let r := s.parseWalk p.body 64 start 0 0 p.fields
  (r.1, { p with fields := r.2 })

/-! ## Lookups (R331 to R334) -/

/-- A table. -/
def State.lookTable (s : State) (t : Nat) : LookTable := Tab.get LookTable.fresh s.pkt.tables t
/-- The table is enabled. -/
def LookTable.enabled (t : LookTable) : Bool := getBits t.w0 (63, 63) == 1
/-- The table's kind. -/
def LookTable.kind (t : LookTable) : Nat := getBits t.w0 (57, 56)
/-- The table's entries. -/
def LookTable.size (t : LookTable) : Nat := 2 ^ getBits t.w0 (52, 48)
/-- The table's key bytes. -/
def LookTable.keyBytes (t : LookTable) : Nat := getBits t.w0 (46, 40)

/-- The bytes of a key segment: of the header window from the offset in a field, or of a field, most significant first
(log entry 87, DEDUCED). -/
def Packet.segment (p : Packet) (w : Nat) : List Byte :=
  let n := if w % 16 = 0 then 16 else w % 16
  let k := natBits w 14 10
  if natBit w 15 then bytesBE n (p.field k)
  else
    let base := p.field k
    let a := base + natBits w 9 4
    if base = 2 ^ 64 - 1 ∨ a + n > p.body.length then zeros n else (below n).map fun i => BitVec.ofNat 8 (winByte p.body (a + i))

/-- A packet's key for a table: its segments in order, padded with zeros or cut to the key size. -/
def Packet.key (p : Packet) (t : LookTable) : List Byte :=
  padTo t.keyBytes ((below 8).flatMap fun i => p.segment (natBits ((if i < 4 then t.w1 else t.w2).toNat) (16 * (i % 4) + 15) (16 * (i % 4))))

/-- The first n bits of two keys agree. -/
def prefixEq (n : Nat) (a b : List Byte) : Bool :=
  let k := 8 * a.length - min n (8 * a.length)
  beNat a >>> k == beNat b >>> k

/-- The entry that a key hits: exact, the longest matching leading bits, the ternary match of highest priority, or the direct entry
(log entry 95, DEDUCED). -/
def LookTable.hit (t : LookTable) (key : List Byte) : Option TabEntry :=
  match t.kind with
  | 0 => (List.find? (fun (e : Nat × TabEntry) => e.2.key.take t.keyBytes == key) t.entries).map Prod.snd
  | 1 => t.entries.foldl (fun best (e : Nat × TabEntry) =>
      if prefixEq e.2.plen (e.2.key.take t.keyBytes) key then
        (match best with
         | some (b : TabEntry) => if e.2.plen > b.plen then some e.2 else best
         | none => some e.2)
      else best) none
  | 2 => t.entries.foldl (fun best (e : Nat × TabEntry) =>
      let m := beNat (e.2.mask.take t.keyBytes)
      if beNat key &&& m = beNat (e.2.key.take t.keyBytes) then
        (match best with
         | some (b : TabEntry) => if e.2.prio > b.prio then some e.2 else best
         | none => some e.2)
      else best) none
  | _ => Tab.find? t.entries (beNat (key.take 4) % t.size)

/-- What the lookups of a pass have come to: verdict, program, policer. -/
structure Classified where
  verdict : Option Nat
  program : Option Nat
  policer : Option Nat

/-- The result of one lookup takes effect (R333, R334). -/
def takeResult (p : Packet) (c : Classified) (r : List Byte) (programs : Bool) : Packet × Classified :=
  let valid := fieldLE r 7 1
  let c : Classified :=
    { verdict := if natBit valid 0 then some (fieldLE r 0 4) else c.verdict,
      program := if natBit valid 1 ∧ programs then some (fieldLE r 4 2) else c.program,
      policer := if natBit valid 4 then some (fieldLE r 8 2) else c.policer }
  let p := if natBit valid 2 ∧ p.source ≠ 0x80 then p.setField 2 (fieldLE r 6 1) else p
  let f := fieldLE r 10 1
  (if natBit valid 3 ∧ 3 ≤ f ∧ f ≤ 23 then p.setField f (fieldLE r 12 4) else p, c)

/-- LOOKUP (R332, R334, R352): the tables of the pass's list in order; in apprentice service the image's table alone. -/
def State.lookups (s : State) (p : Packet) : Packet × Classified :=
  let list := if s.full then
      (below 8).map fun i => natBits (s.reg (R.lookupList (p.pass - 1))).toNat (8 * i + 7) (8 * i)
    else [(s.image.map fun i => i.apprenticeTable).getD 0xFF]
  list.foldl (fun (acc : Packet × Classified) t =>
    let x := s.lookTable t
    if t ≥ 64 ∨ ¬ x.enabled then acc
    else takeResult acc.1 acc.2 (match x.hit (acc.1.key x) with
      | some e => e.result
      | none => x.dflt) s.full) (p, ⟨none, none, none⟩)

/-! ## The policer (R349) -/

/-- A frame of b bits at a policer: 0 green, 1 yellow, 2 red, with the policer after it. -/
def Policer.colour (x : Policer) (b : Nat) : Nat × Policer :=
  if x.p.tokens < (b : Nat) then (2, x)
  else
    let p : Shaper := { x.p with tokens := x.p.tokens - (b : Nat) }
    if x.c.tokens < (b : Nat) then (1, { x with p := p })
    else (0, { c := { x.c with tokens := x.c.tokens - (b : Nat) }, p := p })

/-! ## Emission and delivery (R337, R338, R342) -/

/-- The body a packet is emitted with: prepended bytes of action-local memory, the window from strip on, the rest; or none where
the emission fields are bad. -/
def State.emission (s : State) (p : Packet) : Option (List Byte) :=
  let strip := p.field 24
  let off := p.field 25 % 2 ^ 16
  let len := natBits (p.field 25) 23 16
  let image := ((Tab.find? s.progs p.prog).map fun g => g.image).getD []
  if strip > 510 ∨ strip % 2 = 1 ∨ strip > p.body.length ∨ len > 128 ∨ (len > 0 ∧ off + len > image.length) then none
  else some ((image.drop off).take len ++ p.body.drop strip)

/-- The descriptors of a receive ring that hold n bytes, from its head on: 0 and address, length and tag of each; 1 the ring is
empty; 2 a bad descriptor; or the code of a failed read. host: what reads of a host ring bring (log entry 88, DEDUCED). -/
def State.rxDescs (s : State) (r n : Nat) : Nat → Nat → List Got → (Nat × List (Nat × Nat × Nat)) × State
  | 0, _, _ => ((1, []), s)
  | fuel + 1, idx, host =>
    if idx = s.getF (R.prTail r) F.prTail_tail then ((1, []), s)
    else
      let owner := s.getF (R.prCfg r) F.prCfg_owner
      let rd := s.ringRead owner (s.getF (R.prRing r) F.prRing_base * 4096) (s.getF (R.prRing r) F.prRing_space) (idx * 16) 16
        (host.headD (.fail 0x11))
      match rd.1 with
      | .fail c => ((max c 3, []), rd.2)
      | .bytes d =>
        let e := (fieldLE d 0 8, fieldLE d 8 4, fieldLE d 12 4)
        if e.2.1 < 256 ∨ e.2.1 > 65536 ∨ e.2.1 % 64 ≠ 0 then ((2, [e]), rd.2)
        else if e.2.1 ≥ n then ((0, [e]), rd.2)
        else
          let t := rd.2.rxDescs r (n - e.2.1) fuel ((idx + 1) % ringSlots (s.getF (R.prRing r) F.prRing_size)) (host.drop 1)
          ((t.1.1, e :: t.1.2), t.2)

/-- Write a delivered frame over its descriptors through its owner's function and PASID, wherever the ring itself lies (R342): 0, or
the code of the failure. -/
def State.rxWrite (s : State) (r : Nat) : List (Nat × Nat × Nat) → List Byte → Nat × State
  | [], _ => (0, s)
  | e :: es, l =>
    let owner := s.getF (R.prCfg r) F.prCfg_owner
    if s.hostPath (s.sliceFn owner) then (s.hostWrite owner e.1 (l.take e.2.1)).rxWrite r es (l.drop e.2.1)
    else (s.pathCode (s.sliceFn owner) 0x11, s)

/-- A packet ring is enabled, in a direction, of an active slice, and takes part in the service in force (R341, R352). -/
def State.prOpen (s : State) (r dir : Nat) : Bool :=
  let owner := s.getF (R.prCfg r) F.prCfg_owner
  s.getF (R.prCfg r) F.prCfg_enable == 1 && s.getF (R.prCfg r) F.prCfg_dir == dir && s.getF (R.prStatus r) F.prStatus_state != 4 &&
  s.fetches owner && (s.full || owner == 0)

/-- RECEIVE_DELIVERY (R342): header, body and one record; a frame that finds its ring empty or its completion ring full is dropped
and counted. -/
def State.deliver (s : State) (pipe r : Nat) (p : Packet) (body : List Byte) (reason cause : Nat) (descs : List Got) : State :=
  let cq := s.getF (R.prCfg r) F.prCfg_cq
  let owner := s.getF (R.prCfg r) F.prCfg_owner
  let drop (s : State) : State := (s.pktCount 6 pipe 1).txDone p.tx 0 (if reason = 0 then 1 else 4) p.body.length s.now
  if ¬ s.prOpen r 0 ∨ (s.crOpen cq owner ∧ s.crFull cq) then drop s
  else
    let head := s.getF (R.prStatus r) F.prStatus_head
    let n := 16 + body.length
    let slots := ringSlots (s.getF (R.prRing r) F.prRing_size)
    let t := s.rxDescs r n (ceilDiv n 256 + 1) head descs
    let s := t.2
    let used := t.1.2.length
    let note (s : State) (status bytes : Nat) : State :=
      s.post cq
        { status := status, queue := r, kind := 0x07, flags := 0, slice := owner, tag := ((t.1.2.head?).map fun e => e.2.2).getD 0,
          byteCount := bytes, time := s.now, word := used + reason * 2 ^ 16, irq := false }
    match t.1.1 with
    | 0 =>
      let hdr := bytesLE 4 (p.field 29) ++ [BitVec.ofNat 8 p.source, BitVec.ofNat 8 p.pass, BitVec.ofNat 8 reason, BitVec.ofNat 8 cause] ++
        bytesLE 8 (p.field 28)
      let w := s.rxWrite r t.1.2 (hdr ++ body)
      let s := w.2.setF (R.prStatus r) F.prStatus_head ((head + used) % slots)
      let s := note s w.1 (if w.1 = 0 then n else 0)
      ((s.pktCount 4 reason 1).pktCount 5 reason body.length).txDone p.tx 0 (if reason = 0 then 5 else 4) p.body.length s.now
    | 1 => drop s
    | 2 => drop (note (s.setF (R.prStatus r) F.prStatus_head ((head + used) % slots)) 0x02 0)
    | _ =>
      let s := s.setF (R.prStatus r) F.prStatus_state 4
      drop ((s.record
        { source := 0x09, inst := pipe, code := 0x0050, slice := owner, status := t.1.1, severity := 2,
          detail := dAt 20 8 + dAt 22 4 + dAt 24 r }).count 0x05 8 owner 1)

/-- A frame goes to a packet ring: the transport's ring is consumed inside it, and in apprentice service its frames are counted and
dropped (R354, R356); any other delivers. -/
def State.toRing (s : State) (pipe r : Nat) (p : Packet) (body : List Byte) (descs : List Got) : State :=
  if r = s.getF R.transportCfg F.transportCfg_rx_ring ∧ p.slice = 0 then
    if s.full then
      (s.emit (.toTransport body (p.field (s.getF R.transportCfg F.transportCfg_l3_field)))).txDone p.tx 0 5 p.body.length s.now
    else (s.count 0x0A 12 0 1).txDone p.tx 0 1 p.body.length s.now
  else s.deliver pipe r p body 0 0 descs

/-- SLOW_PATH (R339): delivered to the exception ring as it stands; malformed packets are recorded (R25) and may be dropped; frames
over the limit or beyond the partition are (log entry 97, DEDUCED). A frame leaves the partition within the command that
sends it there (log entry 228, DESIGN CHOICE). -/
def State.slowPath (s : State) (pipe : Nat) (p : Packet) (reason cause : Nat) (descs : List Got) : State :=
  let p := p.setField 30 reason
  let s := if reason = 0x04 then s.violation 0x09 pipe 0 (p.field 29 % 2 ^ 16) else s
  let drop (s : State) : State := (s.pktCount 6 pipe 1).txDone p.tx 0 4 p.body.length s.now
  let ring := s.getF R.excCfg F.excCfg_ring
  let ms := s.now.toNat / 1600000
  let s := if s.pkt.excMs = ms then s else s.pktSet fun k => { k with excMs := ms, excCount := 0 }
  let limit := s.getF R.excCfg F.excCfg_limit
  if reason = 0x04 ∧ s.getF R.excCfg F.excCfg_drop_malformed = 1 then drop s
  else if (limit ≠ 0 ∧ s.pkt.excCount ≥ limit) ∨ frameLen p.body > s.getF R.pipeCfg F.pipeCfg_slow_kib * 1024 ∨
      s.getF (R.prCfg ring) F.prCfg_owner ≠ 0 then drop s
  else (s.pktSet fun k => { k with excCount := k.excCount + 1 }).deliver pipe ring p p.body reason cause descs

/-- The input bytes of a slice's load spreading (R338). -/
def State.spreadInput (s : State) (slice : Nat) (p : Packet) : List Byte :=
  let cfg (f : Fld) := s.getF (R.spreadCfg slice) f
  let l3 := p.field (cfg F.spreadCfg_l3_field)
  let l4 := p.field (cfg F.spreadCfg_l4_field)
  let part (a n : Nat) : List Byte := (below n).map fun i => BitVec.ofNat 8 (winByte p.body (a + i))
  let v6 := winByte p.body l3 / 16 = 6
  let proto := if v6 then winByte p.body (l3 + 6) else winByte p.body (l3 + 9)
  let whole := v6 ∨ be16 p.body (l3 + 6) % 2 ^ 14 = 0
  (if v6 then part (l3 + 8) 32 else part (l3 + 12) 8) ++
  (if cfg F.spreadCfg_l4 = 1 ∧ (proto = 6 ∨ proto = 17) ∧ whole then part l4 4 else []) ++
  (if cfg F.spreadCfg_proto = 1 ∧ cfg F.spreadCfg_alg = 1 then [BitVec.ofNat 8 proto] else [])

/-- The hash of a slice's load spreading. -/
def State.spreadHash (s : State) (slice : Nat) (p : Packet) : Nat :=
  let key := (below 5).flatMap fun i => bytesLE 8 (s.reg (R.spreadKey slice i)).toNat
  if s.getF (R.spreadCfg slice) F.spreadCfg_alg = 1 then crc32c (s.spreadInput slice p) else toeplitz key (s.spreadInput slice p)

/-- The ring that entry e of a slice's indirection table names, if it is valid. -/
def State.indirRing (s : State) (slice e : Nat) : Option Nat :=
  let w := (s.reg (R.indir slice (e / 4))).toNat >>> (16 * (e % 4))
  if natBit w 15 then some (natBits w 13 0) else none

/-- A drop under R19, counted in the packet's slice. -/
def State.dropOwner (s : State) (pipe : Nat) (p : Packet) : State :=
  ((s.blockedName 0x09 pipe p.slice).pktCount 6 pipe 1).txDone p.tx 0 1 p.body.length s.now

/-- RECIRCULATE (R340): strip and prepend are applied, fields 24 and 25 return to 0, and the packet re-enters at the next pass. -/
def State.recirculate (s : State) (pipe : Nat) (p : Packet) (descs : List Got) : State :=
  if p.pass ≥ 3 then s.slowPath pipe p 0x07 0 descs
  else match s.emission p with
    | none => s.slowPath pipe p 0x08 0 descs
    | some body =>
      let l := Tab.get [] s.pkt.again pipe
      let held := s.pkt.again.foldl (fun n e => e.2.foldl (fun n (x : Packet) => n + frameLen x.body) n) 0
      if held + frameLen body > s.getF R.pipeCfg F.pipeCfg_recirc_kib * 1024 then
        (s.pktCount 6 pipe 1).txDone p.tx 0 1 p.body.length s.now
      else
        let q := ((p.setField 24 0).setField 25 0).setField 0 (p.field 0 + 2 ^ 8)
        let q : Packet := { q.setField 1 (body.length + 4) with body := body, prog := 0 }
        (s.pktSet fun k => { k with again := Tab.put [] k.again pipe (l ++ [q]) }).pktCount 9 pipe 1

/-- VERDICT (R336): transmit, drop, slow path, recirculate, spread, or to a packet ring. -/
def State.verdict (s : State) (pipe : Nat) (p : Packet) (v : Nat) (descs : List Got) : State :=
  let arg := v % 2 ^ 16
  let bad := natBits v 27 16 ≠ 0
  match natBits v 31 28 with
  | 0 =>
    if bad then s.slowPath pipe p 0x08 0 descs
    else if (s.tmQueue arg).owner ≠ p.slice then s.dropOwner pipe p
    else match s.emission p with
      | none => s.slowPath pipe p 0x08 0 descs
      | some body =>
        if body.length + 4 > 9216 then (s.pktCount 6 pipe 1).txDone p.tx 0 1 p.body.length s.now
        else
          let l3 := p.field (s.getF R.tmCfg F.tmCfg_l3_field)
          s.enqueue arg ⟨.frame body, natBit (p.field 26) 0, p.tx, if p.source < 0x80 then some (p.source, p.prio) else none⟩
            (if l3 = 2 ^ 64 - 1 then none else some l3)
  | 1 => if bad ∨ arg ≠ 0 then s.slowPath pipe p 0x08 0 descs else (s.pktCount 6 pipe 1).txDone p.tx 0 1 p.body.length s.now
  | 2 => if bad ∨ arg ≥ 2 ^ 8 ∨ arg < 0x40 then s.slowPath pipe p 0x08 0 descs else s.slowPath pipe p arg 0 descs
  | 3 => if bad ∨ arg ≠ 0 then s.slowPath pipe p 0x08 0 descs else s.recirculate pipe p descs
  | 4 =>
    if bad ∨ arg ≥ 2 ^ 8 then s.slowPath pipe p 0x08 0 descs
    else if arg ≠ p.slice then s.dropOwner pipe p
    else
      let h := s.spreadHash arg p
      let p := p.setField 29 h
      match s.indirRing arg (h % 2 ^ 11) with
      | some r =>
        if s.getF (R.prCfg r) F.prCfg_owner ≠ arg then (s.pktCount 6 pipe 1).txDone p.tx 0 1 p.body.length s.now
        else match s.emission p with
          | some body => s.toRing pipe r p body descs
          | none => s.slowPath pipe p 0x08 0 descs
      | none => (s.pktCount 6 pipe 1).txDone p.tx 0 1 p.body.length s.now
  | 5 =>
    if bad ∨ arg ≥ 2 ^ 14 then s.slowPath pipe p 0x08 0 descs
    else if s.getF (R.prCfg arg) F.prCfg_owner ≠ p.slice then s.dropOwner pipe p
    else match s.emission p with
      | none => s.slowPath pipe p 0x08 0 descs
      | some body => s.toRing pipe arg p body descs
  | _ => s.slowPath pipe p 0x08 0 descs

/-! ## Leaving the action stage (R327) -/

/-- A packet may leave the action stage: a received frame in its first pass once no earlier frame of its port is before the end of its
own (log entry 89, DEDUCED). -/
def State.mayLeave (s : State) (p : Packet) : Bool :=
  let earlier (x : Packet) : Bool := x.source == p.source && x.pass == 1 && decide (x.order < p.order)
  decide (p.source ≥ 0x80) || p.pass != 1 ||
  !(s.pkt.rx.any (fun e => e.2.any earlier) || s.pkt.stage.any (fun e => earlier e.2) || s.pkt.leaving.any fun l => earlier l.packet)

/-- A packet leaves the action stage: by its verdict, or to the slow path. -/
def State.leaveNow (s : State) (l : Leaving) : State :=
  (match l.fin with
  | .verdict v => s.verdict l.pipe l.packet v l.descs
  | .slow reason cause => s.slowPath l.pipe l.packet reason cause l.descs).pfcSource l.packet.source

/-- Packets that waited for earlier frames of their port leave, as long as one may. -/
def State.leaveRest (s : State) : Nat → State
  | 0 => s
  | n + 1 =>
    match s.pkt.leaving.find? fun l => s.mayLeave l.packet with
    | none => s
    | some l => ((s.pktSet fun k => { k with leaving := k.leaving.erase l }).leaveNow l).leaveRest n

/-- A place before the end of the action stage is free: packets that waited for it leave. -/
def State.leaveOn (s : State) : State := s.leaveRest s.pkt.leaving.length

/-- A packet's pass is done: it leaves the action stage, or waits for earlier frames of its port. -/
def State.leave (s : State) (l : Leaving) : State :=
  if s.mayLeave l.packet then (s.leaveNow l).leaveOn
  else s.pktSet fun k => { k with leaving := k.leaving ++ [l] }

/-! ## Action programs (R335) -/

/-- The packet of an action core, with the core's header window and metadata. -/
def Core.packetOf (c : Core) (p : Packet) : Packet :=
  { p with body := (below c.hwLen).map (fun i => c.hwByte i) ++ p.body.drop c.hwLen, fields := c.fields }

/-- A program of an action core has ended: the core is free, and the packet goes on by its verdict, or to the slow path with an
exception's cause (R126, R140, R339). -/
def State.actionEnd (s : State) (core : Nat) (ev : CoreEvent) (descs : List Got) : State :=
  let pipe := (core - firstAction) / 16
  match Tab.find? s.pkt.stage core with
  | none => s
  | some p =>
    let p := (s.core core).packetOf p
    let free (s : State) : State :=
      (s.setCore core Core.clear).pktSet fun k => { k with stage := Tab.erase k.stage core }
    match ev with
    | .verdict v => (free s).leave ⟨pipe, p, .verdict (v % 2 ^ 32), descs⟩
    | .actionExc cause => (free s).leave ⟨pipe, p, .slow 0x09 cause, descs⟩
    | _ => s

/-- Run an action core until its program ends or waits. -/
def State.runAction (s : State) (core : Nat) (feed : Feed) : Nat → State
  | 0 => s
  | n + 1 =>
    let r := s.coreStep core feed
    match r.1 with
    | [] =>
      let c := r.2.core core
      if c.stall = .none ∧ c.bundles < 256 ∧ c.bundles > (s.core core).bundles then r.2.runAction core feed n else r.2
    | ev :: _ => r.2.actionEnd core ev feed.descs

/-- ACTION_PROGRAM (R335): a free core of the pipeline runs the program on the packet. -/
def State.startAction (s : State) (pipe core : Nat) (p : Packet) (prog : Nat) (feed : Feed) : State :=
  match Tab.find? s.progs prog with
  | none => s.leave ⟨pipe, p, .slow 0x0B 0, feed.descs⟩
  | some g =>
    if ¬ g.enabled then s.leave ⟨pipe, p, .slow 0x0B 0, feed.descs⟩
    else
      let n := min p.body.length 1024
      let c : Core := { Core.clear with role := .action p.order, prog := prog, hw := p.body.take n, hwLen := n, fields := p.fields }
      let s := (s.setCore core c).pktSet fun k => { k with stage := Tab.insert k.stage core { p with prog := prog } }
      s.runAction core feed 300

/-! ## The pass (R327, R334) -/

/-- A pass of a packet on a pipeline with a free action core. The policer counts the frame before its edits
(log entry 244, DEDUCED). -/
def State.passPacket (s : State) (pipe core : Nat) (p : Packet) (feed : Feed) : State :=
  let r := s.parse p
  if r.1 ≠ 0 then s.leave ⟨pipe, r.2, .slow r.1 0, feed.descs⟩
  else
    let l := s.lookups r.2
    let p := l.1
    let col : Nat × State := match l.2.policer with
      | some k =>
        let x := Tab.get Policer.fresh s.pkt.policers k
        let y := x.colour (8 * max 64 (p.field 1))
        (y.1, (s.pktSet fun q => { q with policers := Tab.put Policer.fresh q.policers k y.2 }).pktCount 10 y.1 1)
      | none => (0, s)
    let s := col.2
    if col.1 = 2 then ((s.pktCount 6 pipe 1).txDone p.tx 0 2 p.body.length s.now).leaveOn
    else
      let p := if col.1 = 1 then p.setField 27 1 else p
      match l.2.program, l.2.verdict with
      | some g, _ => s.startAction pipe core p g feed
      | none, some v => s.leave ⟨pipe, p, .verdict v, feed.descs⟩
      | none, none => s.leave ⟨pipe, p, .slow 0x0A 0, feed.descs⟩

end Sys2Proof.Machine
end

