-- ==== Sys2Proof/Machine/Packet.lean ====
section
/-! DEFINITION. The commands of the chapter on the packet pipeline and traffic manager (R321 to R352). -/

namespace Sys2Proof.Machine

/-! ## Frames in (R321 to R324, R327, R352) -/

/-- A network port carries traffic: it exists in the mode, its link is up, and in apprentice service it is 0 or 1. -/
def State.netOpen (s : State) (port : Nat) : Bool :=
  s.serving && decide (port < s.netPorts) && s.getF (R.netPortStatus port) F.netPortStatus_link_up == 1 &&
  (s.full || decide (port < 2))

/-- The ingress stamp of a port: now, less the ingress latency in ticks of 625 ps (R324). -/
def State.ingressStamp (s : State) (port : Nat) : Word :=
  s.now - BitVec.ofNat 64 (s.getF (R.netPortLat port) F.netPortLat_ingress_ps / 625)

/-- The parse pipeline of the next frame of a port (R321). -/
def State.pipeOf (s : State) (port : Nat) : Nat :=
  match s.getF R.netCfg F.netCfg_mode with
  | 0 => 2 * port + s.pkt.order % 2
  | 1 => port
  | _ => port / 2

/-- Priorities pause for their quanta, or resume on a quanta of 0 (R351) (log entry 92, DEDUCED). -/
def State.pfcTake (s : State) (port : Nat) (quanta : List (Nat × Nat)) : State :=
  let m := quanta.foldl (fun (m : Nat) q =>
    if q.1 ≥ 8 then m else if q.2 = 0 then (if natBit m q.1 then m - 2 ^ q.1 else m) else m ||| 2 ^ q.1)
    (s.getF (R.netPortStatus port) F.netPortStatus_paused)
  (s.setF (R.netPortStatus port) F.netPortStatus_paused m).pktCount 8 (s.portPipe port) 1

/-- The opcode of a MAC control frame: EtherType 0x8808 (R322). -/
def macControl (body : List Byte) : Option Nat :=
  if beNat ((body.drop 12).take 2) = 0x8808 then some (beNat ((body.drop 14).take 2)) else none

/-- The priorities a PFC frame names, with their quanta. -/
def pfcQuanta (body : List Byte) : List (Nat × Nat) :=
  ((below 8).filter fun c => natBit (beNat ((body.drop 16).take 2)) c).map fun c => (c, beNat ((body.drop (18 + 2 * c)).take 2))

/-- FRAME_RECEIVE (R322 to R324): a bad FCS or size is counted, recorded (R25) and dropped, a PAUSE frame counted and dropped; a PFC frame pauses
(log entry 92, DEDUCED). -/
def execFrameReceive (port : Nat) (body : List Byte) (fcsOk : Bool) (prio : Nat) (s : State) : Result :=
  if ¬ s.netOpen port then go s
  else
    let n := body.length + 4
    let pipe := s.pipeOf port
    let s := (s.pktCount 0 port 1).pktCount 1 port n
    if ¬ fcsOk ∨ n < 64 ∨ n > 9216 then go ((s.pktCount 6 pipe 1).violation 0x09 pipe 0 port)
    else if macControl body = some 0x0001 then go (s.pktCount 6 pipe 1)
    else if macControl body = some 0x0101 then go (s.pfcTake port (pfcQuanta body))
    else
      let p : Packet := { body := body, fields := freshFields port 0 n 0 (s.ingressStamp port).toNat false, order := s.pkt.order,
                          pipe := pipe, prio := prio % 8, tx := none, prog := 0 }
      let s := s.pktSet fun k => { k with order := k.order + 1, rx := Tab.put [] k.rx pipe (Tab.get [] k.rx pipe ++ [p]) }
      go (s.pfcRefresh port)

/-- A pipeline's slot counters after a slot; whether a recirculated packet took it. -/
def State.slotUsed (s : State) (pipe : Nat) (again : Bool) : State :=
  let c := Tab.get (0, 0) s.pkt.slots pipe
  let n := (c.1 + 1) % 16
  s.pktSet fun k => { k with slots := Tab.put (0, 0) k.slots pipe (n, if n = 0 then 0 else c.2 + bit again) }

/-- PIPELINE_PASS (R327): received frames first, then recirculated packets up to their share of sixteen slots, then host frames.
With every action core of the pipeline in use, those that run only jobs apart (R392), no slot is given. -/
def execPipelinePass (pipe : Nat) (feed : Feed) (s : State) : Result :=
  let core := (below (16 - s.getF R.cipherCfg F.cipherCfg_job_cores)).find? fun k => (Tab.find? s.pkt.stage (firstAction + 16 * pipe + k)).isNone
  match core with
  | none => go s
  | some k =>
    let core := firstAction + 16 * pipe + k
    let rx := Tab.get [] s.pkt.rx pipe
    let again := Tab.get [] s.pkt.again pipe
    let host := Tab.get [] s.pkt.host pipe
    let used := (Tab.get (0, 0) s.pkt.slots pipe).2
    match rx, again, host with
    | p :: ps, _, _ =>
      let s := (s.pktSet fun q => { q with rx := Tab.put [] q.rx pipe ps }).slotUsed pipe false
      go ((s.passPacket pipe core p feed).pfcSource p.source)
    | [], p :: ps, hs =>
      if used < s.getF R.pipeCfg F.pipeCfg_recirc_share then
        go ((((s.pktSet fun q => { q with again := Tab.put [] q.again pipe ps }).slotUsed pipe true).passPacket pipe core p feed).pfcSource p.source)
      else match hs with
        | h :: hs => go (((s.pktSet fun q => { q with host := Tab.put [] q.host pipe hs }).slotUsed pipe false).passPacket pipe core h feed)
        | [] => go (s.slotUsed pipe false)
    | [], [], h :: hs =>
      go (((s.pktSet fun q => { q with host := Tab.put [] q.host pipe hs }).slotUsed pipe false).passPacket pipe core h feed)
    | [], [], [] => go (s.slotUsed pipe false)

/-- ACTION_TIME_LIMIT (R335): cause 0x10. -/
def execActionTimeLimit (core : Nat) (feed : Feed) (s : State) : Result :=
  let c := s.core core
  if (Tab.find? s.pkt.stage core).isNone ∨ c.bundles < 256 ∨ c.stall ≠ .none then go s
  else go (s.actionEnd core (.actionExc 0x10) feed.descs)

/-! ## Packet rings (R341, R343) -/

/-- PACKET_RING_DOORBELL (R341, R279): a tail beyond the ring puts it in error (R25). -/
def execPacketRingDoorbell (bell : Bell) (s : State) : Result :=
  match s.bell 6 bell with
  | .dropped n => go (s.bellDropped n)
  | .hit r i =>
    let owner := s.getF (R.prCfg r) F.prCfg_owner
    if s.getF (R.prCfg r) F.prCfg_enable = 0 ∧ bellWrites bell then go (s.setF (R.prTail r) F.prTail_tail i)
    else if s.getF (R.prCfg r) F.prCfg_enable = 0 ∨ s.sliceState owner ≠ 1 then go (s.bellDropped owner)
    else if i ≥ ringSlots (s.getF (R.prRing r) F.prRing_size) then
      go ((s.bellBeyond owner r i).setF (R.prStatus r) F.prStatus_state 4)
    else go (s.setF (R.prTail r) F.prTail_tail i)

/-- TRANSMIT_DESCRIPTOR (R343): a bad field gives 0x0002, a queue of another slice 0x0008, a failed read its code; a direct frame
joins its queue, another enters pipeline r mod 4. -/
def execTransmitDescriptor (r : Nat) (host data : Got) (s : State) : Result :=
  let owner := s.getF (R.prCfg r) F.prCfg_owner
  let head := s.getF (R.prStatus r) F.prStatus_head
  let space := s.getF (R.prRing r) F.prRing_space
  if ¬ s.prOpen r 1 ∨ head = s.getF (R.prTail r) F.prTail_tail ∨ s.ringBlocked (s.getF (R.prCfg r) F.prCfg_cq) ∨
      s.ringWaits owner space then go s
  else
    match s.ringRead owner (s.getF (R.prRing r) F.prRing_base * 4096) space (head * 32) 32 host with
    | (.fail c, s) =>
      go (((s.setF (R.prStatus r) F.prStatus_state 4).record
        { source := 0x09, inst := (r % 4), code := 0x0050, slice := owner, status := c, severity := 2,
          detail := dAt 20 8 + dAt 22 4 + dAt 24 r }).count 0x05 8 owner 1)
    | (.bytes d, s) =>
      let num := s.pkt.nextTx
      let job : TxJob := ⟨num, fieldLE d 12 4, none⟩
      let s := s.setF (R.prStatus r) F.prStatus_head ((head + 1) % ringSlots (s.getF (R.prRing r) F.prRing_size))
      let s := s.pktSet fun k => { k with nextTx := num + 1, txs := Tab.put [] k.txs r (Tab.get [] k.txs r ++ [job]) }
      let n := fieldLE d 8 4
      let flags := fieldLE d 16 2
      let tx := some (r, num)
      if flags ≥ 4 ∨ fieldLE d 20 12 ≠ 0 ∨ n < 14 ∨ n > 9212 then go (s.txDone tx 0x02 0 0 s.now)
      else if natBit flags 0 ∧ (s.tmQueue (fieldLE d 18 2)).owner ≠ owner then
        go ((s.blockedName 0x09 (r % 4) owner).txDone tx 0x08 0 0 s.now)
      else
        let body : Got × State := if space = 1 then
            (if s.hostPath (s.sliceFn owner) then s.hostRead (s.sliceFn owner) (s.slicePasid owner) (fieldLE d 0 8) n data
             else (.fail (s.pathCode (s.sliceFn owner) 0x11), s))
          else s.memRead 0x09 (r % 4) 6 owner (fieldLE d 0 8) n
        match body with
        | (.fail c, s) => go (s.txDone tx c 0 0 s.now)
        | (.bytes l, s) =>
          let s := s.prRefresh r
          if natBit flags 0 then go (s.enqueue (fieldLE d 18 2) ⟨.frame l, natBit flags 1, tx, none⟩ none)
          else
            let p : Packet := { body := l, fields := freshFields 0x80 r (n + 4) owner 0 (natBit flags 1), order := s.pkt.order,
                                pipe := r % 4, prio := 0, tx := tx, prog := 0 }
            go (s.pktSet fun k => { k with order := k.order + 1,
                                           host := Tab.put [] k.host (r % 4) (Tab.get [] k.host (r % 4) ++ [p]) })

/-! ## The traffic manager (R346, R348, R350, R351) -/

/-- TM_SCHEDULE (R346): the minimum tier first, among groups whose minimum bucket holds tokens of 0 or more, then all groups. In
apprentice service a port whose shaper holds fewer than 0 tokens sends nothing (R352). -/
def execTmSchedule (port : Nat) (s : State) : Result :=
  if ¬ s.netOpen port ∨ (¬ s.full ∧ s.portTokens port < 0) then go s
  else
    let d0 := Tab.get Sched.idle s.pkt.minTier port
    let r0 := Sched.pick (fun g => s.groupEligible g && decide ((s.tmGroup g).tokens ≥ 0)) s.groupHead s.groupQuantum d0.fuel d0
    let s := s.pktSet fun p => { p with minTier := Tab.put Sched.idle p.minTier port r0.2 }
    let pick (s : State) (g tier : Nat) : State :=
      let q := s.queuePick g
      match q.1 with
      | some k => (s.pktSet fun p => { p with qs := Tab.put Sched.idle p.qs g q.2 }).tmSend port g k tier
      | none => s
    match r0.1 with
    | some g => go (pick s g 0)
    | none =>
      let d1 := Tab.get Sched.idle s.pkt.allTier port
      let r1 := Sched.pick s.groupEligible s.groupHead s.groupQuantum d1.fuel d1
      let s := s.pktSet fun p => { p with allTier := Tab.put Sched.idle p.allTier port r1.2 }
      match r1.1 with
      | some g => go (pick s g 1)
      | none => go s

/-- TOKEN_REFILL (R348 to R350): held writes apply, then shapers, minimum buckets and policers gain a microsecond's tokens,
and in apprentice service the shapers of ports 0 and 1 (R352). -/
def execTokenRefill (s : State) : Result :=
  go (s.pktSet fun p => { p with
    shapers := Tab.mapVals p.shapers fun _ x => x.refill,
    policers := Tab.mapVals p.policers fun _ x => ⟨x.c.refill, x.p.refill⟩,
    groups := Tab.mapVals p.groups fun g x => x.refill (getBits (s.forceOf (g % 256)).share F.sliceShare_net_min_gbps),
    portTokens := if s.stage = 4 then p.portTokens
      else (below 2).foldl (fun t n => Tab.put 0 t n (portRefill (s.portTokens n))) p.portTokens })

/-- PFC_RECEIVE (R351): the named priorities pause, or resume on a quanta of 0. -/
def execPfcReceive (port : Nat) (quanta : List (Nat × Nat)) (s : State) : Result :=
  if port ≥ s.netPorts then go s else go (s.pfcTake port quanta)

/-- PFC_PAUSE_EXPIRE (R351). -/
def execPfcPauseExpire (port prio : Nat) (s : State) : Result :=
  let m := s.getF (R.netPortStatus port) F.netPortStatus_paused
  go (if prio < 8 ∧ natBit m prio then s.setF (R.netPortStatus port) F.netPortStatus_paused (m - 2 ^ prio) else s)

/-! ## Objects (the table under OBJ_DATA) -/

/-- The kind of OBJ_CMD. -/
def objKind (value : Word) : Nat := getBits value F.objCmd_kind
/-- The index of OBJ_CMD. -/
def objIndex (value : Word) : Nat := getBits value F.objCmd_index

/-- An object command completes with a status; a refusal for the state or for a conflict is recorded (R26). -/
def State.objDone (s : State) (value : Word) (op status : Nat) : State :=
  let w := setBits (setBits (setBits 0 F.objCmd_kind (objKind value)) F.objCmd_index (objIndex value)) F.objCmd_status status
  let s := s.setReg R.objCmd w
  if status = 1 ∨ status = 3 then s.cmdRefused 0x09 0 0 (objIndex value) op status else s

/-- An object exists for a kind and an index (log entry 50, DEDUCED). -/
def objExists (kind index : Nat) : Bool :=
  match kind with
  | 1 => decide (index < 65536)
  | 2 => decide (index < 65535)
  | 3 => decide (index < 65536)
  | 4 => decide (index < 2048)
  | 5 => decide (index < 64)
  | 8 => decide (1 ≤ index) && decide (index < 1024)
  | _ => false

/-- Word i of OBJ_DATA. -/
def State.objWord (s : State) (i : Nat) : Word := s.reg (R.objData i)

/-- The table that an entry command names: word 13 bits 5 to 0 of OBJ_DATA (log entry 50). -/
def State.objTable (s : State) : Nat := getBits (s.objWord 13) (5, 0)

/-- Bytes of some words of OBJ_DATA. -/
def State.objBytes (s : State) (first n : Nat) : List Byte := (below n).flatMap fun i => bytesLE 8 (s.objWord (first + i)).toNat

/-- Put bytes into words of OBJ_DATA. -/
def State.setObjBytes (s : State) (first n : Nat) (l : List Byte) : State :=
  (chunks 8 n (padTo (8 * n) l)).zipIdx.foldl (fun s e => s.setReg (R.objData (first + e.2)) (BitVec.ofNat 64 (leNat e.1))) s

/-- A shaper as an object word. -/
def Shaper.word (x : Shaper) : Word :=
  let v := x.held.getD (x.burst, x.rate)
  setBits (setBits 0 (55, 32) v.1) (20, 0) v.2

/-- OBJ_READ: the object in OBJ_DATA. -/
def execObjRead (value : Word) (s : State) : Result :=
  if ¬ s.serving then go s else
  let k := objKind value
  let i := objIndex value
  if k = 6 ∨ k = 7 then
    let t := s.lookTable s.objTable
    if i = 0xFFFFFF then go ((s.setObjBytes 14 2 t.dflt).objDone value 1 0)
    else if i ≥ t.size then go (s.objDone value 1 0x02)
    else match Tab.find? t.entries i with
      | none => go (s.objDone value 1 0x01)
      | some e =>
        let s := s.setObjBytes 0 8 e.key
        let s := if t.kind = 1 then s.setReg (R.objData 8) (BitVec.ofNat 64 e.plen) else s.setObjBytes 8 4 e.mask
        go (((s.setReg (R.objData 12) (BitVec.ofNat 64 e.prio)).setObjBytes 14 2 e.result).objDone value 1 0)
  else if ¬ objExists k i then go (s.objDone value 1 0x02)
  else
    let put (s : State) (l : List Word) : State := l.zipIdx.foldl (fun s e => s.setReg (R.objData e.2) e.1) s
    let s := match k with
      | 1 =>
        let x := s.tmQueue i
        let deficit := (Tab.get Sched.idle s.pkt.qs (groupOf x)).credit i
        put s [x.w0, x.w1, setBits (setBits 0 (63, 32) x.bytes) (31, 0) (wrap 32 deficit)]
      | 2 => put s [(s.shaper i).word, BitVec.ofInt 64 (s.shaper i).tokens]
      | 3 =>
        let x := Tab.get Policer.fresh s.pkt.policers i
        put s [x.c.word, x.p.word]
      | 4 =>
        let x := s.tmGroup i
        put s [setBits x.w0 (55, 32) (x.held.getD (getBits x.w0 (55, 32))), x.w1]
      | 5 =>
        let t := s.lookTable i
        put s [t.w0, t.w1, t.w2]
      | _ => match Tab.find? s.progs i with
        | some g => put s [g.codeAt, g.imageAt, setBits (setBits 0 (47, 32) g.image.length) (15, 0) g.code.length]
        | none => put s [0, 0, 0]
    go (s.objDone value 1 0)

/-- A value lies in a range. -/
def inRange (v lo hi : Nat) : Bool := decide (lo ≤ v) && decide (v ≤ hi)

/-- Write a queue: 0x0003 where its port is a quiet partition's and its owner no slice of it, or the reverse (R21, R27), 0x0001 where
it would move while it holds frames; a write that disables it drops them
(log entry 91, DEDUCED). -/
def State.writeQueue (s : State) (i : Nat) : Nat × State :=
  let x := s.tmQueue i
  let w0 := s.objWord 0 &&& BitVec.ofNat 64 0x80FF0707000FFFFF
  let w1 := s.objWord 1 &&& BitVec.ofNat 64 0xFFFF0000FFFFFFFF
  let y : TmQueue := { x with w0 := w0, w1 := w1 }
  if y.port ≥ s.netPorts ∨ ¬ inRange y.quantum 64 1048575 then (0x02, s)
  else if y.enabled ∧ ¬ s.quietAllows y.owner (fun q => natBit q.ports y.port) then (0x03, s)
  else if ¬ y.enabled then
    let s := s.queueDrop i
    (0, s.setTmQueue i { s.tmQueue i with w0 := w0, w1 := w1 })
  else if ¬ x.frames.isEmpty ∧ (y.port ≠ x.port ∨ y.owner ≠ x.owner) then (0x01, s)
  else (0, s.setTmQueue i y)

/-- Bytes of classification memory that tables and images take (log entry 51, DESIGN CHOICE). -/
def State.classBytes (s : State) : Nat :=
  s.pkt.tables.foldl (fun n e => n + e.2.size * (e.2.keyBytes * (if e.2.kind = 2 then 2 else 1) + 16)) 0 +
  s.progs.foldl (fun n e => n + e.2.image.length) 0

/-- Write a table; a change of kind, size or key clears its entries. -/
def State.writeTable (s : State) (i : Nat) : Nat × State :=
  let x := s.lookTable i
  let w0 := s.objWord 0 &&& BitVec.ofNat 64 0x831F7F0000000000
  let y : LookTable := { x with w0 := w0, w1 := s.objWord 1, w2 := s.objWord 2 }
  let keyOk : Bool := match y.kind with
    | 0 => inRange y.keyBytes 1 64
    | 1 => y.keyBytes == 4 || y.keyBytes == 16
    | 2 => inRange y.keyBytes 1 32
    | _ => y.keyBytes == 4
  let same := y.kind == x.kind && y.size == x.size && y.keyBytes == x.keyBytes
  let y : LookTable := if same then y else { y with entries := [] }
  let s' := s.pktSet fun p => { p with tables := Tab.put LookTable.fresh p.tables i y }
  if ¬ keyOk ∨ getBits w0 (52, 48) > 24 then (0x02, s)
  else if s'.classBytes > 2 ^ 26 then (0x04, s)
  else (0, s')

/-- A result as it is kept: bits 7 to 5 of byte 7 and byte 11 are reserved, and 0 (R2, R333). -/
def resultKept (l : List Byte) : List Byte :=
  l.zipIdx.map fun e => if e.2 = 7 then e.1 &&& 0x1F else if e.2 = 11 then 0 else e.1

/-- Insert or delete an entry of a table, or write its default entry. -/
def State.writeEntry (s : State) (i : Nat) (insert : Bool) : Nat × State :=
  let t := s.lookTable s.objTable
  let put (t : LookTable) : State := s.pktSet fun p => { p with tables := Tab.put LookTable.fresh p.tables s.objTable t }
  if i = 0xFFFFFF then (0, put { t with dflt := if insert then resultKept (s.objBytes 14 2) else [] })
  else if i ≥ t.size then (0x02, s)
  else if insert then
    let e : TabEntry := { key := s.objBytes 0 8, mask := s.objBytes 8 4, plen := getBits (s.objWord 8) (7, 0),
                          prio := getBits (s.objWord 12) (15, 0), result := resultKept (s.objBytes 14 2) }
    (0, put { t with entries := Tab.insert t.entries i e })
  else (0, put { t with entries := Tab.erase t.entries i })

/-- Load a program slot: refused with 0x0001 while enabled or while a packet still runs it or waits to leave its stage
(log entry 209, DEDUCED), 0x0004 over the code memory or classification memory; the slot's own old code and image do not count. -/
def State.writeProg (s : State) (i : Nat) : Nat × State :=
  let code := getBits (s.objWord 2) (15, 0)
  let img := getBits (s.objWord 2) (47, 32)
  let enabled := ((Tab.find? s.progs i).map fun g => g.enabled).getD false
  let others := s.progs.foldl (fun n e => if e.1 = i then n else n + e.2.code.length) 0
  let own := ((Tab.find? s.progs i).map fun g => g.image.length).getD 0
  if enabled ∨ s.pkt.stage.any (fun e => e.2.prog == i) ∨ s.pkt.leaving.any (fun l => l.packet.prog == i) then (0x01, s)
  else if ¬ inRange code 4 16384 ∨ code % 4 ≠ 0 ∨ img % 64 ≠ 0 then (0x02, s)
  else if others + code > 2 ^ 20 ∨ s.classBytes - own + img > 2 ^ 26 then (0x04, s)
  else
    match s.memRead 0x09 0 6 0 (getBits (s.objWord 0) (51, 0)) code with
    | (.fail _, s) => (0x03, s)
    | (.bytes c, s) =>
      match (if img = 0 then (.bytes [], s) else s.memRead 0x09 0 6 0 (getBits (s.objWord 1) (51, 0)) img : Got × State) with
      | (.fail _, s) => (0x03, s)
      | (.bytes m, s) => (0, { s with progs := Tab.insert s.progs i ⟨c, m, false, s.objWord 0 &&& (2 ^ 52 - 1), s.objWord 1 &&& (2 ^ 52 - 1)⟩ })

/-- The image's pair section lists a table as a flow table (R448). -/
def State.flowTable (s : State) (t : Nat) : Bool := s.image.any fun i => i.flowTables.contains t

/-- A command on a classification table or a program asks the standby first, and an entry of a flow table is session state, which does
not (R448, R449); a program's bytes are mirrored as it is loaded. -/
def State.objMirror (s : State) (value : Word) (op : Nat) (f : State → Result) : Result :=
  let k := objKind value
  let u : MirrorUpd := .writes ((below 16).map (fun i => (R.objData i, s.objWord i)) ++ [(R.objCmd, value)])
  if k < 5 ∨ (k = 8 ∧ op = 2) then f s
  else if (k = 6 ∨ k = 7) ∧ s.flowTable s.objTable then f (s.tell 1 0 u)
  else
    let v := s.standbySays 3 0
    let s := v.2.tell 3 0 u
    if v.1 = 0 then f s else go (s.objDone value op v.1)

/-- OBJ_WRITE: the object takes OBJ_DATA. -/
def execObjWrite (value : Word) (s : State) : Result :=
  if ¬ s.serving then go s else
  s.objMirror value 2 fun s =>
  let k := objKind value
  let i := objIndex value
  let w0 := s.objWord 0
  let w1 := s.objWord 1
  let bucketOk (w : Word) : Bool := inRange (getBits w (20, 0)) 1 1600000
  if k = 6 ∨ k = 7 then
    let r := s.writeEntry i (k == 6)
    go (r.2.objDone value 2 r.1)
  else if ¬ objExists k i then go (s.objDone value 2 0x02)
  else match k with
    | 1 =>
      let r := s.writeQueue i
      go (r.2.objDone value 2 r.1)
    | 2 =>
      if ¬ bucketOk w0 then go (s.objDone value 2 0x02)
      else go ((s.setShaper i { s.shaper i with held := some (getBits w0 (55, 32), getBits w0 (20, 0)) }).objDone value 2 0)
    | 3 =>
      if ¬ bucketOk w0 ∨ ¬ bucketOk w1 then go (s.objDone value 2 0x02)
      else
        let x := Tab.get Policer.fresh s.pkt.policers i
        let x : Policer := { c := { x.c with held := some (getBits w0 (55, 32), getBits w0 (20, 0)) },
                             p := { x.p with held := some (getBits w1 (55, 32), getBits w1 (20, 0)) } }
        go ((s.pktSet fun p => { p with policers := Tab.put Policer.fresh p.policers i x }).objDone value 2 0)
    | 4 =>
      if ¬ inRange (getBits w0 (19, 0)) 64 1048575 ∨ i / 256 ≥ s.netPorts then go (s.objDone value 2 0x02)
      else
        let x := s.tmGroup i
        let x : TmGroup := { x with w0 := setBits x.w0 (19, 0) (getBits w0 (19, 0)), held := some (getBits w0 (55, 32)),
                                    w1 := setBits (setBits x.w1 (31, 16) (getBits w1 (31, 16))) (15, 0) (getBits w1 (15, 0)) }
        go (((s.setTmGroup i x).pfcRefresh (i / 256)).objDone value 2 0)
    | 5 =>
      let r := s.writeTable i
      go (r.2.objDone value 2 r.1)
    | _ =>
      let r := s.writeProg i
      let v := if r.1 = 0 then r.2.standbySays 3 0 else r
      if v.1 ≠ 0 then go ({ v.2 with progs := s.progs }.objDone value 2 v.1)
      else match Tab.find? v.2.progs i with
        | some g => go ((v.2.tell 3 0 (.program i g.code g.image g.codeAt g.imageAt)).objDone value 2 0)
        | none => go (v.2.objDone value 2 0)

/-- OBJ_ENABLE: a queue, a table or a loaded program; other kinds give 0x0002, a queue on a port of another's quiet partition 0x0003
(R21, R27). -/
def execObjEnable (value : Word) (s : State) : Result :=
  if ¬ s.serving then go s else
  s.objMirror value 3 fun s =>
  let k := objKind value
  let i := objIndex value
  if ¬ objExists k i then go (s.objDone value 3 0x02)
  else match k with
    | 1 =>
      let x := s.tmQueue i
      if x.quantum < 64 then go (s.objDone value 3 0x02)
      else if ¬ s.quietAllows x.owner (fun q => natBit q.ports x.port) then go (s.objDone value 3 0x03)
      else go ((s.setTmQueue i { x with w0 := setBits x.w0 (63, 63) 1 }).objDone value 3 0)
    | 5 =>
      let t := s.lookTable i
      if t.keyBytes = 0 then go (s.objDone value 3 0x02)
      else go ((s.pktSet fun p => { p with tables := Tab.put LookTable.fresh p.tables i { t with w0 := setBits t.w0 (63, 63) 1 } }).objDone
        value 3 0)
    | 8 => match Tab.find? s.progs i with
      | some g => go (({ s with progs := Tab.insert s.progs i { g with enabled := true } }).objDone value 3 0)
      | none => go (s.objDone value 3 0x01)
    | _ => go (s.objDone value 3 0x02)

/-- OBJ_DISABLE: a queue drops its frames, counted; a program's running packets finish. -/
def execObjDisable (value : Word) (s : State) : Result :=
  if ¬ s.serving then go s else
  s.objMirror value 4 fun s =>
  let k := objKind value
  let i := objIndex value
  if ¬ objExists k i then go (s.objDone value 4 0x02)
  else match k with
    | 1 =>
      let s := s.queueDrop i
      let x := s.tmQueue i
      go ((s.setTmQueue i { x with w0 := setBits x.w0 (63, 63) 0 }).objDone value 4 0)
    | 5 =>
      let t := s.lookTable i
      go ((s.pktSet fun p => { p with tables := Tab.put LookTable.fresh p.tables i { t with w0 := setBits t.w0 (63, 63) 0 } }).objDone
        value 4 0)
    | 8 => match Tab.find? s.progs i with
      | some g => go (({ s with progs := Tab.insert s.progs i { g with enabled := false } }).objDone value 4 0)
      | none => go (s.objDone value 4 0x01)
    | _ => go (s.objDone value 4 0x02)

/-! ## PTP and the servo (R325, R326) -/

/-- A timebase value in units of 2⁻¹⁶ ns: 40,960 a tick (R325). -/
def ptpTime (t : Word) : Int := (t.toNat * 40960 : Nat)

/-- The servo's next rate after an offset in units of 2⁻¹⁶ ns, positive ahead (R326): a second or more ahead the lowest of the
clamp, so that 1 s takes 2,000 s; else below the present rate where ahead, above it where behind, by an amount that the spec does not
state (log entry 183, DESIGN CHOICE). -/
def servoRate (old off : Int) (r : Nat) : Int :=
  if off ≥ 65536000000000 then -549755814
  else if off > 0 then (if old ≤ -549755814 then old else old - 1 - ((r % (old + 549755814).toNat : Nat) : Int))
  else if off < 0 then (if old ≥ 549755814 then old else old + 1 + ((r % (549755814 - old).toNat : Nat) : Int))
  else old

/-- The servo takes an offset in units of 2⁻¹⁶ ns, positive ahead (R326): a step forward when behind by more than step_us, else
a rate within the clamp; locked and holdover follow (log entry 183, DESIGN CHOICE). -/
def State.servo (s : State) (off : Int) : State :=
  let ns := Int.tdiv off 65536
  let s := (s.setF R.servoStatus F.servoStatus_offset_ns (wrap 32 ns)).setF R.servoStatus F.servoStatus_holdover 0
  let s := if off < -((s.getF R.ptpCfg F.ptpCfg_step_us * 1000 * 65536 : Nat) : Int) then
      { s with clock := { s.clock with step := s.clock.step + BitVec.ofInt 64 (Int.tdiv (-off) 40960) } }
    else
      let r := s.unstated
      r.2.setF R.timeRate F.timeRate_rate_adj (wrap 32 (servoRate s.rateAdj off r.1.toNat))
  let size := off.natAbs
  let good := if size < 100 * 65536 then min 16 (s.pkt.ptp.good + 1) else 0
  let s := s.pktSet fun p => { p with ptp := { p.ptp with good := good } }
  if good ≥ 16 then s.setF R.servoStatus F.servoStatus_locked 1
  else if size > 1000 * 65536 then s.setF R.servoStatus F.servoStatus_locked 0
  else s

/-- A Sync with its origin time known starts a delay exchange (R325). -/
def State.syncReady (s : State) (t1 : Int) : State :=
  let t3 := ptpTime (s.egressStamp (s.getF R.ptpCfg F.ptpCfg_port))
  (s.pktSet fun p => { p with ptp := { p.ptp with t1 := t1, ready := true, twoStep := false, t3 := t3, asked := true } }).emit
    (.delayReq (s.getF R.ptpCfg F.ptpCfg_port) (s.getF R.ptpCfg F.ptpCfg_domain) (s.getF R.ptpCfg F.ptpCfg_transport))

/-- PTP_MESSAGE (R325, R326): on the PTP port and domain, by the transport in use; an offset comes from each Sync and delay
exchange. With both sources PTP gives whole seconds only (log entry 94, DESIGN CHOICE). -/
def execPtpMessage (port domain : Nat) (msg : PtpFrame) (s : State) : Result :=
  if s.getF R.ptpCfg F.ptpCfg_enable = 0 ∨ port ≠ s.getF R.ptpCfg F.ptpCfg_port ∨ domain ≠ s.getF R.ptpCfg F.ptpCfg_domain ∨
      msg.transport ≠ s.getF R.ptpCfg F.ptpCfg_transport ∨ ¬ s.netOpen port then go s
  else match msg.msg with
    | .sync two origin corr =>
      let t2 := ptpTime (s.ingressStamp port)
      let s := s.pktSet fun p => { p with ptp := { p.ptp with t2 := t2, ready := false, asked := false } }
      if two then go (s.pktSet fun p => { p with ptp := { p.ptp with twoStep := true, t1 := corr } })
      else go (s.syncReady (origin + corr))
    | .followUp origin corr =>
      if s.pkt.ptp.twoStep then go (s.syncReady (s.pkt.ptp.t1 + origin + corr)) else go s
    | .delayResp received corr =>
      let x := s.pkt.ptp
      if ¬ x.ready ∨ ¬ x.asked then go s
      else
        let off := Int.tdiv ((x.t2 - x.t1) - ((received - corr) - x.t3)) 2
        let s := s.pktSet fun p => { p with ptp := { p.ptp with asked := false } }
        match (if s.followsPair then 0 else s.getF R.timeSrc F.timeSrc_src) with
        | 1 => go (s.servo off)
        | 3 =>
          let second : Int := 65536000000000
          let whole := (off + second / 2) / second * second
          if whole = 0 then go (s.setF R.servoStatus F.servoStatus_holdover 0) else go (s.servo whole)
        | _ => go s

/-- The PPS land is driven as an output: with pps_out, and on the active of a pair with pair_time 2 (R326, R458). -/
def State.ppsDriven (s : State) : Bool := s.getF R.ptpCfg F.ptpCfg_pps_out == 1 || (s.pairTime == 2 && s.pairActive)

/-- PPS_EDGE (R326, R458): the phase of the nearest whole second; a land that is driven is no input. -/
def execPpsEdge (s : State) : Result :=
  if s.ppsDriven then go s
  else
    let s := s.setF R.servoStatus F.servoStatus_pps_seen 1
    let s := s.pktSet fun p => { p with ptp := { p.ptp with edge := s.clock.ticks.toNat } }
    let t := s.clock.ticks.toNat % 1600000000
    let off : Int := if t < 800000000 then (t * 40960 : Nat) else (t * 40960 : Nat) - (1600000000 * 40960 : Nat)
    if s.followsPair then (if s.pairTime = 2 then go (s.servo off) else go s)
    else if s.getF R.timeSrc F.timeSrc_src ≥ 2 then go (s.servo off) else go s

/-- SERVO_HOLDOVER (R326): the last rate stays. -/
def execServoHoldover (s : State) : Result :=
  if s.getF R.timeSrc F.timeSrc_src = 0 then go s else go (s.setF R.servoStatus F.servoStatus_holdover 1)

/-- PPS_OUT_PULSE (R326, R458). -/
def execPpsOutPulse (s : State) : Result :=
  if s.ppsDriven then go (s.emit .ppsPulse) else go s

end Sys2Proof.Machine
end

