-- ==== Sys2Proof/Machine/SelfTest.lean ====
section
/-! DEFINITION. In-service test, the end of POST's wait, the device fatal event (R459 to R469, R109). -/

namespace Sys2Proof.Machine

/-- The bench of a stack whose turn it is: the first after the one tested last that is not fenced and not powered down (R463)
(log entry 49, DESIGN CHOICE). -/
def State.isstNext (s : State) (stack : Nat) : Option Nat :=
  let from_ := Tab.get 6 s.isst.last stack
  ((below 7).map fun i => (from_ + 1 + i) % 7).find? fun b =>
    !s.unitFenced (benchLevel stack) b && (Tab.find? s.power.gated (benchKey stack b)).isNone

/-- The address of a stack's save region (R464). -/
def State.saveRegion (s : State) (stack : Nat) : Option Nat := (Tab.find? s.regions (4080 + stack)).map Region.base

/-! ## What the protection codes find (R161 to R166) -/

/-- A frame whose words in the packet buffer, or whose entry in a table, cannot be read is dropped where it waits (R164)
(log entry 182, DESIGN CHOICE). -/
def State.frameLost (s : State) (order : Nat) : State :=
  let lists (f : Tab (List Packet)) : List (Nat × Packet) := f.flatMap fun e => (e.2.filter fun p => p.order == order).map fun p => (e.1, p)
  let hits := lists s.pkt.rx ++ lists s.pkt.again ++ lists s.pkt.host
  let cut (f : Tab (List Packet)) : Tab (List Packet) := Tab.mapVals f fun _ l => l.filter fun p => p.order != order
  let gone := (s.pkt.leaving.filter fun l => l.packet.order == order).map fun l => (l.pipe, l.packet)
  let s := s.pktSet fun k => { k with rx := cut k.rx, again := cut k.again, host := cut k.host,
                                      leaving := k.leaving.filter fun l => l.packet.order != order }
  ((hits ++ gone).foldl (fun s e => ((s.pktCount 6 e.1 1).txDone e.2.tx 0x10 3 0 s.now).pfcSource e.2.source) s).leaveOn

/-- An uncorrectable word of an SRAM is counted, logged and recorded, with a free value where MEM_ERR_LOG asks for an address
(R166). -/
def State.logSram (s : State) (block inst count source : Nat) : State :=
  let u := s.unstated
  let s := u.2.setReg R.memErrAddr (setBits 0 F.memErrAddr_addr (getBits u.1 F.memErrAddr_addr))
  let s := s.setReg R.memErrInfo (setBits (setBits 0 F.memErrInfo_valid 1) F.memErrInfo_source source)
  (s.count 0x0D 1 count 1).record { source := block, inst := inst, code := 0x0010, severity := 2, status := 0x0010,
                                    detail := dAt 29 source }

/-- What a code has judged outside the scrub (R75, R161 to R166): SEC-DED corrects one bit of an SRAM word and counts it, per hub memory
or per stack; a hub word with two fails what reads it; a scratch word with two fails its readers until it is written; data with a
byte-parity error fail their next reader (log entry 182, DESIGN CHOICE). -/
def State.codeEvent (s : State) : CodeEvent → State
  | .hbm st x burst severity row bankSpare overwritten =>
    if s.stackMem st ∧ x < 2 ^ 35 then s.hbmWord st (x / 32 * 32) burst severity row bankSpare overwritten true else s
  | .ddr a devices overwritten =>
    match s.place a with
    | .main _ => s.ddrWord (a / 64 * 64) devices overwritten true
    | .ddr7 _ => s.ddrWord (a / 64 * 64) devices overwritten true
    | _ => s
  | .hub m reader double =>
    if ¬ double then s.count 0x0D 0 (20 + m) 1
    else match m with
      | 0 => (s.logSram 0x0D 0xFF (20 + m) 6).frameLost reader
      | 1 => (s.logSram 0x0D 0xFF (20 + m) 6).connError reader 0x10 0
      | 2 => (s.logSram 0x0D 0xFF (20 + m) 6).frameLost reader
      | 4 => { s with flawed := Tab.insert s.flawed (reader / 64) () }
      | _ => s.logSram 0x0D 0xFF (20 + m) 6
  | .bench st => s.count 0x0E 5 st 1
  | .scratch st b off =>
    { s with bench := { s.bench with badScratch := Tab.insert s.bench.badScratch (benchKey st b * 2 ^ 19 + off % 2 ^ 22 / 8) () } }
  | .parity a => { s with flawed := Tab.insert s.flawed (a / 64) () }

/-- SCRUB_READ (R145, R163, R166, R169, R170); scrub is suspended in S1 and S2. -/
def execScrubRead (seen : ScrubFind) (row : Nat) (bankSpare overwritten : Bool) (s : State) : Result :=
  let s := seen.elsewhere.foldl State.codeEvent s
  if s.getF R.pwrState F.pwrState_state ≥ 2 then go s
  else match seen.own with
    | .hbm burst severity => go (s.scrubHbm burst severity row bankSpare overwritten)
    | .ddr n => go (s.scrubDdr n overwritten)

/-! ## In-service test (R463 to R467, R109) -/

/-- Device scratch pages 60 to 63 of a bench, as bytes (R465). -/
def State.devicePages (s : State) (k : Nat) : List Byte :=
  (below 0x40000).map fun i => Tab.get 0 s.bench.scratch (k * 2 ^ 22 + 60 * 65536 + i)

/-- ISST_START (R463, R465, R109): in A0, on the bench whose turn it is, once it is idle; dispatch to it stops and its device pages go to
the save region. -/
def execIsstStart (stack bench : Nat) (s : State) : Result :=
  let k := benchKey stack bench
  if stack ≥ 12 ∨ s.stage ≠ 4 ∨ s.pwr ≠ 0 ∨ s.getF (R.isstCfg stack) F.isstCfg_enable = 0 ∨ ¬ s.stackUp stack ∨
      s.linkFenced stack ∨ ¬ s.stackMem stack ∨ (s.isstBench stack).isSome ∨ s.isstHeld stack ∨ s.isstNext stack ≠ some bench ∨
      s.getF (R.benchStatus stack bench) F.benchStatus_busy = 1 ∨ s.serve.batches.any (fun e => e.2.begunOn stack) ∨ (Tab.find? s.bench.stalled stack).isSome then go s
  else
    match s.saveRegion stack with
    | none => go s
    | some a =>
      let s := s.storeAnew a (s.devicePages k)
      let s := (s.setF (R.benchStatus stack bench) F.benchStatus_under_test 1).setF (R.stackStatus stack) F.stackStatus_isst_bench bench
      let s := { s with isst := ⟨Tab.insert s.isst.last stack bench, Tab.erase s.isst.draining k⟩ }
      go (s.count 0x11 1 stack 1)

/-- A fault of the tested bench is repaired as the test ends (R466): no work is re-run, and a spare that fails is not substituted. -/
def State.isstRepair (s : State) (stack b : Nat) (f : IsstFault) : State :=
  let s := s.count 0x11 2 stack 1
  match f with
  | .lane e l =>
    match s.fenceUnit (laneLevel stack b e) l with
    | (.out _, s) => (s.fenceUnit (engineLevel stack b) e).2
    | (_, s) => s
  | .engine e => (s.fenceUnit (engineLevel stack b) e).2
  | .logic =>
    let s := (s.fenceUnit (benchLevel stack) b).2.refreshPositions stack
    if s.anyBench stack then s else s.loseBenches stack

/-- Device scratch pages 60 to 63 of bench k as a save region at a holds them, pages 0 to 59 zero (R465)
(log entry 48, DEDUCED). -/
def State.restorePages (s : State) (k a : Nat) : Tab Byte :=
  let lo := k * 2 ^ 22
  let saved := (s.mem.filter fun e => decide (a ≤ e.1) && decide (e.1 < a + 0x40000)).map fun e => (lo + 60 * 65536 + (e.1 - a), e.2)
  (Tab.keep s.bench.scratch fun j _ => decide (j < lo)) ++ saved ++ Tab.keep s.bench.scratch fun j _ => decide (lo + 2 ^ 22 ≤ j)

/-- ISST_END (R465, R466): pages 0 to 59 are zeroed, the saved pages restored, the bench returns to its position unless it is fenced. -/
def execIsstEnd (stack : Nat) (faults : List IsstFault) (bad : Bool) (s : State) : Result :=
  match s.isstBench stack with
  | none => go s
  | some b =>
    let k := benchKey stack b
    let spoilt := bad || !(s.scratchBad (k * 2 ^ 22 + 60 * 65536) 0x40000).isEmpty || ((s.saveRegion stack).map fun a => s.uncorrectable a 0x40000).getD false
    let found := if spoilt then faults ++ [IsstFault.logic] else faults
    let s := s.isstLeave stack b (bit !found.isEmpty)
    let s := match s.saveRegion stack with
      | some a => { s with bench := { s.bench with
          scratch := s.restorePages k a, badScratch := Tab.keep s.bench.badScratch fun w _ => w / 2 ^ 19 != k } }
      | none => s
    go (found.foldl (fun s f => s.isstRepair stack b f) s)

/-- ISST_ABANDON (R465, R466): the bench is restored to its position. -/
def execIsstAbandon (stack : Nat) (s : State) : Result := go (s.isstAbandon stack)

/-- ISST_WINDOW_LATE (R463). -/
def execIsstWindowLate (stack bench : Nat) (s : State) : Result :=
  if stack ≥ 12 ∨ s.stage ≠ 4 then go s
  else
    let s := (s.setF (R.isstStatus stack) F.isstStatus_late 1).count 0x11 4 stack 1
    go (s.record { source := 0x11, inst := stack, code := 0x0043, severity := 3, detail := dAt 20 bench })

/-- ISST_DEFER_LIMIT (R109): dispatch to the bench stops until it is idle. -/
def execIsstDeferLimit (stack bench : Nat) (s : State) : Result :=
  if stack ≥ 12 ∨ s.stage ≠ 4 ∨ s.isstNext stack ≠ some bench ∨ (s.isstBench stack).isSome then go s
  else go { s with isst := { s.isst with draining := Tab.insert s.isst.draining (benchKey stack bench) () } }

/-- POST_WAIT_TIMEOUT (R460): the untested parts are fenced as failed. -/
def execPostWaitTimeout (untested : List PostUnit) (s : State) : Result :=
  if s.stage ≠ 2 ∧ s.stage ≠ 3 then go s
  else
    let s := (s.setF R.postStatus F.postStatus_waited 1).record { source := 0x11, inst := 0xFF, code := 0x0043, severity := 3 }
    go (s.postResults untested)

/-- DEVICE_FATAL (R468, R469). -/
def execDeviceFatal (cause : Nat) (s : State) : Result :=
  if s.stage = 9 ∨ s.power.off ∨ ¬ s.pins.pwrGood ∨ cause = 0 ∨ cause > 6 then go s else go (s.fatal cause)

end Sys2Proof.Machine
end

