-- ==== Sys2Proof/Machine/Kernel.lean ====
section
/-! DEFINITION. The steps of a Zenza core: a bundle, the completion of a coprocessor operation, a failed store, an interrupt
(R115 to R140). -/

namespace Sys2Proof.Machine

/-- POST (R133): a descriptor enters a DMA channel behind those it has fetched, checked as one of its ring (R239)
(log entry 157, DEDUCED) (log entry 221, DEDUCED). -/
def State.dmaPost (s : State) (ch : Nat) (raw : List Byte) : State :=
  if ch ≥ 1024 ∨ s.getF (dmaReg R.chanCfg ch) F.chanCfg_enable = 0 ∨ s.chanState ch ≥ 2 then s
  else
    (s.dmaTake ch (s.getF (dmaReg R.chanHead ch) F.chanHead_head) (padTo 64 raw)).dmaSettle ch

/-- The firmware processor that a core is, as the watchdogs number them (the table under R437). -/
def watchdogOf (core : Nat) : Option Nat :=
  if 84 ≤ core ∧ core < 96 then some (core - 73)
  else if 96 ≤ core ∧ core ≤ 98 then some (core - 96)
  else if 99 ≤ core ∧ core ≤ 106 then some (core - 96)
  else none

/-- What a step of a core comes to for the rest of the device: a verdict or an exception of an action program, a POST, a halt, which
acts as the expiry of the core's watchdog, or as the fault of a bench whose controller halts (R137). -/
def State.coreEvent (s : State) (core : Nat) (ev : CoreEvent) (feed : Feed) : State :=
  match ev with
  | .verdict _ => s.actionEnd core ev feed.descs
  | .actionExc _ => s.actionEnd core ev feed.descs
  | .post ch d => s.dmaPost ch d
  | .halted =>
    match watchdogOf core with
    | some w => s.watchdog w []
    | none => if core < 84 then s.benchFaulted (core / 7) (core % 7) else s

/-- What a step of a core comes to for the rest of the device, in order. -/
def State.coreEvents (s : State) (core : Nat) (evs : List CoreEvent) (feed : Feed) : State :=
  evs.foldl (fun s ev => s.coreEvent core ev feed) s

/-- BUNDLE_EXECUTE (R115 to R140). -/
def execBundleExecute (core : Nat) (feed : Feed) (s : State) : Result :=
  let r := s.coreStep core feed
  go (r.2.coreEvents core r.1 feed)

/-- COPROCESSOR_OP_COMPLETE (R129): the oldest outstanding operation; an EXIT that waited for it goes on. -/
def execCoprocessorOpComplete (core cop : Nat) (data : Got) (s : State) : Result :=
  let c := s.core core
  if c.role = .free ∨ c.halted then go s
  else
    let r := s.copComplete core cop c data
    match r.1.stall with
    | .exiting v =>
      let t := r.2.tryExit core r.1 v
      go (t.2.coreEvents core t.1 ⟨[], data, false, [], []⟩)
    | _ => go (r.2.setCore core r.1)

/-- STORE_FAILURE (R136): the oldest failure is known, and taken at once between bundles; for a core that stands at a barrier, or in a
stalled bundle, at the next bundle boundary (log entry 226, DEDUCED). -/
def execStoreFailure (core : Nat) (s : State) : Result :=
  let c := s.core core
  if c.fails.isEmpty ∨ c.role = .free ∨ c.halted then go s
  else
    let take : Result :=
      let r := s.takeStoreFailure core c
      go (r.2.coreEvents core r.1 ⟨[], .bytes [], false, [], []⟩)
    match c.stall with
    | .bar _ _ _ => go (s.setCore core { c with due := true })
    | .held => go (s.setCore core { c with due := true })
    | _ => take

/-- INTERRUPT (R136): a line of a firmware core becomes pending; it is taken at once where the core may take it, and ends the stall of a
WFI, after whose bundle it is taken (R124). -/
def execInterrupt (core line : Nat) (s : State) : Result :=
  let c := s.core core
  if line ≥ 64 ∨ c.role ≠ .firmware ∨ c.halted then go s
  else
    let c := { c with ipend := c.ipend ||| ((1 : Word) <<< line) }
    if c.interruptDue ∧ c.stall = .none then go (s.takeInterrupt core c) else go (s.setCore core c)

end Sys2Proof.Machine
end

