-- ==== Sys2Proof/Machine/Package.lean ====
section
/-! DEFINITION. Power-up, power-down, the test access port and what the pads show (R490, R494, R495, R497, R499). -/

namespace Sys2Proof.Machine

/-- PWR_EN_DEASSERT (R495, R407, R420): OFF with cause 5; THERMTRIP# is released. In OFF the cause stays. -/
def execPwrEnDeassert (s : State) : Result :=
  let s := if s.power.off ∨ ¬ s.pins.pwrGood then s else s.powerOff 5
  go { s with pins := { s.pins with pwrEn := false, thermtripN := true } }

/-- POWER_GOOD (R490, R494): the straps and TEST_MODE are sampled; the boot ROM starts, once DEV_RESET_N is high. While THERMTRIP# is
asserted every rail stays off (R420) (log entry 147, DESIGN CHOICE). -/
def execPowerGood (straps : Nat) (testMode resetN : Bool) (s : State) : Result :=
  if s.pins.pwrGood ∨ ¬ s.pins.thermtripN then go s
  else
    let s := { s with
      power := { s.power with off := false }
      pins := { s.pins with pwrEn := true, pwrGood := true, testMode := testMode, straps := straps % 8, devResetN := resetN,
                            firstStart := !resetN } }
    if resetN then go (s.bootRom false) else go s

/-- IDCODE (R499). -/
def State.idcode (s : State) : Nat := s.getF R.deviceIdent F.deviceIdent_stepping % 16 * 2 ^ 28 + 0x4300 * 2 ^ 12 + 0x15B * 2 + 1

/-- TAP_INSTRUCTION (R499): an EXTEST instruction with DEV_RESET_N high, and a code that is none of the six, act as BYPASS
(log entry 148, DESIGN CHOICE). -/
def execTapInstruction (code : Nat) (s : State) : Result :=
  if ¬ s.pins.pwrGood then go s
  else
    let code := if code > 5 ∨ (code ≥ 3 ∧ s.pins.devResetN) then 1 else code
    let s := { s with pins := { s.pins with tap := code } }
    if code = 0 then go (s.emit (.tapIdcode s.idcode)) else go s

/-! ## What the pads show (R497) -/

/-- The pads of R497. -/
inductive Pad where
  | dperst (p : Nat)
  | wake (fn : Nat)
  | thermtrip
  | pwrgood
  | sgpioClock
  | sgpioLoad
  | pairHbOut
  | pps
  | xspiCs
  | xspiReset
  /-- The high-speed lanes of a power domain, by its number in the table under R402. -/
  | lanes (domain : Nat)
  deriving DecidableEq, Repr

/-- What a pad does: it has no power, drives a level, is at high impedance, in electrical idle, a stopped clock, held at its level
(R413), or in operation. -/
inductive PadLevel where
  | unpowered
  | low
  | high
  | highZ
  | idle
  | stopped
  | held
  | running
  deriving DecidableEq, Repr

/-- The level of a driven pad. -/
def padBit (b : Bool) : PadLevel := if b then .high else .low

/-- What a pad shows in each condition of R497: OFF; DEV_RESET_N low or the boot ROM stage; S1 and S2; the safe state; else operation.
A derived view: the levels themselves are where their rules keep them. The 10 µs pulse of XSPI_RESET_N is timing. -/
def State.pad (s : State) (p : Pad) : PadLevel :=
  let off := s.power.off || !s.pins.pwrGood
  let rom := !s.pins.devResetN || s.stage == 0
  let asleep := decide (2 ≤ s.pwr)
  let safe := s.stage == 9
  match p with
  | .dperst k => if off then .unpowered else padBit (!(rom || asleep || safe || natBit s.pins.portPerst k))
  | .wake fn => if off || rom || safe then .highZ else if (s.epOf fn).wakeAsserted then .low else .highZ
  | .thermtrip => padBit s.pins.thermtripN
  | .pwrgood => padBit (!off)
  | .sgpioClock => if off then .unpowered else if (rom || asleep) && !safe then .stopped else .running
  | .sgpioLoad => if off then .unpowered else if (rom || asleep) && !safe then .low else .running
  | .pairHbOut => if off then .unpowered else padBit (!(rom || asleep || safe) && s.pins.heartbeat && s.pins.hbOut)
  | .pps =>
    if off || rom || safe then .highZ
    else if asleep then (if s.getF R.ptpCfg F.ptpCfg_pps_out = 1 then .running else .highZ)
    else if s.ppsDriven then .running else .highZ
  | .xspiCs => if off then .unpowered else .high
  | .xspiReset => if off then .unpowered else .high
  | .lanes d =>
    if off then .unpowered else if rom || safe then .idle
    else if asleep && Tab.get 0 s.power.rails d != 0 then .held else .running

end Sys2Proof.Machine
end

