-- ==== Sys2Proof/Machine/Slices.lean ====
section
/-! DEFINITION. Slice commands, logging, doorbell and aperture tables, queue contexts (R273 to R289, R502). -/

namespace Sys2Proof.Machine

/-! ## DMA channel ownership (R237, R242, R274) -/

/-- A channel that another slice is to have is as after reset: no ring, no indices, no error (R20). -/
def State.chanFresh (s : State) (ch : Nat) : State :=
  [R.chanRing, R.chanTail, R.chanHead, R.chanCtrl, R.chanStatus, R.chanDone].foldl (fun s f => s.setReg (dmaReg f ch) (resetOf (dmaReg f ch)))
    (s.setWork ch [])

/-- CHAN_CFG_WRITE (R237, R242, R274, R277): the PASID of a slice's channel comes from its binding, and a write of another is
ignored and recorded; it is ignored and recorded while the channel is not idle, an engine of a quiet partition is its slices' alone
(R21, R27), and a new owner finds the context zeroed (R20). -/
def execChanCfgWrite (ch : Nat) (value : Word) (s : State) : Result :=
  let e := ch / 64
  let a := dmaReg R.chanCfg ch
  let owner := getBits value F.chanCfg_owner
  let old := s.chanOwner ch
  if ¬ s.serving ∨ ch ≥ 1024 then go s
  else if s.getF (R.engineStatus e) F.engineStatus_ckpt = 1 ∧ (owner ≠ 0 ∨ getBits value F.chanCfg_enable = 1) then
    go (s.cmdRefused 0x06 e owner ch 0 0x03)
  else if ¬ s.chanIdle ch then
    go (s.writeIgnored 0x06 e a value)
  else if ((owner ≠ 0 ∨ getBits value F.chanCfg_enable = 1) ∧ ¬ s.quietAllows owner (fun q => natBit q.engines e)) ∨
      (getBits value F.chanCfg_leave = 1 ∧ ¬ (s.policyOf owner).leaveOk) then go (s.cmdRefused 0x06 e owner ch 0 0x03)
  else if (if owner = 0 then getBits value F.chanCfg_enable = 1 else owner ≠ old) ∧ ¬ (s.chansUsed owner).contains ch ∧
      (s.chansUsed owner).length + 1 > s.limit owner .channels then
    go ((s.writeIgnored 0x06 e a value).count 0x05 3 owner 1)
  else
    let pasid := if owner = 0 then getBits value F.chanCfg_pasid else (s.slicePasid owner).getD 0
    let v := (List.foldl (fun w (f : Fld) => setBits w f (getBits value f)) 0
      [F.chanCfg_enable, F.chanCfg_leave, F.chanCfg_owner, F.chanCfg_classes])
    let s := if owner = old then s else s.chanFresh ch
    let s := if owner ≠ 0 ∧ owner = old ∧ getBits value F.chanCfg_pasid ≠ pasid then s.writeIgnored 0x06 e a value else s
    go ((s.setReg a (setBits v F.chanCfg_pasid pasid)).chanRefresh ch)

/-! ## Slice commands (R275, R276, R286, R288, R289) -/

/-- The commands a state accepts (the table under R274): op by op. -/
def acceptsOp (state op : Nat) : Bool :=
  match state with
  | 0 => op == 1
  | 1 => [2, 3, 4, 6, 7, 8, 9].contains op
  | 2 => [2, 3, 5, 6, 8, 9].contains op
  | _ => false

/-- A slice command ends with a status. -/
def State.sliceDone (s : State) (op n status : Nat) : State :=
  let s := { s with sliceCmd := none }
  let s := s.setReg R.sliceCmdGo (setBits (setBits 0 F.sliceCmdGo_status status) F.sliceCmdGo_slice n)
  if status = 0 then s.count 0x05 0 n 1
  else
    let s := if status = 0x04 then s.count 0x05 3 n 1 else s
    s.cmdRefused 0x05 n n n op status

/-- A slice command stays in progress. -/
def State.sliceWaits (s : State) (op n : Nat) : State :=
  let s := { s with sliceCmd := some (op, n) }
  s.setReg R.sliceCmdGo (setBits (setBits 0 F.sliceCmdGo_busy 1) F.sliceCmdGo_slice n)

/-- The registers of a slice's entry. -/
def sliceEntryRegs (n : Nat) : List Nat :=
  [R.sliceBind n, R.slicePolicy n, R.sliceQuotaMem n, R.sliceQuotaQ n, R.sliceQuotaNet n, R.sliceQuotaServe n, R.sliceShare n,
   R.logCfg n, R.logBaseA n, R.logBaseB n]

/-- The frame of a slice command of an op: the block answers, no command is in progress, and the first two statuses of R275;
a mirrored slice asks the standby first (R449).
more: what further makes the state wrong; bad: a field out of range; f: the command itself. -/
def State.sliceCmdGo (s : State) (value : Word) (op : Nat) (more bad : State → Nat → Bool) (f : State → Nat → State) : Result :=
  let n := getBits value F.sliceCmdGo_slice
  if ¬ s.serving ∨ getBits value F.sliceCmdGo_op ≠ op then go s
  else if s.getF R.sliceCmdGo F.sliceCmdGo_busy = 1 then go (s.writeIgnored 0x05 n R.sliceCmdGo value)
  else if ¬ acceptsOp (s.sliceState n) op ∨ more s n then go (s.sliceDone op n 0x01)
  else if (n = 0 ∧ op ≤ 5) ∨ bad s n then go (s.sliceDone op n 0x02)
  else
    let v := s.standbySays 3 n
    let s := v.2.tell 3 n (.writes ((sliceEntryRegs n).map (fun a => (a, s.reg a)) ++ [(R.sliceCmdGo, value)]))
    if v.1 = 0 then go (f s n) else go (s.sliceDone op n v.1)

/-- No further condition. -/
def never (_ : State) (_ : Nat) : Bool := false

/-- The function of a slice is in a Function Level Reset (R275). -/
def inFlr (s : State) (n : Nat) : Bool := s.getF (R.epStatus (s.sliceFn n)) F.epStatus_flr_busy == 1

/-- The fields of a slice's entry registers as they would come into force (R276). -/
def State.staged (s : State) (n : Nat) : SliceForce :=
  ⟨s.reg (R.slicePolicy n), s.reg (R.sliceQuotaMem n), s.reg (R.sliceQuotaQ n), s.reg (R.sliceQuotaNet n),
    s.reg (R.sliceQuotaServe n), s.reg (R.sliceShare n), s.reg (R.logCfg n), s.reg (R.logBaseA n), s.reg (R.logBaseB n), true⟩

/-- A field of the entry is out of range (R275). -/
def entryBad (s : State) (n : Nat) : Bool :=
  let f := s.staged n
  let base := getBits f.policy F.slicePolicy_vec_base
  let count := getBits f.policy F.slicePolicy_vec_count
  (count != 0 && (base == 0 || decide (base + count > 2048))) ||
  decide (quotaOf f .rings > 4096) || decide (quotaOf f .queuePairs > 4096) || decide (quotaOf f .channels > 1024) ||
  decide (quotaOf f .benchQueues > 1024) || decide (quotaOf f .keySlots > 65536) || decide (quotaOf f .connections > 16777216) ||
  decide (quotaOf f .sequences > 4096) || decide (quotaOf f .frames > 4194304)

/-- A quota in the unit of State.use. -/
def quotaUse (f : SliceForce) (r : Res) : Nat :=
  match r with
  | .hbm | .ddr => quotaOf f r * gib
  | _ => quotaOf f r

/-- The vectors of its range that an enabled ring of a slice is set to, relative to it (R282). -/
def State.vectorsOf (s : State) (n : Nat) : List Nat :=
  (s.ringsOf n).map (fun r => s.getF (R.crCfg r) F.crCfg_vector) ++ (s.pairsOf n).map fun q => s.getF (R.qpCfg q) F.qpCfg_vector

/-- A quota of the entry lies below the slice's present use, a vector of an enabled ring among it (R275, R277). -/
def lowersBelowUse (s : State) (n : Nat) : Bool :=
  (allRes.any fun r => decide (quotaUse (s.staged n) r < s.use n r)) ||
  (s.vectorsOf n).any fun v => decide (getBits (s.staged n).policy F.slicePolicy_vec_count ≤ v)

/-- The device pool of a resource in its quota's unit (R277). -/
def State.pool (s : State) : Res → Nat
  | .hbm =>
    let plain := ((below 12).filter fun st => s.stackMem st).length * (2 ^ 35 - s.stitchedSize)
    (plain + (if s.getF R.stitchStatus F.stitchStatus_lost = 1 then 0 else 10 * s.stitchedSize)) / gib
  | .ddr => (s.mainSize - s.stagingSize) / gib
  | .benchQueues => 1024
  | .rings => 4096
  | .channels => if s.getF (R.engineStatus 15) F.engineStatus_ckpt = 1 then 960 else 1024
  | .queuePairs => 4096
  | .connections => 16777216
  | .keySlots => 65536
  | .sequences => 4096
  | .frames => 4194304

/-- The Gb/s of a network port (R321). -/
def State.portRate (s : State) : Nat := [1600, 800, 400, 400].getD (s.getF R.netCfg F.netCfg_mode) 400

/-- A slice is active, or returns to active when its reset ends (R273, R286). -/
def State.sliceLives (s : State) (n : Nat) : Bool := s.sliceState n == 1 || (s.sliceState n == 3 && s.sliceCmd != some (2, n))

/-- The binding of a slice clashes with another active slice of its function (R273, R502) (log entry 236, DEDUCED). -/
def State.pasidClash (s : State) (n : Nat) : Bool :=
  let b := s.reg (R.sliceBind n)
  let fn := getBits b F.sliceBind_function
  let want := if getBits b F.sliceBind_pasid_en = 1 then some (getBits b F.sliceBind_pasid) else none
  ((s.slicesOf fn).any fun m => m != n && s.sliceLives m && s.slicePasid m == want) || (fn == 0 && n != 0 && want.isNone)

/-- The conflicts of R275's third rule for the entry of a slice. bind: the binding counts, as at a create. -/
def State.entryConflict (s : State) (n : Nat) (bind : Bool) : Bool :=
  let f := s.staged n
  let p := s.policyOf n
  let fn := s.sliceFn n
  let ports := getBits f.policy F.slicePolicy_acc_ports + getBits f.policy F.slicePolicy_drive_ports % 256 * 256
  let base := getBits f.policy F.slicePolicy_vec_base
  let count := getBits f.policy F.slicePolicy_vec_count
  (bind && s.pasidClash n) || ((s.others n).any fun e => s.slicePorts e.1 &&& ports != 0) ||
  getBits f.policy F.slicePolicy_classes &&& (15 - p.classes % 16) != 0 ||
  s.getF (R.sliceBind n) F.sliceBind_quiet != (s.quietOf n).getD 0 ||
  (allRes.any fun r => decide (quotaOf f r > p.ceilings.getD r.index (s.pool r))) ||
  ((s.others n).any fun e => s.sliceFn e.1 == fn && count != 0 &&
    getBits e.2.policy F.slicePolicy_vec_count != 0 &&
    meets base count (getBits e.2.policy F.slicePolicy_vec_base) (getBits e.2.policy F.slicePolicy_vec_count))

/-- The shortages of R275's fourth rule for the entry of a slice. -/
def State.entryShort (s : State) (n : Nat) : Bool :=
  let f := s.staged n
  let os := s.others n
  let sum := fun (g : SliceForce → Nat) => os.foldl (fun k (e : Nat × SliceForce) => k + g e.2) (g f)
  (allRes.any fun r => decide (sum (fun x => quotaOf x r) > s.pool r)) ||
  ((below 12).any fun st => s.mayUseStack n st &&
    decide ((os.filter fun e => s.mayUseStack e.1 st).foldl (fun k (e : Nat × SliceForce) => k + getBits e.2.share F.sliceShare_bench_share)
      (getBits f.share F.sliceShare_bench_share) > 256)) ||
  decide (sum (fun x => getBits x.share F.sliceShare_net_min_gbps) > s.portRate)

/-- Take a slice's entry into force where orders 3 and 4 of R275 pass (R276) (log entry 120, DEDUCED). -/
def State.takeEntry (s : State) (op n : Nat) (bind : Bool) : State :=
  if s.entryConflict n bind then s.sliceDone op n 0x03
  else if s.entryShort n then s.sliceDone op n 0x04
  else
    let s := { s with force := Tab.insert s.force n (s.staged n) }
    let s := if bind then s.setSliceState n 1 else s
    s.portOwners.sliceDone op n 0

/-- SLICE_CREATE (R273, R275, R276). -/
def execSliceCreate (value : Word) (s : State) : Result :=
  s.sliceCmdGo value 1 never entryBad fun s n => s.takeEntry 1 n true

/-- SLICE_DESTROY (R289): a reset first; the command is in progress until it ends. -/
def execSliceDestroy (value : Word) (s : State) : Result :=
  s.sliceCmdGo value 2 never never fun s n => (s.resetStart n).sliceWaits 2 n

/-- SLICE_RESET (R286). -/
def execSliceReset (value : Word) (s : State) : Result :=
  s.sliceCmdGo value 3 inFlr never fun s n => (s.resetStart n).sliceWaits 3 n

/-- SLICE_QUIESCE (R288): fetching stops; the command is in progress until everything fetched has completed. -/
def execSliceQuiesce (value : Word) (s : State) : Result :=
  s.sliceCmdGo value 4 inFlr never fun s n => (s.setSliceState n 2).sliceWaits 4 n

/-- A standby holds its mirrored slices quiesced (R447). -/
def standbyHolds (s : State) (n : Nat) : Bool :=
  decide (1 ≤ s.pairState) && decide (s.pairState ≤ 3) && !s.pairActive && s.mirroredSlice n

/-- The commands of a slice that mirrored NVMe queue state left accepted and not completed end with 0/0x22, DNR clear (R454). -/
def State.completeOwed (s : State) (n : Nat) : State :=
  let mine := (s.pair.owed.map Prod.fst).filter fun k => s.qpSlice (k / 65536) == n
  mine.foldl (fun s k =>
    let q := k / 65536
    let s := { s with pair := { s.pair with owed := Tab.erase s.pair.owed k } }
    s.cqePost q ⟨0, s.getF (R.qpStatus q) F.qpStatus_sq_head, sqIdOf q, k % 65536, 0x22, false⟩) s

/-- SLICE_RESUME (R288, R454); the binding must not clash with a slice that became active since (R273, R275). -/
def execSliceResume (value : Word) (s : State) : Result :=
  s.sliceCmdGo value 5 standbyHolds never fun s n =>
    if s.pasidClash n then s.sliceDone 5 n 0x03 else ((s.setSliceState n 1).completeOwed n).sliceDone 5 n 0

/-- SLICE_APPLY (R275, R276). -/
def execSliceApply (value : Word) (s : State) : Result :=
  s.sliceCmdGo value 6 lowersBelowUse entryBad fun s n => s.takeEntry 6 n false

/-- LOG_START (R283): the overflow flag is cleared and logging begins into buffer A. -/
def execLogStart (value : Word) (s : State) : Result :=
  s.sliceCmdGo value 7 never never fun s n =>
    let s := (s.setF (R.logCfg n) F.logCfg_active 1).setF (R.logCfg n) F.logCfg_buffer 0
    (s.setF (R.logCfg n) F.logCfg_overflow 0).sliceDone 7 n 0

/-- Logging of a slice is not active. -/
def notLogging (s : State) (n : Nat) : Bool := s.getF (R.logCfg n) F.logCfg_active == 0

/-- LOG_SWAP (R285): later writes are logged in the other buffer; the command is in progress until LOG_SWAP_DONE
(log entry 121, DEDUCED). -/
def execLogSwap (value : Word) (s : State) : Result :=
  s.sliceCmdGo value 8 notLogging never fun s n =>
    (s.setF (R.logCfg n) F.logCfg_buffer (1 - s.getF (R.logCfg n) F.logCfg_buffer)).sliceWaits 8 n

/-- LOG_STOP (R285): a swap into no buffer. -/
def execLogStop (value : Word) (s : State) : Result :=
  s.sliceCmdGo value 9 notLogging never fun s n => (s.setF (R.logCfg n) F.logCfg_active 0).sliceWaits 9 n

/-- LOG_SWAP_DONE (R285): only once every bit of the old buffer is written; the zero-length read behind the last one completes. Without
a path to the host the command fails with 0x0014 (R267) (log entry 121, DEDUCED). -/
def execLogSwapDone (slice : Nat) (s : State) : Result :=
  match s.sliceCmd with
  | some (op, n) =>
    let old := s.dirty.any fun d => d.slice == n &&
      (op == 9 || d.buffer != s.getF (R.logCfg n) F.logCfg_buffer)
    let base := if s.getF (R.logCfg n) F.logCfg_buffer = (if op = 8 then 1 else 0) then getBits (s.forceOf n).logA F.logBaseA_base
      else getBits (s.forceOf n).logB F.logBaseB_base
    if n ≠ slice ∨ (op ≠ 8 ∧ op ≠ 9) then go s
    else if ¬ s.hostPath (s.sliceFn n) then go (s.sliceDone op n 0x14)
    else if old then go s
    else go ((s.emitReads (s.sliceFn n) none (base * 4096) 0).sliceDone op n 0)
  | none => go s

/-- DIRTY_BIT_WRITE (R284): the bit of the oldest logged page, in its buffer, without a PASID. A word that cannot be read leaves
the bit to be written. -/
def execDirtyBitWrite (old : Got) (s : State) : Result :=
  match s.dirty with
  | [] => go s
  | d :: r =>
    let fn := d.fn
    let a := d.base + d.page / 64 * 8
    if s.hostPath fn && (s.nextTag fn).isNone then go s else
    let r8 : Got × State := if s.hostPath fn then s.hostRead fn none a 8 old else (old, s)
    let s := r8.2
    match r8.1 with
    | .bytes l =>
      if ¬ s.hostPath fn ∨ l.length ≠ 8 then go s
      else
        let w := leNat l ||| 2 ^ (d.page % 64)
        go ({ s with dirty := r }.emitWrites fn none a (bytesLE 8 w))
    | .fail _ => go s

/-- SLICE_RESET_DONE (R286, R289): once its commands with a backend have ended, or the storage timeout has. A destroyed slice goes
on to zeroing (log entry 122, DEDUCED). -/
def execSliceResetDone (slice : Nat) (force : Bool) (s : State) : Result :=
  if s.sliceState slice ≠ 3 ∨ (s.storeBusy slice ∧ ¬ force) then go s
  else
    let s := { s with store := { s.store with cmds := Tab.keep s.store.cmds fun _ c => c.slice != slice } }
    let s := s.resetEnd slice
    match s.sliceCmd with
    | some (op, n) =>
      if n ≠ slice then go (s.setSliceState slice 1)
      else if op = 2 then go ((s.destroySlice slice).sliceDone 2 slice 0)
      else if op = 3 then go ((s.setSliceState slice 1).sliceDone 3 slice 0)
      else go (s.setSliceState slice 1)
    | none => go (s.setSliceState slice 1)

/-- QUIESCE_DONE (R288). -/
def execQuiesceDone (slice : Nat) (s : State) : Result :=
  if s.sliceCmd = some (4, slice) ∧ ¬ s.sliceBusy slice then go (s.sliceDone 4 slice 0) else go s

/-- SLICE_ZEROING_DONE (R289): no region, frame, scratch page or key of the slice is left to zero; the contexts of its connections, which
answered until now (R287), are gone. -/
def execSliceZeroingDone (slice : Nat) (s : State) : Result :=
  let left := (s.regions.any fun e => e.2.owner == slice) || (s.serve.frames.any fun e => e.2.slice == slice) ||
    (s.bench.leftBy.any fun e => e.2 == slice)
  if s.sliceState slice ≠ 4 ∨ left then go s else go ((s.dropConns slice).setSliceState slice 0)

/-! ## Doorbell and aperture tables (R278, R280) -/

/-- DOORBELL_ENTRY_WRITE (R278). -/
def execDoorbellEntryWrite (fn p : Nat) (value : Word) (s : State) : Result :=
  let slice := getBits value F.doorbellEntry_slice
  let kind := getBits value F.doorbellEntry_kind
  let bound := s.sliceState slice ≠ 0 ∧ s.sliceFn slice = fn
  let owned := kind = 0 ∨ s.queueOwner kind (getBits value F.doorbellEntry_queue) = some slice
  let v := List.foldl (fun w (f : Fld) => setBits w f (getBits value f)) 0
    [F.doorbellEntry_valid, F.doorbellEntry_kind, F.doorbellEntry_slice, F.doorbellEntry_queue]
  if ¬ s.serving ∨ fn ≥ 2 ∨ p ≥ 16384 then go s
  else if getBits value F.doorbellEntry_valid = 1 ∧ ¬ (bound ∧ owned) then
    go (s.writeIgnored 0x05 slice (R.doorbellEntry fn p) value)
  else
    let w := s.standbySays 3 slice
    let s := w.2.tell 3 slice (.writes [(R.doorbellEntry fn p, value)])
    if w.1 = 0 then go (s.setReg (R.doorbellEntry fn p) v) else go (s.writeIgnored 0x05 slice (R.doorbellEntry fn p) value)

/-- The BAR4 range of an aperture entry in units of 2 MiB: first and count. -/
def State.aperture (s : State) (fn a : Nat) : Nat × Nat :=
  (s.getF (R.aperBar fn a) F.aperBar_bar_base, s.getF (R.aperSize fn a) F.aperSize_units)

/-- A valid entry of a function overlaps another valid one (R280). -/
def State.apertureClash (s : State) (fn a : Nat) : Bool :=
  s.getF (R.aperCtrl fn a) F.aperCtrl_valid == 1 &&
  (s.listedWith (R.aperCtrl fn 0) 0x20 4096 [(F.aperCtrl_valid, 1)]).any fun b =>
    b != a && meets (s.aperture fn a).1 (s.aperture fn a).2 (s.aperture fn b).1 (s.aperture fn b).2

/-- APERTURE_ENTRY_WRITE (R280): a write that would leave the entry valid and overlapping is ignored (log entry 124, DEDUCED). -/
def execApertureEntryWrite (fn a word : Nat) (value : Word) (s : State) : Result :=
  let reg := R.aperBar fn a + 8 * word
  let fields := match word with
    | 0 => [F.aperBar_bar_base]
    | 1 => [F.aperPa_pa_base]
    | 2 => [F.aperSize_units]
    | _ => [F.aperCtrl_valid, F.aperCtrl_slice, F.aperCtrl_w, F.aperCtrl_r]
  if ¬ s.serving ∨ fn ≥ 2 ∨ a ≥ 4096 ∨ word ≥ 4 then go s
  else
    let t := s.setReg reg (List.foldl (fun w (f : Fld) => setBits w f (getBits value f)) 0 fields)
    if t.apertureClash fn a then go (s.writeIgnored 0x05 (s.getF (R.aperCtrl fn a) F.aperCtrl_slice) reg value)
    else
      let n := t.getF (R.aperCtrl fn a) F.aperCtrl_slice
      let w := s.standbySays 3 n
      if w.1 ≠ 0 then go (w.2.writeIgnored 0x05 n reg value)
      else go (({ t with pair := w.2.pair }).tell 3 n (.writes [(reg, value)]))

/-! ## Queue contexts (R281, R282) -/

/-- The CFG register, ring register and slot bytes of a queue, its enable and owner fields, and the fields of the register. -/
structure QueueRegs where
  cfg : Nat
  ring : Nat
  slot : Nat
  fields : List Fld
  deriving DecidableEq, Repr

/-- The registers of a queue of a kind; a packet ring's slot follows its direction in the value written. -/
def queueRegs (kind : QueueKind) (q : Nat) (value : Word) : QueueRegs :=
  match kind with
  | .bench => ⟨R.bqCfg q, R.bqRing q, 128, [F.bqCfg_enable, F.bqCfg_owner]⟩
  | .completion => ⟨R.crCfg q, R.crRing q, 32, [F.crCfg_enable, F.crCfg_owner, F.crCfg_irq, F.crCfg_vector]⟩
  | .packet => ⟨R.prCfg q, R.prRing q, if getBits value F.prCfg_dir = 1 then 32 else 16,
      [F.prCfg_enable, F.prCfg_dir, F.prCfg_owner, F.prCfg_cq]⟩
  | .cipher => ⟨R.cqCfg q, R.cqRing q, 64, [F.cqCfg_enable, F.cqCfg_owner, F.cqCfg_cq]⟩

/-- The number of queues of a kind. -/
def queueCount : QueueKind → Nat
  | .bench => 1024
  | .completion => 4096
  | .packet => 16384
  | .cipher => 1024

/-- The owner of a queue to be enabled has no room for it in its quota (R277, R281). -/
def State.queueQuota (s : State) (kind : QueueKind) (owner : Nat) : Bool :=
  match kind with
  | .bench => decide ((s.queuesOf owner).length + 1 > s.limit owner .benchQueues)
  | .completion => decide ((s.ringsOf owner).length + 1 > s.limit owner .rings)
  | _ => false

/-- An enabled queue leaves error state, and a disabled completion ring discards what waits for it (R80, R281, R282). -/
def State.queueTurned (s : State) (kind : QueueKind) (q : Nat) (on : Bool) : State :=
  match kind with
  | .bench => if on then (s.setF (R.bqStatus q) F.bqStatus_state 0).bqRefresh q else s
  | .packet => if on then (s.setF (R.prStatus q) F.prStatus_state 0).prRefresh q else s
  | .cipher => if on then (s.setF (R.cqStatus q) F.cqStatus_state 0).cqRefresh q else s
  | .completion =>
    if on then s
    else
      let held := Tab.get [] s.ringWait q
      let s := { s with ringWait := Tab.erase s.ringWait q }
      held.foldl (fun s x => s.recordLost q x) (s.setF (R.crStatus q) F.crStatus_full 0)

/-- The context of a queue that another slice is to have: indices and status as after reset (R20) (log entry 185, DEDUCED). -/
def State.queueFresh (s : State) (kind : QueueKind) (q : Nat) : State :=
  let regs := match kind with
    | .bench => [R.bqTail q, R.bqStatus q]
    | .packet => [R.prTail q, R.prStatus q]
    | .cipher => [R.cqTail q, R.cqStatus q]
    | .completion => [R.crHead q, R.crStatus q]
  regs.foldl (fun s a => s.setReg a (resetOf a)) s

/-- QUEUE_ENABLE (R281, R282): a slice that was not the owner before finds the context zeroed (R20). -/
def execQueueEnable (kind : QueueKind) (q : Nat) (value : Word) (s : State) : Result :=
  let g := queueRegs kind q value
  let enable : Fld := (63, 63)
  let owner := getBits value (55, 48)
  let v := g.fields.foldl (fun w (f : Fld) => setBits w f (getBits value f)) 0
  let on := s.getF g.cfg enable
  let ignored := s.writeIgnored 0x05 owner g.cfg value
  let fresh (s : State) : State := if getBits (s.reg g.cfg) (55, 48) = owner then s else s.queueFresh kind q
  let base := s.getF g.ring (63, 12) * 4096
  let bytes := ringSlots (s.getF g.ring (3, 0)) * g.slot
  if ¬ s.serving ∨ q ≥ queueCount kind then go s
  else if getBits value enable = 0 then
    let t := (s.setReg g.cfg v).tell 3 owner (.writes [(g.cfg, value)])
    let t := if on = 1 then t.queueTurned kind q false else t
    go (if getBits (s.reg g.cfg) (55, 48) = owner then t else t.queueFresh kind q)
  else if on = 1 ∨ s.sliceState owner ≠ 1 ∨ (s.getF g.ring (4, 4) = 0 ∧ ¬ s.owned owner base bytes) ∨
      (kind = .completion ∧ ¬ s.vectorOk owner (getBits value F.crCfg_vector)) then go ignored
  else if s.queueQuota kind owner then go (ignored.count 0x05 3 owner 1)
  else
    let w := s.standbySays 3 owner
    let s := w.2.tell 3 owner (.writes [(g.ring, s.reg g.ring), (g.cfg, value)])
    if w.1 = 0 then go (((fresh s).setReg g.cfg v).queueTurned kind q true) else go (s.writeIgnored 0x05 owner g.cfg value)

/-- COMPLETION_RING_DOORBELL (R279, R25, R282). -/
def execCompletionRingDoorbell (bell : Bell) (s : State) : Result :=
  match s.bell 3 bell with
  | .dropped n => go (s.bellDropped n)
  | .hit r i =>
    let owner := s.getF (R.crCfg r) F.crCfg_owner
    if s.getF (R.crCfg r) F.crCfg_enable = 0 ∧ bellWrites bell then go (s.setF (R.crHead r) F.crHead_head i)
    else if s.getF (R.crCfg r) F.crCfg_enable = 0 ∨ s.sliceState owner ≠ 1 then go (s.bellDropped owner)
    else if i ≥ s.crSize r then go (s.bellBeyond owner r i)
    else go (s.setF (R.crHead r) F.crHead_head i)

/-- PENDING_RECORD_WRITE (R282): the oldest held record is written once the ring has room, or discarded where the ring is not
its slice's any more. -/
def execPendingRecordWrite (r : Nat) (s : State) : Result :=
  match Tab.get [] s.ringWait r with
  | [] => go s
  | x :: xs =>
    if s.crOpen r x.slice ∧ s.crFull r then go s
    else
      let s := { s with ringWait := Tab.put [] s.ringWait r xs }
      let s := if xs.isEmpty then s.setF (R.crStatus r) F.crStatus_full 0 else s
      go (if s.crOpen r x.slice then s.crWrite r x else s.recordLost r x)

end Sys2Proof.Machine
end

