-- ==== Sys2Proof/Machine/Transport.lean ====
section
/-! DEFINITION. The commands of the chapter on the remote memory transport (R353 to R382). -/

namespace Sys2Proof.Machine

/-! ## Packets in (R354, R356, R357, R365) -/

/-- A connection's slice lets traffic in: it is neither free, resetting nor zeroing (R287). -/
def State.sliceOpen (s : State) (slice : Nat) : Bool := s.sliceState slice == 1 || s.sliceState slice == 2

/-- A request packet of a resident connection: taken in RTR and RTS, NAKed in error and for a slice that is being reset, else
dropped. -/
def State.netRequest (s : State) (n : Nat) (p : RocePkt) (malformed : Bool) (host : Got) : State :=
  match s.conn? n with
  | none => s.netCount 12 0 1
  | some c =>
    if c.state = 4 ∨ ((c.state = 2 ∨ c.state = 3) ∧ ¬ s.sliceOpen c.owner) then s.sendNak n c .operational
    else if c.state = 2 ∨ c.state = 3 then (s.touchConn n).rxPacket n c p malformed host
    else s.netCount 12 c.port 1

/-- REQUEST_PACKET (R354, R356, R359, R365): before full service, with a bad ICRC or naming no connection it is dropped and counted;
for a spilled connection it waits for the context (log entry 99, DEDUCED). -/
def execRequestPacket (p : RocePkt) (icrcOk malformed : Bool) (host : Got) (s : State) : Result :=
  let n := p.conn
  if ¬ s.full ∨ ¬ icrcOk ∨ (s.conn? n).isNone then go (s.netCount 12 (((s.conn? n).map Conn.port).getD 0) 1)
  else if s.isResident n then go (s.netRequest n p malformed host)
  else go { s with net := { s.net with waits := Tab.put [] s.net.waits n (Tab.get [] s.net.waits n ++ [.packet p malformed host]) } }

/-! ## Acknowledgements (R366, R369, R372, R375, R376) -/

/-- Nanoseconds of the timebase. -/
def State.nowNs (s : State) : Nat := s.now.toNat * 5 / 8

/-- The congestion update of an acknowledgement (R375): rtt is the sample of a packet sent once, if there is one; acked the bytes
it retires (log entry 102, DEDUCED). -/
def Conn.congest (c : Conn) (now : Nat) (rtt : Option Nat) (acked : Nat) : Conn :=
  let tLow := c.field 9 (63, 48) * 1000
  let tHigh := c.field 9 (47, 32) * 1000
  let ai := c.field 9 (31, 0)
  let c := if c.ceSeen ∧ now ≥ c.lastCut + c.srtt then { c with w := max c.wMin (c.w / 2), lastCut := now }
    else match rtt with
      | none => c
      | some r =>
        if r > tHigh ∧ now ≥ c.lastCut + c.srtt then
          { c with w := max c.wMin (c.w - c.w * (r - tHigh) / (2 * r)), lastCut := now }
        else if r < tLow then { c with w := min c.wMax (c.w + ai * acked / max 1 c.w) }
        else c
  let c := { c with ceSeen := false }
  match rtt with
  | none => c
  | some r => { c with srtt := if c.srtt = 0 then r else if r ≥ c.srtt then c.srtt + (r - c.srtt) / 8 else c.srtt - (c.srtt - r) / 8 }

/-- A packet that waits for READ data or an atomic result rather than an ACK. -/
def needsData (p : RocePkt) : Bool := p.op == .read || p.op == .cas || p.op == .faa

/-- The retransmit lifetime in ticks (R367). -/
def State.lifetime (s : State) : Nat := usTicks (1000 * max 1 (min 50 (s.getF R.transportCfg F.transportCfg_lifetime_ms)))

/-- Send a packet again, on its next path, while its lifetime lasts (R367, R369, R370). -/
def State.resend (s : State) (n : Nat) (psn : Nat) : State :=
  match s.conn? n with
  | none => s
  | some c =>
    match List.find? (fun (p : TxPkt) => p.pkt.psn == psn) c.unacked with
    | none => s
    | some p =>
      if s.since p.first > s.lifetime then s else
      let path := ({ c with nextPath := (p.path + 1) % c.paths }).pickPath
      let q : TxPkt := { p with path := path, sent := s.now, times := p.times + 1 }
      let c := { c with unacked := c.unacked.map fun x => if x.pkt.psn = psn then q else x }
      ((s.setConn n c).netCount 2 c.port 1).sendPkt n c path q.pkt

/-- Retire the packets a test names, with the congestion update of R375, then complete messages and send on. -/
def State.retire (s : State) (n : Nat) (c : Conn) (gone : TxPkt → Bool) : State :=
  let out := c.unacked.filter gone
  let sample := (List.find? (fun (p : TxPkt) => p.times == 1) out.reverse).map fun p => s.since p.sent * 5 / 8
  let acked := out.foldl (fun n (p : TxPkt) => n + p.pkt.payload.length) 0
  let c : Conn := { c with unacked := c.unacked.filter fun p => !gone p,
                           retries := if out.isEmpty then c.retries else 0, rnrs := if out.isEmpty then c.rnrs else 0,
                           expiries := out.foldl (fun t (p : TxPkt) => Tab.erase t p.path) c.expiries }
  let c := c.congest s.nowNs sample acked
  ((s.setConn n c).completeMsgs n c.msgs.length).pumpConn n

/-- A retransmission-timer period in ticks: 4.096 µs × 2^ack_timeout (R369). -/
def Conn.timer (c : Conn) : Nat := 65536 * 2 ^ min 20 (c.field 7 (20, 16)) / 10

/-- The PSNs a sprayed sender resends on a bitmap: missing ones with eight later PSNs reported, once per timer period (R372). -/
def State.missing (s : State) (c : Conn) : List Nat :=
  (c.unacked.filter fun p => !p.reported && (p.times == 1 || decide (s.since p.sent ≥ c.timer)) &&
    decide ((c.unacked.filter fun q => q.reported && decide (psnDist p.pkt.psn q.pkt.psn < 2 ^ 23)).length ≥ 8)).map fun p => p.pkt.psn

/-- ACK_RECEIVE (R366, R372, R375): PSNs up to the acknowledged one are retired; the bitmap marks PSNs received; an atomic result is
placed (log entry 210, DEDUCED). -/
def execAckReceive (conn psn bitmap : Nat) (echo : Bool) (atomic : Option Nat) (s : State) : Result :=
  match s.conn? conn with
  | none => go s
  | some c =>
    if c.state ≠ 3 then go s
    else
      let upTo (p : TxPkt) : Bool := decide (psnDist p.pkt.psn psn < 2 ^ 23)
      let seen (x : Nat) : Bool := let i := psnDist (psnAdd psn 2) x
        decide (i < 64) && natBit bitmap i
      let c : Conn := { c with ceSeen := c.ceSeen || echo,
                               unacked := c.unacked.map fun p => if seen p.pkt.psn then { p with reported := true } else p }
      match atomic with
      | some old =>
        match List.find? (fun (m : Msg) => m.firstPsn == psn && decide (m.op ≥ 5)) c.msgs with
        | some m =>
          if m.answered then go s
          else
            let r := s.netPut c.owner m.space m.local_ (bytesLE 8 old)
            if r.1 ≠ 0 then
              go (r.2.connError conn r.1 ((c.msgs.findIdx? fun x => x.firstPsn == psn).getD 0))
            else
              let c : Conn := { c with msgs := c.msgs.map fun x => if x.firstPsn = psn then { x with answered := true } else x }
              go (r.2.retire conn c fun p => p.pkt.psn == psn || (upTo p && !needsData p.pkt))
        | none => go (s.setConn conn c)
      | none =>
        let s := s.retire conn c fun p => upTo p && !needsData p.pkt
        match s.conn? conn with
        | some c => go (if c.sprayed then (s.missing c).foldl (fun s x => s.resend conn x) s else s)
        | none => go s

/-- The position of the message that covers a PSN. -/
def Conn.msgAt (c : Conn) (psn : Nat) : Nat := (c.msgs.findIdx? fun m => m.covers psn).getD 0

/-- NAK_RECEIVE (R365, R369, R377): the PSNs before it are acknowledged; a sequence error resends from it, RNR waits, the others are
errors. -/
def execNakReceive (conn psn : Nat) (kind : NakKind) (s : State) : Result :=
  match s.conn? conn with
  | none => go s
  | some c =>
    if c.state ≠ 3 then go s
    else
      let before (p : TxPkt) : Bool := p.pkt.psn != psn && decide (psnDist p.pkt.psn psn < 2 ^ 23) && !needsData p.pkt
      let s := s.retire conn c before
      let c := (s.conn? conn).getD c
      match kind with
      | .sequence => go ((c.unacked.filter fun p => decide (psnDist psn p.pkt.psn < 2 ^ 23)).foldl (fun s p => s.resend conn p.pkt.psn) s)
      | .rnr _ =>
        let s := s.connEvent conn c 0x86 0 0
        let k := c.rnrs + 1
        if c.rnrRetry ≠ 7 ∧ k > c.rnrRetry then go (s.connError conn (s.giveUpCode c) (c.msgAt psn))
        else go (s.setConn conn { c with rnrs := k, rnrWait := true })
      | _ => go (s.connError conn 0x17 (c.msgAt psn))

/-- CNP_RECEIVE (R375). -/
def execCnpReceive (conn : Nat) (s : State) : Result :=
  match s.conn? conn with
  | none => go s
  | some c => go ((s.setConn conn { c with ceSeen := true }).netCount 6 c.port 1)

/-- READ_RESPONSE (R361): data are placed at their offset; the request is answered with its last byte. -/
def execReadResponse (conn psn : Nat) (data : List Byte) (s : State) : Result :=
  match s.conn? conn with
  | none => go s
  | some c =>
    match c.msgs.findIdx? fun m => m.op == 4 && m.covers psn && !m.answered with
    | none => go s
    | some i =>
      match c.msgs[i]? with
      | none => go s
      | some m =>
        let off := psnDist m.firstPsn psn * c.mtu
        let r := s.netPut c.owner m.space (m.local_ + off) (data.take (m.length - off))
        if r.1 ≠ 0 then go (r.2.connError conn r.1 i)
        else
          let c := (r.2.conn? conn).getD c
          let k := psnDist m.firstPsn psn
          let got := if m.got.contains k then m.got else k :: m.got
          let m' : Msg := { m with got := got, answered := decide (got.length ≥ max 1 (ceilDiv m.length c.mtu)) }
          let c : Conn := { c with msgs := c.msgs.set i m' }
          go (r.2.retire conn c fun p => m'.answered && p.pkt.psn == m.firstPsn)

/-! ## Connection commands (R356 to R358) -/

/-- A connection command completes with a status. -/
def State.connDone (s : State) (value : Word) (op status : Nat) : State :=
  let s := s.setReg R.connCmd
    (setBits (setBits 0 F.connCmd_status status) F.connCmd_conn (getBits value F.connCmd_conn))
  if status = 1 ∨ status = 3 then s.cmdRefused 0x0A 0 0 (getBits value F.connCmd_conn) op status else s

/-- The fields of context words 0 to 9 (the table of CONN_DATA). -/
def connFields (i : Nat) : List Fld :=
  match i with
  | 0 => [(63, 61), (55, 48), (47, 32), (31, 31), (30, 30), (29, 29), (28, 25), (23, 0)]
  | 1 => [(47, 24), (23, 0)]
  | 4 => [(63, 48), (47, 47), (42, 40), (37, 32), (31, 16), (15, 0)]
  | 5 => [(63, 12), (4, 4), (3, 0)]
  | 6 => [(63, 12), (4, 4), (3, 0)]
  | 7 => [(59, 48), (43, 32), (30, 28), (26, 24), (20, 16), (12, 8), (1, 0)]
  | _ => [(63, 0)]

/-- Context words 0 to 9 as CONN_DATA holds them, bits of no field as 0 (R2). -/
def State.connWords (s : State) : List Word :=
  (below 10).map fun i => (connFields i).foldl (fun w f => setBits w f (getBits (s.reg (R.connData i)) f)) 0

/-- The twelve words of a context as CONN_DATA shows them. -/
def Conn.words (c : Conn) : List Word :=
  let w (i : Nat) : Word := c.ctx.getD i 0
  [setBits (w 0) (63, 61) c.state, setBits (setBits 0 (47, 24) c.sendPsn) (23, 0) c.expPsn] ++ ((below 8).map fun i => w (i + 2)) ++
  [setBits (setBits 0 (63, 32) c.w) (31, 0) c.srtt,
   setBits (setBits (setBits 0 (63, 48) c.suspended) (47, 40) c.retries) (23, 0) c.unacked.length]

/-- CONN_READ (R357). -/
def execConnRead (value : Word) (s : State) : Result :=
  if ¬ s.serving then go s else
  if ¬ s.full then go (s.connDone value 1 0x01)
  else match s.conn? (getBits value F.connCmd_conn) with
    | none => go (s.connDone value 1 0x01)
    | some c => go ((c.words.zipIdx.foldl (fun s e => s.setReg (R.connData e.2) e.1) s).connDone value 1 0)

/-- A connection in state reset with a context. -/
def Conn.fresh (ctx : List Word) : Conn :=
  { ctx := ctx, state := 0, sendPsn := 0, expPsn := 0, sqHead := 0, sqTail := 0, rqHead := 0, rqTail := 0, msgs := [], txq := [],
    unacked := [], retries := 0, rnrs := 0, rnrWait := false, w := 0, srtt := 0, lastCut := 0, ceSeen := false, ceEcho := false,
    nextPath := 0, expiries := [], suspended := 0, nakSent := false, ahead := [], rx := [], recvs := [], atomics := [],
    sinceAck := 0, cnpAt := none }

/-- CONN_CREATE (R358): 0x0001 where the connection exists or its owner is not active, 0x0004 where the quota is used up or no context
has room. -/
def execConnCreate (value : Word) (s : State) : Result :=
  if ¬ s.serving then go s else
  let n := getBits value F.connCmd_conn
  let c := Conn.fresh s.connWords
  if ¬ s.full ∨ (s.conn? n).isSome ∨ s.sliceState c.owner ≠ 1 then go (s.connDone value 2 0x01)
  else if (s.connsOf c.owner).length + 1 > s.limit c.owner .connections then
    go ((s.count 0x05 3 c.owner 1).connDone value 2 0x04)
  else if s.net.conns.length + 1 > s.connRoom then go (s.connDone value 2 0x04)
  else go ((((s.setConn n c).touchConn n).tellConn n).connDone value 2 0)

/-- The fields of a context are in range: a path MTU of 1 to 3, ack_timeout at most 20, and paths of one port of the mode. -/
def State.contextOk (s : State) (c : Conn) : Bool :=
  decide (c.field 7 (1, 0) ≥ 1) && decide (c.field 7 (20, 16) ≤ 20) && decide (c.port < s.netPorts)

/-- The rings of a context that lie in device memory are the owner's (R281, R360). -/
def State.ringsOwned (s : State) (c : Conn) : Bool :=
  [5, 6].all fun w => c.field w (4, 4) == 1 || s.owned c.owner (c.field w (63, 12) * 4096) (ringSlots (c.field w (3, 0)) * 64)

/-- CONN_MODIFY (R355, R357): 0→1, 1→2, 2→3, any→0 and any→4; others give 0x0001. The owner stays; a queue of another slice, or
a device ring outside the owner's regions, gives 0x0008 (log entry 104, DEDUCED). -/
def execConnModify (value : Word) (s : State) : Result :=
  if ¬ s.serving then go s else
  let n := getBits value F.connCmd_conn
  let words := s.connWords
  match s.conn? n with
  | none => go (s.connDone value 3 0x01)
  | some c =>
    let dest := getBits (words.getD 0 0) (63, 61)
    let w0 := setBits (words.getD 0 0) (55, 48) c.owner
    let x : Conn := { c with ctx := w0 :: words.drop 1, state := dest }
    if ¬ s.full ∨ ¬ (dest = 0 ∨ dest = 4 ∨ (dest = c.state + 1 ∧ dest ≤ 3)) then go (s.connDone value 3 0x01)
    else if dest = 0 then go (((s.setConn n (Conn.fresh x.ctx)).tellConn n).connDone value 3 0)
    else if dest = 4 then go ((s.connError n 0x14 0).connDone value 3 0)
    else if ¬ s.contextOk x ∨ (x.storage ∧ x.owner ≠ 0) then go (s.connDone value 3 0x02)
    else if (s.tmQueue x.queue).owner ≠ x.owner ∨ (s.tmQueue x.ackQueue).owner ≠ x.owner then
      go ((s.blockedName 0x0A x.port x.owner).connDone value 3 0x08)
    else if ¬ s.ringsOwned x then go ((s.blockedName 0x0A x.port x.owner).connDone value 3 0x08)
    else
      let x : Conn := if dest = 2 then { x with expPsn := getBits (words.getD 1 0) (23, 0) } else x
      let x : Conn := if dest = 3 then { x with sendPsn := getBits (words.getD 1 0) (47, 24), w := x.initWindow } else x
      let s := ((s.setConn n x).touchConn n).tellConn n
      let s := if dest = 3 ∧ x.storage then
          ((s.backendsOf 2).filter fun b => s.getF (R.beCfg b) F.beCfg_conn == n).foldl (fun s b => s.backendInit b) s else s
      go (s.connDone value 3 0)

/-- A connection ceases to exist: its unit returns to the pool. -/
def State.dropConn (s : State) (n : Nat) : State :=
  { s with net := { s.net with conns := Tab.erase s.net.conns n, resident := s.net.resident.filter fun x => x != n,
                               waits := Tab.erase s.net.waits n } }

/-- CONN_DESTROY (R357, R377): outstanding work is flushed with 0x0014 first. -/
def execConnDestroy (value : Word) (s : State) : Result :=
  if ¬ s.serving then go s else
  let n := getBits value F.connCmd_conn
  if ¬ s.full ∨ (s.conn? n).isNone then go (s.connDone value 4 0x01)
  else
    let owner := ((s.conn? n).map Conn.owner).getD 0
    go ((((s.connError n 0x14 0).dropConn n).tell 1 owner (.connGone n)).connDone value 4 0)

/-! ## Doorbells and work requests (R360, R361, R374) -/

/-- A doorbell of a connection moves a tail; one beyond the ring is ignored, recorded, and the connection goes on. -/
def State.connBell (s : State) (n i : Nat) (receive : Bool) : State :=
  match s.conn? n with
  | none => s.bellDropped 0
  | some c =>
    if c.state = 4 ∨ c.state = 0 ∨ c.storage ∨ s.sliceState c.owner ≠ 1 then s.bellDropped c.owner
    else if i ≥ ringSlots (c.field (if receive then 6 else 5) (3, 0)) then s.bellBeyond c.owner (n % 2 ^ 16) i
    else s.setConn n (if receive then { c with rqTail := i } else { c with sqTail := i })

/-- A doorbell of a resident connection acts; for a spilled one it waits (R359). -/
def State.connDoorbell (s : State) (b : BellHit) (receive : Bool) : State :=
  match b with
  | .dropped k => s.bellDropped k
  | .hit n i =>
    if (s.conn? n).isNone ∨ ¬ s.full then s.bellDropped (((s.conn? n).map Conn.owner).getD 0)
    else if s.isResident n then (s.touchConn n).connBell n i receive
    else { s with net := { s.net with waits := Tab.put [] s.net.waits n (Tab.get [] s.net.waits n ++ [.bell receive i]) } }

/-- SEND_QUEUE_DOORBELL (R360). -/
def execSendQueueDoorbell (bell : Bell) (s : State) : Result := go (s.connDoorbell (s.bellAt 5 0 bell) false)

/-- RECEIVE_QUEUE_DOORBELL (R360). -/
def execReceiveQueueDoorbell (bell : Bell) (s : State) : Result := go (s.connDoorbell (s.bellAt 5 4 bell) true)

/-- The next work request of a connection, if it is of opcode op (R361). One of no opcode, or that fails a check, completes with
0x0002 once the requests before it are done; in state error it completes with 0x0014. A fenced one, and a READ or atomic beyond
sixteen, waits. -/
def State.workRequest (s : State) (n op : Nat) (host data : Got) : State :=
  match s.conn? n with
  | none => s
  | some c =>
    if c.sqHead = c.sqTail ∨ (c.state ≠ 3 ∧ c.state ≠ 4) ∨ c.storage ∨ s.ringBlocked c.cq ∨ s.ringWaits c.owner (c.field 5 (4, 4)) ∨
        ¬ s.fetches c.owner ∨ (c.state = 3 ∧ ¬ s.isResident n) then s
    else
      match s.ringRead c.owner (c.field 5 (63, 12) * 4096) (c.field 5 (4, 4)) (c.sqHead * 64) 64 host with
      | (.fail code, s) => s.connError n code c.msgs.length
      | (.bytes raw, s) =>
        let f := fieldLE raw
        let code := f 0 1
        let next : Conn := { c with sqHead := (c.sqHead + 1) % ringSlots (c.field 5 (3, 0)) }
        let deep := (c.msgs.filter fun m => decide (m.op ≥ 4)).length
        if code ≤ 6 ∧ code ≠ op then s
        else if c.state = 4 then (s.setConn n next).connRecord n c code (f 4 4) 0x14 0 0
        else if code > 6 ∨ s.badRequest c.owner raw then
          if ¬ c.msgs.isEmpty then s else (s.setConn n next).connRecord n c code (f 4 4) 0x02 0 0
        else if (natBit (f 1 1) 1 ∧ deep > 0) ∨ (op ≥ 4 ∧ deep ≥ 16) then s
        else
          let s := s.setConn n next
          let m : Msg := { owner := .request (f 4 4) (natBit (f 1 1) 0), op := op, length := f 8 4, firstPsn := c.sendPsn,
                           lastPsn := c.sendPsn, local_ := f 16 8, space := f 24 1, got := [], answered := false }
          let got : Got × State := if op ≤ 3 then s.netGet c.owner (f 24 1) (f 16 8) (f 8 4) data
            else match (if f 24 1 = 0 then s.accessCode c.owner (f 16 8) (f 8 4) else none) with
              | some (k, a) => (.fail k, s.recordBlocked 0x0A c.port c.owner k a)
              | none => (.bytes [], s)
          match got with
          | (.fail k, s) => (s.setConn n { next with msgs := c.msgs ++ [m] }).connError n k c.msgs.length
          | (.bytes l, s) =>
            s.netPost n
              { owner := m.owner, op := op, length := f 8 4, imm := f 12 4, rkey := f 28 4, va := f 32 8, operand := f 40 8, swap := f 48 8,
                solicited := natBit (f 1 1) 2, local_ := f 16 8, space := f 24 1, data := l }

/-- SEND (R361). -/
def execSend (conn : Nat) (host data : Got) (s : State) : Result := go (s.workRequest conn 0 host data)

/-- SEND_WITH_IMMEDIATE (R361). -/
def execSendWithImmediate (conn : Nat) (host data : Got) (s : State) : Result := go (s.workRequest conn 1 host data)

/-- RDMA_WRITE (R361). -/
def execRdmaWrite (conn : Nat) (host data : Got) (s : State) : Result := go (s.workRequest conn 2 host data)

/-- RDMA_WRITE_WITH_IMMEDIATE (R361). -/
def execRdmaWriteWithImmediate (conn : Nat) (host data : Got) (s : State) : Result := go (s.workRequest conn 3 host data)

/-- RDMA_READ (R361). -/
def execRdmaRead (conn : Nat) (host : Got) (s : State) : Result := go (s.workRequest conn 4 host (.bytes []))

/-- ATOMIC_COMPARE_SWAP (R361). -/
def execAtomicCompareSwap (conn : Nat) (host : Got) (s : State) : Result := go (s.workRequest conn 5 host (.bytes []))

/-- ATOMIC_FETCH_ADD (R361). -/
def execAtomicFetchAdd (conn : Nat) (host : Got) (s : State) : Result := go (s.workRequest conn 6 host (.bytes []))

/-- RECEIVE (R361): the next receive request is fetched and waits for its message; a bad one completes with 0x0002 once those before
it are consumed, and one of a
connection in error with 0x0014. -/
def execReceive (conn : Nat) (host : Got) (s : State) : Result :=
  match s.conn? conn with
  | none => go s
  | some c =>
    if c.rqHead = c.rqTail ∨ c.state < 1 ∨ s.ringBlocked c.cq ∨ s.ringWaits c.owner (c.field 6 (4, 4)) ∨ ¬ s.fetches c.owner then go s
    else match s.ringRead c.owner (c.field 6 (63, 12) * 4096) (c.field 6 (4, 4)) (c.rqHead * 64) 64 host with
      | (.fail code, s) => go (s.connError conn code 0 true)
      | (.bytes raw, s) =>
        let next : Conn := { c with rqHead := (c.rqHead + 1) % ringSlots (c.field 6 (3, 0)) }
        if c.state = 4 then go ((s.setConn conn next).connRecord conn c 0x10 (fieldLE raw 4 4) 0x14 0 0)
        else if fieldLE raw 0 1 ≠ 0x10 ∨ s.badRequest c.owner raw then
          if ¬ c.recvs.isEmpty ∨ c.rx.any (fun x => x.recv.isSome) then go s
          else go ((s.setConn conn next).connRecord conn c (fieldLE raw 0 1) (fieldLE raw 4 4) 0x02 0 0)
        else
          let s := s.setConn conn { next with recvs := c.recvs ++ [recvOf raw] }
          go (s.finishRx conn host (c.rx.length + 1)).2

/-! ## Timers (R367, R369 to R372) -/

/-- RETRANSMIT_TIMEOUT (R369, R370): a plain connection resends from its oldest PSN, a sprayed one that PSN alone; one retry; three
expiries in succession suspend a path. -/
def execRetransmitTimeout (conn psn : Nat) (s : State) : Result :=
  match s.conn? conn with
  | none => go s
  | some c =>
    match List.find? (fun (p : TxPkt) => p.pkt.psn == psn) c.unacked with
    | none => go s
    | some p =>
      if c.state ≠ 3 ∨ p.reported ∨ c.rnrWait then go s
      else if c.retries + 1 > c.retryCnt then go (s.connError conn (s.giveUpCode c) (c.msgAt psn))
      else
        let k := Tab.get 0 c.expiries p.path + 1
        let suspend := c.sprayed ∧ k ≥ 3
        let c : Conn := { c with retries := c.retries + 1,
                                 expiries := if suspend then Tab.erase c.expiries p.path else Tab.insert c.expiries p.path k,
                                 suspended := if suspend then c.suspended ||| 2 ^ p.path else c.suspended }
        let s := s.setConn conn c
        let s := if suspend then s.connEvent conn c 0x82 0 p.path else s
        if c.sprayed then go (s.resend conn psn)
        else go (c.unacked.foldl (fun s x => s.resend conn x.pkt.psn) s)

/-- RNR_DELAY_END (R369): the oldest unacknowledged packets go out again. -/
def execRnrDelayEnd (conn : Nat) (s : State) : Result :=
  match s.conn? conn with
  | none => go s
  | some c =>
    if ¬ c.rnrWait ∨ c.state ≠ 3 then go s
    else
      let s := s.setConn conn { c with rnrWait := false }
      go (((c.unacked.filter fun p => !p.reported).foldl (fun s p => s.resend conn p.pkt.psn) s).pumpConn conn)

/-- CONNECTION_LIFETIME_EXPIRY (R367, R377). -/
def execConnectionLifetimeExpiry (conn psn : Nat) (s : State) : Result :=
  match s.conn? conn with
  | none => go s
  | some c =>
    if c.state = 3 ∧ c.unacked.any (fun p => p.pkt.psn == psn) then go (s.connError conn (s.giveUpCode c) (c.msgAt psn)) else go s

/-- PATH_RESUME (R370). -/
def execPathResume (conn path : Nat) (s : State) : Result :=
  match s.conn? conn with
  | none => go s
  | some c => go (if natBit c.suspended path then s.setConn conn { c with suspended := c.suspended - 2 ^ path } else s)

/-- ACK_TIMER (R372). -/
def execAckTimer (conn : Nat) (s : State) : Result :=
  match s.conn? conn with
  | none => go s
  | some c => go (if c.sprayed ∧ c.sinceAck > 0 then s.sendAck conn else s)

/-! ## Contexts, regions, events (R359, R364, R378) -/

/-- What waited for a context is handled in order. -/
def State.wakeConn (s : State) (n : Nat) (l : List NetWait) : State :=
  l.foldl (fun s w => match w with
    | .packet p bad host => s.netRequest n p bad host
    | .bell receive i => s.connBell n i receive) s

/-- CONTEXT_FILL_DONE (R359, R377): what waits is handled; a context that fails its check puts the connection in error with
0x0010. -/
def execContextFillDone (conn : Nat) (ok : Bool) (s : State) : Result :=
  match s.conn? conn with
  | none => go s
  | some c =>
    if s.isResident conn then go s
    else
      let l := Tab.get [] s.net.waits conn
      let s := { s with net := { s.net with waits := Tab.erase s.net.waits conn } }
      let s := (s.touchConn conn).netCount 7 c.port 1
      let s := if ok then s else s.connError conn 0x10 0
      go (s.wakeConn conn l)

/-- MR_INVAL (R364): busy until no packet is placed under the old entry; a write while busy is ignored and recorded
(log entry 106, DEDUCED). -/
def execMrInval (value : Word) (s : State) : Result :=
  if ¬ s.serving then go s
  else if s.getF R.mrInval F.mrInval_busy = 1 then go (s.writeIgnored 0x0A 0 R.mrInval value)
  else go ({ s with net := { s.net with inval := some (getBits value F.mrInval_index) } }.setF R.mrInval F.mrInval_busy 1)

/-- MR_INVAL_DONE (R364). -/
def execMrInvalDone (s : State) : Result :=
  match s.net.inval with
  | none => go s
  | some i =>
    let entry := s.bytesAt (s.getF R.mrTable F.mrTable_base * 4096 + i * 32) 32
    let s := s.tell 1 0 (.memRegion i entry)
    go ({ s with net := { s.net with inval := none, mrs := Tab.erase s.net.mrs i } }.setF R.mrInval F.mrInval_busy 0)

/-- WINDOW_AT_MIN (R378). -/
def execWindowAtMin (conn : Nat) (s : State) : Result :=
  match s.conn? conn with
  | none => go s
  | some c => go (if c.state = 3 ∧ c.w = c.wMin then s.connEvent conn c 0x85 0 0 else s)

/-- NET_LINK_CHANGE (R378): event 0x83 or 0x84 on the event ring of each slice's first connection of the port. -/
def execNetLinkChange (port : Nat) (up : Bool) (s : State) : Result :=
  if port ≥ s.netPorts ∨ s.getF (R.netPortStatus port) F.netPortStatus_link_up = bit up then go s
  else
    let s := (s.setF (R.netPortStatus port) F.netPortStatus_link_up (bit up)).setF (R.netPortStatus port) F.netPortStatus_an_done (bit up)
    let s := s.record { source := 0x0A, inst := port, code := 0x0042, detail := dAt 20 (bit up) }
    go ((s.net.conns.foldl (fun (acc : State × List Nat) e =>
      if e.2.port = port ∧ e.2.state ≠ 0 ∧ ¬ acc.2.contains e.2.owner then
        (acc.1.connEvent e.1 e.2 (if up then 0x84 else 0x83) 0 0, e.2.owner :: acc.2)
      else acc) (s, [])).1)

/-! ## Sceran (R379 to R382) -/

/-- The address of record k of the Sceran store. -/
def State.sceranAddr (s : State) (k : Nat) : Nat := s.getF R.sceranStore F.sceranStore_base * 4096 + k * 64

/-- SCERAN_STORE names a region: its 16 MiB are slice 0's (R382). -/
def State.storeNamed (s : State) : Bool :=
  s.getF R.sceranStore F.sceranStore_base != 0 && s.owned 0 (s.sceranAddr 0) (2 ^ 24)

/-- The 18 key bytes of a record. -/
def sceranKey (node : Nat) (epoch : Word) (id : Nat) : List Byte := bytesLE 4 node ++ bytesLE 8 epoch.toNat ++ bytesLE 6 id

/-- What a lookup of the index comes to (R382): the position found, a free position, or neither in 64 probes
(log entry 107, DESIGN CHOICE). -/
def State.sceranFind (s : State) (key : List Byte) : Option Nat × Option Nat :=
  let h := crc64 key
  let at_ (i : Nat) : Nat := (h + i) % 2 ^ 18
  let found := (below 64).find? fun i => match Tab.find? s.net.index (at_ i) with
    | some e => e.hash == h && s.bytesAt (s.sceranAddr e.number) 18 == key
    | none => false
  let free := (below 64).find? fun i => (Tab.find? s.net.index (at_ i)).isNone
  (found.map at_, free.map at_)

/-- SCERAN_STATUS follows the index. -/
def State.sceranRefresh (s : State) : State := s.setF R.sceranStatus F.sceranStatus_records s.net.index.length

/-- The operation code of a request (R379). -/
def scOpCode : ScOp → Nat
  | .message _ => 1
  | .entries .. => 1
  | .outcome .. => 1
  | .write _ _ => 2
  | .read _ _ => 3
  | .cas _ _ _ => 4
  | .faa _ _ => 5

/-- Perform a request: on device memory of slice 0, or a message of the commit (R227): status, old value, data (R379, R382). -/
def State.sceranDo (s : State) (node : Nat) (op : ScOp) : (Nat × Nat × List Byte) × State :=
  let rmw (a : Nat) (f : Nat → Nat) : (Nat × Nat × List Byte) × State :=
    match s.memRead 0x0A 0 6 0 a 8 with
    | (.fail c, s) => ((c, 0, []), s)
    | (.bytes l, s) => match s.memWrite 0x0A 0 6 0 a (bytesLE 8 (f (leNat l))) with
      | (none, s) => ((0, leNat l, []), s)
      | (some c, s) => ((c, 0, []), s)
  match op with
  | .write a l => match s.memWrite 0x0A 0 6 0 a l with
    | (none, s) => ((0, 0, []), s)
    | (some c, s) => ((c, 0, []), s)
  | .read a n => match s.memRead 0x0A 0 6 0 a n with
    | (.bytes l, s) => ((0, 0, l), s)
    | (.fail c, s) => ((c, 0, []), s)
  | .cas a cmp new => rmw a fun old => if old = cmp then new else old
  | .faa a v => rmw a fun old => (old + v) % 2 ^ 64
  | .entries j g r code l => ((0, 0, []), (s.emit (.sceranMessage node (.entries j g r code l))).entriesHeard j g r code l)
  | .outcome j g code =>
    let s := s.emit (.sceranMessage node (.outcome j g code))
    ((0, 0, []), if ((s.ckpt? j).map fun c => c.gen) = some g then s.ckptEnd j (statusKept 0x17 code) else s)
  | .message l => ((0, 0, []), s.emit (.sceranMessage node (.message l)))

/-- A valid entry of the node table has an address (R379). -/
def State.nodeKnown (s : State) (ipv6 : Bool) (addr : Nat) : Bool :=
  (s.listedWith (R.scNode 0) 0x20 4096 [(F.scNode_valid, 1), (F.scNode_ipv6, bit ipv6)]).any fun n =>
    let low := (s.reg (R.scAddr n 1)).toNat
    if ipv6 then (s.reg (R.scAddr n 0)).toNat * 2 ^ 64 + low == addr else low % 2 ^ 32 == addr

/-- A Sceran frame is dropped and counted: before full service, from an address that is not in the node table, or failing its CRC
(R356, R379). -/
def State.sceranDrops (s : State) (ipv6 : Bool) (addr : Nat) (crcOk : Bool) : Option State :=
  if ¬ s.full then some (s.netCount 12 0 1)
  else if ¬ crcOk ∨ ¬ s.nodeKnown ipv6 addr then some ((s.netCount 12 0 1).violation 0x0A 0 addr 0)
  else none

/-- A Sceran response leaves; of a mirrored slice 0 it waits for the standby (R450). -/
def State.sceranAnswer (s : State) (node : Nat) (epoch : Word) (id code status old : Nat) (data : List Byte) : State :=
  if s.replicates 1 0 then s.holdAck (.sceran node epoch id code status old) (.sceran node epoch id status old data)
  else s.nodeFrame node (.sceranAnswer node epoch id status old data)

/-- Put a request's record into the Sceran store at number k and position i of the index (R382). -/
def State.sceranStore (s : State) (k i : Nat) (key : List Byte) (code status old : Nat) : State :=
  let raw := key ++ bytesLE 1 code ++ [1] ++ bytesLE 2 status ++ zeros 2 ++ bytesLE 8 old ++ bytesLE 8 s.now.toNat ++ zeros 24
  let s := (s.memWrite 0x0A 0 6 0 (s.sceranAddr k) raw).2
  ({ s with net := { s.net with index := Tab.insert s.net.index i ⟨crc64 key, k, 1⟩ } }).sceranRefresh

/-- SCERAN_REQUEST (R379, R382): executed once and recorded, answered from its record, or busy. -/
def execSceranRequest (ipv6 : Bool) (addr node : Nat) (epoch : Word) (id : Nat) (op : ScOp) (crcOk : Bool) (s : State) : Result :=
  match s.sceranDrops ipv6 addr crcOk with
  | some s => go s
  | none =>
    let s := s.netCount 9 0 1
    let key := sceranKey node epoch id
    let busy (s : State) : State := (s.netCount 11 0 1).nodeFrame node (.sceranBusy node epoch id)
    if ¬ s.storeNamed then go (busy s)
    else match s.sceranFind key with
      | (some i, _) =>
        match Tab.find? s.net.index i with
        | none => go s
        | some e =>
          let a := s.sceranAddr e.number
          let status := leNat (s.bytesAt (a + 20) 2)
          let old := if scOpCode op ≥ 4 then leNat (s.bytesAt (a + 24) 8) else 0
          let s := s.netCount 10 0 1
          match op with
          | .read t n =>
            (match s.memRead 0x0A 0 6 0 t n with
             | (.bytes l, s) => go (s.sceranAnswer node epoch id (scOpCode op) status 0 l)
             | (.fail _, s) => go (s.sceranAnswer node epoch id (scOpCode op) status 0 []))
          | _ => go (s.sceranAnswer node epoch id (scOpCode op) status old [])
      | (none, none) => go (busy s)
      | (none, some i) =>
        match List.find? (fun (k : Nat) => !s.net.index.any fun e => e.2.number == k) (below (s.net.index.length + 1)) with
        | none => go (busy s)
        | some k =>
          if k ≥ 262144 then go (busy s)
          else
            let r := s.sceranDo node op
            let s := r.2.sceranStore k i key (scOpCode op) r.1.1 r.1.2.1
            go (s.sceranAnswer node epoch id (scOpCode op) r.1.1 r.1.2.1 r.1.2.2)

/-- SCERAN_RESPONSE (R229, R381): the request is done, what waited for it goes on, and a release goes out. -/
def execSceranResponse (frame : ScFrame) (status old : Nat) (data : List Byte) (s : State) : Result :=
  match s.sceranDrops frame.ipv6 frame.addr frame.crcOk with
  | some s => go s
  | none =>
    match Tab.find? s.net.sent frame.id with
    | none => go s
    | some x =>
      let s := { s with net := { s.net with sent := Tab.erase s.net.sent frame.id } }.scFrame x.dest (.sceranRelease x.dest frame.id)
      go (s.scAnswered x.dest x.op status old data)

/-- SCERAN_RELEASE (R382): the record is marked released. -/
def execSceranRelease (node : Nat) (epoch : Word) (frame : ScFrame) (s : State) : Result :=
  match s.sceranDrops frame.ipv6 frame.addr frame.crcOk with
  | some s => go s
  | none =>
    match s.sceranFind (sceranKey node epoch frame.id) with
    | (some i, _) => match Tab.find? s.net.index i with
      | some e =>
        let a := s.sceranAddr e.number
        let s := (s.memWrite 0x0A 0 6 0 (a + 19) [2]).2
        let s := (s.memWrite 0x0A 0 6 0 (a + 40) (bytesLE 8 s.now.toNat)).2
        go { s with net := { s.net with index := Tab.insert s.net.index i { e with state := 2 } } }
      | none => go s
    | _ => go s

/-- SCERAN_RETRANSMIT (R381). -/
def execSceranRetransmit (id : Nat) (s : State) : Result :=
  match Tab.find? s.net.sent id with
  | none => go s
  | some x =>
    go ({ s with net := { s.net with sent := Tab.insert s.net.sent id { x with tries := x.tries + 1 } } }.scFrame x.dest (.sceran x.dest id x.op))

/-- SCERAN_LIFETIME (R229, R381): the operation ends with 0x0012. -/
def execSceranLifetime (id : Nat) (s : State) : Result :=
  match Tab.find? s.net.sent id with
  | none => go s
  | some x => go ({ s with net := { s.net with sent := Tab.erase s.net.sent id } }.scLost x.dest x.op)

/-- SCERAN_RECORD_EXPIRY (R382): the record is freed. -/
def execSceranRecordExpiry (number : Nat) (s : State) : Result :=
  go ({ s with net := { s.net with index := Tab.keep s.net.index fun _ e => e.number != number } }.sceranRefresh)

end Sys2Proof.Machine
end

