-- ==== Sys2Proof/Machine/RegWrite.lean ====
section
/-! DEFINITION. Writes and reads of BAR0 registers (R1 to R3, R28, R432, R503). A write of a register whose writes have a row of
their own acts as that row. -/

namespace Sys2Proof.Machine

/-! ## A register takes a written value (the access types of spec/00_scope.md, R2, R3) -/

/-- The bits of a register that a write of 4 or 8 bytes at an address reaches (R28). -/
def reach (addr : Nat) (wide : Bool) : Word :=
  if wide then 0xFFFFFFFFFFFFFFFF else if addr % 8 = 0 then 0xFFFFFFFF else 0xFFFFFFFF00000000

/-- The written value in its place in the register. -/
def placed (addr : Nat) (wide : Bool) (value : Word) : Word :=
  if wide then value else if addr % 8 = 0 then value &&& 0xFFFFFFFF else value <<< 32

/-- What one field of a register holds after a write of the bits m of v over old: an RW field takes them within its bounds, an RW1C
field loses the bits written 1, an RWL field takes them unless the image is applied, others keep theirs. -/
def FieldDesc.written (f : FieldDesc) (locked : Bool) (m v old : Word) : Nat :=
  let b : Fld := (f.hi, f.lo)
  let new := max f.least (min f.most (getBits ((old &&& ~~~m) ||| (v &&& m)) b))
  let kept := getBits old b
  match f.ty with
  | .rw => new
  | .rwl => if locked then kept else new
  | .rw1c => getBits (old &&& ~~~(v &&& m)) b
  | .ro => kept
  | .wo => kept

/-- What a register holds after a write: reserved bits stay 0 (R2). -/
def RegDesc.written (d : RegDesc) (locked : Bool) (m v old : Word) : Word :=
  d.fields.foldl (fun w f => setBits w (f.hi, f.lo) (f.written locked m v old)) 0

/-- A register has an RWL field (log entry 18, DEDUCED). -/
def RegDesc.hasLock (d : RegDesc) : Bool := d.fields.any fun f => f.ty == .rwl

/-- The index of an address in an array of registers. -/
def arr (a base stride count : Nat) : Option Nat :=
  if base ≤ a ∧ (a - base) % stride = 0 ∧ (a - base) / stride < count then some ((a - base) / stride) else none

/-- The daybook source and instance of a register's block (R474). -/
def regSource (a : Nat) : Nat × Nat :=
  if a < 0x20000 then (0x01, 0)
  else if a < 0x40000 then (0x02, 0)
  else if a < 0x80000 then (0x01, 0)
  else if a < 0x100000 then (0x03, 0)
  else if a < 0x200000 then (0x04, (a - 0x100000) / 0x80000)
  else if a < 0x400000 then (0x06, (a - 0x200000) / 0x10000 % 16)
  else if a < 0x600000 then (0x07, (a - 0x400000) / 0x800 % 16)
  else if a < 0x800000 then (0x09, 0)
  else if a < 0xA00000 then (0x0A, 0)
  else if a < 0xC00000 then (0x08, 0)
  else if a < 0xE00000 then (0x0B, 4)
  else if a < 0x1000000 then (0x0C, 0)
  else if a < 0x2000000 then (0x0E, (a - 0x1000000) / 0x100000)
  else if a < 0x3000000 then (0x0D, 0xFF)
  else (0x05, (a - 0x3010000) / 0x100 % 256)

/-- A write of a register is ignored and recorded. -/
def State.ignoreWrite (s : State) (a : Nat) (v : Word) : State := s.writeIgnored (regSource a).1 (regSource a).2 a v

/-- A write of a register by the access types of its fields alone; a write of an RWL register after image apply is recorded (R3). -/
def State.plainWrite (s : State) (a : Nat) (m v : Word) : State :=
  match regAt a with
  | none => s
  | some d =>
    let w := d.written s.image.isSome m v (s.reg a)
    if d.hasLock ∧ s.image.isSome then (s.ignoreWrite a v).setReg a w else s.setReg a (readsAs a w)

/-- Go on after a command. -/
def afterwards (r : Result) (f : State → Result) : Result :=
  match r with
  | .next s => f s
  | x => x

/-! ## The registers whose writes have rows of their own, or rules of their own -/

/-- The written bits reach a field. -/
def hits (m : Word) (f : Fld) : Bool := fldMask f &&& m != 0

/-- The whole register as a write leaves it (log entry 17, DEDUCED). -/
def State.merged (s : State) (a : Nat) (m v : Word) : Word := (s.reg a &&& ~~~m) ||| (v &&& m)

/-- The first answer of a list of routes. -/
def firstRoute (l : List (Option Result)) : Option Result := l.findSome? id

/-- Clock and reset, power, daybook and security mailbox. -/
def State.routeMgmt (s : State) (a : Nat) (m v : Word) : Option Result :=
  let w := s.merged a m v
  let op := getBits v (7, 0)
  if a = R.timeRate then some (execTimeRateWrite w s)
  else if a = R.timeStep then some (execTimeStepWrite (v &&& m) s)
  else if a = R.timeSrc then some (execTimeSrcWrite w s)
  else if a = R.resetCtrl then some (execResetCtrlWrite (v &&& m) s)
  else if a = R.pwrStateCmd ∧ hits m F.pwrStateCmd_op then
    some (match getBits v F.pwrStateCmd_op with
      | 1 => execToA0 v s
      | 2 => execToA1 v s
      | 3 => execArmS1 v s
      | 4 => execArmS2 v s
      | 5 => execDisarm v s
      | n => s.pwrCmd v n (fun _ => true) fun s => s.pwrDone 0x02)
  else if a = R.padRelease then some (execPadRelease false (v &&& m) s)
  else if a = R.phaseCtrl then some (execPhaseCtrlWrite (v &&& m) s)
  else if a = R.tallySel then some (execTallySel w s)
  else if a = R.tallyDump ∧ hits m F.tallyDump_count then some (execTallyDump w s)
  else if a = R.mboxCmd ∧ hits m F.mboxCmd_op then
    some (match op with
      | 1 => execFlashWrite v s
      | 2 => execFlashErase v s
      | 3 => execStageFirmware v s
      | 4 => execActivateFirmware v s
      | 5 => execCommitFirmware v s
      | 6 => go s
      | 7 => execCommitImage v s
      | 8 => execClaimOwnership v s
      | 9 => execTransferOwnership v s
      | n => s.mbox v n fun s => (some 0x02, s))
  else none

/-- The host-endpoint blocks. -/
def State.routeHost (s : State) (a : Nat) (m v : Word) : Option Result :=
  let fn := (a - 0x100000) / 0x80000
  let w := s.merged a m v
  if a = R.hbCfg fn then some (execHbCfgWrite fn w s)
  else if a = R.hbCount fn then some (execHbCountWrite fn w s)
  else if a = R.intxPend fn then some (execIntxPendWrite fn (v &&& m) s)
  else none

/-- The DMA engines: CHAN_RING keeps its value while the channel is not idle (R24). -/
def State.routeDma (s : State) (a : Nat) (m v : Word) : Option Result :=
  let e := (a - 0x200000) / 0x10000
  let c := (a % 0x10000 - 0x1000) / 0x40
  let ch := e * 64 + c
  if e ≥ 16 ∨ a % 0x10000 < 0x1000 ∨ c ≥ 64 then none
  else if a = R.chanCfg e c then some (execChanCfgWrite ch (s.merged a m v) s)
  else if a = R.chanTail e c then some (if hits m F.chanTail_tail then execDmaDoorbell (.reg ch v) s else go s)
  else if a = R.chanRing e c then
    if s.chanIdle ch then none else some (go (s.ignoreWrite a v))
  else if a = R.chanCtrl e c then
    let w := v &&& m
    let pause := getBits w F.chanCtrl_pause
    let r := if hits m F.chanCtrl_pause ∧ pause ≠ s.getF a F.chanCtrl_pause then execDmaPause ch (pause == 1) s else go s
    let r := if getBits w F.chanCtrl_clear_error = 1 then afterwards r (execDmaClearError ch) else r
    some (if getBits w F.chanCtrl_squash = 1 then afterwards r (execDmaSquash ch) else r)
  else none

/-- The downstream ports: a write of 0b00 leaves an indicator unchanged, drive ports have no feed doorbell page. -/
def State.routePort (s : State) (a : Nat) (m v : Word) : Option Result :=
  let p := (a - 0x400000) / 0x800
  let w := s.merged a m v
  if p ≥ 16 then none
  else if a = R.dpCtrl p then
    let t := s.plainWrite a (m &&& ~~~fldMask F.dpCtrl_port_enable) v
    let on := getBits w F.dpCtrl_port_enable
    let r := if on = s.getF a F.dpCtrl_port_enable then go t else execPortEnableWrite p (on == 1) t
    some (if getBits (v &&& m) F.dpCtrl_hot_reset = 1 then afterwards r (execHotReset p) else r)
  else if a = R.dpSlotCtrl p then
    let skip (f : Fld) : Word := if getBits v f = 0 then fldMask f else 0
    let t := s.plainWrite a
      (m &&& ~~~(fldMask F.dpSlotCtrl_power_ctrl ||| skip F.dpSlotCtrl_pwr_ind ||| skip F.dpSlotCtrl_attn_ind)) v
    let on := getBits w F.dpSlotCtrl_power_ctrl
    some (if on = s.getF a F.dpSlotCtrl_power_ctrl then go t else execPowerCtrlWrite p (on == 1) t)
  else if a = R.dpCfgData p then
    if hits m F.dpCfgData_data then some (execDpCfgAccess p true w none s) else none
  else if a = R.dpDbBase p ∧ p ≥ 8 then some (go s)
  else if a = R.dpDbBase p ∨ a ≥ R.iwBus p 0 then
    let t := s.plainWrite a m v
    some (go (if (below 16).any fun k => t.windowIgnored p k && !s.windowIgnored p k then t.writeIgnored 0x07 p a w else t))
  else none

/-- The packet pipeline: a node with a reserved check keeps its value (R330); a ring register, while its ring is enabled (R281)
(log entry 160, DEDUCED). -/
def State.routePacket (s : State) (a : Nat) (m v : Word) : Option Result :=
  let w := s.merged a m v
  if a = R.objCmd ∧ hits m F.objCmd_op then
    some (match getBits v F.objCmd_op with
      | 1 => execObjRead w s
      | 2 => execObjWrite w s
      | 3 => execObjEnable w s
      | 4 => execObjDisable w s
      | n => go (s.objDone w n 0x02))
  else if (arr a (R.pnA 0) 0x20 256).isSome then
    if getBits w F.pnA_check ≥ 4 then some (go (s.ignoreWrite a v)) else none
  else match arr a (R.prRing 0) 8 (4 * 16384) with
    | none => none
    | some i =>
      let r := i / 4
      match i % 4 with
      | 0 => if s.getF (R.prCfg r) F.prCfg_enable = 1 then some (go (s.ignoreWrite a v)) else none
      | 1 => some (execQueueEnable .packet r w s)
      | 2 => some (if hits m F.prTail_tail then execPacketRingDoorbell (.reg r v) s else go s)
      | _ => none

/-- Transport. -/
def State.routeTransport (s : State) (a : Nat) (m v : Word) : Option Result :=
  let w := s.merged a m v
  if a = R.connCmd ∧ hits m F.connCmd_op then
    some (match getBits v F.connCmd_op with
      | 1 => execConnRead w s
      | 2 => execConnCreate w s
      | 3 => execConnModify w s
      | 4 => execConnDestroy w s
      | n => go (s.connDone w n (if s.full then 0x02 else 0x01)))
  else if a = R.mrInval ∧ hits m F.mrInval_index then some (execMrInval (v &&& m) s)
  else none

/-- Storage: a namespace whose map, size or legs change is looked at again, a backend is initialised; a queue pair's bases keep
their values while it is enabled (R310, R281). -/
def State.routeStorage (s : State) (a : Nat) (m v : Word) : Option Result :=
  let w := s.merged a m v
  if a = R.medReply ∧ hits m F.medReply_tag then some (execMedReply (v &&& m) s)
  else match arr a (R.nsMap 0) 8 (4 * 4096) with
    | some i =>
      let n := i / 4
      if i % 4 = 3 then some (if getBits (v &&& m) F.nsStatus_rearm = 1 then execNsRearm n s else go s)
      else
        let t := s.plainWrite a m v
        if t.reg a = s.reg a then some (go t)
        else
          let off := decide (s.getF (R.nsMap n) F.nsMap_valid = 1 ∧ t.getF (R.nsMap n) F.nsMap_valid = 0)
          let s := if off then s.cleanStop n else s
          let t := if s.getF (R.nsMap n) F.nsMap_valid = 1 then (s.nsChanged n).plainWrite a m v else t
          let t := t.nsRefresh n
          some (go (if t.getF (R.nsMap n) F.nsMap_valid = 1 then t.nsChanged n else t))
    | none => match arr a (R.beCfg 0) 8 (4 * 1024) with
      | some i =>
        let t := s.plainWrite a m v
        some (go (if t.reg a = s.reg a then t
          else if i % 4 = 0 then t.backendInit (i / 4)
          else (t.backendUsers (i / 4)).foldl (fun t u => t.nsRefresh u.1) t))
      | none => match arr a (R.qpSq 0) 8 (8 * 0x1100) with
        | none => none
        | some i =>
          let q := i / 8
          if i % 8 = 2 then some (execQueuePairEnable q w s)
          else if i % 8 < 2 ∧ s.getF (R.qpCfg q) F.qpCfg_enable = 1 then some (go (s.ignoreWrite a v))
          else none

/-- Cipher and hash: KEY_DATA is write-only and kept for the next key command. -/
def State.routeCipher (s : State) (a : Nat) (m v : Word) : Option Result :=
  let w := s.merged a m v
  if a = R.keyCmd ∧ hits m F.keyCmd_op then
    some (match getBits v F.keyCmd_op with
      | 1 => execKeyLoad w s
      | 2 => execKeyGenerate w s
      | 3 => execKeyImport w s
      | 4 => execKeyUnload w s
      | 5 => execKeyRead w s
      | _ => go (s.keyDone w (if s.full then 0x02 else 0x01)))
  else if (arr a (R.keyData 0) 8 8).isSome then some (go (s.setReg a w))
  else match arr a (R.cqRing 0) 8 (4 * 1024) with
    | none => none
    | some i =>
      let q := i / 4
      match i % 4 with
      | 0 => if s.getF (R.cqCfg q) F.cqCfg_enable = 1 then some (go (s.ignoreWrite a v)) else none
      | 1 => some (execQueueEnable .cipher q w s)
      | 2 => some (if hits m F.cqTail_tail then execCipherQueueDoorbell (.reg q v) s else go s)
      | _ => none

/-- A pair command ends with a status (R456, R457); a refusal for the state or for a conflict is recorded (R26, R447). -/
def State.pairDone (s : State) (op status : Nat) : State :=
  let s := (s.setReg R.pairCmd (setBits 0 F.pairCmd_status status)).setF R.pairStatus F.pairStatus_last_status status
  if status = 0x01 ∨ status = 0x03 then s.cmdRefused 0x0C 0 0 0 op status else s

/-- A write of PAIR_CMD with an op that is not defined; ops 1 to 3 are SWITCHOVER, REJOIN and LEAVE, which bring what the partner
answers. -/
def State.routePair (s : State) (a : Nat) (m v : Word) : Option Result :=
  if a = R.pairCmd ∧ hits m F.pairCmd_op then
    if s.getF R.pairCmd F.pairCmd_busy = 1 then some (go (s.ignoreWrite a v))
    else if inRange (getBits v F.pairCmd_op) 1 3 then some (go s)
    else some (go (s.pairDone (getBits v F.pairCmd_op) 0x02))
  else none

/-- A kernel instance runs under window set k on a stack (R96). -/
def State.windowBusy (s : State) (stack k : Nat) : Bool :=
  s.cores.any fun e => e.1 / 7 == stack && decide (e.1 < 84) && e.2.winSet == k && match e.2.role with
    | .kernel _ _ => true
    | _ => false

/-- The bench dies: a window set keeps its values while an instance runs under it (R96), and its writes are mirrored (R449); the device
barriers stand in every stack's block (R100); the block of a stack behind a fenced link keeps every register (R503). -/
def State.routeBench (s : State) (a : Nat) (m v : Word) : Option Result :=
  let st := (a - 0x1000000) / 0x100000
  let off := a % 0x100000
  if a < 0x1000000 ∨ st ≥ 12 then none
  else if s.linkFenced st then some (go (s.ignoreWrite a v))
  else match arr off 0x3100 8 16, arr off 0x3000 8 16 with
    | some b, _ => some (execBarrierOwnerWrite .device b (s.merged (R.deviceBarrier b) m v) s)
    | none, some b => some (execBarrierOwnerWrite (.stack st) b (s.merged a m v) s)
    | none, none =>
        if 0x8000 ≤ off ∧ off < 0x10000 then
          let k := (off - 0x8000) / 0x200
          let owner := s.getF (R.winCtrl st k ((off - 0x8000) / 0x20 % 16)) F.winCtrl_owner
          if s.windowBusy st k then some (go (s.ignoreWrite a v))
          else
            let r := s.standbySays 3 owner
            if r.1 = 0 then some (go ((r.2.plainWrite a m v).tell 3 owner (.writes [(a, (r.2.plainWrite a m v).reg a)])))
            else some (go (r.2.ignoreWrite a v))
        else none

/-- Memory controllers. -/
def State.routeMemory (s : State) (a : Nat) (m v : Word) : Option Result :=
  let w := s.merged a m v
  if a = R.regionCmdGo ∧ hits m F.regionCmdGo_op ∧ getBits v F.regionCmdGo_op ≠ 0 then
    some (match getBits v F.regionCmdGo_op with
      | 1 => execRegionCreate w s
      | 2 => execRegionDestroy w s
      | 3 => execRegionSetBulkMirror w s
      | n => if s.regionIdle then go (s.regionRefuse (getBits w F.regionCmdGo_index) n 0x02) else go (s.ignoreWrite a v))
  else none

/-- Slice tables: SLICE_BIND of a slice that is not free keeps its value (R276); a ring register, while its queue is enabled (R281). -/
def State.routeSlice (s : State) (a : Nat) (m v : Word) : Option Result :=
  let w := s.merged a m v
  if a = R.sliceCmdGo ∧ hits m F.sliceCmdGo_op then
    some (match getBits v F.sliceCmdGo_op with
      | 1 => execSliceCreate w s
      | 2 => execSliceDestroy w s
      | 3 => execSliceReset w s
      | 4 => execSliceQuiesce w s
      | 5 => execSliceResume w s
      | 6 => execSliceApply w s
      | 7 => execLogStart w s
      | 8 => execLogSwap w s
      | 9 => execLogStop w s
      | n =>
        if s.getF R.sliceCmdGo F.sliceCmdGo_busy = 1 then go (s.ignoreWrite a v)
        else go (s.sliceDone n (getBits w F.sliceCmdGo_slice) 0x02))
  else match arr a (R.sliceBind 0) 0x100 256 with
    | some n => if s.sliceState n = 0 then none else some (go (s.ignoreWrite a v))
    | none =>
      let fn := (a - 0x3200000) / 0x20000
      if 0x3200000 ≤ a ∧ a < 0x3240000 then some (execDoorbellEntryWrite fn (a % 0x20000 / 8) w s)
      else if 0x3400000 ≤ a ∧ a < 0x3440000 then
        some (execApertureEntryWrite ((a - 0x3400000) / 0x20000) (a % 0x20000 / 0x20) (a % 0x20 / 8) w s)
      else match arr a (R.bqRing 0) 8 (8 * 1024) with
        | some i =>
          let q := i / 8
          (match i % 8 with
          | 0 => if s.getF (R.bqCfg q) F.bqCfg_enable = 1 then some (go (s.ignoreWrite a v)) else none
          | 1 => some (execQueueEnable .bench q w s)
          | 2 => some (if hits m F.bqTail_tail then execBenchQueueDoorbell (.reg q v) s else go s)
          | _ => none)
        | none => match arr a (R.crRing 0) 8 (4 * 4096) with
          | none => none
          | some i =>
            let r := i / 4
            match i % 4 with
            | 0 => if s.getF (R.crCfg r) F.crCfg_enable = 1 then some (go (s.ignoreWrite a v)) else none
            | 1 => some (execQueueEnable .completion r w s)
            | 2 => some (if hits m F.crHead_head then execCompletionRingDoorbell (.reg r v) s else go s)
            | _ => none

/-- The answer of the register's own row or rule, if it has one (log entry 19, DEDUCED). -/
def State.route (s : State) (a : Nat) (m v : Word) : Option Result :=
  if a < 0x100000 then s.routeMgmt a m v
  else if a < 0x200000 then s.routeHost a m v
  else if a < 0x400000 then s.routeDma a m v
  else if a < 0x600000 then s.routePort a m v
  else if a < 0x800000 then s.routePacket a m v
  else if a < 0xA00000 then s.routeTransport a m v
  else if a < 0xC00000 then s.routeStorage a m v
  else if a < 0xE00000 then s.routeCipher a m v
  else if a < 0x1000000 then s.routePair a m v
  else if a < 0x2000000 then s.routeBench a m v
  else if a < 0x3000000 then s.routeMemory a m v
  else s.routeSlice a m v

/-- A write of the bits m of v to the register at address a (log entry 24, DEDUCED). -/
def State.regWrite (s : State) (a : Nat) (m v : Word) : Result := (s.route a m v).getD (go (s.plainWrite a m v))

/-! ## BAR0 (R1, R28, R432) -/

/-- The block of a BAR0 address answers at the present start-up stage (R432): all of them in service; identity, clock and reset and
the security mailbox from the firmware stage on. -/
def State.answersAt (s : State) (a : Nat) : Bool :=
  s.serving || (s.stage != 0 && (decide (a < 0x20000) || (decide (0x80000 ≤ a) && decide (a < 0x100000))))

/-- Function fn's BAR0 reaches an address: function 0 all of it; function 1 DEVICE_IDENT, HOST_IF_REV and its own host-endpoint
block. -/
def bar0Reaches (fn a : Nat) : Bool := fn == 0 || decide (a < 0x10) || (decide (0x180000 ≤ a) && decide (a < 0x200000))

/-- REGISTER_WRITE (R1 to R3, R28): a write that the function does not perform, a misaligned one and one to a block that does not
answer change no register; a misaligned one and one that finds the function closed are recorded (R272). -/
def execRegisterWrite (fn addr : Nat) (wide : Bool) (value : Word) (s : State) : Result :=
  let a := addr / 8 * 8
  if fn ≥ 2 ∨ addr ≥ 2 ^ 26 then go s
  else if ¬ s.barOpen fn then go (s.violation 0x04 fn addr fn)
  else if addr % (if wide then 8 else 4) ≠ 0 then go (s.violation 0x04 fn addr fn)
  else if ¬ bar0Reaches fn a ∨ ¬ s.answersAt a then go s
  else s.regWrite a (reach addr wide) (placed addr wide value)

/-- What a read of the register at address a returns by the access types of its fields: write-only and reserved fields read 0 (R1). -/
def State.plainRead (s : State) (a : Nat) : Word :=
  match regAt a with
  | none => 0
  | some d => d.fields.foldl (fun w f => if f.ty = .wo then w else setBits w (f.hi, f.lo) (getBits (s.reg a) (f.hi, f.lo))) 0

/-- The 32 bytes of a daybook entry (R474). -/
def DbEntry.bytes (e : DbEntry) : List Byte :=
  bytesLE 8 e.time.toNat ++ bytesLE 4 e.seq ++ bytesLE 1 e.source ++ bytesLE 1 e.inst ++ bytesLE 2 e.code ++ bytesLE 1 e.slice ++
  bytesLE 1 e.severity ++ bytesLE 2 e.status ++ bytesLE 12 e.detail

/-- Word i of the daybook window (R478): entry i / 4 counted from DB_WINDOW.base with its bits 9–0 taken as 0, modulo the ring
(log entry 23, DESIGN CHOICE). -/
def State.dbWindow (s : State) (i : Nat) : Word :=
  let n := s.getF R.dbStatus F.dbStatus_entries
  match Tab.find? s.daybook.ring ((s.getF R.dbWindow F.dbWindow_base / 1024 * 1024 + i / 4) % n) with
  | none => 0
  | some e => BitVec.ofNat 64 (fieldLE e.bytes (i % 4 * 8) 8)

/-- Register i of region entry r (R152, R153): base, size and attributes of the region that holds the entry, and its state; 0 of a free
entry. -/
def State.regionWord (s : State) (r i : Nat) : Word :=
  match Tab.find? s.regions r with
  | none => 0
  | some g => match i with
    | 0 => setBits 0 F.regionBase_base (g.base / 2 ^ 21)
    | 1 => setBits 0 F.regionSize_granules (if g.tier = 1 then g.size / (40 * 2 ^ 20) else if g.tier ≤ 2 then g.size / 2 ^ 21 else 1)
    | 2 => setBits (setBits (setBits 0 F.regionAttr_owner g.owner) F.regionAttr_bulk_mirror (bit g.bulk)) F.regionAttr_tier g.tier
    | _ => setBits 0 F.regionState_state g.state

/-- What an 8-byte read of BAR2 of function fn returns (R1): doorbell pages hold nothing to read, and other offsets are unassigned. -/
def State.bar2Read (_s : State) (_fn _off : Nat) : Word := 0

/-- What an 8-byte read of BAR0 of function fn returns (R1, R432, R478, R503): DB_WIN shows the daybook; of a stack behind a fenced
link the repair maps and the two status registers, idle, are all that is left; the device barriers read the same in every stack's block
(R100); TIMEBASE shows the count
(log entry 20, DEDUCED). -/
def State.bar0Read (s : State) (fn a : Nat) : Word :=
  let st := (a - 0x1000000) / 0x100000
  let off := a % 0x100000
  let daybook := decide (0x40000 ≤ a) && decide (a < 0x80000) && (s.stage == 8 || s.stage == 9)
  if ¬ bar0Reaches fn a ∨ ¬ (s.answersAt a ∨ daybook) then 0
  else if a = R.timebase then s.now
  else if 0x48000 ≤ a ∧ a < 0x50000 then s.dbWindow ((a - 0x48000) / 8)
  else if 0x2008000 ≤ a ∧ a < 0x2028000 then s.regionWord ((a - 0x2008000) / 0x20) (a % 0x20 / 8)
  else if 0x1000000 ≤ a ∧ a < 0x1C00000 ∧ s.linkFenced st then
    if off = 0 then
      setBits (setBits (setBits (s.plainRead a) F.stackStatus_in_service 0) F.stackStatus_ramp_active 0) F.stackStatus_isst_bench 0xFF
    else if 0x80 ≤ off ∧ off < 0xB8 then
      setBits (setBits (s.plainRead a) F.benchStatus_busy 0) F.benchStatus_under_test 0
    else if 0x1000 ≤ off ∧ off < 0x3000 then s.plainRead a
    else 0
  else if 0x1000000 ≤ a ∧ a < 0x1C00000 ∧ 0x3100 ≤ off ∧ off < 0x3180 then s.plainRead (R.deviceBarrier ((off - 0x3100) / 8))
  else s.plainRead a

end Sys2Proof.Machine
end

