-- ==== Sys2Proof/Machine/Pair.lean ====
section
/-! DEFINITION. The mirrored pair (R445 to R458): the welt, pairing, replication, heartbeat and loss, takeover, switchover. -/

namespace Sys2Proof.Machine

/-! ## The welt and the pair's state (R445, R447) -/

/-- PAIR_STATUS.state goes to v, recorded as a state change. -/
def State.setPair (s : State) (v : Nat) : State :=
  (s.setF R.pairStatus F.pairStatus_state v).changed 0x0C 0 20 s.pairState v 0

/-- Change the pair's own state. -/
def State.pairSet (s : State) (f : Pair → Pair) : State := { s with pair := f s.pair }

/-- The lanes the welt uses for a mask of failed lanes: all eight, lanes 0 to 3, lanes 4 to 7, or none (R445). -/
def weltLanes (bad : Nat) : Nat :=
  if bad % 256 = 0 then 0xFF else if bad % 16 = 0 then 0x0F else if bad / 16 % 16 = 0 then 0xF0 else 0

/-- WELT_STATUS and welt_up follow the failed lanes. -/
def State.weltRefresh (s : State) : State :=
  let l := weltLanes s.pair.badLanes
  ((s.setF R.weltStatus F.weltStatus_lanes l).setF R.weltStatus F.weltStatus_width (popCount 8 l)).setF
    R.pairStatus F.pairStatus_welt_up (bit (l != 0))

/-- The welt is up. -/
def State.weltUp (s : State) : Bool := s.getF R.pairStatus F.pairStatus_welt_up == 1

/-- WELT_LINK_UP (R445, R447): the lanes that trained; in a pair that has been narrowed the welt stays on four lanes until the next
pairing, on the same ones where all have trained (log entry 152, DEDUCED). -/
def execWeltLinkUp (lanes : Nat) (s : State) : Result :=
  let bad := 255 - lanes % 256
  let was := s.pair.badLanes
  let four := if was % 16 ≠ 0 ∧ was / 16 % 16 = 0 then 0x0F else 0xF0
  let now := if s.pairState = 0 ∨ s.pairState = 4 ∨ was = 0 ∨ bad ≠ 0 then bad else four
  go (s.pairSet fun p => { p with badLanes := now, untrained := bad }).weltRefresh

/-- WELT_LANE_FAIL (R445): the welt narrows to a whole set of four lanes, or is down. -/
def execWeltLaneFail (lane : Nat) (s : State) : Result :=
  if lane ≥ 8 ∨ ¬ s.weltUp then go s
  else go (s.pairSet fun p => { p with badLanes := p.badLanes ||| 2 ^ lane }).weltRefresh

/-- Let the oldest n held acknowledgements go; PAIR_LAG keeps the longest hold (R450). -/
def State.releaseHeld (s : State) : Nat → State
  | 0 => s
  | n + 1 =>
    match s.pair.held with
    | [] => s
    | (t, a) :: l =>
      let ns := min (2 ^ 32 - 1) (s.since t * 5 / 8)
      let s := s.pairSet fun p => { p with held := l }
      let s := if ns > s.getF R.pairLag F.pairLag_hold_ns then s.setF R.pairLag F.pairLag_hold_ns ns else s
      (match a with
        | .answer conn queue x => (match s.conn? conn with
          | some c => s.connFrame c queue (.answer conn x)
          | none => s)
        | .sceran node epoch id status old data => s.nodeFrame node (.sceranAnswer node epoch id status old data)
        | .cqe q e => s.cqeDeliver q e).releaseHeld n

/-- Mirroring stops: what is held goes out, the bulk backlog is dropped. -/
def State.mirrorStops (s : State) : State :=
  let s := s.releaseHeld s.pair.held.length
  (s.pairSet fun p => { p with bulk := [], bulkStopped := false, verdicts := [], probing := false }).lagRefresh.setF
    R.pairStatus F.pairStatus_fallback 0

/-! ## Pairing (R446, R447, R457) -/

/-- A slice that the pair holds on the standby: mirrored, not slice 0. -/
def State.heldSlices (s : State) : List Nat := (below 256).filter fun n => n != 0 && s.mirroredSlice n

/-- The mirrored slices of the standby are held quiesced (R447). -/
def State.holdSlices (s : State) : State :=
  s.heldSlices.foldl (fun s n => if s.sliceState n = 1 then s.setSliceState n 2 else s) s

/-- Mirrored slices as config updates find them: not held. -/
def State.unholdSlices (s : State) : State :=
  s.heldSlices.foldl (fun s n => if s.sliceState n = 2 then s.setSliceState n 1 else s) s

/-- Why pairing is refused: 0x0021 an identity that does not verify (R446), 0x0003 a difference of layout, slices or classes (R447). -/
def State.pairRefusal (s : State) (p : Partner) : Nat :=
  if ¬ p.verified then 0x21
  else if p.layout ≠ s.reg R.memLayout ∨ p.slices ≠ (below 4).map (fun i => s.reg (R.pairSlices i)) ∨
      p.classes ≠ s.getF R.pairCfg F.pairCfg_classes then 0x03
  else 0

/-- This device becomes active: it alone prefers it, or on a tie its identifier is the lower (R447). -/
def State.becomesActive (s : State) (p : Partner) : Bool :=
  let mine := s.getF R.pairCfg F.pairCfg_prefer_active == 1
  if mine = p.prefer then decide (beNat deviceId < beNat p.id) else mine

/-- Bulk regions of mirrored slices, as runs of 4 KiB pages (log entry 154, DEDUCED). -/
def State.bulkPages (s : State) : List (Nat × Nat) :=
  if natBit (s.getF R.pairCfg F.pairCfg_classes) 0 then
    (s.regions.filter fun e => e.2.bulk && s.mirroredSlice e.2.owner).map fun e => (e.2.base / 4096, e.2.size / 4096)
  else []

/-- The registers of an array's entries whose owner is mirrored, as updates. -/
def State.copyArray (s : State) (base stride count : Nat) (owner : Nat → Nat) (regs : Nat → List Nat) : List MirrorUpd :=
  ((s.listed base stride count).filter fun i => s.mirroredSlice (owner i)).map fun i =>
    .writes ((regs i).map fun a => (a, s.reg a))

/-- The contexts of the queues of a kind, as updates. -/
def State.copyQueues (s : State) (kind : QueueKind) (n : Nat) : List MirrorUpd :=
  let g (q : Nat) : QueueRegs := queueRegs kind q 0
  s.copyArray (g 0).cfg ((g 1).cfg - (g 0).cfg) n (fun q => getBits (s.reg (g q).cfg) (55, 48)) fun q => [(g q).ring, (g q).cfg]

/-- An entry of a classification table as the register writes that insert it. -/
def entryWrites (t : Nat) (l : LookTable) (i : Nat) (key mask result : List Byte) (plen prio : Nat) : List (Nat × Word) :=
  let word (b : List Byte) (k : Nat) : Word := BitVec.ofNat 64 (leNat ((b.drop (8 * k)).take 8))
  (below 8).map (fun k => (R.objData k, word key k)) ++
  (below 4).map (fun k => (R.objData (8 + k), if l.kind = 1 ∧ k = 0 then BitVec.ofNat 64 plen else word mask k)) ++
  [(R.objData 12, BitVec.ofNat 64 prio), (R.objData 13, BitVec.ofNat 64 t), (R.objData 14, word result 0), (R.objData 15, word result 1),
   (R.objCmd, setBits (setBits (setBits 0 F.objCmd_op 2) F.objCmd_kind 6) F.objCmd_index i)]

/-- The updates that copy the classification tables and programs (R448). -/
def State.copyObjects (s : State) : List MirrorUpd :=
  let cmd (op kind i : Nat) : Word := setBits (setBits (setBits 0 F.objCmd_op op) F.objCmd_kind kind) F.objCmd_index i
  s.pkt.tables.flatMap (fun e =>
    .writes [(R.objData 0, e.2.w0), (R.objData 1, e.2.w1), (R.objData 2, e.2.w2), (R.objCmd, cmd 2 5 e.1)] ::
    .writes (entryWrites e.1 e.2 0xFFFFFF [] [] e.2.dflt 0 0) ::
    e.2.entries.map fun x => .writes (entryWrites e.1 e.2 x.1 x.2.key x.2.mask x.2.result x.2.plen x.2.prio)) ++
  s.progs.flatMap fun e =>
    .program e.1 e.2.code e.2.image e.2.codeAt e.2.imageAt :: (if e.2.enabled then [.writes [(R.objCmd, cmd 3 8 e.1)]] else [])

/-- The updates that copy the config class: slices, regions, window sets, doorbell and aperture entries, queue and ring contexts,
key slots, lasts and arenas, tables and programs (R447, R448). -/
def State.copyConfig (s : State) : List MirrorUpd :=
  ((s.heldSlices.filter fun n => s.sliceState n != 0).map fun n =>
    .writes (((sliceEntryRegs n).map fun a => (a, s.reg a)) ++
      [(R.sliceCmdGo, setBits (setBits 0 F.sliceCmdGo_op 1) F.sliceCmdGo_slice n)])) ++
  ((s.regions.filter fun e => decide (e.1 < 4080) && s.mirroredSlice e.2.owner && e.2.state == 1).map fun e =>
    .writes [(R.regionCmdBase, BitVec.ofNat 64 e.2.base), (R.regionCmdSize, BitVec.ofNat 64 (e.2.size / granule e.2.tier)),
      (R.regionCmdAttr, setBits (setBits (setBits 0 F.regionCmdAttr_owner e.2.owner) F.regionCmdAttr_tier e.2.tier)
        F.regionCmdAttr_bulk_mirror (bit e.2.bulk)),
      (R.regionCmdGo, setBits (setBits 0 F.regionCmdGo_op 1) F.regionCmdGo_index e.1)]) ++
  (below 12).flatMap (fun st => s.copyArray (R.winCtrl st 0 0) 0x20 1024 (fun i => s.getF (R.winCtrl st 0 i) F.winCtrl_owner)
    fun i => [R.winVa st 0 i, R.winPa st 0 i, R.winSize st 0 i, R.winCtrl st 0 i]) ++
  (below 2).flatMap (fun fn => s.copyArray (R.doorbellEntry fn 0) 8 16384 (fun p => s.getF (R.doorbellEntry fn p) F.doorbellEntry_slice)
    fun p => [R.doorbellEntry fn p]) ++
  (below 2).flatMap (fun fn => s.copyArray (R.aperCtrl fn 0) 0x20 4096 (fun a => s.getF (R.aperCtrl fn a) F.aperCtrl_slice)
    fun a => [R.aperBar fn a, R.aperPa fn a, R.aperSize fn a, R.aperCtrl fn a]) ++
  s.copyQueues .bench 1024 ++ s.copyQueues .completion 4096 ++ s.copyQueues .packet 16384 ++ s.copyQueues .cipher 1024 ++
  s.copyArray (R.qpCfg 0) 0x40 4352 s.qpSlice (fun q => [R.qpSq q, R.qpCq q, R.qpCfg q]) ++
  ((s.cipher.slots.filter fun e => s.mirroredSlice e.2.owner).map fun e =>
    .key e.1 e.2.kind e.2.owner e.2.salt [e.2.inverse, e.2.enc, e.2.dec, e.2.nonceHw] e.2.counter e.2.limit e.2.key) ++
  s.serve.lasts.map (fun e => .last e.1 e.2.raw e.2.layers) ++
  s.serve.arenas.map (fun e => .arena e.1 e.2.last e.2.size e.2.frame) ++ s.copyObjects

/-- The updates that copy the session class: connections, the memory region table, NVMe queue state, sequence entries (R448). -/
def State.copySession (s : State) : List MirrorUpd :=
  ((s.net.conns.filter fun e => s.mirroredSlice e.2.owner).map fun e => e.2.mirror e.1) ++
  (below (2 ^ min 20 (s.getF R.mrTable F.mrTable_log2_entries))).map (fun i =>
    .memRegion i (s.bytesAt (s.getF R.mrTable F.mrTable_base * 4096 + i * 32) 32)) ++
  ((s.listed (R.qpCfg 0) 0x40 4352).filter fun q => s.mirroredSlice (s.qpSlice q)).map (fun q =>
    .nvme q (s.getF (R.qpStatus q) F.qpStatus_sq_head) (s.getF (R.qpStatus q) F.qpStatus_cq_tail)
      (s.getF (R.qpStatus q) F.qpStatus_phase)) ++
  ((s.store.cmds.filter fun e => s.mirroredSlice e.2.slice).map fun e => .nvmeCmd e.2.queue (e.2.field 2 2) true) ++
  (s.serve.seqs.filter fun e => s.mirroredSlice e.2.slice).map fun e =>
    .sequence e.1 e.2.state.code e.2.slice e.2.last e.2.seed e.2.stackIds e.2.lens e.2.pages

/-- The full copy of the enabled classes but bulk, which the standby receives while syncing (R447) (log entry 252, DEDUCED). -/
def State.fullCopy (s : State) : List MirrorUpd :=
  let classes := s.getF R.pairCfg F.pairCfg_classes
  (if natBit classes 3 then s.copyConfig else []) ++
  (if natBit classes 2 then (s.train.jobs.filter fun e => s.mirroredSlice e.2.slice).map fun e => .job e.1 e.2.slice e.2.raw else []) ++
  (if natBit classes 1 then s.copySession else [])

/-- Syncing begins in a role: the welt returns to every lane that trained, the active sends the full copy and queues every bulk region,
the standby holds its mirrored slices quiesced (R445, R447). -/
def State.startSync (s : State) (active : Bool) : State :=
  let s := (s.pairSet fun p => { p with badLanes := p.untrained, bulkStopped := false, verdicts := [], held := [],
                                        weltLive := true }).weltRefresh
  let s := (s.setF R.pairStatus F.pairStatus_role (bit active)).setPair 2
  if active then (s.fullCopy.foldl (fun s u => s.emit (.mirror u)) (s.pairSet fun p => { p with bulk := s.bulkPages })).lagRefresh
  else s.holdSlices

/-- PAIRING_START (R446, R447). -/
def execPairingStart (partner : Partner) (s : State) : Result :=
  if ¬ s.full ∨ s.getF R.pairCfg F.pairCfg_enable = 0 ∨ ¬ s.weltUp ∨ s.pairState ≠ 0 then go s
  else
    let c := s.pairRefusal partner
    let s1 := s.setF R.pairStatus F.pairStatus_last_status c
    if c = 0x03 then go (s1.cmdRefused 0x0C 0 0 0 0 0x03)
    else if c ≠ 0 then go s1
    else go ((s1.setPair 1).startSync (s.becomesActive partner))

/-- SYNC_COMPLETE (R447). -/
def execSyncComplete (s : State) : Result := if s.pairState = 2 then go (s.setPair 3) else go s

/-- The frame of a pair command: it is ignored while one is in progress, and answered at once. -/
def State.pairCmd (s : State) (value : Word) (op : Nat) (f : State → Nat × State) : Result :=
  if ¬ s.serving ∨ getBits value F.pairCmd_op ≠ op then go s
  else if s.getF R.pairCmd F.pairCmd_busy = 1 then go (s.writeIgnored 0x0C 0 R.pairCmd value)
  else
    let r := f s
    go (r.2.pairDone op r.1)

/-- REJOIN (R457): a lone device takes its partner back, in its present role, and syncs (log entry 150, DEDUCED). -/
def execRejoin (value : Word) (partner : Partner) (s : State) : Result :=
  s.pairCmd value 2 fun s =>
    if s.pairState ≠ 4 then (0x01, s)
    else if ¬ s.weltUp then (0x16, s)
    else
      let c := s.pairRefusal partner
      if c ≠ 0 then (c, s) else (0, s.startSync s.pairActive)

/-- LEAVE (R457): both devices go to single. -/
def execLeave (value : Option Word) (s : State) : Result :=
  let end_ (s : State) : State := (s.mirrorStops.setF R.pairStatus F.pairStatus_role 0).setPair 0
  match value with
  | some v => s.pairCmd v 3 fun s => if s.pairState = 0 then (0x01, s) else (0, (end_ s).emit .pairLeave)
  | none => if s.pairState = 0 then go s else go (end_ s)

/-! ## Mirror updates (R448 to R451) -/

/-- The command register among the writes of an update, and its status after them. -/
def State.writesStatus (s : State) (l : List (Nat × Word)) : Nat :=
  match l.getLast? with
  | none => 0
  | some (a, _) => if a = R.regionCmdGo ∨ a = R.sliceCmdGo ∨ a = R.objCmd then s.getF a (47, 32) else 0

/-- Config as the register writes that changed it, applied with the mirrored slices as they are on the active; a quiesce or a resume
of a slice changes nothing on the standby, which holds it quiesced (R447). -/
def State.applyWrites (s : State) (l : List (Nat × Word)) : Nat × State :=
  let held := l.any fun e => e.1 == R.sliceCmdGo && (getBits e.2 F.sliceCmdGo_op == 4 || getBits e.2 F.sliceCmdGo_op == 5)
  if held then (0, s)
  else
    let s := l.foldl (fun s e => match s.regWrite e.1 0xFFFFFFFFFFFFFFFF e.2 with
      | .next s => s
      | _ => s) s.unholdSlices
    (s.writesStatus l, s.holdSlices)

/-- A key slot that the active loaded: loaded here from the same attributes, or emptied (R446, R448) (log entry 153, DEDUCED). -/
def State.applyKey (s : State) (slot kind owner salt : Nat) (flags : List Bool) (counter limit : Word) (key : List Byte) :
    Nat × State :=
  if kind = 0 then (0, (s.setSlot slot KeySlot.empty).uncacheKey slot)
  else
    let kept := [R.keyAttr, R.keySalt, R.keyCtr, R.keyLimit].map fun a => (a, s.reg a)
    let f (i : Nat) : Nat := bit (flags.getD i false)
    let attr := setBits (setBits (setBits (setBits (setBits (setBits 0 F.keyAttr_kind kind) F.keyAttr_owner owner) F.keyAttr_check (f 0))
      F.keyAttr_allow_enc (f 1)) F.keyAttr_allow_dec (f 2)) F.keyAttr_nonce_hw (f 3)
    let s := (((s.setReg R.keyAttr attr).setReg R.keySalt (BitVec.ofNat 64 salt)).setReg R.keyCtr counter).setReg R.keyLimit limit
    let r := s.putKey slot key
    (r.1, kept.foldl (fun s e => s.setReg e.1 e.2) r.2)

/-- A sequence entry with the frames its pages name; one in zeroing is gone with its frames. -/
def State.applySeq (s : State) (id state slice last seed : Nat) (stackIds : List Nat) (lens pages : List (Nat × Nat)) : State :=
  let v := s.serve
  let n := ((s.last? last).map LastRec.frameBytes).getD 4096
  let held := ((s.seq? id).map fun x => x.pages.map Prod.snd).getD []
  let frames := Tab.keep v.frames fun _ f => f.seq != id
  let cold := Tab.keep v.cold fun a _ => !held.contains a
  if state = 3 then { s with serve := { v with seqs := Tab.erase v.seqs id, frames := frames, cold := cold } }
  else
    let st : SeqState := match state with
      | 0 => .active
      | 1 => .parked
      | _ => .lost
    let parked (a : Nat) : Bool := match s.place a with
      | .ddr7 _ => true
      | _ => false
    { s with serve := { v with
        seqs := Tab.insert v.seqs id ⟨st, slice, last, seed, stackIds, lens, pages⟩
        frames := (pages.filter fun e => !parked e.2).foldl (fun t e => Tab.insert t e.2 (⟨id, slice, false, n⟩ : Frame)) frames
        cold := (pages.filter fun e => parked e.2).foldl (fun t e => Tab.insert t e.2 n) cold } }

/-- The standby applies an update whole: its status and the state (R449, R450). -/
def State.applyUpd (s : State) (u : MirrorUpd) : Nat × State :=
  match u with
  | .writes l => s.applyWrites l
  | .key slot kind owner salt flags counter limit key => s.applyKey slot kind owner salt flags counter limit key
  | .last n raw layers => (0, { s with serve := { s.serve with lasts := Tab.insert s.serve.lasts n ⟨raw, layers⟩ } })
  | .lastGone n => (0, { s with serve := { s.serve with lasts := Tab.erase s.serve.lasts n } })
  | .arena base last size frame => (0, { s with serve := { s.serve with arenas := Tab.insert s.serve.arenas base ⟨last, size, frame⟩ } })
  | .arenaGone base => (0, { s with serve := { s.serve with arenas := Tab.erase s.serve.arenas base } })
  | .job n slice raw => (0, { s with train := { s.train with jobs := Tab.insert s.train.jobs n ⟨slice, raw, [], false⟩ } })
  | .jobGone n => (0, { s with train := { s.train with jobs := Tab.erase s.train.jobs n } })
  | .conn n ctx state sendPsn expPsn unacked =>
    let c := Conn.fresh ctx
    (0, s.setConn n { c with state := if state = 4 then 4 else 1, sendPsn := sendPsn, expPsn := expPsn, w := c.initWindow,
                             unacked := unacked.map fun p => (⟨p, 0, s.now, s.now, 1, false⟩ : TxPkt) })
  | .connGone n => (0, s.dropConn n)
  | .memRegion i entry =>
    (0, { s.storeAnew (s.getF R.mrTable F.mrTable_base * 4096 + i * 32) entry with
          net := { s.net with mrs := Tab.erase s.net.mrs i } })
  | .nvme q head tail phase =>
    (0, ((s.setF (R.qpStatus q) F.qpStatus_sq_head head).setF (R.qpStatus q) F.qpStatus_cq_tail tail).setF
      (R.qpStatus q) F.qpStatus_phase phase)
  | .nvmeCmd q cid accepted =>
    (0, s.pairSet fun p => { p with owed := if accepted then Tab.insert p.owed (q * 65536 + cid) ()
                                            else Tab.erase p.owed (q * 65536 + cid) })
  | .sequence id state slice last seed stackIds lens pages => (0, s.applySeq id state slice last seed stackIds lens pages)
  | .sceran node epoch id code status old =>
    let key := sceranKey node epoch id
    match s.sceranFind key with
    | (none, some i) => match List.find? (fun (k : Nat) => !s.net.index.any fun e => e.2.number == k) (below (s.net.index.length + 1)) with
      | some k => (0, s.sceranStore k i key code status old)
      | none => (0, s)
    | _ => (0, s)
  | .program i code image codeAt imageAt => (0, { s with progs := Tab.insert s.progs i ⟨code, image, false, codeAt, imageAt⟩ })

/-- MIRROR_UPDATE (R449, R450): the standby applies an update and acknowledges it with its status; a device that is no standby
discards it (R25). On the active, the answer that its next synchronous operation will get (log entry 34, DEDUCED)
(log entry 149, DESIGN CHOICE). -/
def execMirrorUpdate (what : MirrorStep) (s : State) : Result :=
  match what with
  | .arrives u =>
    if (s.pairState = 2 ∨ s.pairState = 3) ∧ ¬ s.pairActive then
      let r := s.applyUpd u
      go (r.2.emit (.mirrorAck r.1))
    else go (s.violation 0x0C 0 0 0)
  | .verdict code => go (s.pairSet fun p => { p with verdicts := p.verdicts ++ [code] })

/-- SESSION_ACK (R450). -/
def execSessionAck (n : Nat) (s : State) : Result := go (s.releaseHeld n)

/-- The next page of the backlog, and the backlog without it. -/
def nextPage : List (Nat × Nat) → Option (Nat × List (Nat × Nat))
  | [] => none
  | (p, k) :: l => some (p, if k ≤ 1 then l else (p + 1, k - 1) :: l)

/-- The active sends the next page of its backlog. -/
def State.sendPage (s : State) : State :=
  match nextPage s.pair.bulk with
  | none => s
  | some (p, l) =>
    (((s.pairSet fun x => { x with bulk := l }).emit (.mirrorBulk p (s.bytesAt (p * 4096) 4096))).count 0x0C 6 0 4096).lagRefresh

/-- The active sends its whole backlog. -/
def State.sendPages (s : State) : Nat → State
  | 0 => s
  | n + 1 => (s.sendPage).sendPages n

/-- BULK_COPY (R451): the active sends its next page, unless bulk is suspended or the welt is down; the standby stores a page of a
bulk region and discards any other (R25). -/
def execBulkCopy (arrives : Option (Nat × List Byte)) (s : State) : Result :=
  let running := s.pairState = 2 ∨ s.pairState = 3
  match arrives with
  | none => if running ∧ s.pairActive ∧ s.weltUp ∧ ¬ s.pair.bulkStopped then go s.sendPage else go s
  | some (p, data) =>
    match s.regionOf (p * 4096) with
    | some (_, r) =>
      if running ∧ ¬ s.pairActive ∧ r.bulk ∧ data.length = 4096 then go (s.memWrite 0x0C 0 6 r.owner (p * 4096) data).2
      else go (s.violation 0x0C 0 (p * 4096) 0)
    | none => go (s.violation 0x0C 0 (p * 4096) 0)

/-! ## Takeover and switchover (R453, R454, R456) -/

/-- A sequence has a frame outside bulk arenas. -/
def State.seqExposed (s : State) (x : Seqn) : Bool :=
  x.pages.any fun e => match s.regionOf e.2 with
    | some (_, r) => !r.bulk
    | none => true

/-- The mirrored connections go to RTS with their PSNs, and every unacknowledged PSN is sent again (R453). -/
def State.connsTakeOver (s : State) : State :=
  (s.net.conns.filter fun e => s.mirroredSlice e.2.owner && e.2.state != 4).foldl (fun s e =>
    let s := s.setConn e.1 { e.2 with state := 3 }
    e.2.unacked.foldl (fun s p => s.resend e.1 p.pkt.psn) s) s

/-- The mirrored connections of a device that becomes standby answer and send no more: they stand as a mirror update leaves them
(R456) (log entry 253, DEDUCED). -/
def State.connsStandBy (s : State) : State :=
  (s.net.conns.filter fun e => s.mirroredSlice e.2.owner && e.2.state != 4).foldl (fun s e => s.setConn e.1 { e.2 with state := 1 }) s

/-- The announce frame goes out on each port of PAIR_ANN_CTRL.ports that carries traffic (R453). -/
def State.announce (s : State) : State :=
  let n := s.getF R.pairAnnCtrl F.pairAnnCtrl_length
  if n = 0 then s
  else match s.memRead 0x0C 0 6 0 (s.getF R.pairAnnAddr F.pairAnnAddr_addr * 64) n with
    | (.fail _, s) => s
    | (.bytes l, s) =>
      ((below 8).filter fun p => natBit (s.getF R.pairAnnCtrl F.pairAnnCtrl_ports) p && s.netOpen p).foldl (fun s p => s.emit (.netFrame p (wireFrame l) none)) s

/-- TAKEOVER (R453, R454): connections, announce frames, role active and the state, vector 0 of both functions; sequences with frames
outside bulk arenas are lost. -/
def State.takeOver (s : State) (state : Nat) : State :=
  let s := s.connsTakeOver.announce
  let lost := (s.serve.seqs.filter fun e => (e.2.state == .active || e.2.state == .parked) && s.mirroredSlice e.2.slice &&
    s.seqExposed e.2).map Prod.fst
  let s := lost.foldl (fun s q => s.modSeq q fun x => { x with state := .lost }) s
  let s := (s.setF R.pairStatus F.pairStatus_role 1).setPair state
  (((s.pairSet fun p => { p with probing := false }).setF R.pairStatus F.pairStatus_fallback 0).count 0x0C 3 0 1).raise 0 0 |>.raise 1 0

/-- SWITCHOVER (R456): on the active in state 3 the backlogs are emptied, the mirrored slices quiesced and the role handed over; a welt
that goes silent on the way ends it with 0x0016. On the standby the hand-over is a takeover without a probe, in state 3. -/
def execSwitchover (how : SwitchHow) (s : State) : Result :=
  match how with
  | .command value weltSilent =>
    s.pairCmd value 1 fun s =>
      if s.pairState ≠ 3 ∨ ¬ s.pairActive then (0x01, s)
      else if weltSilent then (0x16, s)
      else
        let s := s.releaseHeld s.pair.held.length
        let s := s.sendPages (s.pair.bulk.foldl (fun n e => n + e.2) 0)
        let s := s.heldSlices.foldl (fun s n => if s.sliceState n = 1 then (s.stopSlice n).setSliceState n 2 else s) s
        (0, ((s.connsStandBy.setF R.pairStatus F.pairStatus_role 0).emit .pairHandover).count 0x0C 4 0 1)
  | .handover => if s.pairState = 3 ∧ ¬ s.pairActive then go (s.takeOver 3) else go (s.violation 0x0C 0 0 0)

/-! ## Heartbeat and loss (R452, R457, R458) -/

/-- HEARTBEAT_SEND (R452, R457): in a pair, on the welt with the timebase and as an edge of the output land; alone, the output held high
wakes a sleeping partner. -/
def execHeartbeatSend (wake : Bool) (s : State) : Result :=
  if ¬ s.full then go s
  else if s.pairState = 0 then
    if wake then go ({ s with pins := { s.pins with heartbeat := true, hbOut := true } }.emit (.pairPin true)) else go s
  else
    let s := if s.weltUp then s.emit (.weltHeartbeat s.now) else s
    let v := !s.pins.hbOut
    go ({ s with pins := { s.pins with heartbeat := true, hbOut := v } }.emit (.pairPin v))

/-- The standby's servo takes the active's time: the whole offset with pair_time 1, its whole seconds with 2 (R458). -/
def State.pairServo (s : State) (t : Word) : State :=
  let off : Int := ptpTime s.now - ptpTime t
  if ¬ s.followsPair then s
  else if s.pairTime = 1 then s.servo off
  else
    let second : Int := 65536000000000
    let whole := (off + second / 2) / second * second
    if whole = 0 then s else s.servo whole

/-- HEARTBEAT_RECEIVE (R452, R458): the source is live; with the welt back, fallback ends and bulk goes on. -/
def execHeartbeatReceive (src : HeartbeatFrom) (s : State) : Result :=
  match src with
  | .welt t =>
    let s := s.pairSet fun p => { p with weltLive := true, bulkStopped := false }
    go ((s.setF R.pairStatus F.pairStatus_fallback 0).pairServo t)
  | .pin => go ((s.pairSet fun p => { p with pinLive := true }).setF R.pairStatus F.pairStatus_pin_ok 1)

/-- Replication goes over Sceran, and bulk is suspended (R452). -/
def State.enterFallback (s : State) : State :=
  ((s.pairSet fun p => { p with bulkStopped := true, probing := false }).setF R.pairStatus F.pairStatus_fallback 1).count 0x0C 1 0 1

/-- Both sources are silent: the partner is declared lost and probed (R452) (log entry 155, DEDUCED). -/
def State.probe (s : State) : State :=
  ((s.pairSet fun p => { p with probing := true }).emit (.pairProbe (s.getF R.pairCfg F.pairCfg_partner_node))).count 0x0C 2 0 1

/-- HEARTBEAT_SILENCE (R452). -/
def execHeartbeatSilence (welt : Bool) (s : State) : Result :=
  let s := if welt then s.pairSet fun p => { p with weltLive := false }
    else (s.pairSet fun p => { p with pinLive := false }).setF R.pairStatus F.pairStatus_pin_ok 0
  if s.pairState = 0 ∨ s.pairState = 4 ∨ s.pair.probing then go s
  else
    let s := s.count 0x0C 0 0 1
    if ¬ s.pair.weltLive ∧ ¬ s.pair.pinLive then go s.probe
    else if welt then go s.enterFallback
    else go ((s.changed 0x0C 0 21 1 0 0).raise 0 0)

/-- PROBE_TIMEOUT (R452, R453, R457): an answer leads to fallback; without one the standby of state 3 takes over, the active is lone,
and a device that was not yet paired is lone in its role. -/
def execProbeTimeout (answered : Bool) (s : State) : Result :=
  if ¬ s.pair.probing then go s
  else if answered then go s.enterFallback
  else if s.pairState = 3 ∧ ¬ s.pairActive then go (s.takeOver 4)
  else go (s.mirrorStops.setPair 4)

end Sys2Proof.Machine
end

