-- ==== Sys2Proof/Machine/Training.lean ====
section
/-! DEFINITION. The commands of the chapter on training: jobs, gradient intake, optimizer steps, data order, checkpoints and
restore (R200 to R233). -/

namespace Sys2Proof.Machine

/-- A Boolean list of conditions each with its code: the code of the first that holds, or 0. -/
def firstCode : List (Bool × Nat) → Nat
  | [] => 0
  | (b, c) :: r => if b then c else firstCode r

/-! ## Jobs (R201 to R203, R218, R233) -/

/-- The fields of a job record are in their ranges (R202, R203). -/
def jobRecordOk (raw : List Byte) : Bool :=
  let f := fieldLE raw
  decide (1 ≤ f 36 2) && decide (f 36 2 ≤ 256) && decide (f 38 2 < f 36 2) && decide (f 76 2 < f 36 2) &&
  decide (1 ≤ f 56 8) && decide (f 56 8 ≤ 2 ^ 40 - 1) && decide (f 40 8 < f 56 8) && decide (1 ≤ f 52 4) &&
  f 48 4 % f 52 4 == 0 && decide (1 ≤ f 48 4 / f 52 4) && decide (f 48 4 / f 52 4 ≤ 65536) &&
  decide (1 ≤ f 64 8) && decide (f 64 8 ≤ 2 ^ 40 - 1) && decide (f 78 1 ≤ 1) && f 79 1 == 0 && f 88 8 % 65536 == 0 &&
  f 124 4 == 0

/-- The intake slots, the peers table and the namespace of a job belong to the slice (R203). -/
def State.jobOwned (s : State) (slice : Nat) (x : Job) : Bool :=
  let ns := x.field 120 4
  s.owned slice (x.field 96 8) (x.micro * x.slotBytes) && s.owned slice (x.field 112 8) (16 * x.world) &&
  decide (ns < 4096) && s.getF (R.nsMap ns) F.nsMap_valid == 1 && s.getF (R.nsMap ns) F.nsMap_owner == slice

/-- The blocked access of a job record that names what its slice does not own (R19): its intake slots, its peers table, or its
namespace, which has no address. -/
def State.jobBlocked (s : State) (j slice : Nat) (x : Job) : State :=
  if ¬ s.owned slice (x.field 96 8) (x.micro * x.slotBytes) then s.recordBlocked 0x10 j slice 0x08 (x.field 96 8)
  else if ¬ s.owned slice (x.field 112 8) (16 * x.world) then s.recordBlocked 0x10 j slice 0x08 (x.field 112 8)
  else s.blockedName 0x10 j slice

/-- The frame of a training operation that has no sub-parts: the descriptor is of this opcode and op and was not performed, its
wait is over, its job is open and of the slice (R201). -/
def State.jobOp (s : State) (n opcode op : Nat) (f : Desc → Job → State → State) : Result :=
  match s.desc? n with
  | none => go s
  | some d =>
    if d.opcode ≠ opcode ∨ d.field 40 1 ≠ op ∨ d.performed then go s
    else match s.gate n d with
      | none => go s
      | some c =>
        if c ≠ 0 then go (s.trainDone n d c 0)
        else match s.job? (d.field 42 2) with
          | none => go (s.trainDone n d 0x01 0)
          | some x => if x.slice ≠ d.slice then go ((s.blockedName 0x10 (d.field 42 2) d.slice).trainDone n d 0x08 0) else go (f d x s)

/-- JOB_OPEN (R203) (log entry 71, DEDUCED). -/
def execJobOpen (d : Nat) (s : State) : Result :=
  match s.desc? d with
  | none => go s
  | some x =>
    if x.opcode ≠ 0x04 ∨ x.field 40 1 ≠ 8 then go s
    else match s.gate d x with
      | none => go s
      | some c =>
        let j := x.field 42 2
        if c ≠ 0 then go (s.trainDone d x c 0)
        else if (s.job? j).isSome then go (s.trainDone d x 0x01 0)
        else if x.field 64 8 % 64 ≠ 0 then go (s.trainDone d x 0x02 0)
        else match s.memRead 0x10 j 0 x.slice (x.field 64 8) 128 with
          | (.fail c, s) => go (s.trainDone d x c 0)
          | (.bytes raw, s) =>
            let y : Job := ⟨x.slice, raw, [], false⟩
            if ¬ jobRecordOk raw then go (s.trainDone d x 0x02 0)
            else if ¬ s.jobOwned x.slice y then go ((s.jobBlocked j x.slice y).trainDone d x 0x08 0)
            else
              let v := s.standbySays 2 x.slice
              if v.1 ≠ 0 then go (v.2.trainDone d x v.1 0)
              else go (((v.2.setJob j y).intakeRefresh j).trainDone d x 0 0)

/-- An operation of a job runs, or its checkpoint is active (R218). -/
def State.jobBusy (s : State) (n j : Nat) : Bool := s.jobRuns n j (fun _ _ => true) || (s.ckpt? j).isSome

/-- JOB_CLOSE (R218): the slot is free and its intake state discarded. -/
def execJobClose (d : Nat) (s : State) : Result :=
  s.jobOp d 0x04 9 fun x _ s =>
    let j := x.field 42 2
    if s.jobBusy d j then s.trainDone d x 0x01 0
    else
      let v := s.standbySays 2 x.slice
      if v.1 ≠ 0 then v.2.trainDone d x v.1 0 else
      let s := v.2.tell 2 x.slice (.jobGone j)
      let s := { s with train := { s.train with jobs := Tab.erase s.train.jobs j, commits := Tab.erase s.train.commits j } }
      (s.intakeRefresh j).trainDone d x 0 0

/-- The record of a job load with a manifest (R233): world, rank, committer, pool and intake fields, peers and namespace as
given, the rest of the position from the manifest. -/
def loadRecord (raw man : List Byte) : List Byte :=
  let put (r : List Byte) (off w src : Nat) : List Byte := setField r off w (fieldLE man src w)
  put (put (put (put (put (put raw 24 8 24) 32 4 48) 40 8 56) 16 8 40) 8 8 32) 72 4 8

/-- job_id, global_batch, microbatch, n_params and n_records agree between a record and a manifest (R233). -/
def loadMatches (raw man : List Byte) : Bool :=
  fieldLE raw 0 8 == fieldLE man 16 8 && fieldLE raw 48 4 == fieldLE man 64 4 && fieldLE raw 52 4 == fieldLE man 68 4 &&
  fieldLE raw 64 8 == fieldLE man 72 8 && fieldLE raw 56 8 == fieldLE man 80 8

/-- Take a loaded record into the job slot, where its checks pass; the intake of its step begins with no arrivals
(log entry 232, DEDUCED). -/
def State.loadInto (s : State) (d : Nat) (x : Desc) (y : Job) (raw : List Byte) : State :=
  let y := { y with raw := raw, bits := [], error := false }
  if ¬ jobRecordOk raw then s.trainDone d x 0x02 0
  else if ¬ s.jobOwned x.slice y then (s.jobBlocked (x.field 42 2) x.slice y).trainDone d x 0x08 0
  else ((s.setJob (x.field 42 2) y).intakeRefresh (x.field 42 2)).trainDone d x 0 0

/-- JOB_LOAD (R218, R233). -/
def execJobLoad (d : Nat) (s : State) : Result :=
  s.jobOp d 0x04 10 fun x y s =>
    let j := x.field 42 2
    if s.jobBusy d j then s.trainDone d x 0x01 0
    else if x.field 64 8 % 64 ≠ 0 then s.trainDone d x 0x02 0
    else match s.memRead 0x10 j 0 x.slice (x.field 64 8) 128 with
      | (.fail c, s) => s.trainDone d x c 0
      | (.bytes raw, s) =>
        if x.field 72 8 = 0 then s.loadInto d x y raw
        else match s.memRead 0x10 j 0 x.slice (x.field 72 8) 128 with
          | (.fail c, s) => s.trainDone d x c 0
          | (.bytes man, s) =>
            if loadMatches raw man then s.loadInto d x y (loadRecord raw man) else s.trainDone d x 0x02 0

/-- JOB_STORE (R218). -/
def execJobStore (d : Nat) (s : State) : Result :=
  s.jobOp d 0x04 11 fun x y s =>
    match s.memWrite 0x10 (x.field 42 2) 0 x.slice (x.field 64 8) y.raw with
    | (some c, s) => s.trainDone d x c 0
    | (none, s) => s.trainDone d x 0 128

/-- The data position after a step: the index goes on by B, each wrap by N advances the epoch (R218). -/
def Job.advanced (y : Job) : Job :=
  let i := y.field 40 8 + y.field 48 4
  let n := y.field 56 8
  { y with raw := setField (setField (setField y.raw 24 8 (y.step + 1)) 40 8 (i % n)) 32 4 (y.field 32 4 + i / n),
           bits := [], error := false }

/-- ADVANCE (R218). -/
def execAdvance (d : Nat) (s : State) : Result :=
  s.jobOp d 0x04 12 fun x y s =>
    let j := x.field 42 2
    if s.jobRuns d j fun oc op => oc == 0x04 && [0, 3, 4, 5].contains op then s.trainDone d x 0x01 0
    else if (s.ckpt? j).isSome then s.trainDone d x 0x01 0
    else ((s.setJob j y.advanced).intakeRefresh j).trainDone d x 0 0

/-! ## Data order (R204) -/

/-- The number of bits of each half: the least h with n ≤ 2^2h. -/
def permHalf (n : Nat) : Nat → Nat → Nat
  | 0, h => h
  | k + 1, h => if 2 ^ (2 * h) < n then permHalf n k (h + 1) else h

/-- Four Feistel rounds on the halves of x. -/
def permRounds (h seed epoch x : Nat) : Nat :=
  let m := 2 ^ h
  let r := (below 4).foldl (fun (a : Nat × Nat) round =>
    let o := philox (a.2 % 2 ^ 32, a.2 / 2 ^ 32, round, epoch) (seed % 2 ^ 32, seed / 2 ^ 32)
    let f := (o.2.1 * 2 ^ 32 + o.1) % m
    (a.2, Nat.xor a.1 f)) (x / m, x % m)
  r.1 * m + r.2

/-- Cycle walking: rounds until the value is below n. -/
def permWalk (n h seed epoch : Nat) : Nat → Nat → Nat
  | 0, x => x
  | k + 1, x => let y := permRounds h seed epoch x; if y < n then y else permWalk n h seed epoch k y

/-- perm(q, n, seed, epoch) of R204. -/
def perm (q n seed epoch : Nat) : Nat :=
  let h := permHalf n 32 1
  permWalk n h seed epoch (2 ^ (2 * h)) q

/-- The records of microbatch k (R204). -/
def Job.records (y : Job) (k : Nat) : List Nat :=
  (below (y.field 52 4)).map fun j =>
    let p := y.field 40 8 + k * y.field 52 4 + j
    let n := y.field 56 8
    perm (p % n) n (y.field 16 8) ((y.field 32 4 + p / n) % 2 ^ 32)

/-! ## Steps and norms (R210 to R215) -/

/-- The values of a parameter block, in order. -/
structure StepParams where
  gscale : Nat
  beta1 : Nat
  omb1 : Nat
  beta2 : Nat
  omb2 : Nat
  c1 : Nat
  c2 : Nat
  eps : Nat
  nwd : Nat
  deriving DecidableEq, Repr

/-- The parameter block of 64 bytes. -/
def stepParams (raw : List Byte) : StepParams :=
  let f (i : Nat) : Nat := fieldLE raw (4 * i) 4
  ⟨f 0, f 1, f 2, f 3, f 4, f 5, f 6, f 7, f 8⟩

/-- An FP32 code is finite. -/
def f32Finite (c : Nat) : Bool := (fp32.decode c).isFin

/-- A gradient as gin (R211): FP32, or a record rounded under R63 (log entry 167, DEDUCED). -/
def gradIn (form : Nat) (raw : List Byte) : Nat :=
  if form = 0 then leNat raw
  else (((entryOfRecord raw).getD (binsSpoilt 0)).binResult (.fin false 1 0) (fp32.convert · rne) (fp32.convert · rne)).1

/-- The new w, m1 and m2 of an element (R211). -/
def stepElement (algo : Nat) (p : StepParams) (w m1 m2 gin : Nat) : Nat × Nat × Nat :=
  let mul (a b : Nat) : Nat := (f32Mul a b rne).1
  let fma (a b c : Nat) : Nat := (f32Fma a b c rne).1
  let g := mul p.gscale gin
  if algo = 0 then
    let m1' := fma p.beta1 m1 (mul p.omb1 g)
    let m2' := fma p.beta2 m2 (mul p.omb2 (mul g g))
    let u := (f32Div (mul p.c1 m1') (f32Add (f32Sqrt (mul p.c2 m2') rne).1 p.eps rne).1 rne).1
    ((f32Sub (fma p.nwd w w) u rne).1, m1', m2')
  else
    let m1' := fma p.beta1 m1 g
    ((f32Sub (fma p.nwd w w) (mul p.c1 m1') rne).1, m1', m2)

/-- An element under R213: a gradient that is not finite, or a result that is not, leaves it unchanged, with flags
(log entry 73, DEDUCED). -/
def stepChecked (algo : Nat) (p : StepParams) (w m1 m2 gin : Nat) : (Nat × Nat × Nat) × Nat :=
  if ¬ f32Finite gin then ((w, m1, m2), specialFlags (fp32.decode gin))
  else
    let r := stepElement algo p w m1 m2 gin
    if f32Finite r.1 && f32Finite r.2.1 && (algo != 0 || f32Finite r.2.2) then (r, 0) else ((w, m1, m2), flSat)

/-- The low-precision output of updated weights (R214): element bytes, scale bytes, flags by element. -/
def stepLow (fmt : Nat) (ws : List Nat) (rnd : Nat → Rnd) : List Byte × List Byte × List Nat :=
  let vs := ws.map fp32.decode
  if fmt ≤ 4 then
    let n := vs.length / 32
    let qs := ((chunks 32 n vs).zip (below n)).map fun b => quantizeBlock fmt b.1 ((below 32).map fun j => rnd (b.2 * 32 + j))
    (packElems (targetBits fmt) (qs.flatMap fun q => q.2.map Prod.fst), qs.map fun q => BitVec.ofNat 8 q.1,
     qs.flatMap fun q => q.2.map Prod.snd)
  else
    let qs := (vs.zip (below vs.length)).map fun e => quantizePlain fmt e.1 (rnd e.2)
    (packElems (targetBits fmt) (qs.map Prod.fst), [], qs.map Prod.snd)

/-- The reads of a step on cnt elements from element lo: the parameters, w, moment 1, gradients, moment 2 for AdamW. -/
def stepRanges (x : Desc) (lo cnt : Nat) : List (Nat × Nat) :=
  let g := if x.field 48 1 = 0 then 4 else 48
  [(x.field 112 8, 64), (x.field 64 8 + 4 * lo, 4 * cnt), (x.field 72 8 + 4 * lo, 4 * cnt), (x.field 88 8 + g * lo, g * cnt)] ++
  (if x.field 41 1 = 0 then [(x.field 80 8 + 4 * lo, 4 * cnt)] else [])

/-- A step's parameter block, output base and records are as R212 and R214 ask. -/
def stepOk (x : Desc) (block : List Byte) (grads : List (List Byte)) : Bool :=
  let low := x.field 49 1
  (below 9).all (fun i => f32Finite (fieldLE block (4 * i) 4)) && fieldLE block 36 28 == 0 &&
  (decide (low > 4) || (x.field 56 8 % 32 == 0 && x.field 44 4 % 32 == 0)) &&
  (x.field 48 1 == 0 || grads.all fun g => fieldLE g 46 1 == 2)

/-- The addresses that the step of a descriptor writes, and their lengths, for cnt elements from element lo (R211, R214). -/
def stepDests (x : Desc) (lo cnt : Nat) : List (Nat × Nat) :=
  let low := x.field 49 1
  let bits := 4 * targetBits low
  [(x.field 64 8 + 4 * lo, 4 * cnt), (x.field 72 8 + 4 * lo, 4 * cnt)] ++
  (if x.field 41 1 = 0 then [(x.field 80 8 + 4 * lo, 4 * cnt)] else []) ++
  (if low = 0xFF then [] else [(x.field 96 8 + lo / 32 * bits, targetBits low * cnt / 8)]) ++
  (if low ≤ 4 then [(x.field 104 8 + lo / 32, cnt / 32)] else [])

/-- What a step makes of cnt elements from element lo, given what its reads brought: the bytes of each destination in order, and the
flags by element (R211 to R214). -/
def stepChunk (x : Desc) (y : Job) (lo cnt : Nat) (srcs : List (List Byte)) : List (List Byte) × List Nat :=
  let algo := x.field 41 1
  let form := x.field 48 1
  let low := x.field 49 1
  let p := stepParams (srcs.getD 0 [])
  let ws := elems 4 cnt (srcs.getD 1 [])
  let m1 := elems 4 cnt (srcs.getD 2 [])
  let grads := chunks (if form = 0 then 4 else 48) cnt (srcs.getD 3 [])
  let m2 := if algo = 0 then elems 4 cnt (srcs.getD 4 []) else List.replicate cnt 0
  let rs := (elementUnits (ws.zip (m1.zip (m2.zip grads)))).flatMap fun u => u.map fun e => stepChecked algo p e.1 e.2.1 e.2.2.1 (gradIn form e.2.2.2)
  let w' := rs.map fun r => r.1.1
  let lo' := if low = 0xFF then ([], [], []) else
    stepLow low w' fun i => rndAt x.rounding x.sat ⟨y.seed, x.field 32 4, y.step⟩ (x.field 56 8 + lo + i)
  let out (l : List Nat) : List Byte := l.flatMap (bytesLE 4)
  ([out w', out (rs.map fun r => r.1.2.1)] ++ (if algo = 0 then [out (rs.map fun r => r.1.2.2)] else []) ++
     (if low = 0xFF then [] else [lo'.1]) ++ (if low ≤ 4 then [lo'.2.1] else []),
   if low = 0xFF then rs.map Prod.snd else (rs.zip lo'.2.2).map fun e => e.1.2 ||| e.2)

/-! ### The journal of a step (R86) -/

/-- The elements of a chunk of a step. -/
def chunkElems : Nat := 4096

/-- The journal of a logical bench position: 64 KiB of its stack's save region from 1 MiB on; the chunk index in its first 8 bytes, the
old w, m1 and m2 from 0x4000, 0x8000 and 0xC000 (R86, R464) (log entry 67, DESIGN CHOICE). -/
def State.journalAt (s : State) (stack pos : Nat) : Option Nat :=
  (Tab.find? s.regions (4080 + stack)).map fun r => r.base + 0x100000 + pos * 0x10000

/-- The marks of a sub-part's journal: the chunks done, whether the next is open; of another descriptor's marks nothing counts. -/
def State.journalOf (s : State) (n : Nat) (p : SubPart) : Nat × Bool :=
  match Tab.find? s.bench.journal (p.stack * 6 + p.pos) with
  | some j => if j.desc = n then (j.chunks, j.isOpen) else (0, false)
  | none => (0, false)

/-- Mark a sub-part's journal. -/
def State.journalMark (s : State) (n : Nat) (p : SubPart) (chunks : Nat) (isOpen : Bool) : State :=
  { s with bench := { s.bench with journal := Tab.insert s.bench.journal (p.stack * 6 + p.pos) ⟨n, chunks, isOpen⟩ } }

/-- Before the first write of a chunk its index and its old w, m1 and m2 go to the journal, and the chunk is marked open; srcs are the
reads of stepRanges. -/
def State.journalOpen (s : State) (n : Nat) (p : SubPart) (chunk : Nat) (srcs : List (List Byte)) : State :=
  match s.journalAt p.stack p.pos with
  | none => s.journalMark n p chunk true
  | some a =>
    let s := (s.memWrite 0x0E p.stack 0 0 a (bytesLE 8 chunk)).2
    let s := (s.memWrite 0x0E p.stack 0 0 (a + 0x4000) (srcs.getD 1 [])).2
    let s := (s.memWrite 0x0E p.stack 0 0 (a + 0x8000) (srcs.getD 2 [])).2
    let s := if (srcs.getD 4 []).isEmpty then s else (s.memWrite 0x0E p.stack 0 0 (a + 0xC000) (srcs.getD 4 [])).2
    s.journalMark n p chunk true

/-- A re-run restores the w, m1 and m2 of an open chunk of cnt elements from element lo out of the journal: the failure codes. -/
def State.journalRestore (s : State) (x : Desc) (p : SubPart) (lo cnt : Nat) : List Nat × State :=
  match s.journalAt p.stack p.pos with
  | none => ([], s)
  | some a =>
    let parts := [(a + 0x4000, x.field 64 8), (a + 0x8000, x.field 72 8)] ++ (if x.field 41 1 = 0 then [(a + 0xC000, x.field 80 8)] else [])
    let (ls, codes, s) := s.readRanges 0 (parts.map fun e => (e.1, 4 * cnt))
    if codes.isEmpty then s.writeRanges x.slice ((parts.zip ls).map fun e => (e.1.2 + 4 * lo, e.2)) else (codes, s)

/-- One chunk of a sub-part's share, from element lo on: its outcome (R86, R211 to R214). -/
def State.stepOne (s : State) (n : Nat) (x : Desc) (y : Job) (p : SubPart) (chunk lo cnt : Nat) : Share × State :=
  let restored := if (s.journalOf n p).2 ∧ p.rerun then s.journalRestore x p lo cnt else ([], s)
  if ¬ restored.1.isEmpty then (⟨restored.1, [], 0⟩, restored.2)
  else
    let (srcs, codes, s) := restored.2.readRanges x.slice (stepRanges x lo cnt)
    if ¬ codes.isEmpty then (⟨codes, [], 0⟩, s)
    else if ¬ stepOk x (srcs.getD 0 []) (chunks (if x.field 48 1 = 0 then 4 else 48) cnt (srcs.getD 3 [])) then (⟨[0x02], [], 0⟩, s)
    else
      let s := s.journalOpen n p chunk srcs
      let o := stepChunk x y lo cnt srcs
      let (wc, s) := s.writeRanges x.slice (((stepDests x lo cnt).map Prod.fst).zip o.1)
      if wc.isEmpty then (⟨[], o.2, o.1.foldl (fun t l => t + l.length) 0⟩, s.journalMark n p (chunk + 1) false)
      else (⟨wc, o.2, 0⟩, s)

/-- A sub-part's next chunks in ascending order, from the first not marked done; it ends with its first failure. -/
def State.stepChunks (s : State) (n : Nat) (x : Desc) (y : Job) (lo cnt : Nat) : Nat → SubPart → SubPart × State
  | 0, p => ({ p with did := true }, s)
  | fuel + 1, p =>
    let chunk := (s.journalOf n p).1
    if chunk * chunkElems ≥ cnt then ({ p with did := true }, s)
    else
      let r := s.stepOne n x y p chunk (lo + chunk * chunkElems) (min chunkElems (cnt - chunk * chunkElems))
      let p := { p with code := combineCodes r.1.codes, flags := r.1.flags.foldl (· ||| ·) p.flags,
                        flagged := p.flagged + (r.1.flags.filter (· != 0)).length, bytes := p.bytes + r.1.bytes }
      if r.1.codes.isEmpty then r.2.stepChunks n x y lo cnt fuel p else ({ p with did := true }, r.2)

/-- A training operation with running sub-parts: refused for its job, or performed. -/
def State.elementOp (s : State) (n op : Nat) (f : Desc → Job → State → State) : Result :=
  match s.desc? n with
  | none => go s
  | some x =>
    if x.opcode ≠ 0x04 ∨ x.field 40 1 ≠ op ∨ ¬ x.ready then go s
    else match s.job? (x.field 42 2) with
      | none => go ((s.cmdRefused 0x10 (x.field 42 2) x.slice (x.field 42 2) op 1).actFail n x 0x01)
      | some y =>
        if y.slice ≠ x.slice then go ((s.blockedName 0x10 (x.field 42 2) x.slice).actFail n x 0x08) else go (f x y s)

/-- The sub-parts of a descriptor whose shares are still to be computed, each with its place. -/
def Desc.acting (x : Desc) : List (SubPart × Nat) := (x.subs.zip (below x.subs.length)).filter fun e => e.1.acts

/-- STEP (R84, R86, R211 to R214): every running sub-part works through its share in chunks, a re-run from the first chunk its journal does
not mark done; where an access is refused no element is written (R212, R33) (log entry 67, DESIGN CHOICE). -/
def execStep (d : Nat) (s : State) : Result :=
  s.elementOp d 0 fun x y s =>
    match s.refusals 0x0E 0 x.slice (stepRanges x 0 (x.field 44 4) ++
        (stepDests x 0 (x.field 44 4)).drop (if x.field 41 1 = 0 then 3 else 2)) with
    | ([], s) => s.actEach d (fun j p s =>
        let r := blockShare (x.field 44 4) x.subs.length j
        s.stepChunks d x y r.1 r.2 (ceilDiv r.2 chunkElems + 1) p) x.acting
    | (codes, s) => s.actOn d x fun _ s => (⟨codes, [], 0⟩, s)

/-- The sub-parts of an operation that gives one record are all running or ended, and some is to be computed. -/
def Desc.gathered (d : Desc) : Bool := d.ready && d.subs.all fun p => p.phase != .waiting

/-- SQNORM (R84, R215): the binned sum of squares, anchored at D + 1, as one record; the sums of the shares merge into it once no sub-part
waits, whatever bench takes them (log entry 197, DESIGN CHOICE). -/
def execSqnorm (d : Nat) (s : State) : Result :=
  s.elementOp d 1 fun x _ s =>
    let n := x.field 44 4
    let form := x.field 48 1
    let w := if form = 0 then 4 else 48
    let first := (x.acting.head?).map Prod.snd
    if ¬ x.gathered then s
    else
      let (srcs, codes, s) := s.readRanges x.slice [(x.field 64 8, n * w)]
      if ¬ codes.isEmpty then s.actOn d x fun _ s => (⟨codes, [], 0⟩, s)
      else
        let gs := chunks w n (srcs.getD 0 [])
        if form ≠ 0 ∧ gs.any fun g => fieldLE g 46 1 != 2 then s.actFail d x 0x02
        else
          let b := gs.foldl (fun b g =>
            let v := fp32.decode (gradIn form g)
            b.addTerm (v.mul v)) (binsAt (signed 16 (x.field 50 2) + 1))
          let (wc, s) := s.writeRanges x.slice [(x.field 72 8, b.record)]
          s.actOn d x fun j s => (if first = some j then ⟨wc, [b.flags], 48⟩ else ⟨[], [], 0⟩, s)

/-! ## Push, scatter, feed (R206, R216, R217) -/

/-- PUSH (R216): the bytes go to the same bus address on every port of the mask. -/
def execPush (d : Nat) (s : State) : Result :=
  s.jobOp d 0x04 2 fun x _ s =>
    let ports := maskList 8 (x.field 52 1)
    if ports.any fun p => s.getF (R.dpStatus p) F.dpStatus_owner != x.slice then
      (s.blockedName 0x10 (x.field 42 2) x.slice).trainDone d x 0x08 0
    else match s.memRead 0x10 (x.field 42 2) 0 x.slice (x.field 64 8) (x.field 44 4) with
      | (.fail c, s) => s.trainDone d x c 0
      | (.bytes l, s) =>
        let up := ports.filter s.portUsable
        let s := up.foldl (fun s p => s.emitPortWrites p (x.field 72 8) l) s
        if up.length = ports.length then s.trainDone d x 0 (l.length * ports.length) else s.trainDone d x 0x16 0

/-- Bytes r × s onward of rank r's shard in a gradient of the job (R204, R206): offset and length. -/
def Job.shardRange (y : Job) (r : Nat) : Nat × Nat :=
  let n := y.field 64 8
  let a := min n (r * y.shardElems)
  let b := min n ((r + 1) * y.shardElems)
  (a * y.gradBytes, (b - a) * y.gradBytes)

/-- The immediate word of a scatter (R206). -/
def Job.immediate (y : Job) (slot k : Nat) : Nat := y.step % 2 * 2 ^ 31 + slot % 16 * 2 ^ 16 + k % 2 ^ 16

/-- The write of a scatter for another rank; the key is a value the spec does not state. -/
def State.scatterTo (s : State) (d : Nat) (y : Job) (k : Nat) (peer data : List Byte) : State :=
  let key := s.unstated
  key.2.netPost (fieldLE peer 0 4 % 2 ^ 24)
    { owner := .scatter d, op := 3, length := data.length, imm := y.immediate (fieldLE peer 4 2) k, rkey := key.1.toNat % 2 ^ 32,
      va := fieldLE peer 8 8 + k * y.slotBytes, operand := 0, swap := 0, solicited := false, local_ := 0, space := 0, data := data }

/-- A connection can carry a scatter: it exists, is the slice's, and is in RTS (log entry 74, DEDUCED). -/
def State.connReady (s : State) (n slice : Nat) : Bool :=
  match s.conn? n with
  | some c => c.state == 3 && c.owner == slice
  | none => false

/-- SCATTER (R206): its own rank's shard is copied, every other rank's is written with immediate; it completes when every
write has been acknowledged (log entry 68, DESIGN CHOICE). -/
def execScatter (d : Nat) (s : State) : Result :=
  s.jobOp d 0x04 3 fun x y s =>
    let j := x.field 42 2
    let k := x.field 44 4
    if k ≥ y.micro then s.trainDone d x 0x02 0
    else match s.memRead 0x10 j 0 x.slice (x.field 64 8) (y.field 64 8 * y.gradBytes) with
      | (.fail c, s) => s.trainDone d x c 0
      | (.bytes g, s) => match s.memRead 0x10 j 0 x.slice (y.field 112 8) (16 * y.world) with
        | (.fail c, s) => s.trainDone d x c 0
        | (.bytes ps, s) =>
          let peers := (chunks 16 y.world ps).zip (below y.world)
          let others := peers.filter fun p => p.2 != y.rank
          if others.any fun p => !s.connReady (fieldLE p.1 0 4 % 2 ^ 24) x.slice then s.trainDone d x 0x16 0
          else
            let part (r : Nat) : List Byte := (g.drop (y.shardRange r).1).take (y.shardRange r).2
            match s.memWrite 0x10 j 0 x.slice (y.field 96 8 + k * y.slotBytes) (part y.rank) with
            | (some c, s) => s.trainDone d x c 0
            | (none, s) =>
              let s := s.intakeArrive x.slice (y.immediate j k)
              if others.isEmpty then s.trainDone d x 0 g.length
              else
                let s := s.setDesc d { x with performed := true, bytes := g.length }
                let s := { s with train := { s.train with scatters := Tab.insert s.train.scatters d others.length } }
                others.foldl (fun s p => s.scatterTo d y k p.1 (part p.2)) s

/-- Bytes of a namespace. -/
def State.nsBytes (s : State) (ns : Nat) : Nat :=
  s.getF (R.nsSize ns) F.nsSize_lbas * (if s.getF (R.nsMap ns) F.nsMap_lba_4k = 1 then 4096 else 512)

/-- The offsets at which records of some lengths follow each other, 64-byte aligned, from an offset on; and the end. -/
def feedOffsets : Nat → List Nat → List Nat × Nat
  | o, [] => ([], o)
  | o, n :: ns => let a := alignUp o 64; let r := feedOffsets (a + n) ns; (a :: r.1, r.2)

/-- Write to device memory for a slice, or through a port (0xFF: device memory): the code of the first failure, or 0
(log entry 72, DEDUCED). -/
def State.portOrMem (s : State) (inst slice port : Nat) : List (Nat × List Byte) → Nat × State
  | [] => (0, s)
  | (a, l) :: ws =>
    if port = 0xFF then
      match s.memWrite 0x10 inst 0 slice a l with
      | (none, s) => s.portOrMem inst slice port ws
      | (some c, s) => (c, s)
    else if s.portUsable port then (s.emitPortWrites port a l).portOrMem inst slice port ws
    else (0x16, s)

/-- FEED (R217). -/
def execFeed (d : Nat) (reads : List Got) (s : State) : Result :=
  s.jobOp d 0x04 4 fun x y s =>
    let j := x.field 42 2
    let k := x.field 44 4
    let port := x.field 52 1
    if k ≥ y.micro then s.trainDone d x 0x02 0
    else if port ≠ 0xFF ∧ s.getF (R.dpStatus port) F.dpStatus_owner ≠ x.slice then
      (s.blockedName 0x10 j x.slice).trainDone d x 0x08 0
    else
      let recs := y.records k
      let (idx, codes, s) := s.readRanges x.slice (recs.map fun r => (x.field 72 8 + 16 * r, 16))
      if ¬ codes.isEmpty then s.trainDone d x (combineCodes codes) 0
      else
        let lens := idx.map fun e => fieldLE e 8 4
        let bad := idx.any fun e => fieldLE e 8 4 == 0 || decide (fieldLE e 8 4 > 2 ^ 24) || fieldLE e 12 4 != 0 ||
          decide (fieldLE e 0 8 + fieldLE e 8 4 > s.nsBytes (y.field 120 4))
        let offs := feedOffsets (16 * recs.length) lens
        if bad then s.trainDone d x 0x02 0
        else if offs.2 > x.field 120 4 then s.trainDone d x 0x04 0
        else
          let got := (lens.zip (below lens.length)).map fun e => match reads.getD e.2 (.fail 0x12) with
            | .bytes l => if l.length = e.1 then (0, l) else (0x12, [])
            | .fail c => (c, [])
          let failed := (got.map Prod.fst).filter (· != 0)
          if ¬ failed.isEmpty then s.trainDone d x (combineCodes failed) 0
          else
            let table := (recs.zip (lens.zip offs.1)).flatMap fun e =>
              bytesLE 8 e.1 ++ bytesLE 4 e.2.1 ++ bytesLE 4 e.2.2
            let a := x.field 64 8
            let writes := (a, table) :: (offs.1.zip got).map fun e => (a + e.1, e.2.2)
            match s.refusals 0x10 j x.slice (if port = 0xFF then writes.map fun w => (w.1, w.2.length) else []) with
            | (c :: cs, s) => s.trainDone d x (combineCodes (c :: cs)) 0
            | ([], s) =>
              let r := s.portOrMem j x.slice port writes
              r.2.trainDone d x r.1 (if r.1 = 0 then offs.2 else 0)

/-! ## Intake waits and arrivals (R207, R208) -/

/-- INTAKE_WAIT (R208). -/
def execIntakeWait (d : Nat) (s : State) : Result :=
  s.jobOp d 0x04 5 fun x _ s => (s.setDesc d { x with performed := true }).intakeWake (x.field 42 2)

/-- INTAKE_WAIT_TIMEOUT (R208). -/
def execIntakeWaitTimeout (d : Nat) (s : State) : Result :=
  match s.desc? d with
  | some x => if x.opcode = 0x04 ∧ x.field 40 1 = 5 ∧ x.performed then go (s.trainDone d x 0x12 0) else go s
  | none => go s

/-- INTAKE_ARRIVAL (R207): the oldest arrival is taken in. -/
def execIntakeArrival (s : State) : Result :=
  match s.train.handed with
  | [] => go s
  | (slice, imm) :: r => go (({ s with train := { s.train with handed := r } }).intakeArrive slice imm)

/-! ## Digest and checkpoint (R222 to R230) -/

/-- DIGEST (R222). -/
def execDigest (d : Nat) (s : State) : Result :=
  match s.desc? d with
  | none => go s
  | some x =>
    if x.opcode ≠ 0x05 ∨ x.field 40 1 ≠ 0 then go s
    else match s.gate d x with
      | none => go s
      | some c =>
        if c ≠ 0 then go (s.trainDone d x c 0)
        else match s.memRead 0x10 0 0 x.slice (x.field 56 8) (x.field 44 4) with
          | (.fail c, s) => go (s.trainDone d x c 0)
          | (.bytes l, s) =>
            let h := if x.field 41 1 = 0 then sha256 l else sha384 l
            match s.memWrite 0x10 0 0 x.slice (x.field 64 8) h with
            | (some c, s) => go (s.trainDone d x c 0)
            | (none, s) => go (s.trainDone d x 0 h.length)

/-- A shard of a checkpoint list, from its 32-byte entry (R223). -/
def shardOf (e : List Byte) : Shard := ⟨fieldLE e 0 8, fieldLE e 8 4, fieldLE e 12 1, fieldLE e 16 8, fieldLE e 24 8⟩

/-- A shard entry follows the rules of R223 and lies in stitched HBM or DDR5 main. -/
def State.shardOk (s : State) (area : Nat) (e : List Byte) : Bool :=
  let x := shardOf e
  decide (0 < x.bytes) && x.bytes % 65536 == 0 && decide (1 ≤ x.kind) && decide (x.kind ≤ 4) &&
  x.poolOff % 65536 == 0 && decide (x.poolOff + x.bytes ≤ area) && x.addr % 65536 == 0 &&
  (match s.place x.addr with
   | .stitched _ => true
   | .main _ => true
   | _ => false)

/-- Engine 15 is assigned to checkpoint (R223). -/
def State.ckptEngine (s : State) : Bool := (s.image.map fun i => i.dma15).getD false

/-- CHECKPOINT (R223, R224): the checks in order; then a snapshot epoch begins. -/
def execCheckpoint (d : Nat) (s : State) : Result :=
  s.jobOp d 0x05 1 fun x y s =>
    let j := x.field 42 2
    let n := x.field 44 4
    if s.snap.isSome ∨ (s.ckpt? j).isSome ∨
        s.jobRuns d j fun oc op => !(oc == 0x04 && [0, 2, 4, 5].contains op) then s.trainDone d x 0x01 0
    else match s.memRead 0x10 j 0 x.slice (x.field 56 8) (32 * n) with
      | (.fail c, s) => s.trainDone d x c 0
      | (.bytes l, s) =>
        let es := chunks 32 n l
        let shards := es.map shardOf
        let c := firstCode [(!es.all (s.shardOk (y.field 88 8)), 0x02),
          (!shards.all fun h => s.owned x.slice h.addr h.bytes, 0x08), (!s.ckptEngine, 0x03),
          (s.stagingSize == 0, 0x04), (y.gen == 0xFFFFFFFF, 0x22)]
        if c = 0x08 then
          (match shards.find? fun (h : Shard) => !s.owned x.slice h.addr h.bytes with
           | some h => s.recordBlocked 0x10 j x.slice 0x08 h.addr
           | none => s).trainDone d x c 0
        else if c ≠ 0 then s.trainDone d x c 0
        else
          let total := shards.foldl (fun t h => t + h.pages) 0
          let s := s.setDesc d { x with performed := true }
          let s := { s with snap := some ⟨j, x.slice, shards, [], [], [], 0, 0, [], []⟩,
                            train := { s.train with ckpts := Tab.insert s.train.ckpts j ⟨d, y.raw, y.gen, [], total * 65536, 0⟩ } }
          let w := setBits (setBits (setBits 0 F.snapStatus_active 1) F.snapStatus_slice x.slice) F.snapStatus_job j
          ((s.setReg R.snapStatus w).setReg R.snapPages (setBits 0 F.snapPages_total total)).commitTry j

/-- CHECKPOINT_ABORT (R230): op 1 ends with 0x0014, and the committer is told. -/
def execCheckpointAbort (d : Nat) (s : State) : Result :=
  s.jobOp d 0x05 2 fun x _ s =>
    let j := x.field 42 2
    if (s.ckpt? j).isNone then s.trainDone d x 0x01 0 else (s.ckptFail j 0x14).trainDone d x 0 0

/-- The next page the sender sends: the lowest that is not sent, or while staging is more than 7/8 full the lowest staged one
(R224, R226). -/
def Snap.nextPage (p : Snap) (staging : Nat) (sent : Nat → Bool) : Option Nat :=
  let total := p.shards.foldl (fun t h => t + h.pages) 0
  let live := (below total).find? fun i => !sent i
  if (p.staged.length + p.copying.length) * 8 > staging * 7 then
    match p.staged with
    | e :: _ => some e.1
    | [] => live
  else live

/-- The manifest entry of a shard with its digest (R221). -/
def manifestEntry (c : Ckpt) (x : Shard) (digest : List Byte) : List Byte :=
  bytesLE 1 x.kind ++ zeros 1 ++ bytesLE 2 (c.field 38 2) ++ zeros 4 ++ bytesLE 8 x.elemBase ++
  bytesLE 8 (c.areaAt (c.gen + 1) + x.poolOff) ++ bytesLE 8 x.bytes ++ digest

/-- Every page is sent: the epoch ends, and the rank's entries go to the committer (R224, R227). -/
def State.shardsSent (s : State) (p : Snap) (c : Ckpt) : State :=
  let firsts := (p.shards.foldl (fun (a : List Nat × Nat) x => (a.1 ++ [a.2], a.2 + x.pages)) ([], 0)).1
  let es := (p.shards.zip firsts).map fun e =>
    manifestEntry c e.1 (sha384 ((below e.1.pages).flatMap fun i => Tab.get [] p.sent (e.2 + i)))
  let s := s.endEpoch
  let c : Ckpt := { c with entries := es, cow := p.cow }
  let s := { s with train := { s.train with ckpts := Tab.insert s.train.ckpts p.job c } }
  if c.field 76 2 = c.field 38 2 then s.commitHear p.job (c.field 38 2) 0 es
  else s.sceranSend (.rank p.job (c.field 76 2)) (.entries p.job c.gen (c.field 38 2) 0 es)

/-- SNAPSHOT_PAGE_SENT (R224): the next page, from staging if it is staged, else live, goes to the pool and is acknowledged.
Uncorrectable data fails the checkpoint (log entry 70, DESIGN CHOICE). -/
def execSnapshotPageSent (s : State) : Result :=
  match s.snap with
  | none => go s
  | some p =>
    match s.ckpt? p.job, p.nextPage s.stagingPages fun i => (Tab.find? p.sent i).isSome with
    | some c, some i =>
      let a := pageAddr i p.shards
      let r : Got × State := match Tab.find? p.staged i with
        | some l => (.bytes l, s)
        | none => s.memRead 0x10 p.job 0 p.slice a 65536
      match r with
      | (.fail code, s) => go (s.ckptFail p.job code)
      | (.bytes l, s) =>
        let s := s.pageSent p i l
        let p := s.snap.getD p
        let total := p.shards.foldl (fun t h => t + h.pages) 0
        let full := (below p.shards.length).filter fun n =>
          let first := (p.shards.take n).foldl (fun t h => t + h.pages) 0
          (below ((p.shards.getD n ⟨0, 0, 0, 0, 0⟩).pages)).all fun q => (Tab.find? p.sent (first + q)).isSome
        let s := (s.setF R.snapStatus F.snapStatus_shards_sent full.length).snapRefresh
        if p.sentCount = total then go (s.shardsSent p c) else go s.releaseWrites
    | _, _ => go s

/-- COPY_BEFORE_WRITE (R225, R226): a write to pages of the epoch whose copied bits are clear waits for their copies; any
other is performed. -/
def execCopyBeforeWrite (source slice addr : Nat) (data : List Byte) (s : State) : Result :=
  match s.snap with
  | none => go (s.memWrite 0x0D 0xFF source slice addr data).2
  | some p =>
    if (p.uncopied addr data.length).isEmpty ∨ (s.accessCode slice addr data.length).isSome then
      go (s.memWrite 0x0D 0xFF source slice addr data).2
    else
      let p' : Snap := Snap.startCopies { p with waiting := p.waiting ++ [⟨source, slice, addr, data⟩] } s.stagingPages
      let s := s.count 0x10 2 p.job 1
      let short := p'.copying.length = p.copying.length ∧ p.staged.length + p.copying.length ≥ s.stagingPages ∧
        (p.uncopied addr data.length).any fun i => !p.copying.contains i
      let s := if short then s.count 0x10 3 p.job 1 else s
      go ({ s with snap := some p' }).snapRefresh

/-- STAGING_COPY_DONE (R225): the oldest copy ends, its page's copied bit is set, and the writes it held go on. -/
def execStagingCopyDone (s : State) : Result :=
  match s.snap with
  | none => go s
  | some p =>
    match p.copying with
    | [] => go s
    | i :: r =>
      let p := if (Tab.find? p.copied i).isSome then { p with copying := r } else s.stagePage p i
      go ({ s with snap := some p }).releaseWrites

/-- STAGING_TIMEOUT (R226): a write waits for a page that staging has no room to copy. -/
def execStagingTimeout (s : State) : Result :=
  match s.snap with
  | none => go s
  | some p =>
    if p.staged.length + p.copying.length ≥ s.stagingPages ∧
        p.waiting.any fun w => (p.uncopied w.addr w.data.length).any fun i => !p.copying.contains i then
      go (s.ckptFail p.job 0x12)
    else go s

/-- CHECKPOINT_ENTRIES (R227): this device is the job's committer. -/
def execCheckpointEntries (job rank code : Nat) (entries : List (List Byte)) (s : State) : Result :=
  go (s.entriesHeard job (((s.ckpt? job).map fun c => c.gen).getD (((s.job? job).map Job.gen).getD 0)) rank code entries)

/-- COMMIT_CAS_REPLY (R227, R229): the outcome goes to every rank. -/
def execCommitCasReply (job : Nat) (reply : CasReply) (s : State) : Result :=
  go (s.commitReply job reply)

/-- CHECKPOINT_OUTCOME (R227, R228). -/
def execCheckpointOutcome (job code : Nat) (s : State) : Result := go (s.ckptEnd job (statusKept 0x17 code))

/-- CHECKPOINT_LIMIT_TIMEOUT (R228). -/
def execCheckpointLimitTimeout (job : Nat) (s : State) : Result := go (s.ckptEnd job 0x12)

/-! ## Restore (R231, R232) -/

/-- RESTORE (R232). -/
def execRestore (d : Nat) (pool : Got) (s : State) : Result :=
  s.jobOp d 0x05 3 fun x _ s =>
    let dst := x.field 64 8
    let n := x.field 88 8
    let inSnap := match s.snap with
      | some p => p.shards.any fun h => meets dst n h.addr h.bytes
      | none => false
    if inSnap then s.trainDone d x 0x01 0
    else match s.refusals 0x10 (x.field 42 2) x.slice [(dst, n), (x.field 72 8, 48)] with
    | (c :: cs, s) => s.trainDone d x (combineCodes (c :: cs)) 0
    | ([], s) => match pool with
      | .fail c => s.trainDone d x c 0
      | .bytes l =>
        if l.length ≠ x.field 44 4 then s.trainDone d x 0x11 0
        else match s.memWrite 0x10 (x.field 42 2) 0 x.slice dst ((l.drop (x.field 80 8)).take n) with
          | (some c, s) => s.trainDone d x c 0
          | (none, s) => match s.memRead 0x10 (x.field 42 2) 0 x.slice (x.field 72 8) 48 with
            | (.fail c, s) => s.trainDone d x c 0
            | (.bytes h, s) => if sha384 l = h then s.trainDone d x 0 n else s.trainDone d x 0x20 0

/-- A manifest passes its checks for generation g (R231): magic, version, generation, digest. -/
def manifestOk (l : List Byte) (g : Nat) : Bool :=
  let n := 128 + 80 * fieldLE l 12 4
  fieldLE l 0 4 == 0x4B434E43 && fieldLE l 4 4 == 1 && fieldLE l 8 4 == g && decide (fieldLE l 12 4 ≤ 13105) &&
  decide (n + 48 ≤ l.length) && sha384 (l.take n) == (l.drop n).take 48

/-- MANIFEST_FETCH (R231) (log entry 75, DEDUCED). -/
def execManifestFetch (d : Nat) (word manifest : Got) (s : State) : Result :=
  s.jobOp d 0x05 4 fun x y s =>
    match word with
    | .fail c => s.trainDone d x c 0
    | .bytes w =>
      let g := fieldLE w 0 4
      if fieldLE w 4 4 ≠ y.field 0 4 then s.trainDone d x 0x17 0
      else if g = 0 then s.trainDone d x 0x04 0
      else match manifest with
        | .fail c => s.trainDone d x c 0
        | .bytes l =>
          let n := 128 + 80 * fieldLE l 12 4 + 48
          if ¬ manifestOk l g then s.trainDone d x 0x20 0
          else if n > x.field 44 4 then s.trainDone d x 0x04 0
          else match s.memWrite 0x10 (x.field 42 2) 0 x.slice (x.field 56 8) (l.take n) with
            | (some c, s) => s.trainDone d x c 0
            | (none, s) => (s.setJob (x.field 42 2) (y.setGen g)).trainDone d x 0 n

end Sys2Proof.Machine
end

