-- ==== Sys2Proof/Machine/Dispatch.lean ====
section
/-! DEFINITION. One arm per command: a direct call of its meaning. -/

namespace Sys2Proof.Machine

def exec (i : Instr) (s : State) : Host.Outcome State Fault Refusal :=
  match i with
  | .registerWrite fn addr wide value => Sys2Proof.Machine.execRegisterWrite fn addr wide value s
  | .bar0MisalignedAccess fn addr len write => Sys2Proof.Machine.execBar0MisalignedAccess fn addr len write s
  | .linkFlitReceive k flit => Sys2Proof.Machine.execLinkFlitReceive k flit s
  | .linkRetrain k ok => Sys2Proof.Machine.execLinkRetrain k ok s
  | .laneSpareSubstitute k lane training retrainOk => Sys2Proof.Machine.execLaneSpareSubstitute k lane training retrainOk s
  | .linkTrainRetry k ok => Sys2Proof.Machine.execLinkTrainRetry k ok s
  | .rootPllLockLoss => Sys2Proof.Machine.execRootPllLockLoss s
  | .refclkLoss => Sys2Proof.Machine.execRefclkLoss s
  | .refclkRestore => Sys2Proof.Machine.execRefclkRestore s
  | .timebaseRead part => Sys2Proof.Machine.execTimebaseRead part s
  | .timeRateWrite value => Sys2Proof.Machine.execTimeRateWrite value s
  | .timeStepWrite value => Sys2Proof.Machine.execTimeStepWrite value s
  | .timeSrcWrite value => Sys2Proof.Machine.execTimeSrcWrite value s
  | .fabricGrant port elapsed waiting => Sys2Proof.Machine.execFabricGrant port elapsed waiting s
  | .quietSlotAdvance => Sys2Proof.Machine.execQuietSlotAdvance s
  | .benchQueueDoorbell bell => Sys2Proof.Machine.execBenchQueueDoorbell bell s
  | .benchDescriptorFetch q host => Sys2Proof.Machine.execBenchDescriptorFetch q host s
  | .subpartDispatch d stack pos => Sys2Proof.Machine.execSubpartDispatch d stack pos s
  | .subpartComplete d stack pos => Sys2Proof.Machine.execSubpartComplete d stack pos s
  | .reduce d => Sys2Proof.Machine.execReduce d s
  | .quantize d => Sys2Proof.Machine.execQuantize d s
  | .barrierSet d => Sys2Proof.Machine.execBarrierSet d s
  | .kernelLaunch d => Sys2Proof.Machine.execKernelLaunch d s
  | .instanceStart d idx stack pos => Sys2Proof.Machine.execInstanceStart d idx stack pos s
  | .kernelTimeLimit core => Sys2Proof.Machine.execKernelTimeLimit core s
  | .scratchPageZeroed stack b page => Sys2Proof.Machine.execScratchPageZeroed stack b page s
  | .barrierRelease scope n => Sys2Proof.Machine.execBarrierRelease scope n s
  | .barrierOwnerWrite scope n value => Sys2Proof.Machine.execBarrierOwnerWrite scope n value s
  | .engineIdle stack k => Sys2Proof.Machine.execEngineIdle stack k s
  | .rampStep stack => Sys2Proof.Machine.execRampStep stack s
  | .engineFault stack b e => Sys2Proof.Machine.execEngineFault stack b e s
  | .laneFault stack b e lane => Sys2Proof.Machine.execLaneFault stack b e lane s
  | .benchFault stack b => Sys2Proof.Machine.execBenchFault stack b s
  | .spareInService level => Sys2Proof.Machine.execSpareInService level s
  | .bundleExecute core feed => Sys2Proof.Machine.execBundleExecute core feed s
  | .coprocessorOpComplete core cop data => Sys2Proof.Machine.execCoprocessorOpComplete core cop data s
  | .storeFailure core => Sys2Proof.Machine.execStoreFailure core s
  | .interrupt core line => Sys2Proof.Machine.execInterrupt core line s
  | .dramTempPoll stack temps => Sys2Proof.Machine.execDramTempPoll stack temps s
  | .ddrChannelFail c => Sys2Proof.Machine.execDdrChannelFail c s
  | .regionCreate value => Sys2Proof.Machine.execRegionCreate value s
  | .regionDestroy value => Sys2Proof.Machine.execRegionDestroy value s
  | .regionSetBulkMirror value => Sys2Proof.Machine.execRegionSetBulkMirror value s
  | .regionZeroingDone r => Sys2Proof.Machine.execRegionZeroingDone r s
  | .stitchWrite source slice a data => Sys2Proof.Machine.execStitchWrite source slice a data s
  | .stripeLockRelease stripe => Sys2Proof.Machine.execStripeLockRelease stripe s
  | .stitchRead source slice a len => Sys2Proof.Machine.execStitchRead source slice a len s
  | .scrubRead seen row bankSpare overwritten => Sys2Proof.Machine.execScrubRead seen row bankSpare overwritten s
  | .memoryTrainingDone stackIds channels => Sys2Proof.Machine.execMemoryTrainingDone stackIds channels s
  | .sequenceOpen d => Sys2Proof.Machine.execSequenceOpen d s
  | .sequenceClose d => Sys2Proof.Machine.execSequenceClose d s
  | .sequenceTruncate d => Sys2Proof.Machine.execSequenceTruncate d s
  | .sequencePark d => Sys2Proof.Machine.execSequencePark d s
  | .sequenceUnpark d => Sys2Proof.Machine.execSequenceUnpark d s
  | .lastBind d => Sys2Proof.Machine.execLastBind d s
  | .lastUnbind d => Sys2Proof.Machine.execLastUnbind d s
  | .arenaBind d => Sys2Proof.Machine.execArenaBind d s
  | .arenaRelease d => Sys2Proof.Machine.execArenaRelease d s
  | .feedOpen d => Sys2Proof.Machine.execFeedOpen d s
  | .feedClose d => Sys2Proof.Machine.execFeedClose d s
  | .attendBatch d => Sys2Proof.Machine.execAttendBatch d s
  | .feedDoorbell port f value => Sys2Proof.Machine.execFeedDoorbell port f value s
  | .attendBatchStart n => Sys2Proof.Machine.execAttendBatchStart n s
  | .maximaExchange n stack => Sys2Proof.Machine.execMaximaExchange n stack s
  | .partialMerge n stack => Sys2Proof.Machine.execPartialMerge n stack s
  | .frameZeroingDone addr => Sys2Proof.Machine.execFrameZeroingDone addr s
  | .embeddingGather d => Sys2Proof.Machine.execEmbeddingGather d s
  | .stage d => Sys2Proof.Machine.execStage d s
  | .sample d => Sys2Proof.Machine.execSample d s
  | .jobOpen d => Sys2Proof.Machine.execJobOpen d s
  | .jobClose d => Sys2Proof.Machine.execJobClose d s
  | .jobLoad d => Sys2Proof.Machine.execJobLoad d s
  | .jobStore d => Sys2Proof.Machine.execJobStore d s
  | .advance d => Sys2Proof.Machine.execAdvance d s
  | .step d => Sys2Proof.Machine.execStep d s
  | .sqnorm d => Sys2Proof.Machine.execSqnorm d s
  | .push d => Sys2Proof.Machine.execPush d s
  | .scatter d => Sys2Proof.Machine.execScatter d s
  | .feed d reads => Sys2Proof.Machine.execFeed d reads s
  | .intakeWait d => Sys2Proof.Machine.execIntakeWait d s
  | .intakeWaitTimeout d => Sys2Proof.Machine.execIntakeWaitTimeout d s
  | .intakeArrival => Sys2Proof.Machine.execIntakeArrival s
  | .digest d => Sys2Proof.Machine.execDigest d s
  | .checkpoint d => Sys2Proof.Machine.execCheckpoint d s
  | .checkpointAbort d => Sys2Proof.Machine.execCheckpointAbort d s
  | .restore d pool => Sys2Proof.Machine.execRestore d pool s
  | .manifestFetch d word manifest => Sys2Proof.Machine.execManifestFetch d word manifest s
  | .snapshotPageSent => Sys2Proof.Machine.execSnapshotPageSent s
  | .copyBeforeWrite source slice addr data => Sys2Proof.Machine.execCopyBeforeWrite source slice addr data s
  | .stagingCopyDone => Sys2Proof.Machine.execStagingCopyDone s
  | .stagingTimeout => Sys2Proof.Machine.execStagingTimeout s
  | .checkpointEntries job rank code entries => Sys2Proof.Machine.execCheckpointEntries job rank code entries s
  | .commitCasReply job reply => Sys2Proof.Machine.execCommitCasReply job reply s
  | .checkpointOutcome job code => Sys2Proof.Machine.execCheckpointOutcome job code s
  | .checkpointLimitTimeout job => Sys2Proof.Machine.execCheckpointLimitTimeout job s
  | .dmaDoorbell bell => Sys2Proof.Machine.execDmaDoorbell bell s
  | .dmaDescriptorFetch ch host => Sys2Proof.Machine.execDmaDescriptorFetch ch host s
  | .dmaCopy ch n data => Sys2Proof.Machine.execDmaCopy ch n data s
  | .dmaFill ch n => Sys2Proof.Machine.execDmaFill ch n s
  | .dmaWritesAcked ch => Sys2Proof.Machine.execDmaWritesAcked ch s
  | .dmaLateError ch code => Sys2Proof.Machine.execDmaLateError ch code s
  | .dmaPause ch pause => Sys2Proof.Machine.execDmaPause ch pause s
  | .dmaPaused ch => Sys2Proof.Machine.execDmaPaused ch s
  | .dmaEngineStop e code addr => Sys2Proof.Machine.execDmaEngineStop e code addr s
  | .dmaClearError ch => Sys2Proof.Machine.execDmaClearError ch s
  | .dmaSquash ch => Sys2Proof.Machine.execDmaSquash ch s
  | .configRequest fn req => Sys2Proof.Machine.execConfigRequest fn req s
  | .bar4Access fn off req => Sys2Proof.Machine.execBar4Access fn off req s
  | .bar4Atomic fn off op => Sys2Proof.Machine.execBar4Atomic fn off op s
  | .msixPendingSend fn v => Sys2Proof.Machine.execMsixPendingSend fn v s
  | .intxPendWrite fn value => Sys2Proof.Machine.execIntxPendWrite fn value s
  | .d3hotEntry fn => Sys2Proof.Machine.execD3hotEntry fn s
  | .d0Write fn => Sys2Proof.Machine.execD0Write fn s
  | .l2Entry fn => Sys2Proof.Machine.execL2Entry fn s
  | .perstAssert fn => Sys2Proof.Machine.execPerstAssert fn s
  | .perstDeassert fn => Sys2Proof.Machine.execPerstDeassert fn s
  | .wakeSource fn source => Sys2Proof.Machine.execWakeSource fn source s
  | .completionTimeout unit tag => Sys2Proof.Machine.execCompletionTimeout unit tag s
  | .completionReceived unit tag last data => Sys2Proof.Machine.execCompletionReceived unit tag last data s
  | .tagQuarantineRelease unit tag => Sys2Proof.Machine.execTagQuarantineRelease unit tag s
  | .busMasterDisable fn => Sys2Proof.Machine.execBusMasterDisable fn s
  | .functionLevelReset fn => Sys2Proof.Machine.execFunctionLevelReset fn s
  | .flrComplete fn => Sys2Proof.Machine.execFlrComplete fn s
  | .hbCfgWrite fn value => Sys2Proof.Machine.execHbCfgWrite fn value s
  | .hbCountWrite fn value => Sys2Proof.Machine.execHbCountWrite fn value s
  | .heartbeatMiss fn => Sys2Proof.Machine.execHeartbeatMiss fn s
  | .upstreamLinkDown fn => Sys2Proof.Machine.execUpstreamLinkDown fn s
  | .hostLossDrainEnd fn => Sys2Proof.Machine.execHostLossDrainEnd fn s
  | .malformedTlp fn => Sys2Proof.Machine.execMalformedTlp fn s
  | .poisonedTlp fn tag => Sys2Proof.Machine.execPoisonedTlp fn tag s
  | .upstreamLinkChange fn up flit narrowed width speed => Sys2Proof.Machine.execUpstreamLinkChange fn up flit narrowed width speed s
  | .aspmIdleEntry fn deep => Sys2Proof.Machine.execAspmIdleEntry fn deep s
  | .chanCfgWrite ch value => Sys2Proof.Machine.execChanCfgWrite ch value s
  | .sliceCreate value => Sys2Proof.Machine.execSliceCreate value s
  | .sliceDestroy value => Sys2Proof.Machine.execSliceDestroy value s
  | .sliceReset value => Sys2Proof.Machine.execSliceReset value s
  | .sliceQuiesce value => Sys2Proof.Machine.execSliceQuiesce value s
  | .sliceResume value => Sys2Proof.Machine.execSliceResume value s
  | .sliceApply value => Sys2Proof.Machine.execSliceApply value s
  | .logStart value => Sys2Proof.Machine.execLogStart value s
  | .logSwap value => Sys2Proof.Machine.execLogSwap value s
  | .logStop value => Sys2Proof.Machine.execLogStop value s
  | .logSwapDone slice => Sys2Proof.Machine.execLogSwapDone slice s
  | .dirtyBitWrite old => Sys2Proof.Machine.execDirtyBitWrite old s
  | .sliceResetDone slice force => Sys2Proof.Machine.execSliceResetDone slice force s
  | .quiesceDone slice => Sys2Proof.Machine.execQuiesceDone slice s
  | .sliceZeroingDone slice => Sys2Proof.Machine.execSliceZeroingDone slice s
  | .doorbellEntryWrite fn p value => Sys2Proof.Machine.execDoorbellEntryWrite fn p value s
  | .apertureEntryWrite fn a word value => Sys2Proof.Machine.execApertureEntryWrite fn a word value s
  | .queueEnable kind q value => Sys2Proof.Machine.execQueueEnable kind q value s
  | .completionRingDoorbell bell => Sys2Proof.Machine.execCompletionRingDoorbell bell s
  | .pendingRecordWrite r => Sys2Proof.Machine.execPendingRecordWrite r s
  | .dpCfgAccess p write value reply => Sys2Proof.Machine.execDpCfgAccess p write value reply s
  | .inboundPortRequest p bus req => Sys2Proof.Machine.execInboundPortRequest p bus req s
  | .sgpioFrame bits => Sys2Proof.Machine.execSgpioFrame bits s
  | .powerCtrlWrite p on => Sys2Proof.Machine.execPowerCtrlWrite p on s
  | .poweringEnd p => Sys2Proof.Machine.execPoweringEnd p s
  | .portLinkUp p width speed flit => Sys2Proof.Machine.execPortLinkUp p width speed flit s
  | .portLinkDown p => Sys2Proof.Machine.execPortLinkDown p s
  | .trainFail p => Sys2Proof.Machine.execTrainFail p s
  | .hotReset p => Sys2Proof.Machine.execHotReset p s
  | .portEnableWrite p on => Sys2Proof.Machine.execPortEnableWrite p on s
  | .errMessage p severity => Sys2Proof.Machine.execErrMessage p severity s
  | .nvmeSqDoorbell bell => Sys2Proof.Machine.execNvmeSqDoorbell bell s
  | .nvmeCqDoorbell bell => Sys2Proof.Machine.execNvmeCqDoorbell bell s
  | .nvmeCommandFetch q host => Sys2Proof.Machine.execNvmeCommandFetch q host s
  | .identify id => Sys2Proof.Machine.execIdentify id s
  | .getLogPage id lists => Sys2Proof.Machine.execGetLogPage id lists s
  | .getFeatures id => Sys2Proof.Machine.execGetFeatures id s
  | .setFeatures id => Sys2Proof.Machine.execSetFeatures id s
  | .asynchronousEventRequest id => Sys2Proof.Machine.execAsynchronousEventRequest id s
  | .keepAlive id => Sys2Proof.Machine.execKeepAlive id s
  | .nvmeAbort id entries => Sys2Proof.Machine.execNvmeAbort id entries s
  | .forwardedAdminCommand id => Sys2Proof.Machine.execForwardedAdminCommand id s
  | .medReply value => Sys2Proof.Machine.execMedReply value s
  | .mediationTimeout tag => Sys2Proof.Machine.execMediationTimeout tag s
  | .queuePairEnable q value => Sys2Proof.Machine.execQueuePairEnable q value s
  | .nvmeFlush id => Sys2Proof.Machine.execNvmeFlush id s
  | .nvmeWrite id lists => Sys2Proof.Machine.execNvmeWrite id lists s
  | .nvmeRead id lists => Sys2Proof.Machine.execNvmeRead id lists s
  | .writeZeroes id => Sys2Proof.Machine.execWriteZeroes id s
  | .datasetManagement id lists ranges => Sys2Proof.Machine.execDatasetManagement id lists ranges s
  | .backendCompletion id status dnr data => Sys2Proof.Machine.execBackendCompletion id status dnr data s
  | .backendTimeout id => Sys2Proof.Machine.execBackendTimeout id s
  | .proxyAccess port addr n data host => Sys2Proof.Machine.execProxyAccess port addr n data host s
  | .cleanFlagSet ns => Sys2Proof.Machine.execCleanFlagSet ns s
  | .nsRearm ns => Sys2Proof.Machine.execNsRearm ns s
  | .resyncCopy ns n readStatus writeStatus => Sys2Proof.Machine.execResyncCopy ns n readStatus writeStatus s
  | .backendReady b awupf format clean => Sys2Proof.Machine.execBackendReady b awupf format clean s
  | .frameReceive port body fcsOk prio => Sys2Proof.Machine.execFrameReceive port body fcsOk prio s
  | .pipelinePass pipe feed => Sys2Proof.Machine.execPipelinePass pipe feed s
  | .actionTimeLimit core feed => Sys2Proof.Machine.execActionTimeLimit core feed s
  | .packetRingDoorbell bell => Sys2Proof.Machine.execPacketRingDoorbell bell s
  | .transmitDescriptor r host data => Sys2Proof.Machine.execTransmitDescriptor r host data s
  | .tmSchedule port => Sys2Proof.Machine.execTmSchedule port s
  | .tokenRefill => Sys2Proof.Machine.execTokenRefill s
  | .pfcReceive port quanta => Sys2Proof.Machine.execPfcReceive port quanta s
  | .pfcPauseExpire port prio => Sys2Proof.Machine.execPfcPauseExpire port prio s
  | .objRead value => Sys2Proof.Machine.execObjRead value s
  | .objWrite value => Sys2Proof.Machine.execObjWrite value s
  | .objEnable value => Sys2Proof.Machine.execObjEnable value s
  | .objDisable value => Sys2Proof.Machine.execObjDisable value s
  | .ptpMessage port domain msg => Sys2Proof.Machine.execPtpMessage port domain msg s
  | .ppsEdge => Sys2Proof.Machine.execPpsEdge s
  | .servoHoldover => Sys2Proof.Machine.execServoHoldover s
  | .ppsOutPulse => Sys2Proof.Machine.execPpsOutPulse s
  | .requestPacket p icrcOk malformed host => Sys2Proof.Machine.execRequestPacket p icrcOk malformed host s
  | .ackReceive conn psn bitmap echo atomic => Sys2Proof.Machine.execAckReceive conn psn bitmap echo atomic s
  | .nakReceive conn psn kind => Sys2Proof.Machine.execNakReceive conn psn kind s
  | .cnpReceive conn => Sys2Proof.Machine.execCnpReceive conn s
  | .readResponse conn psn data => Sys2Proof.Machine.execReadResponse conn psn data s
  | .connRead value => Sys2Proof.Machine.execConnRead value s
  | .connCreate value => Sys2Proof.Machine.execConnCreate value s
  | .connModify value => Sys2Proof.Machine.execConnModify value s
  | .connDestroy value => Sys2Proof.Machine.execConnDestroy value s
  | .sendQueueDoorbell bell => Sys2Proof.Machine.execSendQueueDoorbell bell s
  | .receiveQueueDoorbell bell => Sys2Proof.Machine.execReceiveQueueDoorbell bell s
  | .send conn host data => Sys2Proof.Machine.execSend conn host data s
  | .sendWithImmediate conn host data => Sys2Proof.Machine.execSendWithImmediate conn host data s
  | .rdmaWrite conn host data => Sys2Proof.Machine.execRdmaWrite conn host data s
  | .rdmaWriteWithImmediate conn host data => Sys2Proof.Machine.execRdmaWriteWithImmediate conn host data s
  | .rdmaRead conn host => Sys2Proof.Machine.execRdmaRead conn host s
  | .atomicCompareSwap conn host => Sys2Proof.Machine.execAtomicCompareSwap conn host s
  | .atomicFetchAdd conn host => Sys2Proof.Machine.execAtomicFetchAdd conn host s
  | .receive conn host => Sys2Proof.Machine.execReceive conn host s
  | .retransmitTimeout conn psn => Sys2Proof.Machine.execRetransmitTimeout conn psn s
  | .rnrDelayEnd conn => Sys2Proof.Machine.execRnrDelayEnd conn s
  | .connectionLifetimeExpiry conn psn => Sys2Proof.Machine.execConnectionLifetimeExpiry conn psn s
  | .pathResume conn path => Sys2Proof.Machine.execPathResume conn path s
  | .ackTimer conn => Sys2Proof.Machine.execAckTimer conn s
  | .contextFillDone conn ok => Sys2Proof.Machine.execContextFillDone conn ok s
  | .mrInval value => Sys2Proof.Machine.execMrInval value s
  | .mrInvalDone => Sys2Proof.Machine.execMrInvalDone s
  | .windowAtMin conn => Sys2Proof.Machine.execWindowAtMin conn s
  | .netLinkChange port up => Sys2Proof.Machine.execNetLinkChange port up s
  | .sceranRequest ipv6 addr node epoch id op crcOk => Sys2Proof.Machine.execSceranRequest ipv6 addr node epoch id op crcOk s
  | .sceranResponse frame status old data => Sys2Proof.Machine.execSceranResponse frame status old data s
  | .sceranRelease node epoch frame => Sys2Proof.Machine.execSceranRelease node epoch frame s
  | .sceranRetransmit id => Sys2Proof.Machine.execSceranRetransmit id s
  | .sceranLifetime id => Sys2Proof.Machine.execSceranLifetime id s
  | .sceranRecordExpiry number => Sys2Proof.Machine.execSceranRecordExpiry number s
  | .drbgReseed => Sys2Proof.Machine.execDrbgReseed s
  | .maskRekey => Sys2Proof.Machine.execMaskRekey s
  | .entropyHealthFail => Sys2Proof.Machine.execEntropyHealthFail s
  | .entropyRetest pass => Sys2Proof.Machine.execEntropyRetest pass s
  | .keyLoad value => Sys2Proof.Machine.execKeyLoad value s
  | .keyGenerate value => Sys2Proof.Machine.execKeyGenerate value s
  | .keyImport value => Sys2Proof.Machine.execKeyImport value s
  | .keyUnload value => Sys2Proof.Machine.execKeyUnload value s
  | .keyRead value => Sys2Proof.Machine.execKeyRead value s
  | .keyUnwrapDone pipe slot => Sys2Proof.Machine.execKeyUnwrapDone pipe slot s
  | .cipherQueueDoorbell bell => Sys2Proof.Machine.execCipherQueueDoorbell bell s
  | .gcmSeal q io => Sys2Proof.Machine.execGcmSeal q io s
  | .gcmOpen q io => Sys2Proof.Machine.execGcmOpen q io s
  | .ctr q io => Sys2Proof.Machine.execCtr q io s
  | .xtsEncrypt q io => Sys2Proof.Machine.execXtsEncrypt q io s
  | .xtsDecrypt q io => Sys2Proof.Machine.execXtsDecrypt q io s
  | .sha256 q io => Sys2Proof.Machine.execSha256 q io s
  | .sha384 q io => Sys2Proof.Machine.execSha384 q io s
  | .ecdsaSign q io => Sys2Proof.Machine.execEcdsaSign q io s
  | .ecdsaVerify q io => Sys2Proof.Machine.execEcdsaVerify q io s
  | .publicKey q io => Sys2Proof.Machine.execPublicKey q io s
  | .inputLow => Sys2Proof.Machine.execInputLow s
  | .inputRecover => Sys2Proof.Machine.execInputRecover s
  | .inputOvervoltage => Sys2Proof.Machine.execInputOvervoltage s
  | .inputFaultOff high => Sys2Proof.Machine.execInputFaultOff high s
  | .powerLinkAnswer ack => Sys2Proof.Machine.execPowerLinkAnswer ack s
  | .powerAlert => Sys2Proof.Machine.execPowerAlert s
  | .powerLinkTimeout => Sys2Proof.Machine.execPowerLinkTimeout s
  | .powerLinkRetry answered => Sys2Proof.Machine.execPowerLinkRetry answered s
  | .powerDieFallback overLimit => Sys2Proof.Machine.execPowerDieFallback overLimit s
  | .toA0 value => Sys2Proof.Machine.execToA0 value s
  | .toA1 value => Sys2Proof.Machine.execToA1 value s
  | .a1Entry => Sys2Proof.Machine.execA1Entry s
  | .a1Timeout => Sys2Proof.Machine.execA1Timeout s
  | .autoA0 => Sys2Proof.Machine.execAutoA0 s
  | .armS1 value => Sys2Proof.Machine.execArmS1 value s
  | .armS2 value => Sys2Proof.Machine.execArmS2 value s
  | .disarm value => Sys2Proof.Machine.execDisarm value s
  | .s1Entry linkLost => Sys2Proof.Machine.execS1Entry linkLost s
  | .s2Entry linkLost => Sys2Proof.Machine.execS2Entry linkLost s
  | .wake source => Sys2Proof.Machine.execWake source s
  | .padRelease core value => Sys2Proof.Machine.execPadRelease core value s
  | .energyUpdate uj pin vin iin => Sys2Proof.Machine.execEnergyUpdate uj pin vin iin s
  | .capLoop p => Sys2Proof.Machine.execCapLoop p s
  | .phaseCtrlWrite value => Sys2Proof.Machine.execPhaseCtrlWrite value s
  | .benchGateIdle stack b => Sys2Proof.Machine.execBenchGateIdle stack b s
  | .thermalLoop dies dram => Sys2Proof.Machine.execThermalLoop dies dram s
  | .droop stack => Sys2Proof.Machine.execDroop stack s
  | .droopClear stack => Sys2Proof.Machine.execDroopClear stack s
  | .overpowerClear => Sys2Proof.Machine.execOverpowerClear s
  | .thermtrip => Sys2Proof.Machine.execThermtrip s
  | .bootVerify seen => Sys2Proof.Machine.execBootVerify seen s
  | .imageApply content0 content1 => Sys2Proof.Machine.execImageApply content0 content1 s
  | .apprenticeServiceStart failed => Sys2Proof.Machine.execApprenticeServiceStart failed s
  | .fullServiceStart failed => Sys2Proof.Machine.execFullServiceStart failed s
  | .bootLate full => Sys2Proof.Machine.execBootLate full s
  | .resetCtrlWrite value => Sys2Proof.Machine.execResetCtrlWrite value s
  | .watchdogExpiry core handled => Sys2Proof.Machine.execWatchdogExpiry core handled s
  | .coreRestart core => Sys2Proof.Machine.execCoreRestart core s
  | .flashWrite value => Sys2Proof.Machine.execFlashWrite value s
  | .flashErase value => Sys2Proof.Machine.execFlashErase value s
  | .stageFirmware value => Sys2Proof.Machine.execStageFirmware value s
  | .activateFirmware value => Sys2Proof.Machine.execActivateFirmware value s
  | .activationResume => Sys2Proof.Machine.execActivationResume s
  | .activationTimeout => Sys2Proof.Machine.execActivationTimeout s
  | .commitFirmware value => Sys2Proof.Machine.execCommitFirmware value s
  | .stageImage value content => Sys2Proof.Machine.execStageImage value content s
  | .commitImage value => Sys2Proof.Machine.execCommitImage value s
  | .claimOwnership value => Sys2Proof.Machine.execClaimOwnership value s
  | .transferOwnership value => Sys2Proof.Machine.execTransferOwnership value s
  | .spdmRequest transport req => Sys2Proof.Machine.execSpdmRequest transport req s
  | .activationCoreReady core => Sys2Proof.Machine.execActivationCoreReady core s
  | .pairingStart partner => Sys2Proof.Machine.execPairingStart partner s
  | .syncComplete => Sys2Proof.Machine.execSyncComplete s
  | .weltLaneFail lane => Sys2Proof.Machine.execWeltLaneFail lane s
  | .heartbeatSend wake => Sys2Proof.Machine.execHeartbeatSend wake s
  | .heartbeatReceive src => Sys2Proof.Machine.execHeartbeatReceive src s
  | .heartbeatSilence welt => Sys2Proof.Machine.execHeartbeatSilence welt s
  | .probeTimeout answered => Sys2Proof.Machine.execProbeTimeout answered s
  | .mirrorUpdate what => Sys2Proof.Machine.execMirrorUpdate what s
  | .sessionAck n => Sys2Proof.Machine.execSessionAck n s
  | .bulkCopy arrives => Sys2Proof.Machine.execBulkCopy arrives s
  | .switchover how => Sys2Proof.Machine.execSwitchover how s
  | .rejoin value partner => Sys2Proof.Machine.execRejoin value partner s
  | .leave value => Sys2Proof.Machine.execLeave value s
  | .weltLinkUp lanes => Sys2Proof.Machine.execWeltLinkUp lanes s
  | .isstStart stack bench => Sys2Proof.Machine.execIsstStart stack bench s
  | .isstEnd stack faults bad => Sys2Proof.Machine.execIsstEnd stack faults bad s
  | .isstAbandon stack => Sys2Proof.Machine.execIsstAbandon stack s
  | .isstWindowLate stack bench => Sys2Proof.Machine.execIsstWindowLate stack bench s
  | .postWaitTimeout untested => Sys2Proof.Machine.execPostWaitTimeout untested s
  | .deviceFatal cause => Sys2Proof.Machine.execDeviceFatal cause s
  | .isstDeferLimit stack bench => Sys2Proof.Machine.execIsstDeferLimit stack bench s
  | .daybookTokenRefill => Sys2Proof.Machine.execDaybookTokenRefill s
  | .tallySel value => Sys2Proof.Machine.execTallySel value s
  | .tallyDump value => Sys2Proof.Machine.execTallyDump value s
  | .pldmRequest req => Sys2Proof.Machine.execPldmRequest req s
  | .pmbusCommand code => Sys2Proof.Machine.execPmbusCommand code s
  | .clearFaults => Sys2Proof.Machine.execClearFaults s
  | .devResetNLow samples => Sys2Proof.Machine.execDevResetNLow samples s
  | .pwrEnDeassert => Sys2Proof.Machine.execPwrEnDeassert s
  | .powerGood straps testMode resetN => Sys2Proof.Machine.execPowerGood straps testMode resetN s
  | .tapInstruction code => Sys2Proof.Machine.execTapInstruction code s
  | .devResetNRise => Sys2Proof.Machine.execDevResetNRise s

end Sys2Proof.Machine
end

