-- ==== Sys2Proof/WellFormed.lean ====
section
/-! DEFINITION. Well-formed commands: every index and code lies within the range the spec gives it. -/

namespace Sys2Proof

/-- The operands of a command that have a range, each with the first value beyond it: functions 2, stacks 12, benches 7 with 6
positions, engines 9, lanes 33, links 15, slices 256, DMA channels 1,024, ports 16 and 8, rings and queues as their tables say,
BAR0 64 MiB, device addresses 52 bits, connections and PSNs 24 bits. -/
def Instr.bounds : Instr → List (Nat × Nat)
  | .registerWrite fn addr _ _ => [(fn, 2), (addr, 2 ^ 26)]
  | .bar0MisalignedAccess fn addr _ _ => [(fn, 2), (addr, 2 ^ 26)]
  | .linkFlitReceive k flit => [(k, 15), (flit.bytes.length, 257)]
  | .linkRetrain k _ => [(k, 15)]
  | .laneSpareSubstitute k lane _ _ => [(k, 15), (lane, 258)]
  | .linkTrainRetry k _ => [(k, 15)]
  | .rootPllLockLoss => []
  | .refclkLoss => []
  | .refclkRestore => []
  | .timebaseRead part => [(part, 3)]
  | .timeRateWrite _ => []
  | .timeStepWrite _ => []
  | .timeSrcWrite _ => []
  | .fabricGrant _ _ _ => []
  | .quietSlotAdvance => []
  | .benchQueueDoorbell _ => []
  | .benchDescriptorFetch q _ => [(q, 1024)]
  | .subpartDispatch _ stack pos => [(stack, 12), (pos, 6)]
  | .subpartComplete _ stack pos => [(stack, 12), (pos, 6)]
  | .reduce _ => []
  | .quantize _ => []
  | .barrierSet _ => []
  | .kernelLaunch _ => []
  | .instanceStart _ _ stack pos => [(stack, 12), (pos, 6)]
  | .kernelTimeLimit core => [(core, 84)]
  | .scratchPageZeroed stack b page => [(stack, 12), (b, 7), (page, 64)]
  | .barrierRelease _ n => [(n, 16)]
  | .barrierOwnerWrite _ n _ => [(n, 16)]
  | .engineIdle stack k => [(stack, 12), (k, 48)]
  | .rampStep stack => [(stack, 12)]
  | .engineFault stack b e => [(stack, 12), (b, 7), (e, 9)]
  | .laneFault stack b e lane => [(stack, 12), (b, 7), (e, 9), (lane, 33)]
  | .benchFault stack b => [(stack, 12), (b, 7)]
  | .spareInService _ => []
  | .bundleExecute core _ => [(core, 171)]
  | .coprocessorOpComplete core cop _ => [(core, 171), (cop, 16)]
  | .storeFailure core => [(core, 171)]
  | .interrupt core line => [(core, 171), (line, 64)]
  | .dramTempPoll stack _ => [(stack, 12)]
  | .ddrChannelFail c => [(c, 8)]
  | .regionCreate _ => []
  | .regionDestroy _ => []
  | .regionSetBulkMirror _ => []
  | .regionZeroingDone r => [(r, 4096)]
  | .stitchWrite source slice a _ => [(source, 8), (slice, 256), (a, 2 ^ 52)]
  | .stripeLockRelease _ => []
  | .stitchRead source slice a _ => [(source, 8), (slice, 256), (a, 2 ^ 52)]
  | .scrubRead _ _ _ _ => []
  | .memoryTrainingDone _ _ => []
  | .sequenceOpen _ => []
  | .sequenceClose _ => []
  | .sequenceTruncate _ => []
  | .sequencePark _ => []
  | .sequenceUnpark _ => []
  | .lastBind _ => []
  | .lastUnbind _ => []
  | .arenaBind _ => []
  | .arenaRelease _ => []
  | .feedOpen _ => []
  | .feedClose _ => []
  | .attendBatch _ => []
  | .feedDoorbell port _ _ => [(port, 8)]
  | .attendBatchStart _ => []
  | .maximaExchange _ stack => [(stack, 12)]
  | .partialMerge _ stack => [(stack, 12)]
  | .frameZeroingDone addr => [(addr, 2 ^ 52)]
  | .embeddingGather _ => []
  | .stage _ => []
  | .sample _ => []
  | .jobOpen _ => []
  | .jobClose _ => []
  | .jobLoad _ => []
  | .jobStore _ => []
  | .advance _ => []
  | .step _ => []
  | .sqnorm _ => []
  | .push _ => []
  | .scatter _ => []
  | .feed _ _ => []
  | .intakeWait _ => []
  | .intakeWaitTimeout _ => []
  | .intakeArrival => []
  | .digest _ => []
  | .checkpoint _ => []
  | .checkpointAbort _ => []
  | .restore _ _ => []
  | .manifestFetch _ _ _ => []
  | .snapshotPageSent => []
  | .copyBeforeWrite source slice addr _ => [(source, 8), (slice, 256), (addr, 2 ^ 52)]
  | .stagingCopyDone => []
  | .stagingTimeout => []
  | .checkpointEntries job rank code _ => [(job, 16), (rank, 65536), (code, 65536)]
  | .commitCasReply job _ => [(job, 16)]
  | .checkpointOutcome job code => [(job, 16), (code, 65536)]
  | .checkpointLimitTimeout job => [(job, 16)]
  | .dmaDoorbell _ => []
  | .dmaDescriptorFetch ch _ => [(ch, 1024)]
  | .dmaCopy ch _ _ => [(ch, 1024)]
  | .dmaFill ch _ => [(ch, 1024)]
  | .dmaWritesAcked ch => [(ch, 1024)]
  | .dmaLateError ch code => [(ch, 1024), (code, 65536)]
  | .dmaPause ch _ => [(ch, 1024)]
  | .dmaPaused ch => [(ch, 1024)]
  | .dmaEngineStop e code addr => [(e, 16), (code, 65536), (addr, 2 ^ 64)]
  | .dmaClearError ch => [(ch, 1024)]
  | .dmaSquash ch => [(ch, 1024)]
  | .configRequest fn _ => [(fn, 2)]
  | .bar4Access fn _ _ => [(fn, 2)]
  | .bar4Atomic fn _ _ => [(fn, 2)]
  | .msixPendingSend fn v => [(fn, 2), (v, 2048)]
  | .intxPendWrite fn _ => [(fn, 2)]
  | .d3hotEntry fn => [(fn, 2)]
  | .d0Write fn => [(fn, 2)]
  | .l2Entry fn => [(fn, 2)]
  | .perstAssert fn => [(fn, 2)]
  | .perstDeassert fn => [(fn, 2)]
  | .wakeSource fn source => [(fn, 2), (source, 4)]
  | .completionTimeout unit tag => [(unit, 18), (tag, 16384)]
  | .completionReceived unit tag _ _ => [(unit, 18), (tag, 16384)]
  | .tagQuarantineRelease unit tag => [(unit, 18), (tag, 16384)]
  | .busMasterDisable fn => [(fn, 2)]
  | .functionLevelReset fn => [(fn, 2)]
  | .flrComplete fn => [(fn, 2)]
  | .hbCfgWrite fn _ => [(fn, 2)]
  | .hbCountWrite fn _ => [(fn, 2)]
  | .heartbeatMiss fn => [(fn, 2)]
  | .upstreamLinkDown fn => [(fn, 2)]
  | .hostLossDrainEnd fn => [(fn, 2)]
  | .malformedTlp fn => [(fn, 2)]
  | .poisonedTlp fn _ => [(fn, 2)]
  | .upstreamLinkChange fn _ _ _ _ _ => [(fn, 2)]
  | .aspmIdleEntry fn _ => [(fn, 2)]
  | .chanCfgWrite ch _ => [(ch, 1024)]
  | .sliceCreate _ => []
  | .sliceDestroy _ => []
  | .sliceReset _ => []
  | .sliceQuiesce _ => []
  | .sliceResume _ => []
  | .sliceApply _ => []
  | .logStart _ => []
  | .logSwap _ => []
  | .logStop _ => []
  | .logSwapDone slice => [(slice, 256)]
  | .dirtyBitWrite _ => []
  | .sliceResetDone slice _ => [(slice, 256)]
  | .quiesceDone slice => [(slice, 256)]
  | .sliceZeroingDone slice => [(slice, 256)]
  | .doorbellEntryWrite fn p _ => [(fn, 2), (p, 16384)]
  | .apertureEntryWrite fn a word _ => [(fn, 2), (a, 4096), (word, 4)]
  | .queueEnable _ q _ => [(q, 16384)]
  | .completionRingDoorbell _ => []
  | .pendingRecordWrite r => [(r, 4096)]
  | .dpCfgAccess p _ _ _ => [(p, 16)]
  | .inboundPortRequest p _ _ => [(p, 16)]
  | .sgpioFrame _ => []
  | .powerCtrlWrite p _ => [(p, 16)]
  | .poweringEnd p => [(p, 16)]
  | .portLinkUp p _ _ _ => [(p, 16)]
  | .portLinkDown p => [(p, 16)]
  | .trainFail p => [(p, 16)]
  | .hotReset p => [(p, 16)]
  | .portEnableWrite p _ => [(p, 16)]
  | .errMessage p severity => [(p, 16), (severity, 3)]
  | .nvmeSqDoorbell _ => []
  | .nvmeCqDoorbell _ => []
  | .nvmeCommandFetch q _ => [(q, 0x1100)]
  | .identify _ => []
  | .getLogPage _ _ => []
  | .getFeatures _ => []
  | .setFeatures _ => []
  | .asynchronousEventRequest _ => []
  | .keepAlive _ => []
  | .nvmeAbort _ _ => []
  | .forwardedAdminCommand _ => []
  | .medReply _ => []
  | .mediationTimeout tag => [(tag, 2 ^ 32)]
  | .queuePairEnable q _ => [(q, 0x1100)]
  | .nvmeFlush _ => []
  | .nvmeWrite _ _ => []
  | .nvmeRead _ _ => []
  | .writeZeroes _ => []
  | .datasetManagement _ _ _ => []
  | .backendCompletion _ status _ _ => [(status, 2048)]
  | .backendTimeout _ => []
  | .proxyAccess port addr _ _ _ => [(port, 16), (addr, 2 ^ 64)]
  | .cleanFlagSet ns => [(ns, 4096)]
  | .nsRearm ns => [(ns, 4096)]
  | .resyncCopy ns _ readStatus writeStatus => [(ns, 4096), (readStatus, 2048), (writeStatus, 2048)]
  | .backendReady b _ _ _ => [(b, 1024)]
  | .frameReceive port _ _ prio => [(port, 8), (prio, 8)]
  | .pipelinePass pipe _ => [(pipe, 4)]
  | .actionTimeLimit core _ => [(core, 171)]
  | .packetRingDoorbell _ => []
  | .transmitDescriptor r _ _ => [(r, 16384)]
  | .tmSchedule port => [(port, 8)]
  | .tokenRefill => []
  | .pfcReceive port _ => [(port, 8)]
  | .pfcPauseExpire port prio => [(port, 8), (prio, 8)]
  | .objRead _ => []
  | .objWrite _ => []
  | .objEnable _ => []
  | .objDisable _ => []
  | .ptpMessage port domain msg => [(port, 8), (domain, 256), (msg.transport, 3)]
  | .ppsEdge => []
  | .servoHoldover => []
  | .ppsOutPulse => []
  | .requestPacket _ _ _ _ => []
  | .ackReceive conn psn bitmap _ _ => [(conn, 2 ^ 24), (psn, 2 ^ 24), (bitmap, 2 ^ 64)]
  | .nakReceive conn psn _ => [(conn, 2 ^ 24), (psn, 2 ^ 24)]
  | .cnpReceive conn => [(conn, 2 ^ 24)]
  | .readResponse conn psn _ => [(conn, 2 ^ 24), (psn, 2 ^ 24)]
  | .connRead _ => []
  | .connCreate _ => []
  | .connModify _ => []
  | .connDestroy _ => []
  | .sendQueueDoorbell _ => []
  | .receiveQueueDoorbell _ => []
  | .send conn _ _ => [(conn, 2 ^ 24)]
  | .sendWithImmediate conn _ _ => [(conn, 2 ^ 24)]
  | .rdmaWrite conn _ _ => [(conn, 2 ^ 24)]
  | .rdmaWriteWithImmediate conn _ _ => [(conn, 2 ^ 24)]
  | .rdmaRead conn _ => [(conn, 2 ^ 24)]
  | .atomicCompareSwap conn _ => [(conn, 2 ^ 24)]
  | .atomicFetchAdd conn _ => [(conn, 2 ^ 24)]
  | .receive conn _ => [(conn, 2 ^ 24)]
  | .retransmitTimeout conn psn => [(conn, 2 ^ 24), (psn, 2 ^ 24)]
  | .rnrDelayEnd conn => [(conn, 2 ^ 24)]
  | .connectionLifetimeExpiry conn psn => [(conn, 2 ^ 24), (psn, 2 ^ 24)]
  | .pathResume conn path => [(conn, 2 ^ 24), (path, 16)]
  | .ackTimer conn => [(conn, 2 ^ 24)]
  | .contextFillDone conn _ => [(conn, 2 ^ 24)]
  | .mrInval _ => []
  | .mrInvalDone => []
  | .windowAtMin conn => [(conn, 2 ^ 24)]
  | .netLinkChange port _ => [(port, 8)]
  | .sceranRequest _ addr node _ _ _ _ => [(addr, 2 ^ 128), (node, 2 ^ 32)]
  | .sceranResponse frame status _ _ => [(frame.addr, 2 ^ 128), (status, 65536)]
  | .sceranRelease node _ frame => [(node, 2 ^ 32), (frame.addr, 2 ^ 128)]
  | .sceranRetransmit _ => []
  | .sceranLifetime _ => []
  | .sceranRecordExpiry number => [(number, 262144)]
  | .drbgReseed => []
  | .maskRekey => []
  | .entropyHealthFail => []
  | .entropyRetest _ => []
  | .keyLoad _ => []
  | .keyGenerate _ => []
  | .keyImport _ => []
  | .keyUnload _ => []
  | .keyRead _ => []
  | .keyUnwrapDone pipe slot => [(pipe, 4), (slot, 65536)]
  | .cipherQueueDoorbell _ => []
  | .gcmSeal q _ => [(q, 1024)]
  | .gcmOpen q _ => [(q, 1024)]
  | .ctr q _ => [(q, 1024)]
  | .xtsEncrypt q _ => [(q, 1024)]
  | .xtsDecrypt q _ => [(q, 1024)]
  | .sha256 q _ => [(q, 1024)]
  | .sha384 q _ => [(q, 1024)]
  | .ecdsaSign q _ => [(q, 1024)]
  | .ecdsaVerify q _ => [(q, 1024)]
  | .publicKey q _ => [(q, 1024)]
  | .inputLow => []
  | .inputRecover => []
  | .inputOvervoltage => []
  | .inputFaultOff _ => []
  | .powerLinkAnswer _ => []
  | .powerAlert => []
  | .powerLinkTimeout => []
  | .powerLinkRetry _ => []
  | .powerDieFallback _ => []
  | .toA0 _ => []
  | .toA1 _ => []
  | .a1Entry => []
  | .a1Timeout => []
  | .autoA0 => []
  | .armS1 _ => []
  | .armS2 _ => []
  | .disarm _ => []
  | .s1Entry _ => []
  | .s2Entry _ => []
  | .wake source => [(source, 16)]
  | .padRelease _ _ => []
  | .energyUpdate _ _ _ _ => []
  | .capLoop _ => []
  | .phaseCtrlWrite _ => []
  | .benchGateIdle stack b => [(stack, 12), (b, 7)]
  | .thermalLoop _ _ => []
  | .droop stack => [(stack, 12)]
  | .droopClear stack => [(stack, 12)]
  | .overpowerClear => []
  | .thermtrip => []
  | .bootVerify _ => []
  | .imageApply _ _ => []
  | .apprenticeServiceStart _ => []
  | .fullServiceStart _ => []
  | .bootLate _ => []
  | .resetCtrlWrite _ => []
  | .watchdogExpiry core _ => [(core, 23)]
  | .coreRestart core => [(core, 23)]
  | .flashWrite _ => []
  | .flashErase _ => []
  | .stageFirmware _ => []
  | .activateFirmware _ => []
  | .activationResume => []
  | .activationTimeout => []
  | .commitFirmware _ => []
  | .stageImage _ _ => []
  | .commitImage _ => []
  | .claimOwnership _ => []
  | .transferOwnership _ => []
  | .spdmRequest transport _ => [(transport, 4)]
  | .activationCoreReady core => [(core, 23)]
  | .pairingStart _ => []
  | .syncComplete => []
  | .weltLaneFail lane => [(lane, 8)]
  | .heartbeatSend _ => []
  | .heartbeatReceive _ => []
  | .heartbeatSilence _ => []
  | .probeTimeout _ => []
  | .mirrorUpdate _ => []
  | .sessionAck _ => []
  | .bulkCopy _ => []
  | .switchover _ => []
  | .rejoin _ _ => []
  | .leave _ => []
  | .weltLinkUp lanes => [(lanes, 256)]
  | .isstStart stack bench => [(stack, 12), (bench, 7)]
  | .isstEnd stack _ _ => [(stack, 12)]
  | .isstAbandon stack => [(stack, 12)]
  | .isstWindowLate stack bench => [(stack, 12), (bench, 7)]
  | .postWaitTimeout _ => []
  | .deviceFatal cause => [(cause, 256)]
  | .isstDeferLimit stack bench => [(stack, 12), (bench, 7)]
  | .daybookTokenRefill => []
  | .tallySel _ => []
  | .tallyDump _ => []
  | .pldmRequest _ => []
  | .pmbusCommand code => [(code, 256)]
  | .clearFaults => []
  | .devResetNLow _ => []
  | .pwrEnDeassert => []
  | .powerGood straps _ _ => [(straps, 256)]
  | .tapInstruction code => [(code, 6)]
  | .devResetNRise => []

/-- Every operand lies in its range. -/
def Instr.wf (i : Instr) : Bool := i.bounds.all fun e => decide (e.1 < e.2)

end Sys2Proof
end

