-- ==== Sys2Proof/Safety.lean ====
section
/-! DEFINITION. What holds of a state in every run, in the terms claims use: memory and registers in canonical form, the waiting
commands well formed. -/

namespace Sys2Proof.Machine

/-- The canonical form of a memory: addresses strictly rising, no listed byte equal to 0, what an unlisted address reads as. -/
abbrev Memory.wf (m : List Host.Cell) : Bool := Tab.wf 0 m

/-- Device memory has its canonical form. -/
def State.memWf (s : State) : Bool := Memory.wf s.mem

/-- The registers have their canonical form: addresses strictly rising, none listed at its reset value. -/
def State.regsWf (s : State) : Bool := Tab.rising s.regs && s.regs.all fun e => decide (e.2 ≠ resetOf e.1)

/-- The tally has its canonical form: counters strictly rising, none listed at 0. -/
def State.tallyWf (s : State) : Bool := Tab.wf 0 s.tally

/-- Every waiting command is well formed. -/
def State.pendingWf (s : State) : Bool := s.pending.all Instr.wf

/-- The invariant of a run. -/
def State.Inv (s : State) : Bool := s.memWf && s.regsWf && s.tallyWf && s.pendingWf

end Sys2Proof.Machine
end

