-- ==== Sys2Proof/Certificates/Slice0/Obligations.lean ====
section
/-! DEFINITION. The statements for the provers, each a Prop under Obligations; OBLIGATIONS.json lists them. -/

namespace Sys2Proof.Machine

/-- Command c completes on s in a state of which P holds. -/
def Does (c : Instr) (s : State) (P : State → Prop) : Prop := ∃ t, exec c s = .next t ∧ P t

/-- Every register but those listed keeps its value. -/
def RegsKept (s t : State) (l : List Nat) : Prop := ∀ b, b ∉ l → t.reg b = s.reg b

/-- Every byte of device memory keeps its value. -/
def MemKept (s t : State) : Prop := ∀ a, t.byteAt a = s.byteAt a

/-- Every byte of device memory outside [a, a + n) keeps its value. -/
def MemKeptBut (s t : State) (a n : Nat) : Prop := ∀ j, j < a ∨ a + n ≤ j → t.byteAt j = s.byteAt j

/-- Every byte of device memory outside completion ring r keeps its value. -/
def MemKeptButRing (s t : State) (r : Nat) : Prop :=
  MemKeptBut s t (s.getF (R.crRing r) F.crRing_base * 4096) (s.crSize r * 32)

/-- Every tally counter but those listed keeps its value. -/
def TallyKept (s t : State) (l : List Nat) : Prop := ∀ k, k ∉ l → Tab.get 0 t.tally k = Tab.get 0 s.tally k

/-- Registers, memory and counters but those listed are as they were. -/
def Kept (s t : State) (regs tally : List Nat) : Prop := RegsKept s t regs ∧ MemKept s t ∧ TallyKept s t tally

/-- The registers that a daybook entry moves. -/
def daybookRegs : List Nat := [R.dbStatus, R.dbSeq, R.dbOverwrite]

/-- The registers that a store to device memory may move: those of the snapshot epoch whose pages it copies, and of the bulk that the
standby lags by. -/
def storeRegs : List Nat := [R.snapPages, R.stagingStatus, R.pairLag]

/-- The value of a tally counter. -/
def State.tallyOf (s : State) (block item inst : Nat) : Word := Tab.get 0 s.tally (tallyKey block item inst)

/-- A device fatal event of a cause has happened between s and t: safe state, FATAL_STATUS, frozen daybook, counted, heartbeat
stopped, PERST# of every port asserted (R468 to R470). -/
abbrev FatalEvent (s t : State) (cause : Nat) : Prop :=
  t.stage = 9 ∧ t.getF R.fatalStatus F.fatalStatus_fatal = 1 ∧ t.getF R.fatalStatus F.fatalStatus_cause = cause ∧
  t.getF R.dbStatus F.dbStatus_frozen = 1 ∧ t.tallyOf 0x11 7 0 = s.tallyOf 0x11 7 0 + 1 ∧ t.pins.heartbeat = false ∧
  t.pins.portPerst = 0xFFFF

/-- EP_STATUS of a function, its low-power bit aside: a message that goes out wakes the link. -/
def State.statusOf (s : State) (fn : Nat) : Word := setBits (s.reg (R.epStatus fn)) F.epStatus_low_power 0

/-- The parts of work in flight name stacks and benches that exist. -/
def State.partsFit (s : State) : Bool :=
  s.bench.descs.all fun e => e.2.subs.all fun p => decide (p.stack < 12) && p.benches.all fun b => decide (b < 7)

/-- A key slot of a slice holds a key. -/
def State.holdsKeys (s : State) (n : Nat) : Bool := s.cipher.slots.any fun e => e.2.state != 0 && e.2.owner == n

/-- The tables that claims read have strictly rising keys: the form every operation on tables keeps. -/
def State.tablesRise (s : State) : Bool :=
  Tab.rising s.bench.descs && Tab.rising s.bench.launches && Tab.rising s.bench.rates && Tab.rising s.bench.entering &&
  Tab.rising s.bench.engines && Tab.rising s.cores && Tab.rising s.dma && Tab.rising s.ep &&
  Tab.rising s.tags && Tab.rising s.quarantine && Tab.rising s.cipher.slots

/-- A descriptor without sub-parts may act now: it is of an opcode and of an op, or kind, and waits on nothing. -/
def State.acts (s : State) (d : Nat) (x : Desc) (opcode op : Nat) : Bool :=
  s.desc? d == some x && x.opcode == opcode && x.field 40 1 == op && !x.performed && s.gate d x == some 0

/-- A batch that hub intake takes passes every check, finds its frames and appends its rows. -/
def State.batchRuns (s : State) (b : Batch) : Bool :=
  s.batchCheck b false == 0 &&
  (match s.last? b.last, s.allocPages (appendPlan b.layer b.entries (s.lensOf b)).1 with
   | some l, some (frames, s1) =>
     let b := { b with started := true, undo := b.seqs.map fun q => (q, Tab.get 0 (s.lensOf b) q), frames := frames,
                       counts := (appendPlan b.layer b.entries (s.lensOf b)).2, rows := b.entries.map fun _ => RowAcc.start l }
     match s1.appendRows b l 0 b.entries with
     | (0, s2) => (s2.partsOf b).isSome
     | _ => false
   | _, _ => false)

/-- A register-profile core stands between bundles, runs, takes no interrupt, and fetches the syllables ws next. -/
def State.atBundle (s : State) (core : Nat) (feed : Feed) (ws : List Nat) : Bool :=
  let c := s.core core
  c.role != .free && !c.halted && c.stall == .none && !c.due && !c.interruptDue && !isAction core && !feed.check &&
  (match s.fetchFrom core c feed.code 7 0 with
   | .ok l => l == ws
   | .error _ => false)

/-- A bundle is legal on a core, its syllables placed as given. -/
def legalAs (core : Nat) (ws : List Nat) (ps : List Placed) : Bool :=
  match decodeBundle core ws with
  | .ok l => l == ps
  | .error _ => false

/-- A bundle is illegal on a core, w the first failing syllable. -/
def illegalAt (core : Nat) (ws : List Nat) (w : Nat) : Bool :=
  match decodeBundle core ws with
  | .ok _ => false
  | .error x => x == w

/-- The completion queue of a queue pair takes an entry at once: the host's path stands, there is room, nothing waits, and the
standby need not be asked. -/
def State.cqeRoom (s : State) (q : Nat) : Bool :=
  s.hostPath (s.sliceFn (s.qpSlice q)) && (Tab.get [] s.store.waiting q).isEmpty && !s.cqFull q && !s.replicates 1 (s.qpSlice q)

/-- The write to the host by which a command's completion queue entry is posted. -/
def State.cqeOut (s : State) (c : NvmeCmd) (status : Nat) (dnr : Bool) (dw0 : Nat) : Out :=
  let q := c.queue
  .hostWrite (s.sliceFn (s.qpSlice q)) (s.slicePasid (s.qpSlice q))
    (s.getF (R.qpCq q) F.qpCq_base * 4096 + s.getF (R.qpStatus q) F.qpStatus_cq_tail * 16)
    (NvmeCqe.bytes ⟨dw0, s.getF (R.qpStatus q) F.qpStatus_sq_head, sqIdOf q, c.field 2 2, status, dnr⟩
      (s.getF (R.qpStatus q) F.qpStatus_phase))

/-- Command id is c, a fetched admin command of an opcode without a reserved field set, and its entry can be posted at once. -/
def State.adminIs (s : State) (id op : Nat) (c : NvmeCmd) : Bool :=
  s.nvme? id == some c && c.admin && c.op == op && !c.started && !c.adminBad && c.ns == none && c.fate == 0 && s.cqeRoom c.queue

/-- Command id is c, a fetched I/O command of an opcode on namespace ns, and its entry can be posted at once; no flush of another
command waits. -/
def State.ioIs (s : State) (id op ns : Nat) (c : NvmeCmd) : Bool :=
  Tab.rising s.store.cmds && s.ioCmd id op == some c && s.nsServing c.slice (c.field 4 4) == some ns && c.fate == 0 &&
  s.cqeRoom c.queue && (s.store.cmds.all fun e => e.1 == id || e.2.admin || e.2.op != 0)

/-- The legs of a namespace that can take commands. -/
def State.liveLegs (s : State) (ns : Nat) : List Nat := (s.legsOf ns).filter fun k => s.legUsable ns k

/-- The legs of a namespace can serve a command: the namespace is not off, a leg is usable, the good leg of a resynchronisation is. -/
def State.legsServe (s : State) (ns : Nat) : Bool := (s.legsCause ns).all fun c => !c.1

/-- A write of a namespace goes out at once: its clean flag is clear and no write of the flag is under way. -/
def State.flagClear (s : State) (ns : Nat) : Bool := (Tab.find? s.store.clean ns).isNone && !s.flagBusy ns

/-- The clean flag of a namespace has gone out to every leg that can take it. -/
def State.flagOut (s t : State) (ns : Nat) (clean : Bool) : Bool :=
  (s.liveLegs ns).zipIdx.all fun k => t.out.contains (.cleanFlag ns k.1 clean) &&
    match s.legBackend ns k.1 with
    | some be => t.out.contains (.backend (s.store.nextBack + k.2) be 1
        (s.getF (R.nsSize ns) F.nsSize_lbas + s.getF (R.beOffset be) F.beOffset_lba) 1 0)
    | none => false

/-- The commands of a resynchronisation's copy of n LBAs from lba have gone out: a Read of the good leg and a Write of the other. -/
def State.resyncOut (s t : State) (ns good lba n : Nat) : Bool :=
  match s.legBackend ns good, s.legBackend ns (1 - good) with
  | some a, some b =>
    t.out.contains (.backend s.store.nextBack a 2 (lba + s.getF (R.beOffset a) F.beOffset_lba) n 0) &&
    t.out.contains (.backend (s.store.nextBack + 1) b 1 (lba + s.getF (R.beOffset b) F.beOffset_lba) n 0)
  | _, _ => true

/-- Backend commands with consecutive identifiers have gone out: every piece, in order, to every leg of a list, with the flags of the
command. -/
def State.passedOn (s t : State) (ns op flags : Nat) (pieces : List NvmePiece) (legs : List Nat) : Bool :=
  pieces.zipIdx.all fun p => legs.zipIdx.all fun k =>
    match s.legBackend ns k.1 with
    | some be => t.out.contains (.backend (s.store.nextBack + p.2 * legs.length + k.2) be op
        (p.1.lba + s.getF (R.beOffset be) F.beOffset_lba) p.1.count flags)
    | none => false

/-- A connection that may fetch its next work request, of an opcode: in RTS, resident, its ring in host memory not empty, nothing
held, the request's 64 bytes brought by the read, its fields in range, not fenced behind an earlier READ or atomic, nothing in
flight. -/
def State.asks (s : State) (n op : Nat) (c : Conn) (host : Got) (raw : List Byte) : Bool :=
  s.conn? n == some c && c.state == 3 && c.sqHead != c.sqTail && !c.storage && !s.ringBlocked c.cq && s.fetches c.owner &&
  s.isResident n && c.field 5 (4, 4) == 1 && host == .bytes raw && raw.length == 64 && s.hostPath (s.sliceFn c.owner) &&
  fieldLE raw 0 1 == op && !s.badRequest c.owner raw && c.msgs.isEmpty && c.txq.isEmpty && c.unacked.isEmpty && !c.rnrWait && !s.ringWaits c.owner 1

/-- The first packet of a work request with the bytes it sends (R361, R371). -/
def Conn.firstOut (c : Conn) (raw l : List Byte) (op : RoceOp) (last : Bool) (imm : Option Nat) : RocePkt :=
  { conn := c.field 0 (23, 0), psn := c.sendPsn, op := op, first := true, last := last, va := fieldLE raw 32 8,
    rkey := fieldLE raw 28 4, len := fieldLE raw 8 4, offset := 0, payload := l.take c.mtu, imm := imm,
    solicited := natBit (fieldLE raw 1 1) 2, operand := fieldLE raw 40 8, swap := fieldLE raw 48 8, ce := false }

/-- No access waits for the lock of a stripe, and no write for the copy of a page: a read or write of memory moves no other byte. -/
def State.noneWaits (s : State) : Bool := s.stripes.isEmpty && s.snap.all fun p => p.waiting.isEmpty

/-- The bytes of a frame of a connection as a traffic manager queue counts them. -/
def Conn.frameBytes (c : Conn) (f : NetFrame) : Nat := f.size c.sprayed (c.field 4 (47, 47) == 1)

/-- Queue q takes a frame of connection c: it is the owner's, has room, and marks nothing. -/
def State.takesFrame (s : State) (c : Conn) (q : Nat) (f : NetFrame) : Bool :=
  (s.tmQueue q).owner == c.owner && s.tmTakes q (c.frameBytes f) && (s.tmQueue q).ecn == 0

/-- A frame of connection c is what has joined queue q between s and t. -/
abbrev Joins (s t : State) (c : Conn) (q : Nat) (f : NetFrame) : Prop :=
  (t.tmQueue q).frames = (s.tmQueue q).frames ++ [⟨.net f (c.frameBytes f), false, none, none⟩]

/-- A frame of connection c is the first that has joined queue q between s and t. -/
abbrev JoinsFirst (s t : State) (c : Conn) (q : Nat) (f : NetFrame) : Prop :=
  (t.tmQueue q).frames.take ((s.tmQueue q).frames.length + 1) =
    (s.tmQueue q).frames ++ [⟨.net f (c.frameBytes f), false, none, none⟩]

/-- The bytes of a Sceran frame to a node as a traffic manager queue counts them. -/
def State.nodeBytes (s : State) (node : Nat) (f : NetFrame) : Nat :=
  f.size false ((s.nodeEntry node).any fun e => s.getF (R.scNode e) F.scNode_ipv6 == 1)

/-- The node table maps a node to queue q, of slice 0, which takes a frame and marks nothing. -/
def State.nodeTakes (s : State) (node q : Nat) (f : NetFrame) : Bool :=
  ((s.nodeEntry node).any fun e => s.getF (R.scNode e) F.scNode_queue == q) && (s.tmQueue q).owner == 0 &&
  s.tmTakes q (s.nodeBytes node f) && (s.tmQueue q).ecn == 0

/-- A Sceran frame to a node is what has joined queue q between s and t. -/
abbrev JoinsNode (s t : State) (node q : Nat) (f : NetFrame) : Prop :=
  (t.tmQueue q).frames = (s.tmQueue q).frames ++ [⟨.net f (s.nodeBytes node f), false, none, none⟩]

/-- A connection takes request packets: full service, the context resident, in RTR or RTS, its slice open, no standby to ask. -/
def State.takesOn (s : State) (n : Nat) (c : Conn) : Bool :=
  s.full && s.conn? n == some c && s.isResident n && (c.state == 2 || c.state == 3) && s.sliceOpen c.owner &&
  !s.replicates 1 c.owner

/-- A completion record of a slice is written to ring r at once: the ring is open, has room, lies in host memory (R282). -/
def State.recGoes (s : State) (r slice : Nat) : Bool :=
  s.crOpen r slice && !s.crFull r && (Tab.get [] s.ringWait r).isEmpty && s.getF (R.crRing r) F.crRing_space == 1 &&
  s.hostPath (s.sliceFn slice)

/-- The write to the host by which a record is delivered. -/
def State.recOut (s : State) (r : Nat) (x : Rec) : Out :=
  .hostWrite (s.sliceFn x.slice) (s.slicePasid x.slice)
    (s.getF (R.crRing r) F.crRing_base * 4096 + s.getF (R.crStatus r) F.crStatus_tail * 32)
    (x.bytes (s.getF (R.crStatus r) F.crStatus_phase))

/-- The owner of a cipher queue. -/
def State.cqOwner (s : State) (q : Nat) : Nat := s.getF (R.cqCfg q) F.cqCfg_owner

/-- The delivery of the record of a job of cipher queue q (R395). -/
def State.jobOutcome (s : State) (q : Nat) (raw : List Byte) (status bytes drawn : Nat) : Out :=
  s.recOut (s.getF (R.cqCfg q) F.cqCfg_cq) ⟨status, q, 6, 0, s.cqOwner q, fieldLE raw 4 4, bytes, s.now, drawn, natBit (fieldLE raw 1 1) 1⟩

/-- Cipher queue q may fetch its next job; the read brings raw, a job of a recipe; its record can be delivered. -/
def State.cipherComes (s : State) (q recipe : Nat) (io : JobIo) (raw : List Byte) : Bool :=
  let head := s.getF (R.cqStatus q) F.cqStatus_head
  s.full && decide (q < 1024) && (Tab.find? s.cipher.jobs q).isNone && s.getF (R.cqCfg q) F.cqCfg_enable == 1 &&
  s.getF (R.cqStatus q) F.cqStatus_state != 4 && s.fetches (s.cqOwner q) && head != s.getF (R.cqTail q) F.cqTail_tail &&
  !s.queueHeld q [6] && !s.ringWaits (s.cqOwner q) (s.getF (R.cqRing q) F.cqRing_space) && s.noneWaits && fieldLE raw 0 1 == recipe && s.recGoes (s.getF (R.cqCfg q) F.cqCfg_cq) (s.cqOwner q) &&
  (s.ringRead (s.cqOwner q) (s.getF (R.cqRing q) F.cqRing_base * 4096) (s.getF (R.cqRing q) F.cqRing_space) (head * 64) 64 io.ring).1
    == .bytes raw

/-- The slots of its keys that an AES job looks up. -/
def jobKeys (raw : List Byte) : List Nat :=
  if fieldLE raw 0 1 ≥ 6 then [] else if fieldLE raw 0 1 ≥ 4 then [fieldLE raw 12 2, fieldLE raw 14 2] else [fieldLE raw 12 2]

/-- Its checks pass; it draws its nonce or not; its keys are unwrapped; no check mismatches; the random source serves; its reads
bring source, aux, nonce and tag; what it writes goes to the host. -/
def State.cipherRuns (s : State) (q recipe : Nat) (io : JobIo) (raw : List Byte) (draws : Bool) (got : List (List Byte)) : Bool :=
  let sp := fieldLE raw 2 1
  let key := s.slot (fieldLE raw 12 2)
  s.cipherComes q recipe io raw && (s.jobCheck (s.cqOwner q) raw).1 == 0 && natBit (fieldLE raw 1 1) 0 == draws &&
  (!draws || (key.state != 2 && key.counter != key.limit)) && (jobKeys raw).all (fun k => s.cachedKey (q % 4) k == some 0) &&
  (recipe != 0x0C && recipe != 0x0E || s.unwrapCode (fieldLE raw 12 2) == 0) && io.mismatch.isEmpty && s.rngOk && natBit sp 1 &&
  (let r := s.jobGets q [(natBit sp 0, fieldLE raw 16 8, fieldLE raw 8 4, io.src), (natBit sp 2, fieldLE raw 32 8, jobAux raw, io.aux),
      (natBit sp 1, fieldLE raw 48 8, if draws then 0 else (jobNonceTag raw).1, io.nonce),
      (natBit sp 1, fieldLE raw 56 8, if recipe == 2 || recipe == 13 then (jobNonceTag raw).2 else 0, io.tag)]
   r.1.toOption == some got)

/-- The write requests that bytes for a host go out in, none longer than Max Payload Size (R251). -/
def State.writesOf (s : State) (fn : Nat) (pasid : Option Nat) (a : Nat) (l : List Byte) : List Out :=
  let size := 128 * 2 ^ (Tab.get Ep.reset s.ep fn).mps
  (piecesAt size (l.length / size + 2) a l.length).map fun p => .hostWrite fn pasid p.1 ((l.drop (p.1 - a)).take p.2)

/-- Every one of some messages has gone out. -/
abbrev Wrote (t : State) (l : List Out) : Prop := (l.all fun o => t.out.contains o) = true

/-- A message is a memory write to a host. -/
def Out.isHostWrite : Out → Bool
  | .hostWrite .. => true
  | _ => false

/-- The memory writes to hosts that went out between s and t, newest first. -/
def newWrites (s t : State) : List Out := (t.out.take (t.out.length - s.out.length)).filter Out.isHostWrite

/-- The writes of a job's output to its owner's host memory. -/
def State.jobWrites (s : State) (q a : Nat) (l : List Byte) : List Out :=
  s.writesOf (s.sliceFn (s.cqOwner q)) (s.slicePasid (s.cqOwner q)) a l

/-- The key material a job's slot holds. -/
def State.keyOf (s : State) (k : Nat) : List Byte := (s.slot k).key

/-- A key command of op on slot k, in full service, on a device that does not replicate the slot's configuration. -/
def State.keyRuns (s : State) (value : Word) (op k : Nat) : Bool :=
  s.full && getBits value F.keyCmd_op == op && getBits value F.keyCmd_slot == k && !s.replicates 3 (s.slot k).owner &&
  !s.replicates 3 (s.getF R.keyAttr F.keyAttr_owner)

/-- A slot loaded with the staged attributes, its key and wrapped entry aside (R390). -/
def State.stagedSlot (s : State) : KeySlot :=
  ⟨1, s.getF R.keyAttr F.keyAttr_kind, s.getF R.keyAttr F.keyAttr_owner, s.getF R.keyAttr F.keyAttr_check == 1,
   s.getF R.keyAttr F.keyAttr_allow_enc == 1, s.getF R.keyAttr F.keyAttr_allow_dec == 1, s.getF R.keyAttr F.keyAttr_nonce_hw == 1,
   s.getF R.keySalt F.keySalt_salt, s.reg R.keyCtr, s.reg R.keyLimit, [], []⟩

/-- A key command has ended: its status, KEY_DATA cleared (R390). -/
abbrev State.keyEnded (t : State) (status k : Nat) : Prop :=
  t.getF R.keyCmd F.keyCmd_status = status ∧ t.getF R.keyCmd F.keyCmd_slot = k ∧
  ((below 8).all fun i => t.reg (R.keyData i) == 0) = true

/-- The wrapped entry that a slot's key is given is written without a failure (R388). -/
def State.entryWritten (s : State) (k : Nat) : Bool :=
  let w := s.drawBytes State.unstated 16
  (w.2.memWrite 0x0B 4 6 0 (s.slotAddr k) w.1).1 == none

/-- The device is not in OFF and does not hold an emergency of bit b, or does. -/
def State.emergIs (s : State) (b : Nat) (on : Bool) : Bool := !s.power.off && natBit (s.reg R.emergStatus).toNat b == on

/-- An emergency of bit b has started between s and t: its bit, active, the rate at most its own, its count. -/
abbrev EmergencyOn (s t : State) (b rate : Nat) : Prop :=
  natBit (t.reg R.emergStatus).toNat b = true ∧ t.getF R.emergStatus F.emergStatus_active = 1 ∧
  t.getF R.emergStatus F.emergStatus_emerg_rate ≤ rate ∧ t.tallyOf 2 1 b = s.tallyOf 2 1 b + 1

/-- The other emergencies of EMERG_STATUS decide active once bit b is cleared. -/
abbrev EmergencyOff (s t : State) (b : Nat) : Prop :=
  natBit (t.reg R.emergStatus).toNat b = false ∧
  (natBits (s.reg R.emergStatus).toNat 5 1 = 2 ^ (b - 1) ∧ s.getF R.emergStatus F.emergStatus_dram_stacks = 0 →
    t.getF R.emergStatus F.emergStatus_active = 0) ∧ t.tallyOf 2 1 b = s.tallyOf 2 1 b

/-- PWR_STATE_CMD takes a command of op: not in OFF, serving, not busy, the power link up. -/
def State.pwrTakes (s : State) (value : Word) (op : Nat) : Bool :=
  !s.power.off && s.serving && getBits value F.pwrStateCmd_op == op && s.getF R.pwrState F.pwrState_busy == 0 &&
  s.getF R.emergStatus F.emergStatus_link_lost == 0

/-- A state command has been refused with 0x0001; the device state and the arming are as they were. -/
abbrev PwrRefused (s t : State) : Prop :=
  t.getF R.pwrState F.pwrState_last_status = 1 ∧ t.pwr = s.pwr ∧
  t.getF R.pwrState F.pwrState_armed = s.getF R.pwrState F.pwrState_armed

/-- No packet is in a pipe, in an action core or in a queue. -/
def State.pipesEmpty (s : State) : Bool :=
  s.pkt.rx.isEmpty && s.pkt.again.isEmpty && s.pkt.host.isEmpty && s.pkt.stage.isEmpty && s.pkt.leaving.isEmpty && s.pkt.queues.isEmpty

/-- OFF with a cause: nothing but the cause, the energy count, the flash, the pins that stay and what goes out is left. -/
abbrev EntersOff (s t : State) (cause : Nat) : Prop :=
  t.power.off = true ∧ t.getF R.offCause F.offCause_valid = 1 ∧ t.getF R.offCause F.offCause_cause = cause ∧
  t.reg R.energy = s.reg R.energy ∧ t.mem = [] ∧ t.boot.flash = s.boot.flash ∧ t.getF R.bootStatus F.bootStatus_stage = 0

/-- MBOX_CMD takes a command of op: after the boot ROM stage, not busy (R432, R444). -/
def State.mboxTakes (s : State) (value : Word) (op : Nat) : Bool :=
  s.stage != 0 && getBits value F.mboxCmd_op == op && s.getF R.mboxCmd F.mboxCmd_busy == 0

/-- The mailbox command has ended with a status. -/
abbrev MboxEnds (t : State) (status : Nat) : Prop :=
  t.getF R.mboxCmd F.mboxCmd_status = status ∧ t.getF R.mboxCmd F.mboxCmd_busy = 0

/-- Every byte of the flash outside [a, a + n) keeps its value. -/
def FlashKeptBut (s t : State) (a n : Nat) : Prop := ∀ j, j < a ∨ a + n ≤ j → t.flashByte j = s.flashByte j

/-- The bytes [a, a + n) of the flash read erased. -/
def FlashErased (t : State) (a n : Nat) : Prop := ∀ j, a ≤ j → j < a + n → t.flashByte j = 0xFF

/-- What a warm reset keeps and clears (R435): the flash as given, OFF_CAUSE and the energy count stay; the image, memory, the
tally and every command in progress are gone; the stage is the boot ROM's. -/
abbrev WarmReset (s t : State) : Prop :=
  t.getF R.bootStatus F.bootStatus_stage = 0 ∧ t.image = none ∧ t.mem = [] ∧ t.reg R.offCause = s.reg R.offCause ∧
  t.reg R.energy = s.reg R.energy ∧ t.store = Storage.idle ∧ t.net = Net.idle ∧ t.clock.ticks = s.clock.ticks ∧
  t.boot.staged = s.boot.staged ∧ t.getF R.fwVersion F.fwVersion_deferred = 0

/-- The result r is the next state t. -/
def goesTo (r : Result) (t : State) : Bool :=
  match r with
  | .next s => s == t
  | _ => false

/-- PAIR_CMD takes a command of op: serving, not busy (R456, R457). -/
def State.pairTakes (s : State) (value : Word) (op : Nat) : Bool :=
  s.serving && getBits value F.pairCmd_op == op && s.getF R.pairCmd F.pairCmd_busy == 0

/-- A pair command has ended with a status. -/
abbrev PairEnds (t : State) (status : Nat) : Prop :=
  t.getF R.pairCmd F.pairCmd_status = status ∧ t.getF R.pairStatus F.pairStatus_last_status = status

/-- Takeover has happened: role active, the state, the count, no probe, no fallback. -/
abbrev TakesOver (s t : State) (state : Nat) : Prop :=
  t.pairActive = true ∧ t.pairState = state ∧ t.pair.probing = false ∧ t.getF R.pairStatus F.pairStatus_fallback = 0 ∧
  t.tallyOf 0x0C 3 0 = s.tallyOf 0x0C 3 0 + 1

/-- Syncing has begun in a role, the welt with every lane that trained. -/
abbrev Syncing (s t : State) (active : Bool) : Prop :=
  t.pairState = 2 ∧ t.pairActive = active ∧ t.pair.held = [] ∧
  t.getF R.weltStatus F.weltStatus_lanes = weltLanes s.pair.untrained ∧
  t.getF R.weltStatus F.weltStatus_width = popCount 8 (weltLanes s.pair.untrained)

/-- The conditions under which the in-service test of a bench starts (R463, R465), its save region at a. -/
def State.isstMay (s : State) (stack bench a : Nat) : Bool :=
  decide (stack < 12) && decide (bench < 7) && s.full && s.pwr == 0 && s.getF (R.isstCfg stack) F.isstCfg_enable == 1 && s.stackUp stack && !s.linkFenced stack &&
  s.stackMem stack && (s.isstBench stack).isNone && !s.isstHeld stack && s.isstNext stack == some bench &&
  s.getF (R.benchStatus stack bench) F.benchStatus_busy == 0 && !(s.serve.batches.any fun e => e.2.begunOn stack) &&
  (Tab.find? s.bench.stalled stack).isNone && s.saveRegion stack == some a

/-- What an in-service test restores is sound: no word of the device pages and none of the save region is uncorrectable. -/
def State.isstSound (s : State) (stack bench : Nat) : Bool :=
  (s.scratchBad (benchKey stack bench * 2 ^ 22 + 60 * 65536) 0x40000).isEmpty &&
  !((s.saveRegion stack).map fun a => s.uncorrectable a 0x40000).getD false

/-- A fault of an in-service test names an engine that there is. -/
def isstFaultFits : IsstFault → Bool
  | .lane e _ => decide (e < 9)
  | _ => true

/-- The commands that store nothing in device memory and end nothing that does: neither a store of their own, nor a record, page or
zeroing that another command left to them, nor a reset. -/
def storesNothing (c : Instr) : Bool :=
  match c with
  | .bar0MisalignedAccess .. | .linkFlitReceive .. | .linkRetrain .. | .rootPllLockLoss .. | .refclkLoss ..
    | .refclkRestore .. | .timebaseRead .. | .timeRateWrite .. | .timeStepWrite .. | .timeSrcWrite .. | .fabricGrant ..
    | .quietSlotAdvance .. | .benchQueueDoorbell .. | .scratchPageZeroed .. | .barrierRelease .. | .barrierOwnerWrite ..
    | .engineIdle .. | .rampStep .. | .spareInService .. | .interrupt .. | .dramTempPoll .. | .ddrChannelFail ..
    | .regionCreate .. | .regionDestroy .. | .regionSetBulkMirror .. | .stitchRead .. 
    | .memoryTrainingDone .. | .dmaDoorbell .. | .dmaLateError .. | .dmaPause .. | .dmaPaused .. | .dmaClearError ..
    | .msixPendingSend .. | .intxPendWrite .. | .d0Write .. | .l2Entry .. | .perstDeassert .. | .wakeSource ..
    | .tagQuarantineRelease .. | .flrComplete .. | .hbCfgWrite .. | .hbCountWrite .. | .heartbeatMiss ..
    | .upstreamLinkDown .. | .malformedTlp .. | .aspmIdleEntry .. | .chanCfgWrite .. | .sliceCreate .. | .sliceQuiesce ..
    | .sliceResume .. | .sliceApply .. | .logStart .. | .logSwap .. | .logStop .. | .logSwapDone .. | .dirtyBitWrite ..
    | .quiesceDone .. | .sliceZeroingDone .. | .doorbellEntryWrite .. | .apertureEntryWrite .. | .queueEnable ..
    | .completionRingDoorbell .. | .dpCfgAccess .. | .poweringEnd .. | .portLinkUp .. | .trainFail .. | .errMessage ..
    | .nvmeSqDoorbell .. | .nvmeCqDoorbell .. | .identify .. | .getLogPage .. | .getFeatures ..
    | .setFeatures .. | .asynchronousEventRequest .. | .keepAlive .. | .medReply .. | .mediationTimeout ..
    | .queuePairEnable .. | .nvmeFlush .. | .nvmeWrite .. | .nvmeRead .. | .writeZeroes .. | .datasetManagement ..
    | .backendCompletion .. | .backendTimeout .. | .proxyAccess .. | .cleanFlagSet .. | .nsRearm .. | .resyncCopy ..
    | .backendReady .. | .frameReceive .. | .packetRingDoorbell .. | .tokenRefill .. | .pfcReceive .. | .pfcPauseExpire ..
    | .objRead .. | .objEnable .. | .ptpMessage .. | .ppsEdge .. | .servoHoldover .. | .ppsOutPulse .. | .cnpReceive ..
    | .connRead .. | .connCreate .. | .sendQueueDoorbell .. | .receiveQueueDoorbell .. | .rnrDelayEnd .. | .pathResume ..
    | .ackTimer .. | .mrInval .. | .mrInvalDone .. | .sceranRetransmit .. 
    | .sceranRecordExpiry .. | .drbgReseed .. | .maskRekey .. | .entropyHealthFail .. | .entropyRetest .. | .keyRead ..
    | .keyUnwrapDone .. | .cipherQueueDoorbell .. | .inputLow .. | .inputRecover .. | .inputOvervoltage ..
    | .powerLinkAnswer .. | .powerAlert .. | .powerLinkTimeout .. | .powerLinkRetry .. | .toA0 .. | .toA1 .. | .a1Entry ..
    | .a1Timeout .. | .autoA0 .. | .armS1 .. | .armS2 .. | .disarm .. | .wake .. | .padRelease .. | .energyUpdate ..
    | .capLoop .. | .phaseCtrlWrite .. | .benchGateIdle .. | .thermalLoop .. | .droop .. | .droopClear ..
    | .overpowerClear .. | .bootVerify .. | .imageApply .. | .bootLate .. | .coreRestart .. | .activationResume ..
    | .spdmRequest .. | .pairingStart .. | .syncComplete .. | .weltLaneFail .. | .heartbeatSend .. | .heartbeatReceive ..
    | .heartbeatSilence .. | .sessionAck .. | .rejoin .. | .leave .. | .weltLinkUp ..
    | .isstAbandon .. | .isstWindowLate .. | .deviceFatal .. | .isstDeferLimit .. | .daybookTokenRefill .. | .tallySel ..
    | .pldmRequest .. | .pmbusCommand .. | .clearFaults .. | .powerGood .. | .tapInstruction .. | .devResetNRise .. => true
  | _ => false

/-- Commands that store nothing of their own either, but may let waiting accesses go on, those of a stripe they read, or end a
checkpoint, whose record is a store. -/
def storesOnlyWaiting (c : Instr) : Bool :=
  match c with
  | .nvmeCommandFetch .. | .nvmeAbort .. | .sceranResponse .. | .sceranLifetime .. | .probeTimeout .. | .switchover .. => true
  | _ => false

end Sys2Proof.Machine

open Sys2Proof Sys2Proof.Machine

/-- For every command c and every state s with a queue: the step at s with c at the front of its queue is exec of c on s with the
queue's rest. That commands wait in one queue is the model's form (log entry 1). -/
def Obligations.StepPerformsFrontCommand : Prop :=
  ∀ (s : State) (c : Instr) (rest : List Instr), step { s with pending := c :: rest } = exec c { s with pending := rest }

/-- With no command waiting, a step is a cycle of the timebase (log entry 1, DESIGN CHOICE). -/
def Obligations.IdleStepIsTick : Prop :=
  ∀ s : State, s.pending = [] → step s = .next s.tick

/-- Memory, registers and tally of the reset state have their canonical forms and no command waits. -/
def Obligations.ResetMeetsInvariant : Prop :=
  State.reset.Inv = true

/-- From every state that meets the invariant (memory, registers and tally in canonical form, waiting commands well formed),
whatever command a step performs, the next state meets it: equal contents stay equal data whatever the device did. The forms are
the model's own. -/
def Obligations.EveryStepKeepsInvariant : Prop :=
  ∀ s t : State, s.Inv = true → step s = .next t → t.Inv = true

/-- Whatever command is performed, the queue of waiting commands is the one it was performed with. -/
def Obligations.CommandsKeepQueue : Prop :=
  ∀ (c : Instr) (s t : State), exec c s = .next t → t.pending = s.pending

/-- No command in any state stops the device: the spec answers every one, a partner's violation included, so exec always answers a
next state. -/
def Obligations.EveryCommandIsAnswered : Prop :=
  ∀ (c : Instr) (s : State), ∃ t, exec c s = .next t

/-- From every state in which the keys of these tables rise strictly, whatever a step does, they rise in the next state. The form is
the model's own; statements about a table's entry after a removal have it as a premise. -/
def Obligations.EveryStepKeepsTables : Prop :=
  ∀ s t : State, s.tablesRise = true → step s = .next t → t.tablesRise = true

/-- Commands of every family that neither store, deliver a record, move a page, zero nor reset leave device memory unchanged, in
every state and whatever their operands (the list stands in storesNothing); six that may let waiting accesses go on or end a
checkpoint do so where none waits and no checkpoint runs (storesOnlyWaiting). -/
def Obligations.CommandsThatStoreNothing : Prop :=
  ∀ (c : Instr) (s t : State), storesNothing c = true ∨ (storesOnlyWaiting c = true ∧ s.noneWaits = true ∧ s.train.ckpts = []) → exec c s = .next t →
    MemKept s t

/-- Writing an entry puts it at the head of the ring; DB_OVERWRITE, a 64-bit count, grows by 1 exactly where an older entry stood
there. -/
def Obligations.OverwrittenEntriesAreCounted : Prop :=
  ∀ (s : State) (e : DbEvent), s.Inv = true →
    let head := s.getF R.dbStatus F.dbStatus_head
    Tab.find? (s.dbWrite e).daybook.ring head = some (e.entry s.now (s.getF R.dbSeq F.dbSeq_next)) ∧
    (s.dbWrite e).reg R.dbOverwrite = s.reg R.dbOverwrite + (if (Tab.find? s.daybook.ring head).isSome then 1 else 0)

/-- In A0 or A1 with root lock and no rate correction a cycle adds one tick and the pending step; else 16 ticks per reference cycle.
Nothing else changes but the pending step, the count of clock cycles and SERVO_STATUS, whose pps_seen clears 2 s after the last
PPS edge. -/
def Obligations.TimebaseAdvances : Prop :=
  (∀ s : State, s.power.off = false → s.active = true → s.clock.pllLocked = true → s.clock.frac = 0 →
    s.getF R.timeRate F.timeRate_rate_adj = 0 → s.regsWf = true →
    s.tick = { s with
      regs := s.tick.regs
      clock := { s.clock with ticks := s.clock.ticks + 1 + s.clock.step, step := 0, cycles := s.clock.cycles + 1 } } ∧
    RegsKept s s.tick [R.servoStatus]) ∧
  (∀ s : State, s.power.off = false → s.active = false → s.clock.aonRing = false → s.regsWf = true →
    s.tick = { s with regs := s.tick.regs, clock := { s.clock with ticks := s.clock.ticks + 16 } } ∧
    RegsKept s s.tick [R.servoStatus])

/-- Loss of root lock in A0 or A1 is a device fatal event. Loss of the reference moves the AON domain to the ring oscillator, its
return moves it back. A 4-byte read of the low half of TIMEBASE latches the high half. Writes of TIME_RATE and TIME_STEP act
while src is 0 and no pair time is followed; otherwise they change nothing and are recorded. -/
def Obligations.ClockCommands : Prop :=
  (∀ s : State, s.Inv = true → (s.active = true) → 
    Does (.rootPllLockLoss) s fun t =>
      FatalEvent s t 0x01 ∧ MemKept s t) ∧
  (∀ s : State, s.Inv = true → (s.active = false) → 
    Does (.refclkLoss) s fun t =>
      t.clock.refclk = false ∧ t.clock.aonRing = true ∧ t.clock.ticks = s.clock.ticks ∧ Kept s t daybookRegs []) ∧
  (∀ s : State, s.Inv = true → 
    Does (.refclkRestore) s fun t =>
      t.clock.refclk = true ∧ t.clock.aonRing = false ∧ t.clock.ticks = s.clock.ticks ∧ Kept s t daybookRegs []) ∧
  (∀ s : State, s.Inv = true → 
    Does (.timebaseRead 0) s fun t =>
      t.clock.latch = (s.clock.ticks >>> 32).setWidth 32 ∧ t.out = .regData (s.clock.ticks &&& 0xFFFFFFFF) :: s.out ∧ t.regs = s.regs ∧ t.mem = s.mem ∧ t.tally = s.tally) ∧
  (∀ s : State, s.Inv = true → 
    Does (.timebaseRead 1) s fun t =>
      t = s.emit (.regData (s.clock.latch.setWidth 64))) ∧
  (∀ s : State, ∀ (v : Word), s.Inv = true → (s.servoOwns = false) → 
    Does (.timeRateWrite v) s fun t =>
      t.getF R.timeRate F.timeRate_rate_adj = v.toNat % 2 ^ 32 ∧ Kept s t [R.timeRate] []) ∧
  (∀ s : State, ∀ (v : Word), s.Inv = true → (s.servoOwns = true) → 
    Does (.timeRateWrite v) s fun t =>
      t.reg R.timeRate = s.reg R.timeRate ∧ t.daybook = (s.writeIgnored 0x01 0 R.timeRate v).daybook ∧ Kept s t daybookRegs []) ∧
  (∀ s : State, ∀ (v : Word), s.Inv = true → (s.servoOwns = false) → 
    Does (.timeStepWrite v) s fun t =>
      t.clock.step = s.clock.step + v ∧ t.clock.ticks = s.clock.ticks ∧ Kept s t [] []) ∧
  (∀ s : State, ∀ (v : Word), s.Inv = true → 
    Does (.timeSrcWrite v) s fun t =>
      t.getF R.timeSrc F.timeSrc_src = v.toNat % 4 ∧ Kept s t [R.timeSrc] [])

/-- A good flit that is next in order ends the run of CRC failures and is delivered, one out of order is dropped; a bad one is asked
for again, and the eighth in succession makes the link retrain. A retrain that succeeds brings the link up, its modules present
and unfenced but where a spare serves, one that fails waits for its one retry, and a failed retry fences the die. A misaligned
read completes with UR, a misaligned write changes nothing; both are recorded. -/
def Obligations.LinkCommands : Prop :=
  (∀ s : State, ∀ (k n : Nat) (f : List Byte), s.Inv = true → ((s.link k).phase = .up) → (flitOk f = true) → (n ≠ (s.link k).delivered) → 
    Does (.linkFlitReceive k ⟨n, f⟩) s fun t =>
      t = s) ∧
  (∀ s : State, ∀ (k : Nat) (f : List Byte), s.Inv = true → ((s.link k).phase = .up) → (flitOk f = true) → 
    Does (.linkFlitReceive k ⟨(s.link k).delivered, f⟩) s fun t =>
      t.link k = ⟨.up, 0, false, (s.link k).delivered + 1⟩ ∧ Kept s t [] []) ∧
  (∀ s : State, ∀ (k n : Nat) (f : List Byte), s.Inv = true → ((s.link k).phase = .up) → (flitOk f = false) → ((s.link k).crcFails < 7) → 
    Does (.linkFlitReceive k ⟨n, f⟩) s fun t =>
      t.link k = ⟨.up, (s.link k).crcFails + 1, true, (s.link k).delivered⟩ ∧ t.out = .linkReplay k :: s.out ∧ Kept s t [] [tallyKey 1 6 k]) ∧
  (∀ s : State, ∀ (k n : Nat) (f : List Byte), s.Inv = true → ((s.link k).phase = .up) → (flitOk f = false) → ((s.link k).crcFails ≥ 7) → 
    Does (.linkFlitReceive k ⟨n, f⟩) s fun t =>
      (t.link k).phase = .retrain ∧ Kept s t [] [tallyKey 1 6 k]) ∧
  (∀ s : State, ∀ (k : Nat), s.Inv = true → ((s.link k).phase = .retrain) → 
    Does (.linkRetrain k true) s fun t =>
      (t.link k).phase = .up ∧ (t.link k).crcFails = 0 ∧ t.tallyOf 1 7 k = s.tallyOf 1 7 k + 1 ∧ (s.reg (R.repairLink k + 16) = 0 → ((below (linkModules k)).all fun m => natBit (t.reg (R.repairLink k)).toNat m && !natBit (t.reg (R.repairLink k + 8)).toNat m) = true) ∧ Kept s t [R.repairLink k, R.repairLink k + 8] [tallyKey 1 7 k]) ∧
  (∀ s : State, ∀ (k : Nat), s.Inv = true → ((s.link k).phase = .retrain) → 
    Does (.linkRetrain k false) s fun t =>
      (t.link k).phase = .waitRetry ∧ Kept s t daybookRegs []) ∧
  (∀ s : State, ∀ (k : Nat), s.Inv = true → ((s.link k).phase = .waitRetry) → 
    Does (.linkTrainRetry k true) s fun t =>
      (t.link k).phase = .up ∧ (s.reg (R.repairLink k + 16) = 0 → ((below (linkModules k)).all fun m => natBit (t.reg (R.repairLink k)).toNat m && !natBit (t.reg (R.repairLink k + 8)).toNat m) = true) ∧ Kept s t (R.repairLink k :: (R.repairLink k + 8) :: daybookRegs) []) ∧
  (∀ s : State, ∀ (k : Nat), s.Inv = true → ((s.link k).phase = .waitRetry) → (12 ≤ k) → 
    Does (.linkTrainRetry k false) s fun t =>
      t.linkFenced k = true ∧ FatalEvent s t 0x02) ∧
  (∀ s : State, ∀ (k lane : Nat), s.Inv = true → (k < 15) → (lane < 64 * linkModules k) → ((s.link k).phase = .up) → (s.reg (R.repairLink k + 16) = 0) → (s.unitPresent (linkLevel k) (64 * linkModules k) = true) → (s.unitFenced (linkLevel k) (64 * linkModules k) = false) → 
    Does (.laneSpareSubstitute k lane false false) s fun t =>
      t.servingUnit (linkLevel k) lane = 64 * linkModules k ∧ t.unitFenced (linkLevel k) lane = true ∧ MemKept s t) ∧
  (∀ s : State, ∀ (fn addr len : Nat), s.Inv = true → (¬ ((len = 4 ∨ len = 8) ∧ addr % len = 0)) → 
    Does (.bar0MisalignedAccess fn addr len true) s fun t =>
      t.daybook = (s.violation 0x04 fn addr fn).daybook ∧ t.out = s.out ∧ t.tallyOf 4 63 fn = s.tallyOf 4 63 fn + 1 ∧ Kept s t daybookRegs [tallyKey 4 63 fn]) ∧
  (∀ s : State, ∀ (fn addr len : Nat), s.Inv = true → (¬ ((len = 4 ∨ len = 8) ∧ addr % len = 0)) → 
    Does (.bar0MisalignedAccess fn addr len false) s fun t =>
      t.out = .tlpUr fn :: s.out ∧ Kept s t daybookRegs [tallyKey 4 5 fn, tallyKey 4 63 fn])

/-- The buckets gain the cycles that passed and the pools the credits returned. While a packet is in progress nothing is granted.
Else, of the waiting requests that may be granted (of their class's size, admitted by the running slot, within their class's
credits), if there are any, one is granted: of the highest class that holds tokens, where none does of the highest class, the
next in round-robin order within it; it pays tokens and credits and is in progress. If there are none nothing is granted.
QUIET_SLOT_ADVANCE moves every port to the next of the 64 slots. -/
def Obligations.FabricArbitration : Prop :=
  (∀ s : State, ∀ (p n : Nat) (l : List FabricRequest) (e : List (Nat × Nat)), s.Inv = true → (0 < ((e.foldl FabricPort.refund ((Tab.get FabricPort.idle s.fabric p).refill n)).left)) → 
    Does (.fabricGrant p ⟨n, e⟩ l) s fun t =>
      t.out = s.out ∧ Tab.get FabricPort.idle t.fabric p = e.foldl FabricPort.refund ((Tab.get FabricPort.idle s.fabric p).refill n) ∧ Kept s t [] []) ∧
  (∀ s : State, ∀ (p n : Nat) (l : List FabricRequest) (e : List (Nat × Nat)), s.Inv = true → ((e.foldl FabricPort.refund ((Tab.get FabricPort.idle s.fabric p).refill n)).left = 0) → (l.all (fun r => !s.grantable (e.foldl FabricPort.refund ((Tab.get FabricPort.idle s.fabric p).refill n)) r) = true) → 
    Does (.fabricGrant p ⟨n, e⟩ l) s fun t =>
      t.out = s.out ∧ Tab.get FabricPort.idle t.fabric p = e.foldl FabricPort.refund ((Tab.get FabricPort.idle s.fabric p).refill n) ∧ Kept s t [] []) ∧
  (∀ s : State, ∀ (p n : Nat) (l : List FabricRequest) (e : List (Nat × Nat)) (q : FabricPort), s.Inv = true → (e.foldl FabricPort.refund ((Tab.get FabricPort.idle s.fabric p).refill n) = q) → (q.left = 0) → (l.any (fun r => s.grantable q r) = true) → 
    Does (.fabricGrant p ⟨n, e⟩ l) s fun t =>
      Kept s t [] [] ∧ (∃ r ∈ l, s.grantable q r = true ∧ t.out = .grant p r.cls r.initiator r.beats :: s.out ∧ Tab.get FabricPort.idle t.fabric p = q.serve r ∧ (Tab.get FabricPort.idle t.fabric p).left = r.beats ∧ (Tab.get FabricPort.idle t.fabric p).lastOf r.cls = r.initiator ∧ (∀ x ∈ l, s.grantable q x = true → (0 < q.tok r.cls ∧ (0 < q.tok x.cls → r.cls ≤ x.cls)) ∨ (q.tok x.cls = 0 ∧ r.cls ≤ x.cls)) ∧ (∀ x ∈ l, s.grantable q x = true → x.cls = r.cls → (r.initiator + 63 - q.lastOf r.cls % 64) % 64 ≤ (x.initiator + 63 - q.lastOf r.cls % 64) % 64))) ∧
  (∀ s : State, s.Inv = true → 
    Does (.quietSlotAdvance) s fun t =>
      t = { s with quietSlot := (s.quietSlot + 1) % 64 })

/-- A write that finds the function's BAR0 closed, and a misaligned one, change nothing and are recorded; one that the function does
not perform, or to a block that does not answer, changes nothing. A register whose writes have a row or a rule of their own acts
as that row. Of any other, an unassigned address ignores the write; an assigned register holds, field by field, what the access
type lets it hold of the bytes written, reserved bits 0, every other register kept; after image apply a write of a register with
an RWL field is recorded too, and its RWL fields keep their values. -/
def Obligations.RegisterWrites : Prop :=
  (∀ s : State, ∀ (fn a : Nat) (w : Bool) (v : Word), s.Inv = true → (fn < 2) → (a < 2 ^ 26) → (s.barOpen fn = false) → 
    Does (.registerWrite fn a w v) s fun t =>
      t = s.violation 0x04 fn a fn) ∧
  (∀ s : State, ∀ (fn a : Nat) (w : Bool) (v : Word), s.Inv = true → (fn < 2) → (a < 2 ^ 26) → (s.barOpen fn = true) → (a % (if w then 8 else 4) ≠ 0) → 
    Does (.registerWrite fn a w v) s fun t =>
      t = s.violation 0x04 fn a fn) ∧
  (∀ s : State, ∀ (fn a : Nat) (w : Bool) (v : Word), s.Inv = true → (fn < 2) → (a < 2 ^ 26) → (s.barOpen fn = true) → (a % (if w then 8 else 4) = 0) → ((bar0Reaches fn (a / 8 * 8) && s.answersAt (a / 8 * 8)) = false) → 
    Does (.registerWrite fn a w v) s fun t =>
      t = s) ∧
  (∀ s : State, ∀ (fn a : Nat) (w : Bool) (v : Word) (u : State), s.Inv = true → (fn < 2) → (a < 2 ^ 26) → (s.barOpen fn = true) → (a % (if w then 8 else 4) = 0) → ((bar0Reaches fn (a / 8 * 8) && s.answersAt (a / 8 * 8)) = true) → ((s.route (a / 8 * 8) (reach a w) (placed a w v)).map (fun r => goesTo r u) = some true) → 
    Does (.registerWrite fn a w v) s fun t =>
      t = u) ∧
  (∀ s : State, ∀ (fn a : Nat) (w : Bool) (v : Word), s.Inv = true → (fn < 2) → (a < 2 ^ 26) → (s.barOpen fn = true) → (a % (if w then 8 else 4) = 0) → ((bar0Reaches fn (a / 8 * 8) && s.answersAt (a / 8 * 8)) = true) → (s.route (a / 8 * 8) (reach a w) (placed a w v) = none) → (regAt (a / 8 * 8) = none) → 
    Does (.registerWrite fn a w v) s fun t =>
      t = s) ∧
  (∀ s : State, ∀ (fn a : Nat) (w : Bool) (v : Word) (d : RegDesc), s.Inv = true → (fn < 2) → (a < 2 ^ 26) → (s.barOpen fn = true) → (a % (if w then 8 else 4) = 0) → ((bar0Reaches fn (a / 8 * 8) && s.answersAt (a / 8 * 8)) = true) → (s.route (a / 8 * 8) (reach a w) (placed a w v) = none) → (regAt (a / 8 * 8) = some d) → ((d.hasLock && s.image.isSome) = false) → 
    Does (.registerWrite fn a w v) s fun t =>
      t.reg (a / 8 * 8) = readsAs (a / 8 * 8) (d.written s.image.isSome (reach a w) (placed a w v) (s.reg (a / 8 * 8))) ∧ Kept s t [a / 8 * 8] [] ∧ t.daybook = s.daybook) ∧
  (∀ s : State, ∀ (fn a : Nat) (w : Bool) (v : Word) (d : RegDesc), s.Inv = true → (fn < 2) → (a < 2 ^ 26) → (s.barOpen fn = true) → (a % (if w then 8 else 4) = 0) → ((bar0Reaches fn (a / 8 * 8) && s.answersAt (a / 8 * 8)) = true) → (s.route (a / 8 * 8) (reach a w) (placed a w v) = none) → (regAt (a / 8 * 8) = some d) → ((d.hasLock && s.image.isSome) = true) → 
    Does (.registerWrite fn a w v) s fun t =>
      t.reg (a / 8 * 8) = d.written true (reach a w) (placed a w v) (s.reg (a / 8 * 8)) ∧ t.daybook = (s.ignoreWrite (a / 8 * 8) (placed a w v)).daybook ∧ Kept s t (a / 8 * 8 :: daybookRegs) [])

/-- With src nonzero a manager write of TIME_RATE or TIME_STEP changes nothing but the daybook, where it is recorded. -/
def Obligations.ServoOwnsTimebase : Prop :=
  (∀ (s : State) (v : Word), s.getF R.timeSrc F.timeSrc_src ≠ 0 → exec (.timeRateWrite v) s = .next (s.writeIgnored 0x01 0 R.timeRate v)) ∧
  (∀ (s : State) (v : Word), s.getF R.timeSrc F.timeSrc_src ≠ 0 → exec (.timeStepWrite v) s = .next (s.writeIgnored 0x01 0 R.timeStep v))

/-- Once the image is applied, a write that reaches a register with RWL fields leaves every RWL field as it was and is recorded in
the daybook. -/
def Obligations.LockedRegistersKeepTheirValue : Prop :=
  ∀ (s : State) (a : Nat) (wide : Bool) (v : Word) (d : RegDesc) (f : FieldDesc), s.Inv = true → s.barOpen 0 = true → a < 2 ^ 26 →
    a % (if wide then 8 else 4) = 0 → s.answersAt (a / 8 * 8) = true → s.image.isSome = true →
    s.route (a / 8 * 8) (reach a wide) (placed a wide v) = none → regAt (a / 8 * 8) = some d → f ∈ d.fields → f.ty = .rwl →
    Does (.registerWrite 0 a wide v) s fun t =>
      t.getF (a / 8 * 8) (f.hi, f.lo) = s.getF (a / 8 * 8) (f.hi, f.lo) ∧
      t.daybook = (s.ignoreWrite (a / 8 * 8) (placed a wide v)).daybook

/-- Adding the same issue groups to an exact-form entry in any order gives the same entry: the same true sum, the same flags, the
same count. Each contribution is truncated on its own before it is added. -/
def Obligations.ExactSumIgnoresOrder : Prop :=
  ∀ (e : Entry) (l l' : List (List (Operand × Operand))), e.form = .exact → l.Perm l' →
    l.foldl Entry.addGroup e = l'.foldl Entry.addGroup e

/-- For one anchor, the bin set of a list of terms equals the merge of the bin sets of its parts, and equals the bin set of any
reordering: value and flags, special terms and terms beyond the bound included. -/
def Obligations.BinnedSumMergesAnySplit : Prop :=
  (∀ (a : Int) (l l' : List Machine.Num), l.Perm l' → l.foldl Entry.addTerm (binsAt a) = l'.foldl Entry.addTerm (binsAt a)) ∧
  (∀ (a : Int) (l m : List Machine.Num),
    (l.foldl Entry.addTerm (binsAt a)).mergeBins (m.foldl Entry.addTerm (binsAt a)) = (l ++ m).foldl Entry.addTerm (binsAt a))

/-- For an exact-form entry, bit 0 of its flags at output is 1 exactly when the true sum, in units of 2⁻¹⁹², lies outside −2³¹⁹ to
2³¹⁹ − 1. -/
def Obligations.RangeHighTellsOverflow : Prop :=
  ∀ e : Entry, e.form = .exact → (e.flagsNow % 2 = 1 ↔ (e.val < -(2 ^ 319 : Int) ∨ (2 ^ 319 : Int) ≤ e.val))

/-- Where the excess fits its field, saving an exact-form entry and restoring the 48 bytes gives the same sum and flags, with the
count of contributions started at 1 (R56). -/
def Obligations.ExactRecordRoundTrip : Prop :=
  ∀ (v : Int) (fl g : Nat), excessFits v = true → fl % 2 = 0 → fl < 256 →
    entryOfRecord (Entry.record ⟨.exact, v, 0, fl, g⟩) = some ⟨.exact, v, 0, fl, 1⟩

/-- In each of the eight floating-point formats, under every rounding mode and with either sat, the value of any finite code
converts to that code with no flag set: rounding changes only values that the format cannot hold. -/
def Obligations.RepresentableValuesUnchanged : Prop :=
  ∀ f ∈ [fp32, bf16, fp16, e4m3, e5m2, e3m2, e2m3, e2m1], ∀ (c : Nat) (rd : Rnd), c < 2 ^ f.bits → (f.decode c).isFin = true →
    f.convert (f.decode c) rd = (c, 0)

/-- Quantizing values of which one is not finite gives scale 0xFF, every element +0, each carrying special_in_block, and has_nan too
when one is NaN. -/
def Obligations.SpecialBlockQuantizes : Prop :=
  ∀ (i : Nat) (vs : List Machine.Num) (rds : List Rnd), vs.any (fun v => !v.isFin) = true →
    quantizeBlock i vs rds = (0xFF, vs.map fun _ => (0, flSpecial + if vs.any Machine.Num.isNan then flNan else 0))

/-- A doorbell of an enabled queue of an active slice moves the tail; an index beyond the ring is ignored and puts the queue in
error; a page's doorbell of a disabled queue is dropped and counted, a write of its register sets the index. A fetch from a host
ring advances the head by one slot and, when the descriptor passes its checks, puts exactly it in flight; where the ring cannot
be read, the queue enters error and its head stays. -/
def Obligations.BenchQueues : Prop :=
  (∀ s : State, ∀ (q : Nat) (v : Word), s.Inv = true → (q < 1024) → (s.getF (R.bqCfg q) F.bqCfg_enable = 1) → (s.sliceState (s.getF (R.bqCfg q) F.bqCfg_owner) = 1) → (v.toNat % 2 ^ 16 < ringSlots (s.getF (R.bqRing q) F.bqRing_size)) → 
    Does (.benchQueueDoorbell (.reg q v)) s fun t =>
      t.getF (R.bqTail q) F.bqTail_tail = v.toNat % 2 ^ 16 ∧ Kept s t [R.bqTail q] []) ∧
  (∀ s : State, ∀ (q : Nat) (v : Word), s.Inv = true → (q < 1024) → (s.getF (R.bqCfg q) F.bqCfg_enable = 1) → (s.sliceState (s.getF (R.bqCfg q) F.bqCfg_owner) = 1) → (v.toNat % 2 ^ 16 ≥ ringSlots (s.getF (R.bqRing q) F.bqRing_size)) → 
    Does (.benchQueueDoorbell (.reg q v)) s fun t =>
      t.getF (R.bqStatus q) F.bqStatus_state = 4 ∧ MemKept s t ∧ RegsKept s t (R.bqStatus q :: daybookRegs)) ∧
  (∀ s : State, ∀ (q fn p off len v n : Nat), s.Inv = true → (getBits (s.reg (R.doorbellEntry fn p)) F.doorbellEntry_queue = q) → (s.getF (R.bqCfg q) F.bqCfg_enable = 0) → (n = (if getBits (s.reg (R.doorbellEntry fn p)) F.doorbellEntry_valid = 1 then getBits (s.reg (R.doorbellEntry fn p)) F.doorbellEntry_slice else 0)) → 
    Does (.benchQueueDoorbell (.page fn p off len v)) s fun t =>
      t.tallyOf 5 1 n = s.tallyOf 5 1 n + 1 ∧ Kept s t [] [tallyKey 5 1 n]) ∧
  (∀ s : State, ∀ (q : Nat) (v : Word), s.Inv = true → (q < 1024) → (s.getF (R.bqCfg q) F.bqCfg_enable = 0) → 
    Does (.benchQueueDoorbell (.reg q v)) s fun t =>
      t.getF (R.bqTail q) F.bqTail_tail = v.toNat % 2 ^ 16 ∧ Kept s t [R.bqTail q] []) ∧
  (∀ s : State, ∀ (q : Nat) (l : List Byte), s.Inv = true → (q < 1024) → (s.getF (R.bqCfg q) F.bqCfg_enable = 1) → (s.getF (R.bqStatus q) F.bqStatus_state ≠ 4) → (s.fetches (s.getF (R.bqCfg q) F.bqCfg_owner) = true) → (s.getF (R.bqStatus q) F.bqStatus_head ≠ s.getF (R.bqTail q) F.bqTail_tail) → (s.queueHeld q [0x02, 0x03, 0x08, 0x09, 0x0A] = false) → (s.getF (R.bqRing q) F.bqRing_space = 1) → (s.hostPath (s.sliceFn (s.getF (R.bqCfg q) F.bqCfg_owner)) = true) → (s.ringWaits (s.getF (R.bqCfg q) F.bqCfg_owner) 1 = false) → (l.length = 128) → ((s.setF (R.bqStatus q) F.bqStatus_head ((s.getF (R.bqStatus q) F.bqStatus_head + 1) % ringSlots (s.getF (R.bqRing q) F.bqRing_size))).descCheck (s.getF (R.bqCfg q) F.bqCfg_owner) l = 0) → 
    Does (.benchDescriptorFetch q (.bytes l)) s fun t =>
      (Tab.find? t.bench.descs s.bench.next).map (fun d => (d.raw, d.queue, d.slice, d.performed)) = some (l, q, s.getF (R.bqCfg q) F.bqCfg_owner, false) ∧ t.getF (R.bqStatus q) F.bqStatus_head = (s.getF (R.bqStatus q) F.bqStatus_head + 1) % ringSlots (s.getF (R.bqRing q) F.bqRing_size) ∧ Kept s t [R.bqStatus q, R.epStatus (s.sliceFn (s.getF (R.bqCfg q) F.bqCfg_owner))] []) ∧
  (∀ s : State, ∀ (q c : Nat), s.Inv = true → (q < 1024) → (s.getF (R.bqCfg q) F.bqCfg_enable = 1) → (s.getF (R.bqStatus q) F.bqStatus_state ≠ 4) → (s.fetches (s.getF (R.bqCfg q) F.bqCfg_owner) = true) → (s.getF (R.bqStatus q) F.bqStatus_head ≠ s.getF (R.bqTail q) F.bqTail_tail) → (s.queueHeld q [0x02, 0x03, 0x08, 0x09, 0x0A] = false) → (s.getF (R.bqRing q) F.bqRing_space = 1) → (s.ringWaits (s.getF (R.bqCfg q) F.bqCfg_owner) 1 = false) → 
    Does (.benchDescriptorFetch q (.fail c)) s fun t =>
      t.getF (R.bqStatus q) F.bqStatus_state = 4 ∧ t.getF (R.bqStatus q) F.bqStatus_head = s.getF (R.bqStatus q) F.bqStatus_head ∧ t.bench = s.bench ∧ MemKept s t)

/-- A waiting sub-part of a stack in service, its wait over without a failure and its turn come, starts on the benches that serve
its position once each is open to its slice: they are busy for the descriptor's slice, their controllers run the descriptor
sequencer and the sub-part runs. Until then nothing changes: without a bench, with its wait or its turn still to come, with a
bench not open, its position's journal held, or units of a lost position before the shares of their own. A stack out of service
ends it with 0x0015, a wait that ended with a code with that code. A running sub-part whose share is computed ends with its
outcome, frees its benches, and the descriptor completes with its last sub-part; nothing else completes one. -/
def Obligations.SubPartsRun : Prop :=
  (∀ s : State, ∀ (d stack pos b : Nat) (x : Desc) (p : SubPart) (more : List Nat), s.Inv = true → (s.desc? d = some x) → (x.sub? stack pos = some p) → (p.phase = .waiting) → (s.stackUp stack = true) → (s.benchesFor stack pos = b :: more) → (s.waitOver x stack pos b = some 0) → (s.turn d x = true) → (((b :: more).all fun y => s.benchOpen stack y x.slice && decide (y < 7)) = true) → (s.journalHeld d stack pos x = false) → (s.ownFirst x stack pos = true) → (stack < 12) → 
    Does (.subpartDispatch d stack pos) s fun t =>
      t.desc? d = some (x.mapSub stack pos fun p => { p with phase := .running, bench := b, also := more }) ∧ ((b :: more).all fun y => (Tab.get Core.clear t.cores (benchKey stack y)).role == .firmware && t.getF (R.benchStatus stack y) F.benchStatus_busy == 1 && t.getF (R.benchStatus stack y) F.benchStatus_running_slice == x.slice % 256) = true ∧ Kept s t ((b :: more).map fun y => R.benchStatus stack y) []) ∧
  (∀ s : State, ∀ (d stack pos b c : Nat) (x : Desc) (p : SubPart) (more : List Nat), s.Inv = true → (s.desc? d = some x) → (x.sub? stack pos = some p) → (p.phase = .waiting) → (s.stackUp stack = true) → (s.benchesFor stack pos = b :: more) → (s.waitOver x stack pos b = some c) → ((decide (s.turn d x = true) && (c != 0 || ((b :: more).all fun y => s.benchOpen stack y x.slice) && !s.journalHeld d stack pos x && s.ownFirst x stack pos)) = false) → 
    Does (.subpartDispatch d stack pos) s fun t =>
      t = s) ∧
  (∀ s : State, ∀ (d stack pos b c : Nat) (x : Desc) (p : SubPart) (more : List Nat), s.Inv = true → (s.desc? d = some x) → (x.sub? stack pos = some p) → (p.phase = .waiting) → (s.stackUp stack = true) → (s.benchesFor stack pos = b :: more) → (s.waitOver x stack pos b = some c) → (c ≠ 0) → (s.turn d x = true) → 
    Does (.subpartDispatch d stack pos) s fun t =>
      t = (s.waitEnded stack x c).endSub d stack pos c) ∧
  (∀ s : State, ∀ (d stack pos b : Nat) (x : Desc) (p : SubPart) (more : List Nat), s.Inv = true → (s.desc? d = some x) → (x.sub? stack pos = some p) → (p.phase = .waiting) → (s.stackUp stack = true) → (s.benchesFor stack pos = b :: more) → (s.waitOver x stack pos b = none) → 
    Does (.subpartDispatch d stack pos) s fun t =>
      t = s) ∧
  (∀ s : State, ∀ (d stack pos : Nat) (x : Desc) (p : SubPart), s.Inv = true → (s.desc? d = some x) → (x.sub? stack pos = some p) → (p.phase = .waiting) → (s.stackUp stack = true) → (s.benchesFor stack pos = []) → 
    Does (.subpartDispatch d stack pos) s fun t =>
      t = s) ∧
  (∀ s : State, ∀ (d stack pos : Nat) (x : Desc) (p : SubPart), s.Inv = true → (s.desc? d = some x) → (x.sub? stack pos = some p) → (p.phase = .waiting) → (s.stackUp stack = false) → (x.arriveAfter = false) → ((x.mapSub stack pos fun p => { p with phase := .ended, code := 0x15 }).allEnded = false) → 
    Does (.subpartDispatch d stack pos) s fun t =>
      t = s.endSub d stack pos 0x15 ∧ t.desc? d = some ((x.mapSub stack pos fun p => { p with phase := .ended, code := 0x15 }).mapSub stack pos fun p => { p with code := 0x15 }) ∧ Kept s t [] []) ∧
  (∀ s : State, ∀ (d stack pos : Nat), s.Inv = true → (((s.desc? d).bind fun x => (x.sub? stack pos).map fun p => p.phase == .waiting).getD false = false) → 
    Does (.subpartDispatch d stack pos) s fun t =>
      t = s) ∧
  (∀ s : State, ∀ (d stack pos : Nat) (x : Desc) (p : SubPart), s.Inv = true → (s.desc? d = some x) → (x.sub? stack pos = some p) → (p.phase = .running) → (p.did = true) → 
    Does (.subpartComplete d stack pos) s fun t =>
      t = s.endSub d stack pos p.code) ∧
  (∀ s : State, ∀ (d stack pos : Nat) (x : Desc) (p : SubPart), s.Inv = true → (s.desc? d = some x) → (x.sub? stack pos = some p) → (p.phase = .running) → (p.did = true) → (p.also = []) → (p.code = 0) → (x.arriveAfter = false) → ((x.mapSub stack pos fun p => { p with phase := .ended, code := 0 }).allEnded = false) → 
    Does (.subpartComplete d stack pos) s fun t =>
      t.desc? d = some ((x.mapSub stack pos fun p => { p with phase := .ended, code := 0 }).mapSub stack pos fun p => { p with code := 0 }) ∧ t.getF (R.benchStatus stack p.bench) F.benchStatus_busy = 0 ∧ Kept s t [R.benchStatus stack p.bench] []) ∧
  (∀ s : State, ∀ (d stack pos : Nat) (x : Desc) (p : SubPart), s.Inv = true → (s.desc? d = some x) → (x.sub? stack pos = some p) → (p.phase = .running) → (p.did = true) → (p.also = []) → (x.arriveAfter = false) → (natBit x.stackMask 0 = true) → (stack < 12) → (p.bench < 7) → ((x.mapSub stack pos fun p => { p with phase := .ended, code := p.code }).allEnded = true) → 
    Does (.subpartComplete d stack pos) s fun t =>
      t.getF (R.benchStatus stack p.bench) F.benchStatus_busy = 0 ∧ t.tallyOf 0x0E 0 0 = s.tallyOf 0x0E 0 0 + 1) ∧
  (∀ s : State, ∀ (d stack pos : Nat), s.Inv = true → (((s.desc? d).bind fun x => (x.sub? stack pos).map fun p => p.phase == .running && p.did).getD false = false) → 
    Does (.subpartComplete d stack pos) s fun t =>
      t = s)

/-- For a descriptor with one sub-part, which runs and is still to be computed, whose sources are readable and whose destinations
are writable: reduce leaves at dst, for every element, the reduced value of that element of all the sources as they stood, and
quantize leaves the packed elements, and for an MX target the scales after them, of its source; no other byte of memory changes
and the sub-part's share is computed, with code 0. -/
def Obligations.ReduceAndQuantize : Prop :=
  (∀ s : State, ∀ (d : Nat) (x : Desc), s.Inv = true → (s.desc? d = some x) → (x.opcode = 0x03) → (x.subs.length = 1) → (x.ready = true) → (x.field 64 1 ≤ 2) → (x.field 66 1 ≠ 1) → ((s.readRanges x.slice ((below (x.field 56 4)).map fun k => (x.field 40 8 + k * x.field 48 8, x.field 60 4 * formBytes (x.field 64 1)))).2.1 = []) → (((s.readRanges x.slice ((below (x.field 56 4)).map fun k => (x.field 40 8 + k * x.field 48 8, x.field 60 4 * formBytes (x.field 64 1)))).2.2.writeRanges x.slice [(x.field 72 8, ((below (x.field 60 4)).map fun i => (reduceElement x.raw ((below (x.field 56 4)).map fun k => s.bytesAt (x.field 40 8 + k * x.field 48 8 + i * formBytes (x.field 64 1)) (formBytes (x.field 64 1))) [] (x.rnd i)).1).flatten)]).1 = []) → (s.noneWaits = true) → 
    Does (.reduce d) s fun t =>
      t.mem = putCells s.mem (x.field 72 8) (((below (x.field 60 4)).map fun i => (reduceElement x.raw ((below (x.field 56 4)).map fun k => s.bytesAt (x.field 40 8 + k * x.field 48 8 + i * formBytes (x.field 64 1)) (formBytes (x.field 64 1))) [] (x.rnd i)).1).flatten) ∧ (t.desc? d).map (fun y => y.subs.map fun q => (q.did, q.code)) = some [(true, 0)]) ∧
  (∀ s : State, ∀ (d : Nat) (x : Desc), s.Inv = true → (s.desc? d = some x) → (x.opcode = 0x06) → (x.subs.length = 1) → (x.ready = true) → (5 ≤ x.field 69 1) → ((s.memRead 0x0E 0 0 x.slice (x.field 40 8) (32 * x.field 64 4 * (if x.field 68 1 = 0 then 4 else 2))).1 = .bytes (s.bytesAt (x.field 40 8) (32 * x.field 64 4 * (if x.field 68 1 = 0 then 4 else 2)))) → (((s.memRead 0x0E 0 0 x.slice (x.field 40 8) (32 * x.field 64 4 * (if x.field 68 1 = 0 then 4 else 2))).2.writeRanges x.slice [(x.field 48 8, (quantizeAll (x.field 68 1) (x.field 69 1) (x.field 64 4) (s.bytesAt (x.field 40 8) (32 * x.field 64 4 * (if x.field 68 1 = 0 then 4 else 2))) x.rnd).1)]).1 = []) → (s.noneWaits = true) → 
    Does (.quantize d) s fun t =>
      t.mem = putCells s.mem (x.field 48 8) (quantizeAll (x.field 68 1) (x.field 69 1) (x.field 64 4) (s.bytesAt (x.field 40 8) (32 * x.field 64 4 * (if x.field 68 1 = 0 then 4 else 2))) x.rnd).1 ∧ (t.desc? d).map (fun y => y.subs.map fun q => (q.did, q.code)) = some [(true, 0)]) ∧
  (∀ s : State, ∀ (d : Nat) (x : Desc), s.Inv = true → (s.desc? d = some x) → (x.opcode = 0x06) → (x.subs.length = 1) → (x.ready = true) → (x.field 69 1 ≤ 4) → ((s.memRead 0x0E 0 0 x.slice (x.field 40 8) (32 * x.field 64 4 * (if x.field 68 1 = 0 then 4 else 2))).1 = .bytes (s.bytesAt (x.field 40 8) (32 * x.field 64 4 * (if x.field 68 1 = 0 then 4 else 2)))) → (((s.memRead 0x0E 0 0 x.slice (x.field 40 8) (32 * x.field 64 4 * (if x.field 68 1 = 0 then 4 else 2))).2.writeRanges x.slice [(x.field 48 8, (quantizeAll (x.field 68 1) (x.field 69 1) (x.field 64 4) (s.bytesAt (x.field 40 8) (32 * x.field 64 4 * (if x.field 68 1 = 0 then 4 else 2))) x.rnd).1), (x.field 56 8, (quantizeAll (x.field 68 1) (x.field 69 1) (x.field 64 4) (s.bytesAt (x.field 40 8) (32 * x.field 64 4 * (if x.field 68 1 = 0 then 4 else 2))) x.rnd).2.1)]).1 = []) → (s.noneWaits = true) → 
    Does (.quantize d) s fun t =>
      t.mem = putCells (putCells s.mem (x.field 48 8) (quantizeAll (x.field 68 1) (x.field 69 1) (x.field 64 4) (s.bytesAt (x.field 40 8) (32 * x.field 64 4 * (if x.field 68 1 = 0 then 4 else 2))) x.rnd).1) (x.field 56 8) (quantizeAll (x.field 68 1) (x.field 69 1) (x.field 64 4) (s.bytesAt (x.field 40 8) (32 * x.field 64 4 * (if x.field 68 1 = 0 then 4 else 2))) x.rnd).2.1 ∧ (t.desc? d).map (fun y => y.subs.map fun q => (q.did, q.code)) = some [(true, 0)])

/-- A barrier set of a device barrier on which nothing waits sets expected and clears arrived and broken; one on which something
waits is refused and leaves the barrier as it is. A pending release advances the generation and takes expected arrivals off; an
owner write changes only the owner, and only while arrived is 0. A launch whose limit and windows pass, of a slice that needs no
signature, has one waiting instance per count. An instance starts on the free bench at its position with its program counter at
entry. At the time limit an instance ends with 0x0012 and its bench is free. A zeroed scratch page holds no byte and counts as
free. -/
def Obligations.BarrierAndLaunchCommands : Prop :=
  (∀ s : State, ∀ (d : Nat) (x : Desc), s.Inv = true → (s.desc? d = some x) → (x.opcode = 0x11) → (x.scope = 3) → (x.field 40 2 ≠ 0) → (barReady (s.barrier .device x.barNo) = false) → (s.waitPending .device x.barNo d = false) → (s.turn d x = true) → ((Tab.find? s.bench.stalled 12).isNone = true) → (((maskList 12 x.stackMask).any s.stackUp) = true) → (x.cq < 4096) → 
    Does (.barrierSet d) s fun t =>
      t.getF (R.deviceBarrier x.barNo) barExpected = x.field 40 2 ∧ t.getF (R.deviceBarrier x.barNo) barArrived = 0 ∧ t.getF (R.deviceBarrier x.barNo) barBroken = 0 ∧ t.getF (R.deviceBarrier x.barNo) barGen = s.getF (R.deviceBarrier x.barNo) barGen) ∧
  (∀ s : State, ∀ (d : Nat) (x : Desc), s.Inv = true → (s.desc? d = some x) → (x.opcode = 0x11) → (x.scope = 3) → (x.field 40 2 ≠ 0) → (barReady (s.barrier .device x.barNo) = false) → (s.waitPending .device x.barNo d = true) → (x.cq < 4096) → 
    Does (.barrierSet d) s fun t =>
      t.reg (R.deviceBarrier x.barNo) = s.reg (R.deviceBarrier x.barNo)) ∧
  (∀ s : State, ∀ (n : Nat), s.Inv = true → (n < 16) → (barReady (s.reg (R.deviceBarrier n)) = true) → ((Tab.find? s.bench.stalled 12).isNone = true) → 
    Does (.barrierRelease .device n) s fun t =>
      t.reg (R.deviceBarrier n) = barReleased (s.reg (R.deviceBarrier n)) ∧ Kept s t [R.deviceBarrier n] []) ∧
  (∀ s : State, ∀ (st n : Nat), s.Inv = true → (st < 12) → (n < 16) → (barReady (s.reg (R.stackBarrier st n)) = true) → ((Tab.find? s.bench.stalled st).isNone = true) → 
    Does (.barrierRelease (.stack st) n) s fun t =>
      t.reg (R.stackBarrier st n) = barReleased (s.reg (R.stackBarrier st n)) ∧ Kept s t [R.stackBarrier st n] []) ∧
  (∀ s : State, ∀ (st n : Nat) (v : Word), s.Inv = true → (s.serving = true) → (getBits (s.reg (R.stackBarrier st n)) barArrived = 0) → (s.linkFenced st = false) → 
    Does (.barrierOwnerWrite (.stack st) n v) s fun t =>
      t.reg (R.stackBarrier st n) = setBits (s.reg (R.stackBarrier st n)) barOwner (getBits v barOwner) ∧ Kept s t [R.stackBarrier st n] []) ∧
  (∀ s : State, ∀ (st n : Nat) (v : Word), s.Inv = true → (st < 12) → (n < 16) → (s.serving = true) → (getBits (s.reg (R.stackBarrier st n)) barArrived ≠ 0) → 
    Does (.barrierOwnerWrite (.stack st) n v) s fun t =>
      t.reg (R.stackBarrier st n) = s.reg (R.stackBarrier st n) ∧ t.daybook = (s.writeIgnored 0x0E st (R.stackBarrier st n) v).daybook ∧ Kept s t daybookRegs []) ∧
  (∀ s : State, ∀ (d : Nat) (x : Desc), s.Inv = true → (s.desc? d = some x) → (x.opcode = 0x10) → ((Tab.find? s.bench.launches d).isNone = true) → ((s.launchLimit x).isSome = true) → (s.turn d x = true) → (((maskList 12 x.stackMask).any fun st => winSetBad (s.windows st (x.field 60 2)) (x.field 68 1)) = false) → ((s.policyOf x.slice).signed = false) → 
    Does (.kernelLaunch d) s fun t =>
      Tab.find? t.bench.launches d = some ⟨List.replicate (x.field 62 2) .waiting, []⟩ ∧ Kept s t [] []) ∧
  (∀ s : State, ∀ (d idx stack pos b : Nat) (x : Desc) (l : Launch), s.Inv = true → (s.desc? d = some x) → (Tab.find? s.bench.launches d = some l) → (l.insts[idx]? = some .waiting) → (natBit x.stackMask stack = true) → (natBit x.benchMask pos = true) → (s.turn d x = true) → (s.stackUp stack = true) → (s.benchFor stack pos = some b) → (s.waitOver x stack pos b = some 0) → (x.field 68 1 ≤ (s.freePageList (benchKey stack b)).length) → (s.benchOpen stack b x.slice = true) → (stack < 12) → (b < 7) → 
    Does (.instanceStart d idx stack pos) s fun t =>
      (Tab.find? t.cores (benchKey stack b)).map (fun c => (c.role, c.pc, c.slice, c.winSet, c.pages.length)) = some (.kernel d idx, BitVec.ofNat 64 (x.field 40 8), x.slice, x.field 60 2, x.field 68 1) ∧ Tab.find? t.bench.launches d = some ⟨l.insts.set idx (.running (benchKey stack b)), Tab.insert l.on idx stack⟩ ∧ t.getF (R.benchStatus stack b) F.benchStatus_busy = 1 ∧ Kept s t [R.benchStatus stack b] [tallyKey 0x0E 1 stack] ∧ t.tallyOf 0x0E 1 stack = s.tallyOf 0x0E 1 stack + 1) ∧
  (∀ s : State, ∀ (core n idx : Nat) (x : Desc) (l : Launch), s.Inv = true → ((Tab.get Core.clear s.cores core).role = .kernel n idx) → (core < 84) → (s.desc? n = some x) → (Tab.find? s.bench.launches n = some l) → (((l.insts.set idx (.ended 0x12 (exitValue 0x10 (Tab.get Core.clear s.cores core)))).all fun i => i.outcome.isSome) = false) → ((x.arriveAfter && x.scope == 1) = false) → 
    Does (.kernelTimeLimit core) s fun t =>
      Tab.find? t.bench.launches n = some { l with insts := l.insts.set idx (.ended 0x12 (exitValue 0x10 (Tab.get Core.clear s.cores core))) } ∧ t.getF (R.benchStatus (core / 7) (core % 7)) F.benchStatus_busy = 0 ∧ Kept s t [R.benchStatus (core / 7) (core % 7)] []) ∧
  (∀ s : State, ∀ (stack b page : Nat), s.Inv = true → (Tab.find? s.bench.pages (benchKey stack b * 64 + page) = some 2) → (s.linkFenced stack = false) → 
    Does (.scratchPageZeroed stack b page) s fun t =>
      (t.bench.scratch.all fun e => decide (e.1 < benchKey stack b * 2 ^ 22 + page * 65536) || decide (benchKey stack b * 2 ^ 22 + page * 65536 + 65536 ≤ e.1)) = true ∧ t.getF (R.benchStatus stack b) F.benchStatus_free_pages = (t.freePageList (benchKey stack b)).length ∧ Kept s t [R.benchStatus stack b] [])

/-- An engine that idles is at rest, the others as they were; the stack's registers stay as last reported behind a fenced link. A
ramp step doubles the rate of every ramping engine of the stack, up to its target, where its ramp ends; other engines keep their
rates, and STACK_STATUS tells whether one still ramps. The tables of rates must have rising numbers, an invariant stated apart. -/
def Obligations.RampGovernor : Prop :=
  (∀ s : State, ∀ (stack k : Nat), s.Inv = true → (s.tablesRise = true) → (s.linkFenced stack = false) → 
    Does (.engineIdle stack k) s fun t =>
      Tab.get EngRate.rest t.bench.rates (stack * 48 + k) = EngRate.rest ∧ ((below 576).all fun j => j == stack * 48 + k || Tab.get EngRate.rest t.bench.rates j == Tab.get EngRate.rest s.bench.rates j) = true ∧ Kept s t [R.stackStatus stack] []) ∧
  (∀ s : State, ∀ (stack k : Nat), s.Inv = true → (s.linkFenced stack = true) → 
    Does (.engineIdle stack k) s fun t =>
      t = s) ∧
  (∀ s : State, ∀ (stack : Nat), s.Inv = true → (s.tablesRise = true) → (stack < 12) → 
    Does (.rampStep stack) s fun t =>
      ((below 576).all fun j => Tab.get EngRate.rest t.bench.rates j == (if j / 48 = stack ∧ (Tab.get EngRate.rest s.bench.rates j).ramping = true then { Tab.get EngRate.rest s.bench.rates j with rate := min (2 * (Tab.get EngRate.rest s.bench.rates j).rate) (s.engTarget stack j), ramping := decide (2 * (Tab.get EngRate.rest s.bench.rates j).rate < s.engTarget stack j) } else Tab.get EngRate.rest s.bench.rates j)) = true ∧ (s.linkFenced stack = false → t.getF (R.stackStatus stack) F.stackStatus_ramp_active = bit ((engKeys stack).any fun j => (Tab.get EngRate.rest t.bench.rates j).ramping)) ∧ Kept s t [R.stackStatus stack] [])

/-- A faulty unit with a free spare is fenced and its position served by the spare: lane 32, engine 8, bench 6. A spare engine that
enters service is clear; a spare bench's scratch is zero. -/
def Obligations.BenchFaults : Prop :=
  (∀ s : State, ∀ (st b e : Nat), s.Inv = true → (st < 12) → (b < 7) → (e < 8) → (s.linkFenced st = false) → (s.unitFenced (engineLevel st b) e = false) → (s.reg (R.repairEngine st b + 16) = 0) → (s.freeSpare (engineLevel st b) = some 8) → 
    Does (.engineFault st b e) s fun t =>
      t.unitFenced (engineLevel st b) e = true ∧ t.servingUnit (engineLevel st b) e = 8 ∧ t.tallyOf 0x0E 2 st = s.tallyOf 0x0E 2 st + 1) ∧
  (∀ s : State, ∀ (st b e lane : Nat), s.Inv = true → (st < 12) → (b < 7) → (e < 9) → (lane < 32) → (s.linkFenced st = false) → (s.unitFenced (laneLevel st b e) lane = false) → (s.reg (R.repairLane st (9 * b + e) + 16) = 0) → (s.freeSpare (laneLevel st b e) = some 32) → 
    Does (.laneFault st b e lane) s fun t =>
      t.unitFenced (laneLevel st b e) lane = true ∧ t.servingUnit (laneLevel st b e) lane = 32 ∧ t.unitFenced (engineLevel st b) e = s.unitFenced (engineLevel st b) e) ∧
  (∀ s : State, ∀ (st b : Nat), s.Inv = true → (st < 12) → (b < 6) → (s.linkFenced st = false) → (s.unitFenced (benchLevel st) b = false) → (s.reg (R.repairBench st + 16) = 0) → (s.freeSpare (benchLevel st) = some 6) → 
    Does (.benchFault st b) s fun t =>
      t.unitFenced (benchLevel st) b = true ∧ t.servingUnit (benchLevel st) b = 6 ∧ t.tallyOf 0x0E 2 st = s.tallyOf 0x0E 2 st + 1) ∧
  (∀ s : State, ∀ (st b e : Nat), s.Inv = true → (s.tablesRise = true) → ((Tab.find? s.bench.entering (benchKey st b * 9 + e)).isSome = true) → 
    Does (.spareInService (.engine st b e)) s fun t =>
      Tab.find? t.bench.entering (benchKey st b * 9 + e) = none ∧ Tab.get Engine.clear t.bench.engines (benchKey st b * 9 + e) = Engine.clear ∧ Kept s t [R.stackStatus st] [tallyKey 0x0E 4 st]) ∧
  (∀ s : State, ∀ (st b : Nat), s.Inv = true → (s.tablesRise = true) → ((Tab.find? s.bench.entering (2 ^ 20 + benchKey st b)).isSome = true) → 
    Does (.spareInService (.bench st b)) s fun t =>
      Tab.find? t.bench.entering (2 ^ 20 + benchKey st b) = none ∧ (t.bench.scratch.all fun e => decide (e.1 / 2 ^ 22 ≠ benchKey st b)) = true ∧ Kept s t [] [])

/-- A bundle of one integer syllable of major 0x00 writes its destination with the operation of the two sources as they stood, and
the core goes on at the next bundle; a BR goes on at its target; an illegal bundle at level P is taken as exception 0x04, with
EPC, CAUSE, TVAL and TVEC as the spec gives them, and none of the bundle's effects; in a handler it halts the core. The oldest
outstanding operation of a coprocessor completes and leaves the queue. A failed store of a firmware core is taken at the bundle
boundary with TVAL its address, cause 0x0A for a bus error and 0x09 for one not performed. An interrupt line becomes pending;
where the core may take it, it is taken with cause 0x12, EPC the next bundle, and the line clear. -/
def Obligations.CoreBundlesAndExceptions : Prop :=
  (∀ s : State, ∀ (core wd : Nat) (feed : Feed), s.Inv = true → (s.atBundle core feed [wd] = true) → (legalAs core [wd] [⟨.a0, wd, []⟩] = true) → (syMajor wd = 0) → ((s.core core).pred (syPred wd) = true) → 
    Does (.bundleExecute core feed) s fun t =>
      t.core core = { ((s.core core).setReg (natBits wd 21 17) (intOp (natBits wd 6 0) ((s.core core).reg (natBits wd 16 12)) ((s.core core).reg (natBits wd 11 7)))) with pc := (s.core core).pc + 4, retired := (s.core core).retired + 1, bundles := (s.core core).bundles + 1, here := (s.core core).pc, stall := .none } ∧ Kept s t [] []) ∧
  (∀ s : State, ∀ (core wd : Nat) (feed : Feed), s.Inv = true → (s.atBundle core feed [wd] = true) → (legalAs core [wd] [⟨.b, wd, []⟩] = true) → (syMajor wd = 0x18) → ((s.core core).pred (syPred wd) = true) → 
    Does (.bundleExecute core feed) s fun t =>
      t.core core = { s.core core with pc := (s.core core).pc + immSigned 22 (natBits wd 21 0) [] * 4, retired := (s.core core).retired + 1, bundles := (s.core core).bundles + 1, here := (s.core core).pc, stall := .none } ∧ Kept s t [] []) ∧
  (∀ s : State, ∀ (core wd : Nat) (ws : List Nat) (feed : Feed), s.Inv = true → (s.atBundle core feed ws = true) → (illegalAt core ws wd = true) → ((s.core core).role = .firmware) → (natBit (s.core core).status.toNat 2 = false) → 
    Does (.bundleExecute core feed) s fun t =>
      t.core core = { s.core core with epc := (s.core core).pc, cause := 4, tval := BitVec.ofNat 64 wd, pc := (s.core core).tvec, status := setBits (setBits (setBits (s.core core).status (1, 1) ((s.core core).status.toNat % 2)) (0, 0) 1) (2, 2) 1 } ∧ Kept s t [] []) ∧
  (∀ s : State, ∀ (core cop : Nat) (data : Got) (o o' : CopOp) (q : List CopOp), s.Inv = true → ((s.core core).role ≠ .free) → ((s.core core).halted = false) → ((s.core core).stall = .none) → (((s.core core).cop cop).queue = o :: o' :: q) → (s.engineEntering core cop o = false) → 
    Does (.coprocessorOpComplete core cop data) s fun t =>
      ((t.core core).cop cop).queue = o' :: q) ∧
  (∀ s : State, ∀ (core : Nat) (va : Word) (bus : Bool) (l : List (Word × Bool)), s.Inv = true → ((s.core core).role = .firmware) → ((s.core core).halted = false) → ((s.core core).stall = .none) → ((s.core core).fails = (va, bus) :: l) → (natBit (s.core core).status.toNat 2 = false) → 
    Does (.storeFailure core) s fun t =>
      (t.core core).tval = va ∧ (t.core core).cause = (if bus then 0x0A else 0x09) ∧ (t.core core).fails = l ∧ (t.core core).epc = (s.core core).pc ∧ (t.core core).pc = (s.core core).tvec ∧ Kept s t [] []) ∧
  (∀ s : State, ∀ (core line : Nat), s.Inv = true → (line < 64) → ((s.core core).role = .firmware) → ((s.core core).halted = false) → (natBit (s.core core).status.toNat 3 = false) → 
    Does (.interrupt core line) s fun t =>
      t.core core = { s.core core with ipend := (s.core core).ipend ||| ((1 : Word) <<< line) } ∧ Kept s t [] []) ∧
  (∀ s : State, ∀ (core line : Nat), s.Inv = true → (line < 64) → ((s.core core).role = .firmware) → ((s.core core).halted = false) → ((s.core core).stall = .none) → ((s.core core).status = 9) → ((s.core core).ipend = 0) → (natBit (s.core core).ienable.toNat line = true) → 
    Does (.interrupt core line) s fun t =>
      (t.core core).cause = 0x12 ∧ (t.core core).epc = (s.core core).pc ∧ (t.core core).pc = (s.core core).tvec ∧ (t.core core).ipend = 0 ∧ natBit (t.core core).status.toNat 2 = true ∧ Kept s t [] [])

/-- An accepted create makes the entry zeroing with the range, owner and tier of the staged registers and leaves the command busy;
its end of zeroing zeroes exactly the range, makes the entry active and ends the command with 0. A command on an entry of the
device ends with 0x0002 without effect, a create on an entry that is not free with 0x0001. A destroy of a region that nothing
maps puts it into zeroing, at whose end the entry is free. Op 3 sets the bulk mirror bit. -/
def Obligations.RegionCommands : Prop :=
  (∀ s : State, ∀ (v : Word) (i : Nat), s.Inv = true → (s.serving = true) → (s.regionIdle = true) → ((s.regionArgs v).index = i) → (i < 4080) → (s.createStatus (s.regionArgs v) = 0) → (s.replicates 3 (s.regionArgs v).owner = false) → 
    Does (.regionCreate v) s fun t =>
      t.regions = Tab.insert s.regions i ⟨s.getF R.regionCmdBase F.regionCmdBase_base * 2 ^ 21, s.getF R.regionCmdSize F.regionCmdSize_granules * granule (s.getF R.regionCmdAttr F.regionCmdAttr_tier), s.getF R.regionCmdAttr F.regionCmdAttr_owner, s.getF R.regionCmdAttr F.regionCmdAttr_tier, s.getF R.regionCmdAttr F.regionCmdAttr_bulk_mirror == 1, 2, true⟩ ∧ t.getF R.regionCmdGo F.regionCmdGo_busy = 1 ∧ Kept s t [R.regionCmdGo, R.zeroStatus] []) ∧
  (∀ s : State, ∀ (v : Word), s.Inv = true → (s.serving = true) → (s.regionIdle = true) → (4080 ≤ getBits v F.regionCmdGo_index) → 
    Does (.regionCreate v) s fun t =>
      t.getF R.regionCmdGo F.regionCmdGo_status = 2 ∧ t.regions = s.regions ∧ MemKept s t ∧ RegsKept s t (R.regionCmdGo :: daybookRegs)) ∧
  (∀ s : State, ∀ (v : Word), s.Inv = true → (s.serving = true) → (s.regionIdle = true) → (getBits v F.regionCmdGo_index < 4080) → ((Tab.find? s.regions (getBits v F.regionCmdGo_index)).isSome = true) → 
    Does (.regionCreate v) s fun t =>
      t.getF R.regionCmdGo F.regionCmdGo_status = 1 ∧ t.regions = s.regions ∧ MemKept s t ∧ RegsKept s t (R.regionCmdGo :: daybookRegs)) ∧
  (∀ s : State, ∀ (v : Word) (i : Nat) (r : Region), s.Inv = true → (s.serving = true) → (s.regionIdle = true) → (getBits v F.regionCmdGo_index = i) → (i < 4080) → (Tab.find? s.regions i = some r) → (r.state ≠ 2) → (s.mapped r.base r.size = false) → (s.replicates 3 r.owner = false) → 
    Does (.regionDestroy v) s fun t =>
      t.regions = Tab.insert s.regions i { r with state := 2, creating := false } ∧ t.getF R.regionCmdGo F.regionCmdGo_status = 0 ∧ Kept s t [R.regionCmdGo, R.zeroStatus] []) ∧
  (∀ s : State, ∀ (v : Word) (i : Nat) (r : Region), s.Inv = true → (s.serving = true) → (s.regionIdle = true) → (getBits v F.regionCmdGo_index = i) → (i < 4080) → (Tab.find? s.regions i = some r) → (r.state = 1) → (s.replicates 3 r.owner = false) → (natBit (s.getF R.pairCfg F.pairCfg_classes) 0 = true) → 
    Does (.regionSetBulkMirror v) s fun t =>
      t.regions = Tab.insert s.regions i { r with bulk := s.getF R.regionCmdAttr F.regionCmdAttr_bulk_mirror == 1 } ∧ t.getF R.regionCmdGo F.regionCmdGo_status = 0 ∧ Kept s t [R.regionCmdGo] []) ∧
  (∀ s : State, ∀ (i : Nat) (r : Region), s.Inv = true → (Tab.find? s.regions i = some r) → (r.state = 2) → (r.creating = true) → (s.noneWaits = true) → 
    Does (.regionZeroingDone i) s fun t =>
      t.regions = Tab.insert s.regions i { r with state := 1, creating := false } ∧ (t.mem.all fun e => decide (e.1 < r.base) || decide (r.base + r.size ≤ e.1)) = true ∧ MemKeptBut s t r.base r.size ∧ RegsKept s t [R.regionCmdGo, R.zeroStatus]) ∧
  (∀ s : State, ∀ (i : Nat) (r : Region), s.Inv = true → (Tab.find? s.regions i = some r) → (r.state = 2) → (r.creating = false) → (s.noneWaits = true) → 
    Does (.regionZeroingDone i) s fun t =>
      t.regions = Tab.erase s.regions i ∧ (t.mem.all fun e => decide (e.1 < r.base) || decide (r.base + r.size ≤ e.1)) = true ∧ MemKeptBut s t r.base r.size ∧ RegsKept s t [R.zeroStatus])

/-- A poll shows the hottest die in HBM_STATUS and doubles refresh above 85 °C; a die at 95 °C or above is reported. A failed
channel in service is fenced and shows out of service, the interleave as before. A stitched write that is performed leaves its
bytes in memory and nothing else; a partial one locks its stripe; a write to a locked stripe waits; a released stripe performs
what waits. A stitched read brings the bytes of its units. Scrub of a clean word moves to the next; an uncorrectable plain word
is logged. Training fixes C and the channels kept. -/
def Obligations.MemoryTierCommands : Prop :=
  (∀ s : State, ∀ (stack : Nat) (temps : List Nat), s.Inv = true → (stack < 12) → 
    Does (.dramTempPoll stack temps) s fun t =>
      t.getF (R.hbmStatus stack) F.hbmStatus_temp_c = min (temps.foldl max 0) 255 ∧ t.getF (R.hbmStatus stack) F.hbmStatus_refresh_x2 = (if temps.foldl max 0 > 85 then 1 else 0) ∧ t.out = (if temps.foldl max 0 ≥ 95 then .dramHot stack (temps.foldl max 0) :: s.out else s.out) ∧ Kept s t [R.hbmStatus stack] []) ∧
  (∀ s : State, ∀ (c : Nat), s.Inv = true → (s.ddr.kept.contains c = true) → (s.ddr.fenced.contains c = false) → 
    Does (.ddrChannelFail c) s fun t =>
      t.ddr = { s.ddr with fenced := s.ddr.fenced ++ [c] } ∧ t.getF (R.ddrChanStatus c) F.ddrChanStatus_in_service = 0 ∧ MemKept s t ∧ RegsKept s t (R.ddrChanStatus c :: daybookRegs)) ∧
  (∀ s : State, ∀ (source slice a : Nat) (data : List Byte), s.Inv = true → (s.isStitched a = true) → (data ≠ []) → ((a - 0x8000000000) % 40960 + data.length ≤ 40960) → (Tab.find? s.stripes (stripeOf a) = none) → ((s.memWrite 0x0D 0xFF source slice a data).1 = none) → (s.noneWaits = true) → 
    Does (.stitchWrite source slice a data) s fun t =>
      t.mem = putCells s.mem a data ∧ (partialStripes a data.length = 0 → t.out.head? = some (.stitchDone 0)) ∧ (Tab.find? t.stripes (stripeOf a)).isSome = (partialStripes a data.length != 0)) ∧
  (∀ s : State, ∀ (source slice a : Nat) (data : List Byte) (l : List StripeReq), s.Inv = true → (s.isStitched a = true) → (data ≠ []) → ((a - 0x8000000000) % 40960 + data.length ≤ 40960) → (Tab.find? s.stripes (stripeOf a) = some l) → 
    Does (.stitchWrite source slice a data) s fun t =>
      t.stripes = Tab.insert s.stripes (stripeOf a) (l ++ [.write source slice a data]) ∧ t.out = s.out ∧ Kept s t [] []) ∧
  (∀ s : State, ∀ (n : Nat), s.Inv = true → (Tab.find? s.stripes n = some []) → 
    Does (.stripeLockRelease n) s fun t =>
      t.stripes = Tab.erase s.stripes n ∧ Kept s t [] []) ∧
  (∀ s : State, ∀ (n source slice a : Nat) (data : List Byte), s.Inv = true → (Tab.find? s.stripes n = some [.write source slice a data]) → (({ s with stripes := Tab.erase s.stripes n }).noneWaits = true) → ((({ s with stripes := Tab.erase s.stripes n }).memWrite 0x0D 0xFF source slice a data).1 = none) → 
    Does (.stripeLockRelease n) s fun t =>
      t.mem = putCells s.mem a data ∧ t.out.contains (.stitchDone 0) = true) ∧
  (∀ s : State, ∀ (source slice a len : Nat) (l : List Byte), s.Inv = true → (s.isStitched a = true) → (s.needsRebuild a len = false ∨ s.lockedIn a len = []) → ((s.memRead 0x0D 0xFF source slice a len).1 = .bytes l) → 
    Does (.stitchRead source slice a len) s fun t =>
      t.out.head? = some (.stitchData (.bytes ((below len).map fun i => s.stitchByte (a + i)))) ∧ MemKept s t) ∧
  (∀ s : State, ∀ (source slice a len n : Nat) (l : List Nat), s.Inv = true → (s.isStitched a = true) → (s.needsRebuild a len = true) → (s.lockedIn a len = n :: l) → 
    Does (.stitchRead source slice a len) s fun t =>
      t.stripes = Tab.insert s.stripes n (Tab.get [] s.stripes n ++ [.read source slice a len]) ∧ t.out = s.out ∧ Kept s t [] []) ∧
  (∀ s : State, ∀ (seen : ScrubSeen) (m reader : Nat), s.Inv = true → (2 ≤ s.getF R.pwrState F.pwrState_state) → 
    Does (.scrubRead ⟨seen, [.hub m reader false]⟩ 0 false false) s fun t =>
      t.tallyOf 0x0D 0 (20 + m) = s.tallyOf 0x0D 0 (20 + m) + 1 ∧ t.scrub = s.scrub ∧ Kept s t [] [tallyKey 0x0D 0 (20 + m)]) ∧
  (∀ s : State, ∀ (burst : List Byte) (sev row : Nat) (bankSpare ov : Bool) (ev : List CodeEvent) (s' : State), s.Inv = true → (ev.foldl State.codeEvent s = s') → (s'.getF R.pwrState F.pwrState_state < 2) → (s'.stackMem (s'.scrub.hbm / 2 ^ 30) = true) → ((s.scrub.hbm + 1) / 2 ^ 30 = s.scrub.hbm / 2 ^ 30) → (s.scrub.hbm / 2 ^ 30 < 12) → (Tab.find? s'.bad (badHbm (s.scrub.hbm / 2 ^ 30) (s.scrub.hbm % 2 ^ 30 * 32)) = none) → (hbmDecode (s.scrub.hbm % 2 ^ 30 * 32) burst = .clean) → 
    Does (.scrubRead ⟨.hbm burst sev, ev⟩ row bankSpare ov) s fun t =>
      t.scrub = { s'.scrub with hbm := s.scrub.hbm + 1 } ∧ Kept s' t [R.scrubStatus] [tallyKey 0x0D 6 (s.scrub.hbm / 2 ^ 30), tallyKey 0x0D 3 (s.scrub.hbm / 2 ^ 30)]) ∧
  (∀ s : State, ∀ (burst : List Byte) (sev row : Nat) (bankSpare ov : Bool), s.Inv = true → (s.getF R.pwrState F.pwrState_state < 2) → (s.stackMem (s.scrub.hbm / 2 ^ 30) = true) → (s.scrub.hbm % 2 ^ 30 * 32 < 2 ^ 35 - s.stitchedSize) → (hbmDecode (s.scrub.hbm % 2 ^ 30 * 32) burst = .uncorrectable) → 
    Does (.scrubRead ⟨.hbm burst sev, []⟩ row bankSpare ov) s fun t =>
      t.getF R.memErrInfo F.memErrInfo_valid = 1 ∧ t.getF R.memErrInfo F.memErrInfo_source = 4 ∧ (Tab.find? t.bad (badHbm (s.scrub.hbm / 2 ^ 30) (s.scrub.hbm % 2 ^ 30 * 32))).isSome = true ∧ MemKept s t) ∧
  (∀ s : State, ∀ (stacks' : List HbmTrain) (channels : List DdrTrain), s.Inv = true → (True) → 
    Does (.memoryTrainingDone stacks' channels) s fun t =>
      t.ddr.capacity = referenceCapacity channels * gib ∧ t.ddr.kept = (((below 8).zip channels).filterMap fun p => if ddrKeeps p.2 (referenceCapacity channels) then some p.1 else none) ∧ t.ddr.fenced = [] ∧ t.boot.trained = true ∧ MemKept s t)

/-- Whichever at most two of the twelve stacks are lost, data or check units among them, the byte rebuilt from the surviving units
of its stripe over GF(2⁸) is the byte last written, for every address of the stitched range. -/
def Obligations.StitchedDataSurvivesTwoLosses : Prop :=
  ∀ (s : State) (a : Nat), 0x8000000000 ≤ a → popCount 12 s.lostStacks ≤ 2 → s.stitchByte a = s.byteAt a

/-- Take 35 bytes on which all three syndromes are 0 (a code word) and change any one byte to any other value: the decode names
exactly that byte. -/
def Obligations.WordCodeCorrectsOneSymbol : Prop :=
  ∀ (l : List Byte) (i : Nat) (b : Byte), l.length = 35 → rsDecode l = .clean → i < 35 → b ≠ l.getD i 0 →
    rsDecode (l.set i b) = .corrected i

/-- An accepted open makes the entry an active sequence of length 0 with the header's seed and its stack list. Close puts every
frame into zeroing; truncate cuts the length and frees the pages wholly above it; park moves every page to a slot of the cold
tier and unpark back. A refused operation changes nothing of the serving state. Memory changes only in the completion ring, but
for the copies of park and unpark. A frame whose zeroing ends is zero and free. -/
def Obligations.SequenceCommands : Prop :=
  (∀ s : State, ∀ (d : Nat) (x : Desc), s.Inv = true → (s.acts d x 1 1 = true) → (s.openCode x (s.stackList x.slice (x.field 52 4)) = 0) → (s.noneWaits = true) → 
    Does (.sequenceOpen d) s fun t =>
      t.serve = { s.serve with seqs := Tab.insert s.serve.seqs (x.field 48 4) ⟨.active, x.slice, x.field 42 2, x.field 16 8, s.stackList x.slice (x.field 52 4), [], []⟩ } ∧ MemKeptButRing s t x.cq) ∧
  (∀ s : State, ∀ (d : Nat) (x : Desc), s.Inv = true → (s.acts d x 1 1 = true) → (s.openCode x (s.stackList x.slice (x.field 52 4)) ≠ 0) → (s.noneWaits = true) → 
    Does (.sequenceOpen d) s fun t =>
      t.serve = s.serve ∧ MemKeptButRing s t x.cq) ∧
  (∀ s : State, ∀ (d : Nat) (x : Desc) (y : Seqn), s.Inv = true → (s.acts d x 1 2 = true) → (s.seq? (x.field 48 4) = some y) → (y.slice = x.slice) → (y.state = .active ∨ y.state = .lost) → (s.seqHeld (x.field 48 4) = false) → (s.serve.frames.any (fun e => e.2.seq == x.field 48 4) = true) → ((y.pages.all fun e => (Tab.find? s.serve.cold e.2).isNone) = true) → (s.noneWaits = true) → 
    Does (.sequenceClose d) s fun t =>
      t.seq? (x.field 48 4) = some { y with state := .zeroing, pages := [] } ∧ t.serve.frames = (y.pages.map Prod.snd).foldl (fun f a => Tab.modify f a fun g => { g with zeroing := true }) s.serve.frames ∧ MemKeptButRing s t x.cq) ∧
  (∀ s : State, ∀ (d : Nat) (x : Desc) (y : Seqn), s.Inv = true → (s.acts d x 1 2 = true) → (s.seq? (x.field 48 4) = some y) → (y.slice = x.slice) → (y.state = .parked ∨ y.state = .lost) → (s.seqHeld (x.field 48 4) = false) → 
    Does (.sequenceClose d) s fun t =>
      t.serve.cold = ((y.pages.map Prod.snd).filter fun a => (Tab.find? s.serve.cold a).isSome).foldl (fun c a => Tab.erase c a) s.serve.cold ∧ (t.seq? (x.field 48 4)).all (fun z => z.state == .zeroing) = true) ∧
  (∀ s : State, ∀ (d : Nat) (x : Desc) (y : Seqn), s.Inv = true → (s.acts d x 1 3 = true) → (s.seq? (x.field 48 4) = some y) → (y.slice = x.slice) → (y.state = .active) → (s.seqHeld (x.field 48 4) = false) → (x.field 52 4 ≤ y.length) → (s.noneWaits = true) → 
    Does (.sequenceTruncate d) s fun t =>
      t.seq? (x.field 48 4) = some { y with lens := (Tab.mapVals y.lens fun _ m => min m (x.field 52 4)).filter (fun e => e.2 != 0), pages := y.pages.filter fun e => decide (e.1 % 1024 * 64 < x.field 52 4) } ∧ MemKeptButRing s t x.cq) ∧
  (∀ s : State, ∀ (d : Nat) (x : Desc) (y : Seqn) (l : LastRec) (slots : List Nat) (s' : State), s.Inv = true → (s.acts d x 1 4 = true) → (s.seq? (x.field 48 4) = some y) → (y.slice = x.slice) → (y.state = .active) → (s.seqHeld (x.field 48 4) = false) → (s.coldTier = true) → (s.last? y.last = some l) → (s.coldSlots l.frameBytes y.pages.length = some (slots, s')) → (s.ddr.fenced.contains 7 = false) → ((s'.copyFrames (x.field 48 4) y.slice l.frameBytes true ((y.pages.map Prod.snd).zip slots)).1 = 0) → 
    Does (.sequencePark d) s fun t =>
      t.seq? (x.field 48 4) = some { y with state := .parked, pages := (y.pages.zip slots).map fun e => (e.1.1, e.2) } ∧ t.serve.cold = s'.serve.cold) ∧
  (∀ s : State, ∀ (d : Nat) (x : Desc) (y : Seqn) (l : LastRec) (frames : List Nat) (s' : State), s.Inv = true → (s.acts d x 1 5 = true) → (s.seq? (x.field 48 4) = some y) → (y.slice = x.slice) → (y.state = .parked) → (s.seqHeld (x.field 48 4) = false) → (s.coldTier = true) → (s.last? y.last = some l) → (s.framesOf y.slice + y.pages.length ≤ s.limit y.slice .frames) → (s.allocPages (y.pages.map fun e => (x.field 48 4, e.1 / 1024, e.1 % 1024)) = some (frames, s')) → ((s'.copyFrames (x.field 48 4) y.slice l.frameBytes false ((y.pages.map Prod.snd).zip frames)).1 = 0) → 
    Does (.sequenceUnpark d) s fun t =>
      (t.seq? (x.field 48 4)).map (fun z => z.state) = some .active ∧ t.serve.frames = s'.serve.frames ∧ t.serve.cold = (y.pages.map Prod.snd).foldl (fun c a => Tab.erase c a) s.serve.cold) ∧
  (∀ s : State, ∀ (addr n : Nat) (f : Frame), s.Inv = true → (Tab.find? s.serve.frames addr = some f) → (f.zeroing = true) → (n = f.bytes) → (s.noneWaits = true) → 
    Does (.frameZeroingDone addr) s fun t =>
      t.serve.frames = Tab.erase s.serve.frames addr ∧ (t.mem.all fun e => decide (e.1 < addr) || decide (addr + n ≤ e.1)) = true ∧ MemKeptBut s t addr n ∧ RegsKept s t [])

/-- An accepted last bind keeps a copy of the record and of the layer table; unbind frees the slot that nothing refers to; arena
bind cuts an active plain region of slice 0 into frames of the last's size, and release undoes it. Feed open binds the feed;
close frees it once no batch of it runs. A doorbell of a port that is not usable or decodes no doorbells is logged and recorded;
one from another port changes nothing but the count of dropped doorbells. A doorbell that comes while a batch of the other
buffer runs waits. Ops 8 to 13 of another slice change nothing of the serving state. -/
def Obligations.LastAndFeedCommands : Prop :=
  (∀ s : State, ∀ (d k : Nat) (x : Desc) (r tab : List Byte), s.Inv = true → (s.acts d x 1 8 = true) → (x.slice = 0) → (x.field 56 8 % 64 = 0) → (s.owned 0 (x.field 56 8) 128 = true) → (s.memRead 0x0F 0xFF 6 0 (x.field 56 8) 128 = (.bytes r, s)) → (lastOk ⟨r, []⟩ = true) → (s.owned 0 (fieldLE r 40 8) (fieldLE r 0 2 * 32) = true) → (s.memRead 0x0F 0xFF 6 0 (fieldLE r 40 8) (fieldLE r 0 2 * 32) = (.bytes tab, s)) → ((chunks 32 (fieldLE r 0 2) tab).all layerOk = true) → ((LastRec.ranges ⟨r, chunks 32 (fieldLE r 0 2) tab⟩).all (fun e => s.owned 0 e.1 e.2) = true) → (k = x.field 42 2) → (s.last? k = none) → (s.replicates 3 0 = false) → (s.noneWaits = true) → 
    Does (.lastBind d) s fun t =>
      t.serve = { s.serve with lasts := Tab.insert s.serve.lasts k ⟨r, chunks 32 (fieldLE r 0 2) tab⟩ } ∧ MemKeptButRing s t x.cq) ∧
  (∀ s : State, ∀ (d k : Nat) (x : Desc), s.Inv = true → (s.acts d x 1 9 = true) → (x.slice = 0) → (k = x.field 42 2) → ((s.last? k).isSome = true) → ((s.serve.seqs.any fun e => e.2.last == k) = false) → ((s.serve.feeds.any fun e => e.2.last == k) = false) → ((s.serve.arenas.any fun e => e.2.last == k) = false) → (s.replicates 3 0 = false) → (s.noneWaits = true) → 
    Does (.lastUnbind d) s fun t =>
      t.serve = { s.serve with lasts := Tab.erase s.serve.lasts k } ∧ MemKeptButRing s t x.cq) ∧
  (∀ s : State, ∀ (d k i : Nat) (x : Desc) (l : LastRec) (r : Region), s.Inv = true → (s.acts d x 1 10 = true) → (x.slice = 0) → (k = x.field 42 2) → (s.last? k = some l) → (List.find? (fun (e : Nat × Region) => e.2.base == x.field 56 8) s.regions = some (i, r)) → (r.tier = 0) → (r.owner = 0) → (r.state = 1) → (Tab.find? s.serve.arenas (x.field 56 8) = none) → (s.arenaFrames + r.size / l.frameBytes ≤ 4194304) → (s.replicates 3 0 = false) → (s.noneWaits = true) → 
    Does (.arenaBind d) s fun t =>
      t.serve = { s.serve with arenas := Tab.insert s.serve.arenas (x.field 56 8) ⟨k, r.size, l.frameBytes⟩ } ∧ MemKeptButRing s t x.cq) ∧
  (∀ s : State, ∀ (d : Nat) (x : Desc) (r : Arena), s.Inv = true → (s.acts d x 1 13 = true) → (x.slice = 0) → (Tab.find? s.serve.arenas (x.field 56 8) = some r) → ((s.serve.frames.any fun e => !e.2.zeroing && decide (x.field 56 8 ≤ e.1) && decide (e.1 < x.field 56 8 + r.size)) = false) → (s.replicates 3 0 = false) → (s.noneWaits = true) → 
    Does (.arenaRelease d) s fun t =>
      t.serve = { s.serve with arenas := Tab.erase s.serve.arenas (x.field 56 8) } ∧ MemKeptButRing s t x.cq) ∧
  (∀ s : State, ∀ (d : Nat) (x : Desc) (l : LastRec) (n : Nat), s.Inv = true → (s.acts d x 1 11 = true) → (x.slice = 0) → (s.last? (x.field 42 2) = some l) → (n = 64 + alignUp (4 * x.field 46 2) 64 + alignUp (x.field 46 2 * l.qRow) 64 + x.field 46 2 * l.kvRow) → (s.bufferCode (x.field 52 4) (x.field 56 8) n = 0) → (s.bufferCode (x.field 52 4) (x.field 64 8) n = 0) → (s.getF (R.dpStatus (x.field 41 1)) F.dpStatus_owner = x.field 52 4) → (l.permits (x.field 52 4) = true) → (s.feed? (x.field 48 4) = none) → (s.noneWaits = true) → 
    Does (.feedOpen d) s fun t =>
      t.serve = { s.serve with feeds := Tab.insert s.serve.feeds (x.field 48 4) ⟨x.field 52 4, x.field 41 1, x.field 42 2, x.field 46 2, x.field 56 8, x.field 64 8, x.field 72 8, x.field 80 8, x.field 88 4, 0, 1, none, false, none⟩ } ∧ MemKeptButRing s t x.cq) ∧
  (∀ s : State, ∀ (d : Nat) (x : Desc) (y : FeedBind), s.Inv = true → (s.acts d x 1 12 = true) → (x.slice = 0) → (s.feed? (x.field 48 4) = some y) → (y.closing = none) → (y.waiting = none) → (s.feedBusy (x.field 48 4) = false) → (s.noneWaits = true) → 
    Does (.feedClose d) s fun t =>
      t.serve.feeds = Tab.erase (Tab.insert s.serve.feeds (x.field 48 4) { y with closing := some d }) (x.field 48 4) ∧ t.serve.batches = s.serve.batches ∧ MemKeptButRing s t x.cq) ∧
  (∀ s : State, ∀ (port f v : Nat) (y : FeedBind), s.Inv = true → (s.portUsable port = true) → (port < 8) → (s.getF (R.dpDbBase port) F.dpDbBase_enable = 1) → (s.feed? f = some y) → (y.port ≠ port) → 
    Does (.feedDoorbell port f v) s fun t =>
      t.serve = s.serve ∧ t.tallyOf 5 1 y.slice = s.tallyOf 5 1 y.slice + 1 ∧ Kept s t [] [tallyKey 5 1 y.slice]) ∧
  (∀ s : State, ∀ (port f v : Nat), s.Inv = true → (port < 8) → (s.portUsable port = false ∨ s.getF (R.dpDbBase port) F.dpDbBase_enable = 0) → 
    Does (.feedDoorbell port f v) s fun t =>
      t.serve = s.serve ∧ t.reg (R.dpViolLog port) = BitVec.ofNat 64 (s.getF (R.dpDbBase port) F.dpDbBase_base * 4096 + f * 64) ∧ MemKept s t) ∧
  (∀ s : State, ∀ (port f v n : Nat) (y : FeedBind) (b : Batch), s.Inv = true → (s.portUsable port = true) → (port < 8) → (s.getF (R.dpDbBase port) F.dpDbBase_enable = 1) → (s.feed? f = some y) → (y.port = port) → (y.error = false) → (y.closing = none) → (y.waiting = none) → (s.serve.batches = [(n, b)]) → (b.feed = some (f, 1 - v % 2, 9)) → 
    Does (.feedDoorbell port f v) s fun t =>
      t.serve.feeds = Tab.insert s.serve.feeds f { y with waiting := some (v % 2, natBits v 31 16) } ∧ t.serve.batches = s.serve.batches ∧ Kept s t [] []) ∧
  (∀ s : State, ∀ (port f v : Nat) (y : FeedBind), s.Inv = true → (s.portUsable port = true) → (port < 8) → (s.getF (R.dpDbBase port) F.dpDbBase_enable = 1) → (s.feed? f = some y) → (y.port = port) → (y.error = false) → (y.closing = none) → (y.waiting = none) → (s.serve.batches = []) → ((s.intakeFeed f (v % 2) (natBits v 31 16)).serve.batches.isEmpty = false) → 
    Does (.feedDoorbell port f v) s fun t =>
      (t.batch? s.serve.next).map (fun b => b.feed) = some (some (f, v % 2, natBits v 31 16))) ∧
  (∀ s : State, ∀ (d : Nat) (x : Desc), s.Inv = true → (s.acts d x 1 8 = true) → (x.slice ≠ 0) → (s.noneWaits = true) → 
    Does (.lastBind d) s fun t =>
      t.serve = s.serve ∧ MemKeptButRing s t x.cq)

/-- A batch that passes every check runs with its entries once no earlier batch holds its sequences, else it waits. The maxima of a
part's tokens join the batch once; the sums of a part join it once all maxima are in; and when the last part has merged, the
output row of the entry, the FP32 or BF16 quotient of its sums, stands at the output address and no other byte of memory has
changed (the record going to a host ring). -/
def Obligations.AttendBatches : Prop :=
  (∀ s : State, ∀ (d : Nat) (x : Desc) (l : List Byte) (b : Batch) (s' : State), s.Inv = true → (s.acts d x 1 0 = true) → (s.memRead 0x0F 0xFF 6 x.slice (x.field 56 8) (4 * x.field 46 2) = (.bytes l, s)) → ((elems 4 (x.field 46 2) l).any (fun v => natBits v 30 12 != 0) = false) → (b = { Batch.fresh with desc := some d, slice := x.slice, last := x.field 42 2, layer := x.field 44 2, entries := (elems 4 (x.field 46 2) l).map batchEntry, q := x.field 64 8, kv := x.field 72 8, out := x.field 80 8 }) → (s.batchWaits s.serve.next b = false) → (s' = { s.setDesc d { x with performed := true } with serve := { s.serve with next := s.serve.next + 1 } }) → (s'.batchRuns b = true) → 
    Does (.attendBatch d) s fun t =>
      (t.batch? s.serve.next).map (fun c => (c.started, c.entries, c.desc)) = some (true, b.entries, some d) ∧ t.serve.next = s.serve.next + 1) ∧
  (∀ s : State, ∀ (n : Nat) (b : Batch), s.Inv = true → (s.batch? n = some b) → (b.started = false) → (b.feed = none) → (s.batchWaits n b = false) → (s.batchRuns b = true) → 
    Does (.attendBatchStart n) s fun t =>
      (t.batch? n).map (fun c => (c.started, c.entries)) = some (true, b.entries)) ∧
  (∀ s : State, ∀ (n m : Nat) (b c : Batch), s.Inv = true → (s.batch? n = some b) → (s.serve.batches = [(m, c), (n, b)]) → (m < n) → (c.entries.any (fun e => b.entries.any fun y => e.1 == y.1) = true) → 
    Does (.attendBatchStart n) s fun t =>
      t = s) ∧
  (∀ s : State, ∀ (n stack : Nat) (b : Batch) (l : LastRec) (rows : List RowAcc) (u : State), s.Inv = true → (s.batch? n = some b) → (s.last? b.last = some l) → (b.started = true) → (b.failed = []) → (s.partOpenOn stack b.slice false = true) → (b.parts.contains stack = true) → (b.maxDone.contains stack = false) → (u = s.benchesOn stack b (s.partBenches stack false)) → ((u.partPhase b l stack (phaseOne l) 0 (b.entries.zip (b.counts.zip b.rows))).1.toOption = some rows) → ((u.partPhase b l stack (phaseOne l) 0 (b.entries.zip (b.counts.zip b.rows))).2 = u) → 
    Does (.maximaExchange n stack) s fun t =>
      t.batch? n = some { b with rows := rows, maxDone := stack :: b.maxDone } ∧ Kept s t (R.stackStatus stack :: (s.partBenches stack false).map fun y => R.benchStatus stack y) [tallyKey 0x0E 4 stack]) ∧
  (∀ s : State, ∀ (n stack : Nat) (b : Batch) (l : LastRec) (rows : List RowAcc) (u : State), s.Inv = true → (s.batch? n = some b) → (s.last? b.last = some l) → (b.started = true) → (b.failed = []) → (b.parts.contains stack = true) → (b.maxDone.contains stack = true) → (b.merged.contains stack = false) → (b.exchanged stack = true) → (s.partOpenOn stack b.slice true = true) → (u = s.benchesOn stack b (s.partBenches stack true)) → ((u.partPhase b l stack (phaseTwo l) 0 (b.entries.zip (b.counts.zip b.rows))).1.toOption = some rows) → ((u.partPhase b l stack (phaseTwo l) 0 (b.entries.zip (b.counts.zip b.rows))).2 = u) → (b.parts.all (stack :: b.merged).contains = false) → 
    Does (.partialMerge n stack) s fun t =>
      t.batch? n = some { b with rows := rows, merged := stack :: b.merged } ∧ Kept s t (R.stackStatus stack :: (s.partBenches stack true).map fun y => R.benchStatus stack y) [tallyKey 0x0E 4 stack]) ∧
  (∀ s : State, ∀ (n stack d : Nat) (x : Desc) (b : Batch) (l : LastRec) (acc : RowAcc) (u : State), s.Inv = true → (s.batch? n = some b) → (s.last? b.last = some l) → (b.started = true) → (b.parts = [stack]) → (b.maxDone = [stack]) → (b.merged = []) → (b.failed = []) → (s.partOpenOn stack b.slice true = true) → (u = s.benchesOn stack b (s.partBenches stack true)) → (b.desc = some d) → (b.feed = none) → (s.desc? d = some x) → ((u.partPhase b l stack (phaseTwo l) 0 (b.entries.zip (b.counts.zip b.rows))).1.toOption = some [acc]) → ((u.partPhase b l stack (phaseTwo l) 0 (b.entries.zip (b.counts.zip b.rows))).2 = u) → ((u.memWrite 0x0F 0xFF 6 b.slice b.out (outputRow l acc).1).1 = none) → (x.arriveAfter = false) → (s.getF (R.crRing x.cq) F.crRing_space = 1) → (s.noneWaits = true) → 
    Does (.partialMerge n stack) s fun t =>
      t.mem = putCells s.mem b.out (outputRow l acc).1 ∧ t.serve.batches = Tab.erase s.serve.batches n)

/-- Take the tokens of an entry in any order, or part by part: the sums L and N, and which heads give NaN, are the same. With the
maxima exchanged, output bits do not depend on page placement or on the number of stacks. -/
def Obligations.AttendSumsIgnoreOrder : Prop :=
  ∀ (l : LastRec) (acc : RowAcc) (q : List Operand) (rows rows' : List KvRow), rows.Perm rows' →
    phaseTwo l acc q rows = phaseTwo l acc q rows'

/-- With their last permitting the slice, no port named and every list entry in range: a gather of one id leaves the table row at
dst, a stage of the dense weights leaves them at dst, and a sample of one row leaves its token at dst; no other byte of memory
changes (the record going to a host ring). An id out of range leaves memory as it is. -/
def Obligations.GatherCommands : Prop :=
  (∀ s : State, ∀ (d i : Nat) (x : Desc) (l : LastRec) (raw row : List Byte), s.Inv = true → (s.desc? d = some x) → (x.opcode = 2) → (x.field 40 1 = 0) → (s.gate d x = some 0) → (x.field 41 1 = 0xFF) → (s.last? (x.field 42 2) = some l) → (l.permits x.slice = true) → (x.field 48 4 = 1) → (s.memRead 0x0F 0xFF 6 x.slice (x.field 56 8) 4 = (.bytes raw, s)) → (i = leNat raw) → (raw.length = 4) → (l.field 24 8 ≠ 0) → (i < l.field 32 4) → (s.memRead 0x0F 0xFF 6 0 (l.field 24 8 + i * l.field 36 4) (l.field 36 4) = (.bytes row, s)) → ((s.memWrite 0x0F 0xFF 6 x.slice (x.field 64 8) row).1 = none) → (s.getF (R.crRing x.cq) F.crRing_space = 1) → (s.noneWaits = true) → 
    Does (.embeddingGather d) s fun t =>
      t.mem = putCells s.mem (x.field 64 8) row) ∧
  (∀ s : State, ∀ (d : Nat) (x : Desc) (l : LastRec) (raw : List Byte), s.Inv = true → (s.desc? d = some x) → (x.opcode = 2) → (x.field 40 1 = 0) → (s.gate d x = some 0) → (x.field 41 1 = 0xFF) → (s.last? (x.field 42 2) = some l) → (l.permits x.slice = true) → (s.memRead 0x0F 0xFF 6 x.slice (x.field 56 8) (4 * x.field 48 4) = (.bytes raw, s)) → ((elems 4 (x.field 48 4) raw).any (fun i => decide (l.field 32 4 ≤ i)) = true) → (s.getF (R.crRing x.cq) F.crRing_space = 1) → 
    Does (.embeddingGather d) s fun t =>
      t.mem = s.mem) ∧
  (∀ s : State, ∀ (d : Nat) (x : Desc) (l : LastRec) (lay raw row : List Byte), s.Inv = true → (s.desc? d = some x) → (x.opcode = 2) → (x.field 40 1 = 1) → (s.gate d x = some 0) → (x.field 41 1 = 0xFF) → (s.last? (x.field 42 2) = some l) → (l.permits x.slice = true) → (x.field 48 4 = 1) → (l.layers[x.field 44 2]? = some lay) → (s.memRead 0x0F 0xFF 6 x.slice (x.field 56 8) 2 = (.bytes raw, s)) → (raw = [0xFF, 0xFF]) → (s.memRead 0x0F 0xFF 6 0 (fieldLE lay 16 8 + 16 * 0xFFFF) 0 = (.bytes [], s)) → (fieldLE lay 8 8 % 64 = 0) → (fieldLE lay 8 8 ≤ x.field 72 8) → (s.memRead 0x0F 0xFF 6 0 (fieldLE lay 0 8) (fieldLE lay 8 8) = (.bytes row, s)) → ((s.memWrite 0x0F 0xFF 6 x.slice (x.field 64 8) row).1 = none) → (s.getF (R.crRing x.cq) F.crRing_space = 1) → (s.noneWaits = true) → 
    Does (.stage d) s fun t =>
      t.mem = putCells s.mem (x.field 64 8) row) ∧
  (∀ s : State, ∀ (d : Nat) (x : Desc) (l : LastRec) (raw : List Byte), s.Inv = true → (s.desc? d = some x) → (x.opcode = 2) → (x.field 40 1 = 2) → (s.gate d x = some 0) → (x.field 41 1 = 0xFF) → (s.last? (x.field 42 2) = some l) → (l.permits x.slice = true) → (x.field 48 4 = 1) → (x.field 84 1 = 0) → (s.memRead 0x0F 0xFF 6 x.slice (x.field 56 8) (x.field 52 4 * 4) = (.bytes raw, s)) → (raw.length = x.field 52 4 * 4) → ((s.memWrite 0x0F 0xFF 6 x.slice (x.field 64 8) (bytesLE 4 (sampleRow (x.field 80 4) (x.field 46 2) (x.field 52 4) 0 x.key (elems 4 (x.field 52 4) raw)).1)).1 = none) → (s.getF (R.crRing x.cq) F.crRing_space = 1) → (s.noneWaits = true) → 
    Does (.sample d) s fun t =>
      t.mem = putCells s.mem (x.field 64 8) (bytesLE 4 (sampleRow (x.field 80 4) (x.field 46 2) (x.field 52 4) 0 x.key (elems 4 (x.field 52 4) raw)).1))

/-- An accepted open keeps a copy of the record with nothing arrived; close frees the slot; load replaces the record, with a
manifest by the record that R233 gives, nothing arrived (log entry 232); store writes the record and nothing else; advance adds
1 to step and B to the index modulo N, adds the wraps to the epoch, and clears the bitmap and job_error. -/
def Obligations.JobCommands : Prop :=
  (∀ s : State, ∀ (d j : Nat) (x : Desc) (r : List Byte), s.Inv = true → (s.acts d x 4 8 = true) → (j = x.field 42 2) → (j < 16) → (s.job? j = none) → (x.field 64 8 % 64 = 0) → (s.memRead 0x10 j 0 x.slice (x.field 64 8) 128 = (.bytes r, s)) → (jobRecordOk r = true) → (s.jobOwned x.slice ⟨x.slice, r, [], false⟩ = true) → (s.replicates 2 x.slice = false) → (s.noneWaits = true) → 
    Does (.jobOpen d) s fun t =>
      t.train = { s.train with jobs := Tab.insert s.train.jobs j ⟨x.slice, r, [], false⟩ } ∧ t.getF (R.intakeStatus j) F.intakeStatus_arrived = 0 ∧ MemKeptButRing s t x.cq) ∧
  (∀ s : State, ∀ (d j : Nat) (x : Desc), s.Inv = true → (s.acts d x 4 8 = true) → (j = x.field 42 2) → ((s.job? j).isSome = true) → (s.noneWaits = true) → 
    Does (.jobOpen d) s fun t =>
      t.train = s.train ∧ MemKeptButRing s t x.cq) ∧
  (∀ s : State, ∀ (d j : Nat) (x : Desc) (y : Job), s.Inv = true → (s.acts d x 4 9 = true) → (j = x.field 42 2) → (s.job? j = some y) → (y.slice = x.slice) → (s.jobBusy d j = false) → (s.replicates 2 x.slice = false) → (s.noneWaits = true) → 
    Does (.jobClose d) s fun t =>
      t.train = { s.train with jobs := Tab.erase s.train.jobs j, commits := Tab.erase s.train.commits j } ∧ MemKeptButRing s t x.cq) ∧
  (∀ s : State, ∀ (d j : Nat) (x : Desc) (y : Job) (r : List Byte), s.Inv = true → (s.acts d x 4 10 = true) → (j = x.field 42 2) → (s.job? j = some y) → (y.slice = x.slice) → (s.jobBusy d j = false) → (x.field 64 8 % 64 = 0) → (s.memRead 0x10 j 0 x.slice (x.field 64 8) 128 = (.bytes r, s)) → (x.field 72 8 = 0) → (jobRecordOk r = true) → (s.jobOwned x.slice { y with raw := r, bits := [], error := false } = true) → (s.noneWaits = true) → 
    Does (.jobLoad d) s fun t =>
      t.train = { s.train with jobs := Tab.insert s.train.jobs j { y with raw := r, bits := [], error := false } } ∧ MemKeptButRing s t x.cq) ∧
  (∀ s : State, ∀ (d j : Nat) (x : Desc) (y : Job) (r m : List Byte), s.Inv = true → (s.acts d x 4 10 = true) → (j = x.field 42 2) → (s.job? j = some y) → (y.slice = x.slice) → (s.jobBusy d j = false) → (x.field 64 8 % 64 = 0) → (s.memRead 0x10 j 0 x.slice (x.field 64 8) 128 = (.bytes r, s)) → (x.field 72 8 ≠ 0) → (s.memRead 0x10 j 0 x.slice (x.field 72 8) 128 = (.bytes m, s)) → (loadMatches r m = true) → (jobRecordOk (loadRecord r m) = true) → (s.jobOwned x.slice { y with raw := loadRecord r m, bits := [], error := false } = true) → (s.noneWaits = true) → 
    Does (.jobLoad d) s fun t =>
      t.train = { s.train with jobs := Tab.insert s.train.jobs j { y with raw := loadRecord r m, bits := [], error := false } } ∧ MemKeptButRing s t x.cq) ∧
  (∀ s : State, ∀ (d j : Nat) (x : Desc) (y : Job), s.Inv = true → (s.acts d x 4 11 = true) → (j = x.field 42 2) → (s.job? j = some y) → (y.slice = x.slice) → ((s.memWrite 0x10 j 0 x.slice (x.field 64 8) y.raw).1 = none) → (s.getF (R.crRing x.cq) F.crRing_space = 1) → (s.noneWaits = true) → 
    Does (.jobStore d) s fun t =>
      t.mem = putCells s.mem (x.field 64 8) y.raw ∧ t.train = s.train) ∧
  (∀ s : State, ∀ (d j : Nat) (x : Desc) (y : Job), s.Inv = true → (s.acts d x 4 12 = true) → (j = x.field 42 2) → (s.job? j = some y) → (y.slice = x.slice) → (s.jobRuns d j (fun oc op => oc == 0x04 && [0, 3, 4, 5].contains op) = false) → (s.ckpt? j = none) → (y.raw.length = 128) → (0 < y.field 56 8) → (s.noneWaits = true) → 
    Does (.advance d) s fun t =>
      (t.job? j).map (fun z => (z.step, z.field 40 8, z.field 32 4, z.bits.length, z.error)) = some ((y.step + 1) % 2 ^ 64, (y.field 40 8 + y.field 48 4) % y.field 56 8, (y.field 32 4 + (y.field 40 8 + y.field 48 4) / y.field 56 8) % 2 ^ 32, 0, false) ∧ MemKeptButRing s t x.cq)

/-- For one element with a readable parameter block whose values are finite, an AdamW step without low format writes its journal,
then leaves the element's new w, m1 and m2 by R211 and R213 at their addresses, and no other byte changes; a re-run that finds
its chunks done in the journal changes no byte. Sqnorm leaves one record, the exact binned sum of the squares anchored at D + 1. -/
def Obligations.OptimizerCommands : Prop :=
  (∀ s : State, ∀ (d : Nat) (x : Desc) (y : Job) (p : SubPart) (s1 : State) (blk bw b1 bg b2 : List Byte) (r : Nat × Nat × Nat), s.Inv = true → (s.desc? d = some x) → (x.opcode = 4) → (x.field 40 1 = 0) → (x.subs = [p]) → (p.acts = true) → (s.job? (x.field 42 2) = some y) → (y.slice = x.slice) → (s.journalOf d p = (0, false)) → (x.field 44 4 = 1) → (x.field 41 1 = 0) → (x.field 48 1 = 0) → (x.field 49 1 = 0xFF) → (s.refusals 0x0E 0 x.slice (stepRanges x 0 1) = ([], s)) → (s.readRanges x.slice [(x.field 112 8, 64), (x.field 64 8, 4), (x.field 72 8, 4), (x.field 88 8, 4), (x.field 80 8, 4)] = ([blk, bw, b1, bg, b2], [], s)) → (((below 9).all fun i => f32Finite (fieldLE blk (4 * i) 4)) = true) → (fieldLE blk 36 28 = 0) → (r = (stepChecked 0 (stepParams blk) (leNat bw) (leNat b1) (leNat b2) (leNat bg)).1) → (bw.length = 4) → (b1.length = 4) → (b2.length = 4) → (bg.length = 4) → (s1 = s.journalOpen d p 0 [blk, bw, b1, bg, b2]) → ((s1.writeRanges x.slice [(x.field 64 8, bytesLE 4 r.1), (x.field 72 8, bytesLE 4 r.2.1), (x.field 80 8, bytesLE 4 r.2.2)]).1 = []) → (s.noneWaits = true) → 
    Does (.step d) s fun t =>
      t.mem = putCells (putCells (putCells s1.mem (x.field 64 8) (bytesLE 4 r.1)) (x.field 72 8) (bytesLE 4 r.2.1)) (x.field 80 8) (bytesLE 4 r.2.2) ∧ (t.desc? d).map (fun z => z.subs.map fun q => (q.did, q.code)) = some [(true, 0)] ∧ t.journalOf d p = (1, false)) ∧
  (∀ s : State, ∀ (d : Nat) (x : Desc) (y : Job) (p : SubPart), s.Inv = true → (s.desc? d = some x) → (x.opcode = 4) → (x.field 40 1 = 0) → (x.subs = [p]) → (p.acts = true) → (s.job? (x.field 42 2) = some y) → (y.slice = x.slice) → (x.field 44 4 ≤ (s.journalOf d p).1 * 4096) → (s.refusals 0x0E 0 x.slice (stepRanges x 0 (x.field 44 4) ++ (stepDests x 0 (x.field 44 4)).drop (if x.field 41 1 = 0 then 3 else 2)) = ([], s)) → 
    Does (.step d) s fun t =>
      t.desc? d = some { x with subs := [{ p with did := true }] } ∧ Kept s t [] []) ∧
  (∀ s : State, ∀ (d : Nat) (x : Desc) (y : Job) (p : SubPart) (l : List Byte), s.Inv = true → (s.desc? d = some x) → (x.opcode = 4) → (x.field 40 1 = 1) → (x.subs = [p]) → (p.acts = true) → (s.job? (x.field 42 2) = some y) → (y.slice = x.slice) → (x.field 48 1 = 0) → (s.readRanges x.slice [(x.field 64 8, x.field 44 4 * 4)] = ([l], [], s)) → ((s.writeRanges x.slice [(x.field 72 8, ((elems 4 (x.field 44 4) l).foldl (fun b g => b.addTerm ((fp32.decode g).mul (fp32.decode g))) (binsAt (signed 16 (x.field 50 2) + 1))).record)]).1 = []) → (l.length = x.field 44 4 * 4) → (s.noneWaits = true) → 
    Does (.sqnorm d) s fun t =>
      t.mem = putCells s.mem (x.field 72 8) ((elems 4 (x.field 44 4) l).foldl (fun b g => b.addTerm ((fp32.decode g).mul (fp32.decode g))) (binsAt (signed 16 (x.field 50 2) + 1))).record ∧ (t.desc? d).map (fun z => z.subs.map fun q => (q.did, q.code)) = some [(true, 0)])

/-- Push sends the bytes to the same bus address on every named port; scatter leaves its own rank's shard in its slot and sets its
bit of the bitmap; feed of one record leaves the entry and the record at the destination. An arrival sets its bit, a wrong step
parity sets job_error, an arrival for a slot that is not open is dropped and counted. A wait ends with its record when every bit
is set, or at its time limit; until then it waits. -/
def Obligations.IntakeAndDeliveryCommands : Prop :=
  (∀ s : State, ∀ (d : Nat) (x : Desc) (y : Job) (l : List Byte), s.Inv = true → (s.acts d x 4 2 = true) → (s.job? (x.field 42 2) = some y) → (y.slice = x.slice) → (((maskList 8 (x.field 52 1)).all fun p => s.getF (R.dpStatus p) F.dpStatus_owner == x.slice && s.portUsable p) = true) → (s.memRead 0x10 (x.field 42 2) 0 x.slice (x.field 64 8) (x.field 44 4) = (.bytes l, s)) → (s.noneWaits = true) → 
    Does (.push d) s fun t =>
      ((maskList 8 (x.field 52 1)).all fun p => (piecesAt 512 (l.length / 512 + 2) (x.field 72 8) l.length).all fun e => t.out.contains (.portWrite p e.1 ((l.drop (e.1 - x.field 72 8)).take e.2))) = true ∧ MemKeptButRing s t x.cq) ∧
  (∀ s : State, ∀ (d j k : Nat) (x : Desc) (y : Job) (g ps : List Byte), s.Inv = true → (s.acts d x 4 3 = true) → (j = x.field 42 2) → (j < 16) → (k = x.field 44 4) → (k < 2 ^ 16) → (s.bench.descs = [(d, x)]) → (s.job? j = some y) → (y.slice = x.slice) → (k < y.micro) → (y.world = 1) → (y.rank = 0) → (Tab.find? y.bits k = none) → (s.memRead 0x10 j 0 x.slice (x.field 64 8) (y.field 64 8 * y.gradBytes) = (.bytes g, s)) → (s.memRead 0x10 j 0 x.slice (y.field 112 8) 16 = (.bytes ps, s)) → (g.length = y.field 64 8 * y.gradBytes) → (y.field 64 8 ≤ y.shardElems) → ((s.memWrite 0x10 j 0 x.slice (y.field 96 8 + k * y.slotBytes) g).1 = none) → (s.getF (R.crRing x.cq) F.crRing_space = 1) → (s.noneWaits = true) → 
    Does (.scatter d) s fun t =>
      t.mem = putCells s.mem (y.field 96 8 + k * y.slotBytes) g ∧ t.train = { s.train with jobs := Tab.insert s.train.jobs j { y with bits := Tab.insert y.bits k () } }) ∧
  (∀ s : State, ∀ (d j k r n : Nat) (x : Desc) (y : Job) (e l tab : List Byte), s.Inv = true → (s.acts d x 4 4 = true) → (j = x.field 42 2) → (k = x.field 44 4) → (s.job? j = some y) → (y.slice = x.slice) → (k < y.micro) → (x.field 52 1 = 0xFF) → (y.records k = [r]) → (s.readRanges x.slice [(x.field 72 8 + 16 * r, 16)] = ([e], [], s)) → (n = fieldLE e 8 4) → (0 < n) → (n ≤ 2 ^ 24) → (fieldLE e 12 4 = 0) → (fieldLE e 0 8 + n ≤ s.nsBytes (y.field 120 4)) → (64 + n ≤ x.field 120 4) → (l.length = n) → (tab = bytesLE 8 r ++ bytesLE 4 n ++ bytesLE 4 64) → ((s.portOrMem j x.slice 0xFF [(x.field 64 8, tab), (x.field 64 8 + 64, l)]).1 = 0) → (s.getF (R.crRing x.cq) F.crRing_space = 1) → (s.noneWaits = true) → 
    Does (.feed d [.bytes l]) s fun t =>
      t.mem = putCells (putCells s.mem (x.field 64 8) tab) (x.field 64 8 + 64) l) ∧
  (∀ s : State, ∀ (d : Nat) (x : Desc) (y : Job), s.Inv = true → (s.acts d x 4 5 = true) → (s.job? (x.field 42 2) = some y) → (y.slice = x.slice) → (y.error = false) → (y.bits.length ≠ y.micro) → 
    Does (.intakeWait d) s fun t =>
      t.desc? d = some { x with performed := true } ∧ Kept s t [] []) ∧
  (∀ s : State, ∀ (d st : Nat) (x : Desc) (y : Job), s.Inv = true → (s.acts d x 4 5 = true) → (st < 12) → (s.bench.descs = [(d, x)]) → (s.job? (x.field 42 2) = some y) → (y.slice = x.slice) → (y.error = true ∨ y.bits.length = y.micro) → (s.noneWaits = true) → 
    Does (.intakeWait d) s fun t =>
      t.bench.descs = [] ∧ t.tallyOf 0x0E 0 st = s.tallyOf 0x0E 0 st + (if natBit x.stackMask st then 1 else 0) ∧ t.train = s.train ∧ MemKeptButRing s t x.cq) ∧
  (∀ s : State, ∀ (d st : Nat) (x : Desc), s.Inv = true → (s.desc? d = some x) → (st < 12) → (x.opcode = 4) → (x.field 40 1 = 5) → (x.performed = true) → (x.arriveAfter = false) → (s.noneWaits = true) → 
    Does (.intakeWaitTimeout d) s fun t =>
      t.bench.descs = Tab.erase s.bench.descs d ∧ t.tallyOf 0x0E 0 st = s.tallyOf 0x0E 0 st + (if natBit x.stackMask st then 1 else 0) ∧ t.train = s.train ∧ MemKeptButRing s t x.cq) ∧
  (∀ s : State, ∀ (sl imm j k : Nat) (q : List (Nat × Nat)) (y : Job), s.Inv = true → (s.train.handed = (sl, imm) :: q) → (j = natBits imm 19 16) → (k = natBits imm 15 0) → (s.job? j = some y) → (y.slice = sl) → (k < y.micro) → (natBits imm 31 31 = y.step % 2) → (Tab.find? y.bits k = none) → 
    Does (.intakeArrival) s fun t =>
      t.train = { s.train with handed := q, jobs := Tab.insert s.train.jobs j { y with bits := Tab.insert y.bits k () } } ∧ t.getF (R.intakeStatus j) F.intakeStatus_arrived = (Tab.insert y.bits k ()).length % 2 ^ 17) ∧
  (∀ s : State, ∀ (sl imm j k : Nat) (q : List (Nat × Nat)) (y : Job), s.Inv = true → (s.train.handed = (sl, imm) :: q) → (j = natBits imm 19 16) → (k = natBits imm 15 0) → (s.job? j = some y) → (y.slice = sl) → (k < y.micro) → (natBits imm 31 31 ≠ y.step % 2) → 
    Does (.intakeArrival) s fun t =>
      t.train = { s.train with handed := q, jobs := Tab.insert s.train.jobs j { y with error := true } } ∧ t.getF (R.intakeStatus j) F.intakeStatus_job_error = 1) ∧
  (∀ s : State, ∀ (sl imm j : Nat) (q : List (Nat × Nat)), s.Inv = true → (s.train.handed = (sl, imm) :: q) → (j = natBits imm 19 16) → (s.job? j = none) → 
    Does (.intakeArrival) s fun t =>
      t.train = { s.train with handed := q } ∧ t.tallyOf 0x10 0 j = s.tallyOf 0x10 0 j + 1 ∧ Kept s t [] [tallyKey 0x10 0 j])

/-- An accepted checkpoint copies the job record and begins an epoch with no page copied. The next page goes to the pool and counts
as sent; the last one ends the epoch. A write to a page that is not copied waits; a copy that ends stages the page. An abort, a
staging timeout, a failure from a rank, a lost limit or an outcome that is a failure ends the checkpoint with the jobs as they
were; a compare-and-swap that finds the commit word of N sets the job's generation to N + 1. -/
def Obligations.CheckpointCommands : Prop :=
  (∀ s : State, ∀ (d j n : Nat) (x : Desc) (y : Job) (l : List Byte), s.Inv = true → (s.acts d x 5 1 = true) → (j = x.field 42 2) → (n = x.field 44 4) → (s.job? j = some y) → (y.slice = x.slice) → (s.snap = none) → (s.ckpt? j = none) → (s.bench.descs = [(d, x)]) → (Tab.find? s.train.commits j = none) → (0 < y.world) → (s.memRead 0x10 j 0 x.slice (x.field 56 8) (32 * n) = (.bytes l, s)) → ((chunks 32 n l).all (s.shardOk (y.field 88 8)) = true) → (((chunks 32 n l).map shardOf).all (fun h => s.owned x.slice h.addr h.bytes) = true) → (s.ckptEngine = true) → (s.stagingSize ≠ 0) → (y.gen ≠ 0xFFFFFFFF) → 
    Does (.checkpoint d) s fun t =>
      t.snap = some ⟨j, x.slice, (chunks 32 n l).map shardOf, [], [], [], 0, 0, [], []⟩ ∧ (t.ckpt? j).map (fun c => (c.desc, c.raw, c.gen)) = some (d, y.raw, y.gen) ∧ t.getF R.snapStatus F.snapStatus_active = 1 ∧ Kept s t [R.snapStatus, R.snapPages] []) ∧
  (∀ s : State, ∀ (i : Nat) (p : Snap) (c : Ckpt) (l : List Byte), s.Inv = true → (s.snap = some p) → (s.ckpt? p.job = some c) → (p.nextPage s.stagingPages (fun i => (Tab.find? p.sent i).isSome) = some i) → (Tab.find? p.staged i = some l) → (p.sentCount + 1 ≠ p.shards.foldl (fun t h => t + h.pages) 0) → 
    Does (.snapshotPageSent) s fun t =>
      t.snap.map (fun q => (Tab.find? q.sent i, q.sentCount)) = some (some l, p.sentCount + 1) ∧ t.out.contains (.poolWrite (c.field 104 4) (c.areaAt (c.gen + 1) + ((p.shards.getD (shardIndex i 0 0 p.shards).1 ⟨0, 0, 0, 0, 0⟩).poolOff + (i - (shardIndex i 0 0 p.shards).2) * 65536)) l) = true) ∧
  (∀ s : State, ∀ (i : Nat) (p : Snap) (c : Ckpt) (l : List Byte), s.Inv = true → (s.snap = some p) → (s.ckpt? p.job = some c) → (p.nextPage s.stagingPages (fun i => (Tab.find? p.sent i).isSome) = some i) → (Tab.find? p.staged i = some l) → (p.sentCount + 1 = p.shards.foldl (fun t h => t + h.pages) 0) → (c.field 76 2 ≠ c.field 38 2) → 
    Does (.snapshotPageSent) s fun t =>
      t.snap = none ∧ (t.ckpt? p.job).map (fun c => c.entries.length) = some p.shards.length ∧ t.getF R.snapStatus F.snapStatus_active = 0) ∧
  (∀ s : State, ∀ (source slice addr : Nat) (data : List Byte) (p : Snap), s.Inv = true → (s.snap = some p) → (p.uncopied addr data.length ≠ []) → (s.accessCode slice addr data.length = none) → (p.copying.length < 4) → (p.waiting = []) → 
    Does (.copyBeforeWrite source slice addr data) s fun t =>
      t.snap.map (fun q => q.waiting) = some [⟨source, slice, addr, data⟩] ∧ MemKept s t) ∧
  (∀ s : State, ∀ (source slice addr : Nat) (data : List Byte), s.Inv = true → (s.snap = none) → ((s.memWrite 0x0D 0xFF source slice addr data).1 = none) → (s.noneWaits = true) → 
    Does (.copyBeforeWrite source slice addr data) s fun t =>
      t.mem = putCells s.mem addr data) ∧
  (∀ s : State, ∀ (i : Nat) (p : Snap) (r : List Nat), s.Inv = true → (s.snap = some p) → (p.copying = i :: r) → (Tab.find? p.copied i = none) → (p.waiting = []) → 
    Does (.stagingCopyDone) s fun t =>
      t.snap.map (fun q => (Tab.find? q.copied i, Tab.find? q.staged i)) = some (some (), some (s.bytesAt (pageAddr i p.shards) 65536)) ∧ MemKept s t) ∧
  (∀ s : State, ∀ (p : Snap) (c : Ckpt), s.Inv = true → (s.snap = some p) → (s.ckpt? p.job = some c) → (s.stagingPages ≤ p.staged.length + p.copying.length) → (p.waiting.any (fun v => (p.uncopied v.addr v.data.length).any fun i => !p.copying.contains i) = true) → 
    Does (.stagingTimeout) s fun t =>
      t.snap = none ∧ t.train.ckpts = Tab.erase s.train.ckpts p.job ∧ t.train.jobs = s.train.jobs) ∧
  (∀ s : State, ∀ (d j : Nat) (x : Desc) (y : Job) (c : Ckpt), s.Inv = true → (s.acts d x 5 2 = true) → (j = x.field 42 2) → (s.job? j = some y) → (y.slice = x.slice) → (s.ckpt? j = some c) → (c.desc ≠ d) → 
    Does (.checkpointAbort d) s fun t =>
      t.train.ckpts = Tab.erase s.train.ckpts j ∧ t.train.jobs = s.train.jobs) ∧
  (∀ s : State, ∀ (job rank : Nat) (es : List (List Byte)) (x : Job), s.Inv = true → (s.job? job = some x) → (x.field 76 2 = x.rank) → (rank < x.world) → (s.ckpt? job = none) → 
    Does (.checkpointEntries job rank 0 es) s fun t =>
      (Tab.find? t.train.commits job).map (fun m => Tab.find? m.got rank) = some (some es) ∧ Kept s t [] []) ∧
  (∀ s : State, ∀ (job rank code : Nat) (es : List (List Byte)) (x : Job) (c : Ckpt), s.Inv = true → (s.job? job = some x) → (x.field 76 2 = x.rank) → (rank < x.world) → (s.ckpt? job = some c) → (c.field 76 2 = c.field 38 2) → ((s.commit job).writing = false) → ((s.commit job).swapping = false) → (code ≠ 0) → 
    Does (.checkpointEntries job rank code es) s fun t =>
      t.train.ckpts = Tab.erase s.train.ckpts job ∧ t.train.jobs = s.train.jobs) ∧
  (∀ s : State, ∀ (job : Nat) (y : Job) (c : Ckpt), s.Inv = true → (s.ckpt? job = some c) → ((s.commit job).swapping = true) → (s.job? job = some y) → (s.replicates 2 y.slice = false) → 
    Does (.commitCasReply job (.old (c.field 0 4 * 2 ^ 32 + c.gen % 2 ^ 32))) s fun t =>
      t.train.ckpts = Tab.erase s.train.ckpts job ∧ t.train.jobs = Tab.insert s.train.jobs job (y.setGen (c.gen + 1))) ∧
  (∀ s : State, ∀ (job v : Nat) (c : Ckpt), s.Inv = true → (s.ckpt? job = some c) → ((s.commit job).swapping = true) → (v ≠ c.field 0 4 * 2 ^ 32 + c.gen % 2 ^ 32) → 
    Does (.commitCasReply job (.old v)) s fun t =>
      t.train.ckpts = Tab.erase s.train.ckpts job ∧ t.train.jobs = s.train.jobs) ∧
  (∀ s : State, ∀ (job : Nat) (y : Job) (c : Ckpt), s.Inv = true → (s.ckpt? job = some c) → (s.job? job = some y) → (s.replicates 2 y.slice = false) → 
    Does (.checkpointOutcome job 0) s fun t =>
      t.train.ckpts = Tab.erase s.train.ckpts job ∧ t.train.jobs = Tab.insert s.train.jobs job (y.setGen (c.gen + 1))) ∧
  (∀ s : State, ∀ (job : Nat) (c : Ckpt), s.Inv = true → (s.ckpt? job = some c) → 
    Does (.checkpointLimitTimeout job) s fun t =>
      t.train.ckpts = Tab.erase s.train.ckpts job ∧ t.train.jobs = s.train.jobs)

/-- Digest leaves the SHA-256 or SHA-384 of its source at the destination and no other byte changes; restore leaves exactly bytes
skip to skip + len − 1 of the shard at its destination; manifest fetch leaves the manifest and sets the job's generation. A
restore into a range of the active snapshot changes no byte but in the completion ring. -/
def Obligations.DigestAndRestoreCommands : Prop :=
  (∀ s : State, ∀ (d : Nat) (x : Desc) (l h : List Byte), s.Inv = true → (s.acts d x 5 0 = true) → (s.memRead 0x10 0 0 x.slice (x.field 56 8) (x.field 44 4) = (.bytes l, s)) → (h = (if x.field 41 1 = 0 then sha256 l else sha384 l)) → ((s.memWrite 0x10 0 0 x.slice (x.field 64 8) h).1 = none) → (s.getF (R.crRing x.cq) F.crRing_space = 1) → (s.noneWaits = true) → 
    Does (.digest d) s fun t =>
      t.mem = putCells s.mem (x.field 64 8) h) ∧
  (∀ s : State, ∀ (d : Nat) (x : Desc) (y : Job) (l : List Byte), s.Inv = true → (s.acts d x 5 3 = true) → (s.job? (x.field 42 2) = some y) → (y.slice = x.slice) → (s.snap = none) → (s.refusals 0x10 (x.field 42 2) x.slice [(x.field 64 8, x.field 88 8), (x.field 72 8, 48)] = ([], s)) → (l.length = x.field 44 4) → ((s.memWrite 0x10 (x.field 42 2) 0 x.slice (x.field 64 8) ((l.drop (x.field 80 8)).take (x.field 88 8))).1 = none) → (s.getF (R.crRing x.cq) F.crRing_space = 1) → (s.noneWaits = true) → 
    Does (.restore d (.bytes l)) s fun t =>
      t.mem = putCells s.mem (x.field 64 8) ((l.drop (x.field 80 8)).take (x.field 88 8)) ∧ t.train = s.train) ∧
  (∀ s : State, ∀ (d : Nat) (x : Desc) (y : Job) (p : Snap) (pool : Got), s.Inv = true → (s.acts d x 5 3 = true) → (s.job? (x.field 42 2) = some y) → (y.slice = x.slice) → (s.snap = some p) → (p.shards.any (fun h => meets (x.field 64 8) (x.field 88 8) h.addr h.bytes) = true) → (s.noneWaits = true) → 
    Does (.restore d pool) s fun t =>
      MemKeptButRing s t x.cq ∧ t.train = s.train) ∧
  (∀ s : State, ∀ (d g n : Nat) (x : Desc) (y : Job) (v l : List Byte), s.Inv = true → (s.acts d x 5 4 = true) → (s.job? (x.field 42 2) = some y) → (y.slice = x.slice) → (g = fieldLE v 0 4) → (fieldLE v 4 4 = y.field 0 4) → (g ≠ 0) → (manifestOk l g = true) → (n = 128 + 80 * fieldLE l 12 4 + 48) → (n ≤ x.field 44 4) → ((s.memWrite 0x10 (x.field 42 2) 0 x.slice (x.field 56 8) (l.take n)).1 = none) → (s.getF (R.crRing x.cq) F.crRing_space = 1) → (s.noneWaits = true) → 
    Does (.manifestFetch d (.bytes v) (.bytes l)) s fun t =>
      t.mem = putCells s.mem (x.field 56 8) (l.take n) ∧ t.train = { s.train with jobs := Tab.insert s.train.jobs (x.field 42 2) (y.setGen g) })

/-- A doorbell sets the tail of an enabled channel; beyond the ring it puts the channel in error. A fetch takes the descriptor of
the head slot, with the code of the first check it fails; one that fails with nothing before it completes at once. A copy within
device memory leaves the source's next bytes at the destination and nothing else; a fill leaves the repeated pattern. The record
follows the acknowledgement; where leave mode has written it before, the descriptor is gone with the acknowledgement. A late
error of such a one shows in CHAN_STATUS and the channel is in error. Pause pauses an idle channel at once and a running one
when its reads are in; clearing it lets the channel go on. A bus error puts every channel of the engine in error; clear_error
takes a channel out of it; a squashed channel is idle with head at the tail and nothing in flight. -/
def Obligations.DmaCommands : Prop :=
  (∀ s : State, ∀ (ch : Nat) (v : Word), s.Inv = true → (ch < 1024) → (s.getF (dmaReg R.chanCfg ch) F.chanCfg_enable = 1) → (s.sliceState (s.chanOwner ch) = 1) → (v.toNat % 2 ^ 16 < s.chanSlots ch) → 
    Does (.dmaDoorbell (.reg ch v)) s fun t =>
      t.getF (dmaReg R.chanTail ch) F.chanTail_tail = v.toNat % 2 ^ 16 ∧ Kept s t [dmaReg R.chanTail ch, dmaReg R.chanStatus ch, dmaReg R.chanDone ch] []) ∧
  (∀ s : State, ∀ (ch : Nat) (v : Word), s.Inv = true → (ch < 1024) → (s.getF (dmaReg R.chanCfg ch) F.chanCfg_enable = 1) → (s.sliceState (s.chanOwner ch) = 1) → (s.chanSlots ch ≤ v.toNat % 2 ^ 16) → 
    Does (.dmaDoorbell (.reg ch v)) s fun t =>
      t.chanState ch = 4 ∧ MemKept s t ∧ RegsKept s t (dmaReg R.chanStatus ch :: daybookRegs)) ∧
  (∀ s : State, ∀ (ch : Nat) (l : List Byte), s.Inv = true → (ch < 1024) → (s.getF (dmaReg R.chanCfg ch) F.chanCfg_enable = 1) → (s.chanState ch ≤ 1) → (s.fetches (s.chanOwner ch) = true) → (s.chanHeld ch = false) → (s.getF (dmaReg R.chanHead ch) F.chanHead_head ≠ s.getF (dmaReg R.chanTail ch) F.chanTail_tail) → (s.getF (dmaReg R.chanRing ch) F.chanRing_space = 1) → (s.hostPath (s.sliceFn (s.chanOwner ch)) = true) → (s.ringWaits (s.chanOwner ch) 1 = false) → (l.length = 64) → ((s.dmaCheck ch l).1 ≠ 8) → (((s.chanWork ch ++ [DmaWork.fetched (s.nextWork ch) (s.getF (dmaReg R.chanHead ch) F.chanHead_head) l (s.dmaCheck ch l).1]).find? DmaWork.open_).all (fun u => (u.outcome (s.chanLeave ch)).isNone) = true) → 
    Does (.dmaDescriptorFetch ch (.bytes l)) s fun t =>
      t.chanWork ch = s.chanWork ch ++ [DmaWork.fetched (s.nextWork ch) (s.getF (dmaReg R.chanHead ch) F.chanHead_head) l (s.dmaCheck ch l).1] ∧ t.getF (dmaReg R.chanHead ch) F.chanHead_head = (s.getF (dmaReg R.chanHead ch) F.chanHead_head + 1) % s.chanSlots ch ∧ Kept s t [dmaReg R.chanHead ch, dmaReg R.chanStatus ch, dmaReg R.chanDone ch, R.epStatus (s.sliceFn (s.chanOwner ch))] []) ∧
  (∀ s : State, ∀ (ch : Nat) (l : List Byte), s.Inv = true → (ch < 1024) → (s.tablesRise = true) → (s.getF (dmaReg R.chanCfg ch) F.chanCfg_enable = 1) → (s.chanState ch ≤ 1) → (s.fetches (s.chanOwner ch) = true) → (s.chanHeld ch = false) → (s.getF (dmaReg R.chanHead ch) F.chanHead_head ≠ s.getF (dmaReg R.chanTail ch) F.chanTail_tail) → (s.getF (dmaReg R.chanRing ch) F.chanRing_space = 1) → (s.hostPath (s.sliceFn (s.chanOwner ch)) = true) → (s.ringWaits (s.chanOwner ch) 1 = false) → (l.length = 64) → ((s.dmaCheck ch l).1 ≠ 0) → (s.chanWork ch = []) → 
    Does (.dmaDescriptorFetch ch (.bytes l)) s fun t =>
      t.chanWork ch = [] ∧ t.getF (dmaReg R.chanHead ch) F.chanHead_head = (s.getF (dmaReg R.chanHead ch) F.chanHead_head + 1) % s.chanSlots ch ∧ t.tallyOf 6 0 (ch / 64) = s.tallyOf 6 0 (ch / 64) + 1) ∧
  (∀ s : State, ∀ (ch n k : Nat) (v : DmaWork) (l : List Byte) (b u : State), s.Inv = true → (ch < 1024) → (s.dmaNow ch 1 = some v) → (fieldLE v.raw 2 1 = 0) → (fieldLE v.raw 3 1 = 0) → (v.done = v.asked) → (v.held = []) → (((s.chanWork ch).find? DmaWork.open_).all (fun u => (u.outcome (s.chanLeave ch)).isNone) = true) → (k = s.dmaShare ch v (min n (fieldLE v.raw 8 4 - v.asked))) → (0 < k) → (v.done + k < fieldLE v.raw 8 4) → (b = s.dmaTook ch v k) → (b.memRead 0x06 (ch / 64) 2 (s.chanOwner ch) (fieldLE v.raw 16 8 + v.asked) k = (.bytes l, b)) → (u = b.setWork ch (setWorkAt (b.chanWork ch) { v with asked := v.asked + k, held := [(v.asked, l)] })) → ((u.memWrite 0x06 (ch / 64) 2 (s.chanOwner ch) (fieldLE v.raw 24 8 + v.asked) l).1 = none) → (l.length = k) → (s.noneWaits = true) → 
    Does (.dmaCopy ch n (some (.bytes []))) s fun t =>
      t.mem = putCells s.mem (fieldLE v.raw 24 8 + v.asked) l ∧ t.chanWork ch = setWorkAt (s.chanWork ch) { v with done := v.done + k, asked := v.asked + k, issued := false }) ∧
  (∀ s : State, ∀ (ch n k : Nat) (v : DmaWork) (l : List Byte) (b u : State), s.Inv = true → (ch < 1024) → (s.dmaNow ch 1 = some v) → (fieldLE v.raw 2 1 = 1) → (fieldLE v.raw 3 1 = 0) → (v.done = v.asked) → (v.held = []) → (((s.chanWork ch).find? DmaWork.open_).all (fun u => (u.outcome (s.chanLeave ch)).isNone) = true) → (k = s.dmaShare ch v (min n (fieldLE v.raw 8 4 - v.asked))) → (0 < k) → (v.done + k < fieldLE v.raw 8 4) → (s.hostPath (s.sliceFn (s.chanOwner ch)) = true) → (s.tagWait (s.chanOwner ch) 1 = false) → (b = (s.dmaTook ch v k).emitReads (s.sliceFn (s.chanOwner ch)) (s.chanPasid ch) (fieldLE v.raw 16 8 + v.asked) k) → (u = b.setWork ch (setWorkAt (b.chanWork ch) { v with asked := v.asked + k, held := [(v.asked, l)] })) → ((u.memWrite 0x06 (ch / 64) 2 (s.chanOwner ch) (fieldLE v.raw 24 8 + v.asked) l).1 = none) → (l.length = k) → (s.noneWaits = true) → 
    Does (.dmaCopy ch n (some (.bytes l))) s fun t =>
      t.mem = putCells s.mem (fieldLE v.raw 24 8 + v.asked) l ∧ t.chanWork ch = setWorkAt (s.chanWork ch) { v with done := v.done + k, asked := v.asked + k, issued := false }) ∧
  (∀ s : State, ∀ (ch n k : Nat) (v : DmaWork) (u : State), s.Inv = true → (ch < 1024) → (s.dmaNow ch 2 = some v) → (fieldLE v.raw 3 1 = 0) → (((s.chanWork ch).find? DmaWork.open_).all (fun u => (u.outcome (s.chanLeave ch)).isNone) = true) → (k = s.dmaShare ch v (min n (fieldLE v.raw 8 4 - v.done))) → (0 < k) → (v.done + k < fieldLE v.raw 8 4) → (u = s.dmaTook ch v k) → ((u.memWrite 0x06 (ch / 64) 2 (s.chanOwner ch) (fieldLE v.raw 24 8 + v.done) ((below k).map fun i => ((v.raw.drop 16).take 8).getD ((v.done + i) % 8) 0)).1 = none) → (s.noneWaits = true) → 
    Does (.dmaFill ch n) s fun t =>
      t.mem = putCells s.mem (fieldLE v.raw 24 8 + v.done) ((below k).map fun i => v.raw.getD (16 + (v.done + i) % 8) 0) ∧ t.chanWork ch = setWorkAt (s.chanWork ch) { v with done := v.done + k, issued := false }) ∧
  (∀ s : State, ∀ (ch : Nat) (v : DmaWork), s.Inv = true → (ch < 1024) → (s.tablesRise = true) → (s.chanHeld ch = false) → (s.chanWork ch = [v]) → (v.issued = true) → (v.code = 0) → (v.acked = false) → (v.left = false) → (fieldLE v.raw 3 1 = 0 ∨ s.chanLeave ch = true) → (s.noneWaits = true) → 
    Does (.dmaWritesAcked ch) s fun t =>
      t.chanWork ch = [] ∧ t.tallyOf 6 0 (ch / 64) = s.tallyOf 6 0 (ch / 64) + 1 ∧ MemKeptButRing s t (fieldLE v.raw 12 2)) ∧
  (∀ s : State, ∀ (ch : Nat) (v : DmaWork), s.Inv = true → (ch < 1024) → (s.tablesRise = true) → (s.chanWork ch = [v]) → (v.issued = true) → (v.code = 0) → (v.acked = false) → (v.left = true) → 
    Does (.dmaWritesAcked ch) s fun t =>
      t.chanWork ch = [] ∧ Kept s t [dmaReg R.chanStatus ch, dmaReg R.chanDone ch] []) ∧
  (∀ s : State, ∀ (ch code : Nat) (v : DmaWork), s.Inv = true → (ch < 1024) → (s.tablesRise = true) → (s.chanWork ch = [v]) → (v.left = true) → (v.code = 0) → 
    Does (.dmaLateError ch code) s fun t =>
      t.chanState ch = 4 ∧ t.chanWork ch = [] ∧ t.getF (dmaReg R.chanStatus ch) F.chanStatus_late_error = 1 ∧ t.getF (dmaReg R.chanStatus ch) F.chanStatus_err_code = code % 2 ^ 16 ∧ t.tallyOf 6 3 (ch / 64) = s.tallyOf 6 3 (ch / 64) + 1 ∧ MemKept s t ∧ RegsKept s t (dmaReg R.chanStatus ch :: daybookRegs)) ∧
  (∀ s : State, ∀ (ch : Nat), s.Inv = true → (ch < 1024) → (s.serving = true) → (s.chanState ch ≤ 1) → 
    Does (.dmaPause ch true) s fun t =>
      t.chanState ch = (if s.chanState ch = 0 then 3 else 2) ∧ t.getF (dmaReg R.chanCtrl ch) F.chanCtrl_pause = 1 ∧ t.dma = s.dma ∧ Kept s t [dmaReg R.chanCtrl ch, dmaReg R.chanStatus ch, dmaReg R.chanDone ch] []) ∧
  (∀ s : State, ∀ (ch : Nat), s.Inv = true → (ch < 1024) → (s.serving = true) → (s.chanState ch = 3) → ((s.chanWork ch).any DmaWork.open_ = true) → 
    Does (.dmaPause ch false) s fun t =>
      t.chanState ch = 1 ∧ t.getF (dmaReg R.chanCtrl ch) F.chanCtrl_pause = 0 ∧ t.dma = s.dma ∧ Kept s t [dmaReg R.chanCtrl ch, dmaReg R.chanStatus ch, dmaReg R.chanDone ch] []) ∧
  (∀ s : State, ∀ (ch : Nat), s.Inv = true → (ch < 1024) → (s.chanState ch = 2) → ((s.tags.any fun e => e.2.who == ch) = false) → 
    Does (.dmaPaused ch) s fun t =>
      t.chanState ch = 3 ∧ t.dma = s.dma ∧ Kept s t [dmaReg R.chanStatus ch, dmaReg R.chanDone ch] []) ∧
  (∀ s : State, ∀ (e code addr : Nat), s.Inv = true → (e < 16) → (code = 0x11 ∨ code = 0x12 ∨ code = 0x16) → 
    Does (.dmaEngineStop e code addr) s fun t =>
      ((below 64).all fun c => t.chanState (e * 64 + c) == 4) = true ∧ t.getF (R.engineStatus e) F.engineStatus_stop_code = code ∧ t.reg (R.engineErrAddr e) = BitVec.ofNat 64 addr ∧ t.tallyOf 6 2 e = s.tallyOf 6 2 e + 1) ∧
  (∀ s : State, ∀ (ch : Nat), s.Inv = true → (ch < 1024) → (s.serving = true) → (s.chanState ch = 4) → (s.chanWork ch = []) → (s.getF (dmaReg R.chanHead ch) F.chanHead_head = s.getF (dmaReg R.chanTail ch) F.chanTail_tail) → 
    Does (.dmaClearError ch) s fun t =>
      t.chanState ch = (if s.getF (dmaReg R.chanCtrl ch) F.chanCtrl_pause = 1 then 3 else 0) ∧ Kept s t [dmaReg R.chanStatus ch] []) ∧
  (∀ s : State, ∀ (ch : Nat), s.Inv = true → (ch < 1024) → (s.serving = true) → (s.chanState ch ≠ 4) → 
    Does (.dmaClearError ch) s fun t =>
      t = s) ∧
  (∀ s : State, ∀ (ch : Nat), s.Inv = true → (ch < 1024) → (s.tablesRise = true) → (s.serving = true) → 
    Does (.dmaSquash ch) s fun t =>
      t.chanWork ch = [] ∧ t.chanState ch = 0 ∧ t.getF (dmaReg R.chanHead ch) F.chanHead_head = s.getF (dmaReg R.chanTail ch) F.chanTail_tail ∧ t.getF (dmaReg R.chanCtrl ch) F.chanCtrl_pause = 0 ∧ t.tallyOf 6 4 (ch / 64) = s.tallyOf 6 4 (ch / 64) + 1)

/-- A configuration read of the identities answers them; one during a Function Level Reset is told to retry; an unsupported request
completes with UR. A BAR4 read brings the bytes behind its aperture entry, a write stores exactly its bytes, one above Max
Payload Size is dropped as malformed, an offset without an entry completes with UR and changes no byte; an AtomicOp answers the
old value and stores the new one. A withheld message is sent and its pending bit clears. Writing 1 clears bits of INTX_PEND and
ends INTA at zero. D3hot, D0, L2, PERST#, wake sources, ASPM and link changes leave the function as the spec says, and PERST#
leaves the other function's status as it is, its low-power bit aside. -/
def Obligations.HostAccessCommands : Prop :=
  (∀ s : State, ∀ (fn : Nat), s.Inv = true → (fn < 2) → ((s.epOf fn).perst = false) → (s.getF (R.epStatus fn) F.epStatus_flr_busy = 0) → 
    Does (.configRequest fn (.read .vendorId)) s fun t =>
      t.out = .tlpData fn (bytesLE 4 0x1F5B) :: s.out ∧ t.ep = (s.linkWake fn).ep ∧ Kept s t [R.epStatus fn] [tallyKey 4 0 fn]) ∧
  (∀ s : State, ∀ (fn : Nat), s.Inv = true → (fn < 2) → ((s.epOf fn).perst = false) → (s.getF (R.epStatus fn) F.epStatus_flr_busy = 0) → 
    Does (.configRequest fn (.read .deviceId)) s fun t =>
      t.out = .tlpData fn (bytesLE 4 0x4300) :: s.out ∧ t.ep = (s.linkWake fn).ep ∧ Kept s t [R.epStatus fn] [tallyKey 4 0 fn]) ∧
  (∀ s : State, ∀ (fn : Nat) (r : CfgReg), s.Inv = true → (fn < 2) → ((s.epOf fn).perst = false) → (s.getF (R.epStatus fn) F.epStatus_flr_busy = 1) → 
    Does (.configRequest fn (.read r)) s fun t =>
      t.out = .tlpRrs fn :: s.out ∧ t.ep = (s.linkWake fn).ep ∧ Kept s t [R.epStatus fn] [tallyKey 4 0 fn]) ∧
  (∀ s : State, ∀ (fn v : Nat), s.Inv = true → (fn < 2) → (s.tablesRise = true) → ((s.epOf fn).perst = false) → (s.getF (R.epStatus fn) F.epStatus_flr_busy = 0) → (natBit v 2 = true) → 
    Does (.configRequest fn (.write .command v)) s fun t =>
      (t.epOf fn).memSpace = natBit v 1 ∧ (t.epOf fn).intDisable = natBit v 10 ∧ t.getF (R.epStatus fn) F.epStatus_bme = 1 ∧ Kept s t [R.epStatus fn] [tallyKey 4 0 fn]) ∧
  (∀ s : State, ∀ (fn : Nat), s.Inv = true → (fn < 2) → ((s.epOf fn).perst = false) → 
    Does (.configRequest fn .unsupported) s fun t =>
      t.out = .tlpUr fn :: s.out ∧ t.tallyOf 4 5 fn = s.tallyOf 4 5 fn + 1 ∧ t.tallyOf 4 63 fn = s.tallyOf 4 63 fn + 1 ∧ MemKept s t ∧ RegsKept s t (R.epStatus fn :: daybookRegs)) ∧
  (∀ s : State, ∀ (fn off len a slice : Nat) (l : List Byte), s.Inv = true → (s.serving = true) → (s.barOpen fn = true) → (s.apertureHit fn off len false true = some (a, slice)) → ((s.memRead 0x04 fn 3 slice a len).1 = .bytes l) → (s.noneWaits = true) → 
    Does (.bar4Access fn off (.read len)) s fun t =>
      t.out.head? = some (.tlpData fn l) ∧ MemKept s t) ∧
  (∀ s : State, ∀ (fn off a slice : Nat) (l : List Byte), s.Inv = true → (s.serving = true) → (s.barOpen fn = true) → (l.length ≤ 128 * 2 ^ (s.epOf fn).mps) → (s.apertureHit fn off l.length true false = some (a, slice)) → ((s.memWrite 0x04 fn 3 slice a l).1 = none) → (s.noneWaits = true) → 
    Does (.bar4Access fn off (.write l)) s fun t =>
      t.mem = putCells s.mem a l) ∧
  (∀ s : State, ∀ (fn off : Nat) (l : List Byte), s.Inv = true → (fn < 2) → (128 * 2 ^ (s.epOf fn).mps < l.length) → 
    Does (.bar4Access fn off (.write l)) s fun t =>
      natBit (t.epOf fn).aerUnc aerMalformed = true ∧ t.tallyOf 4 63 fn = s.tallyOf 4 63 fn + 1 ∧ MemKept s t ∧ RegsKept s t (R.epStatus fn :: daybookRegs)) ∧
  (∀ s : State, ∀ (fn off len : Nat), s.Inv = true → (s.serving = true) → (s.barOpen fn = true) → (s.apertureHit fn off len false true = none) → 
    Does (.bar4Access fn off (.read len)) s fun t =>
      t.out = .tlpUr fn :: s.out ∧ t.tallyOf 5 2 (s.missSlice fn off) = s.tallyOf 5 2 (s.missSlice fn off) + 1 ∧ MemKept s t ∧ RegsKept s t (R.epStatus fn :: daybookRegs)) ∧
  (∀ s : State, ∀ (fn off n a slice v : Nat) (op : AtomicReq) (l : List Byte), s.Inv = true → (s.serving = true) → (s.barOpen fn = true) → (n = 4 ∨ n = 8) → ((atomicNew op 0).map Prod.fst = some n) → (off % n = 0) → (s.apertureHit fn off n true true = some (a, slice)) → (s.memRead 0x04 fn 3 slice a n = (.bytes l, s)) → (atomicNew op (leNat l) = some (n, v)) → ((s.memWrite 0x04 fn 3 slice a (bytesLE n v)).1 = none) → (s.noneWaits = true) → 
    Does (.bar4Atomic fn off op) s fun t =>
      t.mem = putCells s.mem a (bytesLE n v) ∧ t.out.head? = some (.tlpData fn l)) ∧
  (∀ s : State, ∀ (fn v : Nat), s.Inv = true → (fn < 2) → (v < 2048) → (natBit (s.reg (R.msixPba fn (v / 64))).toNat (v % 64) = true) → ((s.epOf fn).msixEnable = true) → (s.hostPath fn = true) → (s.vectorMasked fn v = false) → ((s.epOf fn).funcMask = false) → 
    Does (.msixPendingSend fn v) s fun t =>
      t.out = .msix fn (s.vectorPasid fn v) v :: s.out ∧ natBit (t.reg (R.msixPba fn (v / 64))).toNat (v % 64) = false ∧ Kept s t [R.msixPba fn (v / 64), R.epStatus fn] []) ∧
  (∀ s : State, ∀ (v : Word), s.Inv = true → (s.serving = true) → 
    Does (.intxPendWrite 0 v) s fun t =>
      t.reg (R.intxPend 0) = s.reg (R.intxPend 0) &&& ~~~v ∧ ((s.epOf 0).inta = true ∧ s.intxActive = true ∧ s.getF (R.epStatus 0) F.epStatus_d_state = 0 → t.out = if s.reg (R.intxPend 0) &&& ~~~v = 0 then .inta false :: s.out else s.out) ∧ Kept s t [R.intxPend 0] []) ∧
  (∀ s : State, ∀ (fn : Nat), s.Inv = true → (fn < 2) → (s.getF (R.epStatus fn) F.epStatus_d_state ≠ 3) → 
    Does (.d3hotEntry fn) s fun t =>
      t.getF (R.epStatus fn) F.epStatus_d_state = 3 ∧ (t.tags.all fun e => e.1 / 2 ^ 14 != fn) = true) ∧
  (∀ s : State, ∀ (fn : Nat), s.Inv = true → (fn < 2) → (s.getF (R.epStatus fn) F.epStatus_d_state = 3) → (s.pwr ≠ 2) → 
    Does (.d0Write fn) s fun t =>
      t.getF (R.epStatus fn) F.epStatus_d_state = 0 ∧ Kept s t [R.epStatus fn] []) ∧
  (∀ s : State, ∀ (fn : Nat), s.Inv = true → (fn < 2) → (s.getF (R.epStatus fn) F.epStatus_d_state = 3) → 
    Does (.l2Entry fn) s fun t =>
      t.out = .pmeToAck fn :: s.out ∧ t.getF (R.epStatus fn) F.epStatus_link_up = 0 ∧ (t.epOf fn).linkPm = 4 ∧ Kept s t [R.epStatus fn] []) ∧
  (∀ s : State, ∀ (fn : Nat), s.Inv = true → (fn < 2) → (s.tablesRise = true) → ((s.epOf fn).perst = false) → 
    Does (.perstAssert fn) s fun t =>
      t.reg (R.epStatus fn) = setBits 0 F.epStatus_flr_busy 1 ∧ (t.epOf fn).perst = true ∧ (t.epOf fn).memSpace = false ∧ t.statusOf (1 - fn) = s.statusOf (1 - fn)) ∧
  (∀ s : State, ∀ (fn : Nat), s.Inv = true → (s.tablesRise = true) → ((s.epOf fn).perst = true) → (s.pwr ≠ 3) → 
    Does (.perstDeassert fn) s fun t =>
      (t.epOf fn).perst = false ∧ Kept s t [] []) ∧
  (∀ s : State, ∀ (fn src : Nat), s.Inv = true → (fn < 2) → (src < 4) → (natBit (s.reg (R.wakeCfg fn)).toNat src = false ∨ (s.epOf fn).pmeEn = false) → 
    Does (.wakeSource fn src) s fun t =>
      natBit (t.reg (R.wakeStatus fn)).toNat src = true ∧ t.ep = s.ep ∧ t.out = s.out ∧ Kept s t [R.wakeStatus fn] []) ∧
  (∀ s : State, ∀ (fn src : Nat), s.Inv = true → (fn < 2) → (src < 4) → (natBit (s.reg (R.wakeCfg fn)).toNat src = true) → ((s.epOf fn).pmeEn = true) → (s.getF (R.epStatus fn) F.epStatus_d_state = 3) → (s.getF (R.epStatus fn) F.epStatus_link_up = 1) → ((s.epOf fn).linkPm ≠ 4) → 
    Does (.wakeSource fn src) s fun t =>
      (t.epOf fn).pmeStatus = true ∧ t.out = (if s.getF (R.epStatus fn) F.epStatus_bme = 1 then .pme fn :: s.out else s.out) ∧ Kept s t [R.wakeStatus fn] []) ∧
  (∀ s : State, ∀ (fn wd sp : Nat) (flit narrowed : Bool), s.Inv = true → (fn < 2) → 
    Does (.upstreamLinkChange fn true flit narrowed wd sp) s fun t =>
      t.getF (R.epStatus fn) F.epStatus_link_up = 1 ∧ t.getF (R.epStatus fn) F.epStatus_flit = (if flit then 1 else 0) ∧ t.getF (R.epStatus fn) F.epStatus_width = wd % 2 ^ Fld.width F.epStatus_width ∧ t.getF (R.epStatus fn) F.epStatus_speed = sp % 2 ^ Fld.width F.epStatus_speed ∧ MemKept s t) ∧
  (∀ s : State, ∀ (fn : Nat) (deep : Bool), s.Inv = true → (fn < 2) → ((s.epOf fn).aspm = 2) → (deep = true → natBit (s.epOf fn).l1ss 3 = true) → (s.getF (R.epStatus fn) F.epStatus_link_up = 1) → ((s.epOf fn).linkPm = 0) → 
    Does (.aspmIdleEntry fn deep) s fun t =>
      t.getF (R.epStatus fn) F.epStatus_low_power = 1 ∧ (t.epOf fn).linkPm = (if deep then 2 else 1) ∧ Kept s t [R.epStatus fn] [])

/-- A timeout quarantines the tag and logs it in AER; data of an outstanding read is written at its place in the destination and
nowhere else; a completion on a quarantined tag changes no byte and shows in CPL_LATE_LOG; a tag leaves quarantine one period
after it began and after the last completion discarded on it, not before. Bus Master Disable and a Function Level Reset leave no
tag of the function outstanding and the other function's status as it is, its low-power bit aside; a second FLR meanwhile is
only recorded, asked for by either command. HB_CFG and HB_COUNT arm and feed the heartbeat, a period of 0 leaving the one
before; disarming it while slices are bound, a miss or a lost link begins the host-loss drain, whose end quiesces the function's
slices and sets host_lost; during a Function Level Reset host_lost is set at once. Malformed and poisoned TLPs change no byte
and are logged. -/
def Obligations.HostLossCommands : Prop :=
  (∀ s : State, ∀ (u tag : Nat) (use : TagUse), s.Inv = true → (u < 2) → (Tab.find? s.tags (tagKey u tag) = some use) → 
    Does (.completionTimeout u tag) s fun t =>
      Tab.find? t.quarantine (tagKey u tag) = some ⟨s.now, s.now⟩ ∧ t.tallyOf 4 1 u = s.tallyOf 4 1 u + 1 ∧ natBit (t.epOf u).aerUnc aerTimeout = true) ∧
  (∀ s : State, ∀ (u tag : Nat) (last : Bool) (use : TagUse) (l : List Byte) (v : DmaWork), s.Inv = true → (use.who < 1024) → (Tab.find? s.tags (tagKey u tag) = some use) → (l.length ≤ use.len - use.got) → (last = true → use.got + l.length = use.len) → (use.len ≠ 0) → (l ≠ []) → ((s.chanWork use.who).find? (fun v => v.num == use.num && v.code == 0) = some v) → (v.issued = false) → (v.acked = false) → (v.held = []) → (v.done = use.off + use.got) → (((s.chanWork use.who).find? DmaWork.open_).all (fun u => (u.outcome (s.chanLeave use.who)).isNone) = true) → (fieldLE v.raw 3 1 = 0) → ((s.memWrite 0x06 (use.who / 64) 2 (s.chanOwner use.who) (fieldLE v.raw 24 8 + (use.off + use.got)) l).1 = none) → (s.getF (dmaReg R.chanCfg use.who) F.chanCfg_leave = 0) → (s.noneWaits = true) → 
    Does (.completionReceived u tag last (.bytes l)) s fun t =>
      t.mem = putCells s.mem (fieldLE v.raw 24 8 + (use.off + use.got)) l) ∧
  (∀ s : State, ∀ (u tag : Nat) (last : Bool) (data : Got) (q : TagQuar), s.Inv = true → (u < 2) → (Tab.find? s.tags (tagKey u tag) = none) → (Tab.find? s.quarantine (tagKey u tag) = some q) → 
    Does (.completionReceived u tag last data) s fun t =>
      Tab.find? t.quarantine (tagKey u tag) = some { q with last := s.now } ∧ t.getF (R.cplLateLog u) F.cplLateLog_valid = 1 ∧ t.getF (R.cplLateLog u) F.cplLateLog_tag = tag % 2 ^ Fld.width F.cplLateLog_tag ∧ t.tallyOf 4 2 u = s.tallyOf 4 2 u + 1 ∧ MemKept s t ∧ RegsKept s t (R.cplLateLog u :: daybookRegs)) ∧
  (∀ s : State, ∀ (u tag : Nat) (last : Bool) (data : Got), s.Inv = true → (u < 2) → (Tab.find? s.tags (tagKey u tag) = none) → (Tab.find? s.quarantine (tagKey u tag) = none) → 
    Does (.completionReceived u tag last data) s fun t =>
      natBit (t.epOf u).aerUnc aerUnexpected = true ∧ t.tallyOf 4 3 u = s.tallyOf 4 3 u + 1 ∧ MemKept s t ∧ RegsKept s t daybookRegs) ∧
  (∀ s : State, ∀ (u tag : Nat) (q : TagQuar), s.Inv = true → (u < 2) → (Tab.find? s.quarantine (tagKey u tag) = some q) → (s.unitTimeout u ≤ s.since q.since) → (s.unitTimeout u ≤ s.since q.last) → 
    Does (.tagQuarantineRelease u tag) s fun t =>
      t.quarantine = Tab.erase s.quarantine (tagKey u tag) ∧ t.tags = s.tags ∧ Kept s t (R.tagStatus u :: (below 16).map R.engineStatus) []) ∧
  (∀ s : State, ∀ (u tag : Nat) (q : TagQuar), s.Inv = true → (Tab.find? s.quarantine (tagKey u tag) = some q) → (s.since q.since < s.unitTimeout u ∨ s.since q.last < s.unitTimeout u) → 
    Does (.tagQuarantineRelease u tag) s fun t =>
      t = s) ∧
  (∀ s : State, ∀ (fn : Nat), s.Inv = true → (fn < 2) → (s.getF (R.epStatus fn) F.epStatus_bme = 1) → (s.getF (R.epStatus fn) F.epStatus_flr_busy = 0) → 
    Does (.busMasterDisable fn) s fun t =>
      t.getF (R.epStatus fn) F.epStatus_bme = 0 ∧ (t.tags.all fun e => e.1 / 2 ^ 14 != fn) = true ∧ t.statusOf (1 - fn) = s.statusOf (1 - fn)) ∧
  (∀ s : State, ∀ (fn : Nat), s.Inv = true → (fn < 2) → (s.getF (R.epStatus fn) F.epStatus_flr_busy = 0) → 
    Does (.functionLevelReset fn) s fun t =>
      t.getF (R.epStatus fn) F.epStatus_flr_busy = 1 ∧ t.getF (R.epStatus fn) F.epStatus_bme = 0 ∧ t.getF (R.epStatus fn) F.epStatus_link_up = s.getF (R.epStatus fn) F.epStatus_link_up ∧ (t.tags.all fun e => e.1 / 2 ^ 14 != fn) = true ∧ t.statusOf (1 - fn) = s.statusOf (1 - fn)) ∧
  (∀ s : State, ∀ (fn : Nat), s.Inv = true → (fn < 2) → (s.getF (R.epStatus fn) F.epStatus_flr_busy = 1) → 
    Does (.functionLevelReset fn) s fun t =>
      t.ep = s.ep ∧ t.tags = s.tags ∧ MemKept s t ∧ RegsKept s t daybookRegs) ∧
  (∀ s : State, ∀ (fn : Nat), s.Inv = true → (fn < 2) → (s.getF (R.epStatus fn) F.epStatus_flr_busy = 1) → (((s.slicesOf fn).any fun n => s.sliceState n == 3) = false) → 
    Does (.flrComplete fn) s fun t =>
      t.getF (R.epStatus fn) F.epStatus_flr_busy = 0 ∧ Kept s t [R.epStatus fn] []) ∧
  (∀ s : State, ∀ (fn : Nat) (v : Word), s.Inv = true → (fn < 2) → (s.tablesRise = true) → (s.serving = true) → (getBits v F.hbCfg_period_ms ≠ 0) → (getBits v F.hbCfg_enable = 1) → 
    Does (.hbCfgWrite fn v) s fun t =>
      t.getF (R.hbCfg fn) F.hbCfg_enable = 1 ∧ t.getF (R.hbCfg fn) F.hbCfg_period_ms = min (getBits v F.hbCfg_period_ms) 10000 ∧ t.getF (R.epStatus fn) F.epStatus_host_lost = 0 ∧ (t.epOf fn).lastBeat = s.now ∧ Kept s t [R.hbCfg fn, R.epStatus fn] []) ∧
  (∀ s : State, ∀ (fn : Nat) (v : Word), s.Inv = true → (fn < 2) → (s.tablesRise = true) → (s.serving = true) → (getBits v F.hbCfg_period_ms = 0) → (getBits v F.hbCfg_enable = 1) → 
    Does (.hbCfgWrite fn v) s fun t =>
      t.getF (R.hbCfg fn) F.hbCfg_enable = 1 ∧ t.getF (R.hbCfg fn) F.hbCfg_period_ms = s.getF (R.hbCfg fn) F.hbCfg_period_ms ∧ (t.epOf fn).lastBeat = s.now ∧ MemKept s t ∧ RegsKept s t ([R.hbCfg fn, R.epStatus fn] ++ daybookRegs)) ∧
  (∀ s : State, ∀ (fn : Nat) (v : Word), s.Inv = true → (fn < 2) → (s.serving = true) → (getBits v F.hbCfg_enable = 0) → (s.getF (R.hbCfg fn) F.hbCfg_enable = 1) → ((s.slicesOf fn).isEmpty = false) → (s.getF (R.epStatus fn) F.epStatus_flr_busy = 0) → ((s.epOf fn).draining = false) → 
    Does (.hbCfgWrite fn v) s fun t =>
      t.getF (R.hbCfg fn) F.hbCfg_enable = 0 ∧ (t.epOf fn).draining = true ∧ (t.epOf fn).drainStart = s.now ∧ t.tallyOf 4 7 fn = s.tallyOf 4 7 fn + 1 ∧ MemKept s t) ∧
  (∀ s : State, ∀ (fn : Nat) (v : Word), s.Inv = true → (fn < 2) → (s.tablesRise = true) → (s.serving = true) → 
    Does (.hbCountWrite fn v) s fun t =>
      t.reg (R.hbCount fn) = v ∧ (t.epOf fn).lastBeat = (if v = s.reg (R.hbCount fn) then (s.epOf fn).lastBeat else s.now) ∧ Kept s t [R.hbCount fn] []) ∧
  (∀ s : State, ∀ (fn : Nat), s.Inv = true → (fn < 2) → (s.getF (R.hbCfg fn) F.hbCfg_enable = 1) → (s.getF (R.epStatus fn) F.epStatus_flr_busy = 0) → ((s.epOf fn).draining = false) → 
    Does (.heartbeatMiss fn) s fun t =>
      (t.epOf fn).draining = true ∧ (t.epOf fn).drainStart = s.now ∧ t.tallyOf 4 7 fn = s.tallyOf 4 7 fn + 1 ∧ MemKept s t) ∧
  (∀ s : State, ∀ (fn : Nat), s.Inv = true → (fn < 2) → (s.getF (R.hbCfg fn) F.hbCfg_enable = 1) → (s.getF (R.epStatus fn) F.epStatus_flr_busy = 1) → ((s.epOf fn).draining = false) → 
    Does (.heartbeatMiss fn) s fun t =>
      t.getF (R.epStatus fn) F.epStatus_host_lost = 1 ∧ t.getF (R.epStatus fn) F.epStatus_flr_busy = 1 ∧ t.tallyOf 4 7 fn = s.tallyOf 4 7 fn + 1 ∧ t.tags = s.tags ∧ MemKept s t) ∧
  (∀ s : State, ∀ (fn : Nat), s.Inv = true → (s.getF (R.hbCfg fn) F.hbCfg_enable = 0) → 
    Does (.heartbeatMiss fn) s fun t =>
      t = s) ∧
  (∀ s : State, ∀ (fn : Nat), s.Inv = true → (fn < 2) → (s.getF (R.epStatus fn) F.epStatus_link_up = 0) → ((s.epOf fn).perst = false) → ((s.epOf fn).linkPm ≠ 4) → (s.getF (R.epStatus fn) F.epStatus_flr_busy = 0) → ((s.epOf fn).draining = false) → 
    Does (.upstreamLinkDown fn) s fun t =>
      (t.epOf fn).draining = true ∧ t.tallyOf 4 7 fn = s.tallyOf 4 7 fn + 1 ∧ MemKept s t) ∧
  (∀ s : State, ∀ (fn : Nat), s.Inv = true → (fn < 2) → (s.tablesRise = true) → (s.partsFit = true) → ((s.epOf fn).draining = true) → 
    Does (.hostLossDrainEnd fn) s fun t =>
      (t.epOf fn).draining = false ∧ t.getF (R.epStatus fn) F.epStatus_host_lost = 1 ∧ ((s.slicesOf fn).all fun n => decide (s.sliceState n > 2) || t.sliceState n == 2) = true) ∧
  (∀ s : State, ∀ (fn : Nat), s.Inv = true → (fn < 2) → 
    Does (.malformedTlp fn) s fun t =>
      natBit (t.epOf fn).aerUnc aerMalformed = true ∧ MemKept s t ∧ RegsKept s t daybookRegs) ∧
  (∀ s : State, ∀ (fn : Nat), s.Inv = true → (fn < 2) → 
    Does (.poisonedTlp fn none) s fun t =>
      natBit (t.epOf fn).aerUnc aerPoisoned = true ∧ MemKept s t ∧ RegsKept s t daybookRegs) ∧
  (∀ s : State, ∀ (fn tag : Nat) (use : TagUse), s.Inv = true → (fn < 2) → (Tab.find? s.tags (tagKey fn tag) = some use) → (s.chanWork use.who = []) → 
    Does (.poisonedTlp fn (some tag)) s fun t =>
      natBit (t.epOf fn).aerUnc aerPoisoned = true ∧ t.tags = Tab.erase s.tags (tagKey fn tag) ∧ MemKept s t) ∧
  (∀ s : State, ∀ (fn tag : Nat) (q : TagQuar), s.Inv = true → (fn < 2) → (Tab.find? s.tags (tagKey fn tag) = none) → (Tab.find? s.quarantine (tagKey fn tag) = some q) → 
    Does (.poisonedTlp fn (some tag)) s fun t =>
      natBit (t.epOf fn).aerUnc aerPoisoned = true ∧ Tab.find? t.quarantine (tagKey fn tag) = some { q with last := s.now } ∧ t.getF (R.cplLateLog fn) F.cplLateLog_valid = 1 ∧ t.tallyOf 4 2 fn = s.tallyOf 4 2 fn + 1 ∧ MemKept s t ∧ RegsKept s t (R.cplLateLog fn :: daybookRegs)) ∧
  (∀ s : State, ∀ (fn v : Nat), s.Inv = true → (fn < 2) → ((s.epOf fn).perst = false) → (s.getF (R.epStatus fn) F.epStatus_flr_busy = 1) → (natBit v 15 = true) → 
    Does (.configRequest fn (.write .deviceControl v)) s fun t =>
      t.out = .tlpRrs fn :: s.out ∧ t.tallyOf 4 63 fn = s.tallyOf 4 63 fn + 1 ∧ t.tags = s.tags ∧ MemKept s t ∧ RegsKept s t (R.epStatus fn :: daybookRegs))

/-- An accepted create or apply takes the entry's fields into force; a create makes the slice active. Destroy and reset put the
slice into resetting, quiesce and resume move it between active and quiesced; the ends of reset, quiesce and zeroing leave it as
the state table says and end the command with status 0. A command its state does not accept ends with status 0x01, a write while
one is in progress is ignored. Logging starts, swaps and stops; the bit of the oldest logged page is written to its buffer. A
channel, a doorbell entry, an aperture entry and a queue take the fields written; a queue that is on is not enabled again. A
ring doorbell moves the head, one for a slice that is not active or through a page of a ring that is off is counted, and a write
while the ring is off sets the index; a held record is written once the ring has room. -/
def Obligations.SliceCommands : Prop :=
  (∀ s : State, ∀ (ch : Nat) (v : Word), s.Inv = true → (s.serving = true) → (ch < 1024) → (s.getF (R.engineStatus (ch / 64)) F.engineStatus_ckpt = 0) → (getBits v F.chanCfg_owner = s.chanOwner ch) → (getBits v F.chanCfg_leave = 0) → (s.chanIdle ch = true) → (s.quietAllows (s.chanOwner ch) (fun q => natBit q.engines (ch / 64)) = true) → (s.chanOwner ch = 0 → (s.chansUsed 0).contains ch = true ∨ (s.chansUsed 0).length < s.limit 0 .channels) → 
    Does (.chanCfgWrite ch v) s fun t =>
      t.chanOwner ch = s.chanOwner ch ∧ t.getF (dmaReg R.chanCfg ch) F.chanCfg_enable = getBits v F.chanCfg_enable ∧ t.getF (dmaReg R.chanCfg ch) F.chanCfg_classes = getBits v F.chanCfg_classes ∧ t.getF (dmaReg R.chanCfg ch) F.chanCfg_pasid = (if s.chanOwner ch = 0 then getBits v F.chanCfg_pasid else (s.slicePasid (s.chanOwner ch)).getD 0) ∧ MemKept s t ∧ RegsKept s t ([dmaReg R.chanCfg ch, dmaReg R.chanStatus ch, dmaReg R.chanDone ch] ++ daybookRegs)) ∧
  (∀ s : State, ∀ (n : Nat) (v : Word), s.Inv = true → (s.serving = true) → (n ≠ 0) → (getBits v F.sliceCmdGo_slice = n) → (getBits v F.sliceCmdGo_op = 1) → (s.getF R.sliceCmdGo F.sliceCmdGo_busy = 0) → (s.sliceState n = 0) → (entryBad s n = false) → (s.entryConflict n true = false) → (s.entryShort n = false) → (s.replicates 3 n = false) → 
    Does (.sliceCreate v) s fun t =>
      t.sliceState n = 1 ∧ t.forceOf n = s.staged n ∧ t.sliceCmd = none ∧ t.getF R.sliceCmdGo F.sliceCmdGo_status = 0 ∧ MemKept s t) ∧
  (∀ s : State, ∀ (n : Nat) (v : Word), s.Inv = true → (s.serving = true) → (getBits v F.sliceCmdGo_slice = n) → (getBits v F.sliceCmdGo_op = 6) → (s.getF R.sliceCmdGo F.sliceCmdGo_busy = 0) → (s.sliceState n = 1 ∨ s.sliceState n = 2) → (lowersBelowUse s n = false) → (entryBad s n = false) → (s.entryConflict n false = false) → (s.entryShort n = false) → (s.replicates 3 n = false) → 
    Does (.sliceApply v) s fun t =>
      t.sliceState n = s.sliceState n ∧ t.forceOf n = s.staged n ∧ t.sliceCmd = none ∧ t.getF R.sliceCmdGo F.sliceCmdGo_status = 0 ∧ MemKept s t) ∧
  (∀ s : State, ∀ (n : Nat) (v : Word), s.Inv = true → (s.serving = true) → (n ≠ 0) → (getBits v F.sliceCmdGo_slice = n) → (getBits v F.sliceCmdGo_op = 2) → (s.getF R.sliceCmdGo F.sliceCmdGo_busy = 0) → (s.sliceState n = 1 ∨ s.sliceState n = 2) → (s.replicates 3 n = false) → (s.partsFit = true) → 
    Does (.sliceDestroy v) s fun t =>
      t.sliceState n = 3 ∧ t.sliceCmd = some (2, n) ∧ t.getF R.sliceCmdGo F.sliceCmdGo_busy = 1) ∧
  (∀ s : State, ∀ (n : Nat) (v : Word), s.Inv = true → (s.serving = true) → (n ≠ 0) → (getBits v F.sliceCmdGo_slice = n) → (getBits v F.sliceCmdGo_op = 3) → (s.getF R.sliceCmdGo F.sliceCmdGo_busy = 0) → (s.sliceState n = 1 ∨ s.sliceState n = 2) → (inFlr s n = false) → (s.replicates 3 n = false) → (s.partsFit = true) → 
    Does (.sliceReset v) s fun t =>
      t.sliceState n = 3 ∧ t.sliceCmd = some (3, n) ∧ t.getF R.sliceCmdGo F.sliceCmdGo_busy = 1) ∧
  (∀ s : State, ∀ (n : Nat) (v : Word), s.Inv = true → (s.serving = true) → (getBits v F.sliceCmdGo_slice = n) → (getBits v F.sliceCmdGo_op = 3) → (s.getF R.sliceCmdGo F.sliceCmdGo_busy = 0) → (s.sliceState n = 0 ∨ 2 < s.sliceState n) → 
    Does (.sliceReset v) s fun t =>
      t.sliceState n = s.sliceState n ∧ t.sliceCmd = none ∧ t.getF R.sliceCmdGo F.sliceCmdGo_status = 1 ∧ MemKept s t ∧ RegsKept s t (R.sliceCmdGo :: daybookRegs)) ∧
  (∀ s : State, ∀ (n : Nat) (v : Word), s.Inv = true → (s.serving = true) → (getBits v F.sliceCmdGo_slice = n) → (getBits v F.sliceCmdGo_op = 3) → (s.getF R.sliceCmdGo F.sliceCmdGo_busy = 1) → 
    Does (.sliceReset v) s fun t =>
      t.sliceState n = s.sliceState n ∧ t.sliceCmd = s.sliceCmd ∧ MemKept s t ∧ RegsKept s t daybookRegs) ∧
  (∀ s : State, ∀ (n : Nat) (v : Word), s.Inv = true → (s.serving = true) → (n ≠ 0) → (getBits v F.sliceCmdGo_slice = n) → (getBits v F.sliceCmdGo_op = 4) → (s.getF R.sliceCmdGo F.sliceCmdGo_busy = 0) → (s.sliceState n = 1) → (inFlr s n = false) → (s.replicates 3 n = false) → 
    Does (.sliceQuiesce v) s fun t =>
      t.sliceState n = 2 ∧ t.sliceCmd = some (4, n) ∧ Kept s t [R.sliceBind n, R.sliceCmdGo] []) ∧
  (∀ s : State, ∀ (n : Nat) (v : Word), s.Inv = true → (s.serving = true) → (n ≠ 0) → (getBits v F.sliceCmdGo_slice = n) → (getBits v F.sliceCmdGo_op = 5) → (s.getF R.sliceCmdGo F.sliceCmdGo_busy = 0) → (s.sliceState n = 2) → (standbyHolds s n = false) → (s.pasidClash n = false) → (s.replicates 3 n = false) → 
    Does (.sliceResume v) s fun t =>
      t.sliceState n = 1 ∧ t.sliceCmd = none ∧ t.getF R.sliceCmdGo F.sliceCmdGo_status = 0) ∧
  (∀ s : State, ∀ (n : Nat) (v : Word), s.Inv = true → (s.serving = true) → (n ≠ 0) → (getBits v F.sliceCmdGo_slice = n) → (getBits v F.sliceCmdGo_op = 5) → (s.getF R.sliceCmdGo F.sliceCmdGo_busy = 0) → (s.sliceState n = 2) → (standbyHolds s n = false) → (s.pasidClash n = true) → (s.replicates 3 n = false) → 
    Does (.sliceResume v) s fun t =>
      t.sliceState n = 2 ∧ t.sliceCmd = none ∧ t.getF R.sliceCmdGo F.sliceCmdGo_status = 3 ∧ MemKept s t ∧ RegsKept s t (R.sliceCmdGo :: daybookRegs)) ∧
  (∀ s : State, ∀ (n : Nat) (v : Word), s.Inv = true → (s.serving = true) → (getBits v F.sliceCmdGo_slice = n) → (getBits v F.sliceCmdGo_op = 7) → (s.getF R.sliceCmdGo F.sliceCmdGo_busy = 0) → (s.sliceState n = 1) → (s.replicates 3 n = false) → 
    Does (.logStart v) s fun t =>
      t.getF (R.logCfg n) F.logCfg_active = 1 ∧ t.getF (R.logCfg n) F.logCfg_buffer = 0 ∧ t.getF (R.logCfg n) F.logCfg_overflow = 0 ∧ t.sliceCmd = none ∧ Kept s t [R.logCfg n, R.sliceCmdGo] [tallyKey 5 0 n]) ∧
  (∀ s : State, ∀ (n : Nat) (v : Word), s.Inv = true → (s.serving = true) → (getBits v F.sliceCmdGo_slice = n) → (getBits v F.sliceCmdGo_op = 8) → (s.getF R.sliceCmdGo F.sliceCmdGo_busy = 0) → (s.sliceState n = 1 ∨ s.sliceState n = 2) → (s.getF (R.logCfg n) F.logCfg_active = 1) → (s.replicates 3 n = false) → 
    Does (.logSwap v) s fun t =>
      t.getF (R.logCfg n) F.logCfg_buffer = 1 - s.getF (R.logCfg n) F.logCfg_buffer ∧ t.sliceCmd = some (8, n) ∧ t.dirty = s.dirty ∧ Kept s t [R.logCfg n, R.sliceCmdGo] []) ∧
  (∀ s : State, ∀ (n : Nat) (v : Word), s.Inv = true → (s.serving = true) → (getBits v F.sliceCmdGo_slice = n) → (getBits v F.sliceCmdGo_op = 9) → (s.getF R.sliceCmdGo F.sliceCmdGo_busy = 0) → (s.sliceState n = 1 ∨ s.sliceState n = 2) → (s.getF (R.logCfg n) F.logCfg_active = 1) → (s.replicates 3 n = false) → 
    Does (.logStop v) s fun t =>
      t.getF (R.logCfg n) F.logCfg_active = 0 ∧ t.sliceCmd = some (9, n) ∧ t.dirty = s.dirty ∧ Kept s t [R.logCfg n, R.sliceCmdGo] []) ∧
  (∀ s : State, ∀ (n : Nat), s.Inv = true → (s.sliceCmd = some (8, n)) → (s.hostPath (s.sliceFn n) = true) → ((s.dirty.any fun d => d.slice == n && d.buffer != s.getF (R.logCfg n) F.logCfg_buffer) = false) → 
    Does (.logSwapDone n) s fun t =>
      t.sliceCmd = none ∧ t.getF R.sliceCmdGo F.sliceCmdGo_status = 0 ∧ t.getF R.sliceCmdGo F.sliceCmdGo_busy = 0 ∧ Kept s t [R.sliceCmdGo, R.epStatus (s.sliceFn n)] [tallyKey 5 0 n]) ∧
  (∀ s : State, ∀ (n : Nat), s.Inv = true → (s.sliceCmd = some (8, n)) → (s.hostPath (s.sliceFn n) = true) → ((s.dirty.any fun d => d.slice == n && d.buffer != s.getF (R.logCfg n) F.logCfg_buffer) = true) → 
    Does (.logSwapDone n) s fun t =>
      t = s) ∧
  (∀ s : State, ∀ (d : DirtyPage) (r : List DirtyPage) (l : List Byte), s.Inv = true → (s.dirty = d :: r) → (l.length = 8) → (s.hostPath d.fn = true) → ((s.nextTag d.fn).isNone = false) → 
    Does (.dirtyBitWrite (.bytes l)) s fun t =>
      t.dirty = r ∧ Wrote t (s.writesOf d.fn none (d.base + d.page / 64 * 8) (bytesLE 8 (leNat l ||| 2 ^ (d.page % 64)))) ∧ Kept s t [R.epStatus d.fn] []) ∧
  (∀ s : State, ∀ (n : Nat), s.Inv = true → (n < 256) → (s.tablesRise = true) → (s.sliceState n = 3) → (s.storeBusy n = false) → (s.sliceCmd = some (3, n)) → 
    Does (.sliceResetDone n false) s fun t =>
      t.sliceState n = 1 ∧ t.sliceCmd = none ∧ t.getF R.sliceCmdGo F.sliceCmdGo_status = 0 ∧ t.holdsKeys n = false ∧ (s.holdsKeys n = false → MemKept s t)) ∧
  (∀ s : State, ∀ (n : Nat), s.Inv = true → (n < 256) → (s.tablesRise = true) → (s.sliceState n = 3) → (s.storeBusy n = false) → (s.sliceCmd = some (2, n)) → 
    Does (.sliceResetDone n false) s fun t =>
      t.sliceState n = 4 ∧ t.sliceCmd = none ∧ t.getF R.sliceCmdGo F.sliceCmdGo_status = 0 ∧ (t.regions.all fun e => e.2.owner != n || e.2.state == 2) = true ∧ t.holdsKeys n = false ∧ (s.holdsKeys n = false → MemKept s t)) ∧
  (∀ s : State, ∀ (n : Nat) (force : Bool), s.Inv = true → (s.sliceState n ≠ 3) → 
    Does (.sliceResetDone n force) s fun t =>
      t = s) ∧
  (∀ s : State, ∀ (n : Nat), s.Inv = true → (s.sliceCmd = some (4, n)) → (s.sliceBusy n = false) → 
    Does (.quiesceDone n) s fun t =>
      t.sliceCmd = none ∧ t.getF R.sliceCmdGo F.sliceCmdGo_status = 0 ∧ Kept s t [R.sliceCmdGo] [tallyKey 5 0 n]) ∧
  (∀ s : State, ∀ (n : Nat), s.Inv = true → (s.sliceState n = 4) → ((s.regions.any fun e => e.2.owner == n) = false) → ((s.serve.frames.any fun e => e.2.slice == n) = false) → ((s.bench.leftBy.any fun e => e.2 == n) = false) → 
    Does (.sliceZeroingDone n) s fun t =>
      t.sliceState n = 0 ∧ Kept s t [R.sliceBind n] []) ∧
  (∀ s : State, ∀ (n : Nat), s.Inv = true → ((s.regions.any fun e => e.2.owner == n) = true ∨ (s.serve.frames.any fun e => e.2.slice == n) = true ∨ (s.bench.leftBy.any fun e => e.2 == n) = true) → 
    Does (.sliceZeroingDone n) s fun t =>
      t = s) ∧
  (∀ s : State, ∀ (fn p : Nat) (v : Word), s.Inv = true → (s.serving = true) → (fn < 2) → (p < 16384) → (getBits v F.doorbellEntry_valid = 1) → (s.sliceState (getBits v F.doorbellEntry_slice) ≠ 0) → (s.sliceFn (getBits v F.doorbellEntry_slice) = fn) → (s.queueOwner (getBits v F.doorbellEntry_kind) (getBits v F.doorbellEntry_queue) = some (getBits v F.doorbellEntry_slice)) → (s.replicates 3 (getBits v F.doorbellEntry_slice) = false) → 
    Does (.doorbellEntryWrite fn p v) s fun t =>
      ([F.doorbellEntry_valid, F.doorbellEntry_kind, F.doorbellEntry_slice, F.doorbellEntry_queue].all fun f => t.getF (R.doorbellEntry fn p) f == getBits v f) = true ∧ Kept s t [R.doorbellEntry fn p] []) ∧
  (∀ s : State, ∀ (fn p : Nat) (v : Word), s.Inv = true → (s.serving = true) → (fn < 2) → (p < 16384) → (getBits v F.doorbellEntry_valid = 1) → (s.sliceFn (getBits v F.doorbellEntry_slice) ≠ fn) → 
    Does (.doorbellEntryWrite fn p v) s fun t =>
      t.reg (R.doorbellEntry fn p) = s.reg (R.doorbellEntry fn p) ∧ MemKept s t ∧ RegsKept s t daybookRegs) ∧
  (∀ s : State, ∀ (fn a : Nat) (v : Word), s.Inv = true → (s.serving = true) → (fn < 2) → (a < 4096) → (getBits v F.aperCtrl_valid = 0) → (s.replicates 3 (getBits v F.aperCtrl_slice) = false) → 
    Does (.apertureEntryWrite fn a 3 v) s fun t =>
      ([F.aperCtrl_valid, F.aperCtrl_slice, F.aperCtrl_w, F.aperCtrl_r].all fun f => t.getF (R.aperCtrl fn a) f == getBits v f) = true ∧ Kept s t [R.aperCtrl fn a] []) ∧
  (∀ s : State, ∀ (fn a : Nat) (v : Word), s.Inv = true → (s.serving = true) → (fn < 2) → (a < 4096) → ((s.setReg (R.aperSize fn a) (setBits 0 F.aperSize_units (getBits v F.aperSize_units))).apertureClash fn a = true) → 
    Does (.apertureEntryWrite fn a 2 v) s fun t =>
      t.reg (R.aperSize fn a) = s.reg (R.aperSize fn a) ∧ MemKept s t ∧ RegsKept s t daybookRegs) ∧
  (∀ s : State, ∀ (q : Nat) (v : Word) (owner : Nat), s.Inv = true → (s.serving = true) → (q < 1024) → (s.getF (R.bqCfg q) F.bqCfg_enable = 0) → (getBits v F.bqCfg_enable = 1) → (owner = getBits v F.bqCfg_owner) → (s.sliceState owner = 1) → (s.getF (R.bqRing q) F.bqRing_space = 1) → (s.queueQuota .bench owner = false) → (s.replicates 3 owner = false) → 
    Does (.queueEnable .bench q v) s fun t =>
      t.getF (R.bqCfg q) F.bqCfg_enable = 1 ∧ t.getF (R.bqCfg q) F.bqCfg_owner = owner ∧ t.getF (R.bqStatus q) F.bqStatus_state < 4 ∧ Kept s t [R.bqCfg q, R.bqStatus q, R.bqTail q] [] ∧ (s.getF (R.bqCfg q) F.bqCfg_owner = owner → t.reg (R.bqTail q) = s.reg (R.bqTail q))) ∧
  (∀ s : State, ∀ (kind : QueueKind) (q : Nat) (v : Word) (owner : Nat), s.Inv = true → (s.serving = true) → (q < queueCount kind) → (owner = getBits v (55, 48)) → (getBits v (63, 63) = 1) → (s.getF (queueRegs kind q v).cfg (63, 63) = 1 ∨ s.sliceState owner ≠ 1) → 
    Does (.queueEnable kind q v) s fun t =>
      t.reg (queueRegs kind q v).cfg = s.reg (queueRegs kind q v).cfg ∧ MemKept s t ∧ RegsKept s t daybookRegs) ∧
  (∀ s : State, ∀ (q : Nat) (v : Word) (owner : Nat), s.Inv = true → (s.serving = true) → (q < 4096) → (getBits v F.crCfg_enable = 0) → (owner = getBits v F.crCfg_owner) → (s.getF (R.crCfg q) F.crCfg_enable = 1) → (s.replicates 3 owner = false) → 
    Does (.queueEnable .completion q v) s fun t =>
      t.getF (R.crCfg q) F.crCfg_enable = 0 ∧ Tab.erase s.ringWait q = t.ringWait ∧ t.getF (R.crStatus q) F.crStatus_full = 0 ∧ MemKept s t ∧ RegsKept s t ([R.crCfg q, R.crStatus q, R.crHead q] ++ daybookRegs) ∧ (s.getF (R.crCfg q) F.crCfg_owner = owner → t.reg (R.crHead q) = s.reg (R.crHead q))) ∧
  (∀ s : State, ∀ (r : Nat) (v : Word), s.Inv = true → (r < 4096) → (s.getF (R.crCfg r) F.crCfg_enable = 1) → (s.sliceState (s.getF (R.crCfg r) F.crCfg_owner) = 1) → (v.toNat % 2 ^ 16 < s.crSize r) → 
    Does (.completionRingDoorbell (.reg r v)) s fun t =>
      t.getF (R.crHead r) F.crHead_head = v.toNat % 2 ^ 16 ∧ Kept s t [R.crHead r] []) ∧
  (∀ s : State, ∀ (r : Nat) (v : Word), s.Inv = true → (r < 4096) → (s.getF (R.crCfg r) F.crCfg_enable = 1) → (s.sliceState (s.getF (R.crCfg r) F.crCfg_owner) = 1) → (s.crSize r ≤ v.toNat % 2 ^ 16) → 
    Does (.completionRingDoorbell (.reg r v)) s fun t =>
      MemKept s t ∧ RegsKept s t daybookRegs ∧ t.tallyOf 5 63 (s.getF (R.crCfg r) F.crCfg_owner) = s.tallyOf 5 63 (s.getF (R.crCfg r) F.crCfg_owner) + 1) ∧
  (∀ s : State, ∀ (r : Nat) (v : Word), s.Inv = true → (r < 4096) → (s.getF (R.crCfg r) F.crCfg_enable = 0) → 
    Does (.completionRingDoorbell (.reg r v)) s fun t =>
      t.getF (R.crHead r) F.crHead_head = v.toNat % 2 ^ 16 ∧ Kept s t [R.crHead r] []) ∧
  (∀ s : State, ∀ (r n : Nat) (v : Word), s.Inv = true → (r < 4096) → (s.getF (R.crCfg r) F.crCfg_enable = 1) → (n = s.getF (R.crCfg r) F.crCfg_owner) → (s.sliceState n ≠ 1) → 
    Does (.completionRingDoorbell (.reg r v)) s fun t =>
      t.tallyOf 5 1 n = s.tallyOf 5 1 n + 1 ∧ Kept s t [] [tallyKey 5 1 n]) ∧
  (∀ s : State, ∀ (fn p off len v r i n : Nat), s.Inv = true → (s.bell 3 (.page fn p off len v) = .hit r i) → (s.getF (R.crCfg r) F.crCfg_enable = 0) → (n = s.getF (R.crCfg r) F.crCfg_owner) → 
    Does (.completionRingDoorbell (.page fn p off len v)) s fun t =>
      t.tallyOf 5 1 n = s.tallyOf 5 1 n + 1 ∧ Kept s t [] [tallyKey 5 1 n]) ∧
  (∀ s : State, ∀ (r a : Nat) (x : Rec), s.Inv = true → (Tab.get [] s.ringWait r = [x]) → (s.crOpen r x.slice = true) → (s.crFull r = false) → (s.getF (R.crRing r) F.crRing_space = 0) → (a = s.getF (R.crRing r) F.crRing_base * 4096 + s.getF (R.crStatus r) F.crStatus_tail * 32) → ((s.memWrite 0x05 x.slice 6 x.slice a (x.bytes (s.getF (R.crStatus r) F.crStatus_phase))).1 = none) → (s.noneWaits = true) → 
    Does (.pendingRecordWrite r) s fun t =>
      t.mem = putCells s.mem a (x.bytes (s.getF (R.crStatus r) F.crStatus_phase)) ∧ t.getF (R.crStatus r) F.crStatus_tail = (s.getF (R.crStatus r) F.crStatus_tail + 1) % s.crSize r ∧ t.getF (R.crStatus r) F.crStatus_full = 0 ∧ t.ringWait = Tab.put [] s.ringWait r []) ∧
  (∀ s : State, ∀ (r : Nat) (x : Rec) (xs : List Rec), s.Inv = true → (Tab.get [] s.ringWait r = x :: xs) → (s.crOpen r x.slice = true) → (s.crFull r = true) → 
    Does (.pendingRecordWrite r) s fun t =>
      t = s)

/-- A configuration access below a port in state 3 is sent and its answer read back; below another port it reads all ones. An
inbound read answers the bytes behind its window, a write stores exactly its bytes, an AtomicOp answers the old value and stores
the new one; one that hits no window changes no byte, is logged in DP_VIOL_LOG, and completes with UR where it is non-posted; a
write above 512 bytes is malformed: dropped, counted and logged in the Root Port's AER. An accepted presence change sets
presence_changed, a power fault turns the port off. A port goes off, powering, training, link up and down as R300 says; leaving
state 3 clears port_enable, and port_enable is set in state 3 only. A power_ctrl, hot reset or enable write that is refused
changes no register but the daybook's. An error message is counted and logged. -/
def Obligations.PortCommands : Prop :=
  (∀ s : State, ∀ (p f : Nat) (v : Nat), s.Inv = true → (s.serving = true) → (p < 16) → (s.portState p = 3) → (f = s.getF (R.dpCfgData p) F.dpCfgData_function) → 
    Does (.dpCfgAccess p false 0 (some v)) s fun t =>
      t.getF (R.dpCfgData p) F.dpCfgData_data = v % 2 ^ 32 ∧ t.out = .regData (t.reg (R.dpCfgData p)) :: .portConfig p f (s.getF (R.dpCfgAddr p) F.dpCfgAddr_reg / 4 * 4) none :: s.out ∧ Kept s t [R.dpCfgData p] []) ∧
  (∀ s : State, ∀ (p : Nat) (reply : Option Nat), s.Inv = true → (s.serving = true) → (p < 16) → (s.portState p ≠ 3) → 
    Does (.dpCfgAccess p false 0 reply) s fun t =>
      t.getF (R.dpCfgData p) F.dpCfgData_data = 0xFFFFFFFF ∧ t.out = .regData (t.reg (R.dpCfgData p)) :: s.out ∧ Kept s t [R.dpCfgData p] []) ∧
  (∀ s : State, ∀ (p : Nat) (v : Word), s.Inv = true → (s.serving = true) → (p < 16) → (s.portState p = 3) → 
    Does (.dpCfgAccess p true v none) s fun t =>
      t.out = .portConfig p (getBits v F.dpCfgData_function) (s.getF (R.dpCfgAddr p) F.dpCfgAddr_reg / 4 * 4) (some (getBits v F.dpCfgData_data)) :: s.out ∧ Kept s t [R.dpCfgData p] []) ∧
  (∀ s : State, ∀ (p bus n a : Nat) (l : List Byte), s.Inv = true → (p < 16) → (s.portUsable p = true) → (s.onDoorbellPage p bus n = false) → (s.windowHit p bus n false true = some a) → ((s.memRead 0x07 p 6 (s.getF (R.dpStatus p) F.dpStatus_owner) a n).1 = .bytes l) → (s.noneWaits = true) → 
    Does (.inboundPortRequest p bus (.mem (.read n))) s fun t =>
      t.out.head? = some (.portData p l) ∧ MemKept s t) ∧
  (∀ s : State, ∀ (p bus a : Nat) (l : List Byte), s.Inv = true → (p < 16) → (l.length ≤ 512) → (s.portUsable p = true) → (s.onDoorbellPage p bus l.length = false) → (s.windowHit p bus l.length true false = some a) → ((s.memWrite 0x07 p 6 (s.getF (R.dpStatus p) F.dpStatus_owner) a l).1 = none) → (s.noneWaits = true) → 
    Does (.inboundPortRequest p bus (.mem (.write l))) s fun t =>
      t.mem = putCells s.mem a l) ∧
  (∀ s : State, ∀ (p bus n a v : Nat) (op : AtomicReq) (l : List Byte), s.Inv = true → (p < 16) → (s.portUsable p = true) → (n = 4 ∨ n = 8) → ((atomicNew op 0).map Prod.fst = some n) → (bus % n = 0) → (s.onDoorbellPage p bus n = false) → (s.windowHit p bus n true true = some a) → (s.memRead 0x07 p 6 (s.getF (R.dpStatus p) F.dpStatus_owner) a n = (.bytes l, s)) → (atomicNew op (leNat l) = some (n, v)) → ((s.memWrite 0x07 p 6 (s.getF (R.dpStatus p) F.dpStatus_owner) a (bytesLE n v)).1 = none) → (s.noneWaits = true) → 
    Does (.inboundPortRequest p bus (.atomic op)) s fun t =>
      t.mem = putCells s.mem a (bytesLE n v) ∧ t.out.head? = some (.portData p l)) ∧
  (∀ s : State, ∀ (p bus n : Nat), s.Inv = true → (p < 16) → (s.portUsable p = false ∨ s.windowHit p bus n false true = none) → 
    Does (.inboundPortRequest p bus (.mem (.read n))) s fun t =>
      t.reg (R.dpViolLog p) = BitVec.ofNat 64 bus ∧ t.out.head? = some (.portUr p) ∧ natBit (t.reg (R.dpSlotStatus p)).toNat 4 = true ∧ t.tallyOf 7 0 p = s.tallyOf 7 0 p + 1 ∧ MemKept s t) ∧
  (∀ s : State, ∀ (p bus : Nat) (l : List Byte), s.Inv = true → (p < 16) → (512 < l.length) → 
    Does (.inboundPortRequest p bus (.mem (.write l))) s fun t =>
      natBit (Tab.get 0 t.slots.unc p) aerMalformed = true ∧ t.tallyOf 7 63 p = s.tallyOf 7 63 p + 1 ∧ t.tallyOf 7 0 p = s.tallyOf 7 0 p + 1 ∧ MemKept s t ∧ RegsKept s t daybookRegs) ∧
  (∀ s : State, ∀ (p bus : Nat) (l : List Byte), s.Inv = true → (p < 16) → (l.length ≤ 512) → (s.portUsable p = false ∨ s.onDoorbellPage p bus l.length = false ∧ s.windowHit p bus l.length true false = none) → 
    Does (.inboundPortRequest p bus (.mem (.write l))) s fun t =>
      t.reg (R.dpViolLog p) = BitVec.ofNat 64 bus ∧ natBit (t.reg (R.dpSlotStatus p)).toNat 4 = true ∧ t.tallyOf 7 0 p = s.tallyOf 7 0 p + 1 ∧ MemKept s t) ∧
  (∀ s : State, ∀ (p : Nat) (bits : List (BitVec 8)), s.Inv = true → (p < 16) → (natBit (bits.getD p 0).toNat 0 = true) → (natBit (Tab.get 0 s.slots.last p).toNat 0 = true) → (natBit (Tab.get 0 s.slots.accepted p).toNat 0 = false) → (natBit (Tab.get 0 s.slots.accepted p).toNat 2 = true) → (s.portState p = 0) → 
    Does (.sgpioFrame bits) s fun t =>
      t.getF (R.dpSlotStatus p) F.dpSlotStatus_presence = 1 ∧ natBit (t.reg (R.dpSlotStatus p)).toNat 0 = true) ∧
  (∀ s : State, ∀ (p : Nat) (bits : List (BitVec 8)), s.Inv = true → (p < 16) → (natBit (bits.getD p 0).toNat 2 = true) → (natBit (Tab.get 0 s.slots.last p).toNat 2 = true) → (natBit (Tab.get 0 s.slots.accepted p).toNat 2 = false) → 
    Does (.sgpioFrame bits) s fun t =>
      t.portState p = 0 ∧ natBit (t.reg (R.dpSlotStatus p)).toNat 2 = true ∧ natBit t.pins.portPerst p = true) ∧
  (∀ s : State, ∀ (p : Nat), s.Inv = true → (s.serving = true) → (p < 16) → (s.portState p = 0) → 
    Does (.powerCtrlWrite p true) s fun t =>
      t.portState p = 1 ∧ t.getF (R.dpSlotCtrl p) F.dpSlotCtrl_power_ctrl = 1 ∧ natBit t.pins.portPerst p = true ∧ Kept s t [R.dpStatus p, R.dpSlotCtrl p] []) ∧
  (∀ s : State, ∀ (p : Nat), s.Inv = true → (s.serving = true) → (p < 16) → (s.getF (R.dpCtrl p) F.dpCtrl_port_enable = 0) → 
    Does (.powerCtrlWrite p false) s fun t =>
      t.portState p = 0 ∧ t.getF (R.dpSlotCtrl p) F.dpSlotCtrl_power_ctrl = 0 ∧ natBit t.pins.portPerst p = true) ∧
  (∀ s : State, ∀ (p : Nat), s.Inv = true → (s.serving = true) → (p < 16) → (s.getF (R.dpCtrl p) F.dpCtrl_port_enable = 1) → 
    Does (.powerCtrlWrite p false) s fun t =>
      t.pins = s.pins ∧ MemKept s t ∧ RegsKept s t daybookRegs) ∧
  (∀ s : State, ∀ (p : Nat), s.Inv = true → (p < 16) → (s.portState p = 1) → 
    Does (.poweringEnd p) s fun t =>
      t.portState p = 2 ∧ natBit t.pins.portPerst p = false ∧ Kept s t [R.dpStatus p] []) ∧
  (∀ s : State, ∀ (p wd sp : Nat) (flit : Bool), s.Inv = true → (p < 16) → (s.portState p = 2) → (wd < 32) → (sp < 16) → 
    Does (.portLinkUp p wd sp flit) s fun t =>
      t.portState p = 3 ∧ t.getF (R.dpStatus p) F.dpStatus_width = wd ∧ t.getF (R.dpStatus p) F.dpStatus_speed = sp ∧ t.getF (R.dpStatus p) F.dpStatus_flit = (if flit then 1 else 0) ∧ MemKept s t ∧ RegsKept s t (R.dpStatus p :: daybookRegs)) ∧
  (∀ s : State, ∀ (p : Nat), s.Inv = true → (p < 16) → (s.portState p ≠ 2) → 
    Does (.portLinkUp p 16 6 true) s fun t =>
      t = s) ∧
  (∀ s : State, ∀ (p : Nat), s.Inv = true → (p < 16) → (s.portState p = 3) → 
    Does (.portLinkDown p) s fun t =>
      t.portState p = 4 ∧ t.getF (R.dpCtrl p) F.dpCtrl_port_enable = 0 ∧ natBit (t.reg (R.dpSlotStatus p)).toNat 3 = true ∧ natBit t.pins.portPerst p = true) ∧
  (∀ s : State, ∀ (p : Nat), s.Inv = true → (p < 16) → (s.portState p = 2) → 
    Does (.trainFail p) s fun t =>
      t.portState p = 2 ∧ natBit (t.reg (R.dpSlotStatus p)).toNat 7 = true ∧ MemKept s t) ∧
  (∀ s : State, ∀ (p : Nat), s.Inv = true → (s.serving = true) → (p < 16) → (s.getF (R.dpCtrl p) F.dpCtrl_port_enable = 0) → (1 < s.portState p) → 
    Does (.hotReset p) s fun t =>
      t.portState p = 2 ∧ natBit t.pins.portPerst p = false) ∧
  (∀ s : State, ∀ (p : Nat), s.Inv = true → (s.serving = true) → (p < 16) → (s.getF (R.dpCtrl p) F.dpCtrl_port_enable = 1) → 
    Does (.hotReset p) s fun t =>
      t.portState p = s.portState p ∧ t.pins = s.pins ∧ MemKept s t ∧ RegsKept s t daybookRegs) ∧
  (∀ s : State, ∀ (p : Nat), s.Inv = true → (s.serving = true) → (p < 16) → (s.portState p = 3) → 
    Does (.portEnableWrite p true) s fun t =>
      t.getF (R.dpCtrl p) F.dpCtrl_port_enable = 1 ∧ t.portState p = 3) ∧
  (∀ s : State, ∀ (p : Nat), s.Inv = true → (s.serving = true) → (p < 16) → (s.portState p ≠ 3) → 
    Does (.portEnableWrite p true) s fun t =>
      t.portState p = s.portState p ∧ MemKept s t ∧ RegsKept s t daybookRegs) ∧
  (∀ s : State, ∀ (p : Nat), s.Inv = true → (s.serving = true) → (p < 16) → (s.getF (R.dpCtrl p) F.dpCtrl_port_enable = 1) → 
    Does (.portEnableWrite p false) s fun t =>
      t.getF (R.dpCtrl p) F.dpCtrl_port_enable = 0 ∧ t.portState p = s.portState p) ∧
  (∀ s : State, ∀ (p sev : Nat), s.Inv = true → (p < 16) → (sev < 3) → 
    Does (.errMessage p sev) s fun t =>
      t.tallyOf 7 4 p = s.tallyOf 7 4 p + 1 ∧ (sev ≠ 0 → natBit (t.reg (R.dpSlotStatus p)).toNat 5 = true) ∧ t.portState p = s.portState p ∧ MemKept s t)

/-- A doorbell moves the submission tail or the completion head; one beyond its queue is recorded and moves nothing. A fetched
command is taken with the bytes of its entry, an unknown opcode ends with 0/0x01. Identify, Get Log Page, features, events, Keep
Alive and Abort are answered by the device: their data and their entry go to the slice's host memory. A forwarded command is
written to the mediation ring under a tag, and its entry is posted with the status of the manager's reply, or with 0/0x06 after
60 s; a reply to a tag that is not outstanding is only recorded. A queue pair is enabled for an active owner, and disabling it
drains what a backend has. -/
def Obligations.StorageQueueCommands : Prop :=
  (∀ s : State, ∀ (fn p v q i : Nat), s.Inv = true → (s.bellAt 4 0 (.page fn p 0 4 v) = .hit q i) → (s.qpOpen q = true) → (i < s.sqSlots q) → 
    Does (.nvmeSqDoorbell (.page fn p 0 4 v)) s fun t =>
      t.getF (R.qpStatus q) F.qpStatus_sq_tail = i % 2 ^ 16 ∧ Kept s t [R.qpStatus q] []) ∧
  (∀ s : State, ∀ (fn p v q i : Nat), s.Inv = true → (s.bellAt 4 0 (.page fn p 0 4 v) = .hit q i) → (s.qpOpen q = true) → (s.sqSlots q ≤ i) → 
    Does (.nvmeSqDoorbell (.page fn p 0 4 v)) s fun t =>
      MemKept s t ∧ RegsKept s t daybookRegs ∧ t.tallyOf 5 63 (s.qpSlice q) = s.tallyOf 5 63 (s.qpSlice q) + 1 ∧ (Tab.find? t.store.errored q).isSome = true) ∧
  (∀ s : State, ∀ (fn p v q i : Nat), s.Inv = true → (Tab.rising s.store.cqHead = true) → (s.bellAt 4 4 (.page fn p 4 4 v) = .hit q i) → (s.qpOpen q = true) → (i < s.cqSlots q) → (Tab.get [] s.store.waiting q = []) → 
    Does (.nvmeCqDoorbell (.page fn p 4 4 v)) s fun t =>
      Tab.get 0 t.store.cqHead q = i ∧ t.out = s.out ∧ Kept s t [R.qpStatus q] []) ∧
  (∀ s : State, ∀ (fn p v q i : Nat) (e : NvmeCqe), s.Inv = true → (Tab.rising s.store.cqHead = true) → (s.bellAt 4 4 (.page fn p 4 4 v) = .hit q i) → (s.qpOpen q = true) → (i < s.cqSlots q) → (Tab.get [] s.store.waiting q = [e]) → ((s.getF (R.qpStatus q) F.qpStatus_cq_tail + 1) % s.cqSlots q ≠ i) → (s.hostPath (s.sliceFn (s.qpSlice q)) = true) → 
    Does (.nvmeCqDoorbell (.page fn p 4 4 v)) s fun t =>
      t.out.contains (.hostWrite (s.sliceFn (s.qpSlice q)) (s.slicePasid (s.qpSlice q)) (s.getF (R.qpCq q) F.qpCq_base * 4096 + s.getF (R.qpStatus q) F.qpStatus_cq_tail * 16) (e.bytes (s.getF (R.qpStatus q) F.qpStatus_phase))) = true ∧ MemKept s t) ∧
  (∀ s : State, ∀ (q head : Nat) (l : List Byte) (g : Got), s.Inv = true → (s.qpOpen q = true) → (s.fetches (s.qpSlice q) = true) → (head = s.getF (R.qpStatus q) F.qpStatus_sq_head) → (head ≠ s.getF (R.qpStatus q) F.qpStatus_sq_tail) → (Tab.get [] s.store.waiting q = []) → (s.getF R.storCfg F.storCfg_apprentice = 0) → (Tab.find? s.store.removed (q * 2 ^ 16 + head) = none) → (s.qpTurn (s.qpSlice q) = some q) → (s.ringWaits (s.qpSlice q) 1 = false) → ((s.ringRead (s.qpSlice q) (s.getF (R.qpSq q) F.qpSq_base * 4096) 1 (head * 64) 64 g).1 = .bytes l) → ((if q ≥ 0x1000 then adminListed (fieldLE l 0 1) else [0, 1, 2, 8, 9].contains (fieldLE l 0 1)) = true) → 
    Does (.nvmeCommandFetch q g) s fun t =>
      t.nvme? s.store.nextCmd = some ⟨q, s.qpSlice q, l, none, [], [], 0, false, false, 0⟩ ∧ t.getF (R.qpStatus q) F.qpStatus_sq_head = (head + 1) % s.sqSlots q ∧ t.store.nextCmd = s.store.nextCmd + 1 ∧ MemKept s t) ∧
  (∀ s : State, ∀ (q head : Nat) (l : List Byte) (g : Got), s.Inv = true → (q < 0x1000) → (s.qpOpen q = true) → (s.fetches (s.qpSlice q) = true) → (head = s.getF (R.qpStatus q) F.qpStatus_sq_head) → (head ≠ s.getF (R.qpStatus q) F.qpStatus_sq_tail) → (s.cqeRoom q = true) → (s.getF R.storCfg F.storCfg_apprentice = 0) → (Tab.find? s.store.removed (q * 2 ^ 16 + head) = none) → (s.qpTurn (s.qpSlice q) = some q) → (s.ringWaits (s.qpSlice q) 1 = false) → ((s.ringRead (s.qpSlice q) (s.getF (R.qpSq q) F.qpSq_base * 4096) 1 (head * 64) 64 g).1 = .bytes l) → ([0, 1, 2, 8, 9].contains (fieldLE l 0 1) = false) → 
    Does (.nvmeCommandFetch q g) s fun t =>
      t.out.contains ((s.setF (R.qpStatus q) F.qpStatus_sq_head ((head + 1) % s.sqSlots q)).cqeOut ⟨q, s.qpSlice q, l, none, [], [], 0, false, false, 0⟩ 0x001 true 0) = true ∧ MemKept s t) ∧
  (∀ s : State, ∀ (id a : Nat) (c : NvmeCmd), s.Inv = true → (s.adminIs id 0x06 c = true) → (c.field 40 1 = 1) → (c.buffer 4096 [] = (0, [(a, 4096)])) → (s.hostPath (s.sliceFn c.slice) = true) → (c.slice = s.qpSlice c.queue) → 
    Does (.identify id) s fun t =>
      Wrote t (s.writesOf (s.sliceFn c.slice) (s.slicePasid c.slice) a identifyController) ∧ t.out.contains (s.cqeOut c 0 false 0) = true ∧ identifyController.getD 77 0 = 9 ∧ fieldLE identifyController 520 2 = 0x0C ∧ MemKept s t) ∧
  (∀ s : State, ∀ (id : Nat) (c : NvmeCmd), s.Inv = true → (s.adminIs id 0x06 c = true) → (c.field 40 1 = 0) → (s.nsOf c.slice (c.field 4 4) = none) → 
    Does (.identify id) s fun t =>
      t.out.contains (s.cqeOut c 0x00B true 0) = true ∧ MemKept s t) ∧
  (∀ s : State, ∀ (id a : Nat) (c : NvmeCmd) (lists : List Got), s.Inv = true → (s.adminIs id 0x02 c = true) → (c.field 40 1 = 4) → (c.field 42 2 = 1023) → (c.field 44 2 = 0) → (c.field 48 8 = 0) → (c.buffer 4096 lists = (0, [(a, 4096)])) → (s.hostPath (s.sliceFn c.slice) = true) → 
    Does (.getLogPage id lists) s fun t =>
      Wrote t (s.writesOf (s.sliceFn c.slice) (s.slicePasid c.slice) a (padTo 4096 ((s.nvmeCtl c.slice).changed.flatMap fun i => bytesLE 4 i))) ∧ t.out.contains (s.cqeOut c 0 false 0) = true ∧ MemKept s t) ∧
  (∀ s : State, ∀ (id a : Nat) (c : NvmeCmd) (lists : List Got), s.Inv = true → (s.adminIs id 0x02 c = true) → (c.field 40 1 = 2) → (c.field 42 2 = 127) → (c.field 44 2 = 0) → (c.buffer 512 lists = (0, [(a, 512)])) → (s.hostPath (s.sliceFn c.slice) = true) → 
    Does (.getLogPage id lists) s fun t =>
      ((s.writesOf (s.sliceFn c.slice) none a (zeros 512)).all fun p => t.out.any fun o => match o, p with | .hostWrite _ _ b l, .hostWrite _ _ e m => b == e && l.length == m.length | _, _ => false) = true ∧ t.out.contains (s.cqeOut c 0 false 0) = true ∧ MemKept s t) ∧
  (∀ s : State, ∀ (id : Nat) (c : NvmeCmd), s.Inv = true → (s.adminIs id 0x0A c = true) → (c.field 40 1 = 0x0B) → 
    Does (.getFeatures id) s fun t =>
      t.out.contains (s.cqeOut c 0 false (s.nvmeCtl c.slice).events) = true ∧ MemKept s t) ∧
  (∀ s : State, ∀ (id : Nat) (c : NvmeCmd), s.Inv = true → (s.adminIs id 0x0A c = true) → (c.field 40 1 = 7) → 
    Does (.getFeatures id) s fun t =>
      t.out.contains (s.cqeOut c 0 false (s.queuesFeature c.slice)) = true ∧ MemKept s t) ∧
  (∀ s : State, ∀ (id : Nat) (c : NvmeCmd), s.Inv = true → (s.adminIs id 0x09 c = true) → (c.field 40 1 = 0x0B) → (s.store.held = []) → (Tab.rising s.store.ctl = true) → 
    Does (.setFeatures id) s fun t =>
      (t.nvmeCtl c.slice).events = c.field 44 4 ∧ t.out.contains (s.cqeOut c 0 false 0) = true ∧ MemKept s t) ∧
  (∀ s : State, ∀ (id : Nat) (c : NvmeCmd), s.Inv = true → (s.adminIs id 0x09 c = true) → ([1, 7, 0x0B, 0x0F].contains (c.field 40 1) = false) → 
    Does (.setFeatures id) s fun t =>
      t.out.contains (s.cqeOut c 0x002 true 0) = true ∧ MemKept s t) ∧
  (∀ s : State, ∀ (id : Nat) (c : NvmeCmd), s.Inv = true → (s.adminIs id 0x0C c = true) → ((s.nvmeCtl c.slice).queued = []) → ((s.nvmeCtl c.slice).waiting.length < 4) → 
    Does (.asynchronousEventRequest id) s fun t =>
      (t.nvmeCtl c.slice).waiting = (s.nvmeCtl c.slice).waiting ++ [id] ∧ t.out = s.out ∧ Kept s t [] []) ∧
  (∀ s : State, ∀ (id e : Nat) (es : List Nat) (c : NvmeCmd), s.Inv = true → (s.adminIs id 0x0C c = true) → ((s.nvmeCtl c.slice).queued = e :: es) → 
    Does (.asynchronousEventRequest id) s fun t =>
      t.out.contains (s.cqeOut c 0 false e) = true ∧ MemKept s t) ∧
  (∀ s : State, ∀ (id : Nat) (c : NvmeCmd), s.Inv = true → (s.adminIs id 0x18 c = true) → 
    Does (.keepAlive id) s fun t =>
      t.out.contains (s.cqeOut c 0 false 0) = true ∧ MemKept s t) ∧
  (∀ s : State, ∀ (id i q : Nat) (l : List Byte) (c : NvmeCmd), s.Inv = true → (s.adminIs id 8 c = true) → (q = c.field 40 2 - 1) → (0 < c.field 40 2) → (q < 0x1000) → (s.qpSlice q = c.slice) → (s.qpOpen q = true) → (s.cqeRoom q = true) → (s.getF (R.qpStatus q) F.qpStatus_sq_head = 0) → (s.getF (R.qpStatus q) F.qpStatus_sq_tail = i + 1) → (i + 1 < s.sqSlots q) → ((below (i + 1)).find? (fun k => fieldLE (l.drop (k * 64)) 2 2 == c.field 42 2 && (Tab.find? s.store.removed (q * 2 ^ 16 + k % s.sqSlots q)).isNone) = some i) → 
    Does (.nvmeAbort id (.bytes l)) s fun t =>
      (t.out.any fun o => match o with | .hostWrite _ _ b e => b == s.getF (R.qpCq q) F.qpCq_base * 4096 + s.getF (R.qpStatus q) F.qpStatus_cq_tail * 16 && fieldLE e 12 2 == c.field 42 2 && fieldLE e 14 2 / 2 == 7 | _ => false) = true ∧ (Tab.find? t.store.removed (q * 2 ^ 16 + i)).isSome = true ∧ MemKept s t) ∧
  (∀ s : State, ∀ (id : Nat) (c : NvmeCmd) (code : Nat), s.Inv = true → (s.adminIs id 8 c = true) → 
    Does (.nvmeAbort id (.fail code)) s fun t =>
      t.out.contains (s.cqeOut c 0 false 1) = true ∧ MemKept s t) ∧
  (∀ s : State, ∀ (id tail a : Nat) (c : NvmeCmd), s.Inv = true → (s.nvme? id = some c) → (c.admin = true) → (adminForwarded c.op = true) → (c.started = false) → (tail = s.getF R.medPtr F.medPtr_tail) → ((tail + 1) % 2 ^ (s.getF R.medRing F.medRing_size + 6) ≠ s.getF R.medPtr F.medPtr_head % 2 ^ (s.getF R.medRing F.medRing_size + 6)) → (a = s.getF R.medRing F.medRing_base * 4096 + tail * 72) → ((s.memWrite 0x08 0 6 0 a (c.raw ++ [BitVec.ofNat 8 c.slice, 0] ++ bytesLE 2 (sqIdOf c.queue) ++ bytesLE 4 s.store.nextTag)).1 = none) → (s.noneWaits = true) → 
    Does (.forwardedAdminCommand id) s fun t =>
      t.mem = putCells s.mem a (c.raw ++ [BitVec.ofNat 8 c.slice, 0] ++ bytesLE 2 (sqIdOf c.queue) ++ bytesLE 4 s.store.nextTag) ∧ Tab.find? t.store.med s.store.nextTag = some id ∧ t.tallyOf 8 7 0 = s.tallyOf 8 7 0 + 1) ∧
  (∀ s : State, ∀ (v : Word) (tag id : Nat) (c : NvmeCmd), s.Inv = true → (s.serving = true) → (tag = getBits v F.medReply_tag) → (Tab.find? s.store.med tag = some id) → (s.store.held.any (fun h => h.1 == tag) = false) → (s.nvme? id = some c) → (c.deletes = none) → (c.fate = 0) → (s.cqeRoom c.queue = true) → 
    Does (.medReply v) s fun t =>
      t.out = s.cqeOut c (getBits v F.medReply_status % 2 ^ 14) (natBit (getBits v F.medReply_status) 14) (s.getF R.medDw0 F.medDw0_dw0) :: s.out ∨ s.getF (R.qpCfg c.queue) F.qpCfg_irq = 1) ∧
  (∀ s : State, ∀ (v : Word), s.Inv = true → (s.serving = true) → (Tab.find? s.store.med (getBits v F.medReply_tag) = none) → 
    Does (.medReply v) s fun t =>
      t.store = s.store ∧ t.out = s.out ∧ MemKept s t ∧ RegsKept s t daybookRegs) ∧
  (∀ s : State, ∀ (tag id : Nat) (c : NvmeCmd), s.Inv = true → (Tab.find? s.store.med tag = some id) → (s.nvme? id = some c) → (c.fate = 0) → (s.cqeRoom c.queue = true) → 
    Does (.mediationTimeout tag) s fun t =>
      t.out.contains (s.cqeOut c 0x006 false 0) = true ∧ MemKept s t) ∧
  (∀ s : State, ∀ (q : Nat) (v : Word) (owner : Nat), s.Inv = true → (s.serving = true) → (q < 0x1000) → (owner = getBits v F.qpCfg_owner) → (s.getF (R.qpCfg q) F.qpCfg_enable = 0) → (getBits v F.qpCfg_enable = 1) → (Tab.find? s.store.deleting q = none) → (s.sliceState owner = 1) → (getBits v F.qpCfg_sq_size ≠ 0) → (getBits v F.qpCfg_cq_size ≠ 0) → (s.vectorOk owner (getBits v F.qpCfg_vector) = true) → (s.replicates 3 owner = false) → ((s.pairsOf owner).length < s.limit owner .queuePairs) → 
    Does (.queuePairEnable q v) s fun t =>
      ([F.qpCfg_enable, F.qpCfg_owner, F.qpCfg_sq_size, F.qpCfg_cq_size, F.qpCfg_irq, F.qpCfg_vector].all fun f => t.getF (R.qpCfg q) f == getBits v f) = true ∧ t.reg (R.qpStatus q) = resetOf (R.qpStatus q) ∧ Kept s t [R.qpCfg q, R.qpStatus q] []) ∧
  (∀ s : State, ∀ (q : Nat) (v : Word), s.Inv = true → (s.serving = true) → (q < 0x1000) → (s.getF (R.qpCfg q) F.qpCfg_enable = 0) → (getBits v F.qpCfg_enable = 1) → (s.sliceState (getBits v F.qpCfg_owner) ≠ 1) → 
    Does (.queuePairEnable q v) s fun t =>
      t.store = s.store ∧ MemKept s t ∧ RegsKept s t daybookRegs) ∧
  (∀ s : State, ∀ (q : Nat) (v : Word), s.Inv = true → (s.serving = true) → (q < 0x1100) → (s.getF (R.qpCfg q) F.qpCfg_enable = 1) → (getBits v F.qpCfg_enable = 0) → (s.qpDraining q = true) → (Tab.rising s.store.cmds = true) → (s.store.held = []) → 
    Does (.queuePairEnable q v) s fun t =>
      t.getF (R.qpCfg q) F.qpCfg_enable = 0 ∧ (Tab.find? t.store.deleting q).isSome = true ∧ (t.store.cmds.all fun e => e.2.queue != q || decide (1 ≤ e.2.fate)) = true ∧ MemKept s t)

/-- A write goes out as its pieces, split at 64 KiB, in order to every usable leg; a read goes to one leg; Write Zeroes, deallocate
and flush to every usable leg, a flush once no earlier write is left. A range past the end ends with 0/0x80 and nothing goes
out. The last completion posts the entry; a failed read of a mirror is retried on the other leg; a failed write or a timeout
fails the leg of a mirror, and the command of a lone leg ends with 0/0x22. A proxy access moves exactly its bytes of the
command's buffer, another is refused. The clean flag, re-arming, copying and the readiness of a backend change the tables as the
rules say. Each of the twelve commands (flush, write, read, Write Zeroes, Dataset Management, a backend's completion, its
timeout, a proxy access, setting the clean flag, re-arming, copying, readiness) answers a next state with its own effect under
conditions on the state and its operands alone. -/
def Obligations.StorageDataCommands : Prop :=
  (∀ s : State, ∀ (id ns : Nat) (c : NvmeCmd), s.Inv = true → (s.ioIs id 0 ns c = true) → (c.pieces = []) → (c.reservedSet = false) → (s.legsServe ns = true) → (s.earlierWrites id ns = false) → 
    Does (.nvmeFlush id) s fun t =>
      s.passedOn t ns 0 0 [⟨0, 0, 0, [], none⟩] (s.liveLegs ns) = true ∧ (t.nvme? id).map (fun d => d.started) = some true ∧ MemKept s t) ∧
  (∀ s : State, ∀ (id ns : Nat) (c : NvmeCmd), s.Inv = true → (s.ioIs id 0 ns c = true) → (c.pieces = []) → (c.reservedSet = false) → (s.legsServe ns = true) → (s.earlierWrites id ns = true) → 
    Does (.nvmeFlush id) s fun t =>
      t.out = s.out ∧ t.store.backs = s.store.backs ∧ Kept s t [] []) ∧
  (∀ s : State, ∀ (id ns z : Nat) (c : NvmeCmd) (lists : List Got) (buf : List (Nat × Nat)), s.Inv = true → (s.ioIs id 1 ns c = true) → (z = s.lbaBytes ns) → (c.slba + c.nlb ≤ s.getF (R.nsSize ns) F.nsSize_lbas) → (c.reservedSet = false) → (c.nlb * z ≤ 2 ^ 21) → (c.buffer (c.nlb * z) lists = (0, buf)) → (s.getF R.storCfg F.storCfg_apprentice = 0) → (s.hostPath (s.sliceFn c.slice) = true) → (s.legsServe ns = true) → (s.flagClear ns = true) → 
    Does (.nvmeWrite id lists) s fun t =>
      s.passedOn t ns 1 c.flags (splitPieces z c.slba c.nlb (s.liveLegs ns)) (s.liveLegs ns) = true ∧ (t.nvme? id).map (fun d => (d.started, d.ns, d.buf, d.pieces)) = some (true, some ns, buf, splitPieces z c.slba c.nlb (s.liveLegs ns)) ∧ t.tallyOf 8 1 0 = s.tallyOf 8 1 0 + BitVec.ofNat 64 (c.nlb * z) ∧ MemKept s t) ∧
  (∀ s : State, ∀ (id ns : Nat) (c : NvmeCmd) (lists : List Got), s.Inv = true → (s.ioIs id 1 ns c = true) → (s.getF (R.nsSize ns) F.nsSize_lbas < c.slba + c.nlb) → 
    Does (.nvmeWrite id lists) s fun t =>
      t.out.contains (s.cqeOut c 0x080 true 0) = true ∧ t.store.backs = s.store.backs ∧ MemKept s t) ∧
  (∀ s : State, ∀ (id ns : Nat) (c : NvmeCmd) (lists : List Got), s.Inv = true → (s.ioIs id 1 ns c = true) → (c.slba + c.nlb ≤ s.getF (R.nsSize ns) F.nsSize_lbas) → (c.reservedSet = true) → 
    Does (.nvmeWrite id lists) s fun t =>
      t.out.contains (s.cqeOut c 0x002 true 0) = true ∧ t.store.backs = s.store.backs ∧ MemKept s t) ∧
  (∀ s : State, ∀ (id : Nat) (c : NvmeCmd) (lists : List Got), s.Inv = true → (s.ioCmd id 1 = some c) → (s.nsOf c.slice (c.field 4 4) = none) → (c.ns = none) → (c.fate = 0) → (s.cqeRoom c.queue = true) → 
    Does (.nvmeWrite id lists) s fun t =>
      t.out.contains (s.cqeOut c 0x00B true 0) = true ∧ t.store.backs = s.store.backs ∧ MemKept s t) ∧
  (∀ s : State, ∀ (id ns z k be : Nat) (c : NvmeCmd) (lists : List Got) (buf : List (Nat × Nat)), s.Inv = true → (s.ioIs id 2 ns c = true) → (z = s.lbaBytes ns) → (c.slba + c.nlb ≤ s.getF (R.nsSize ns) F.nsSize_lbas) → (c.reservedSet = false) → (c.nlb * z ≤ 2 ^ 21) → (c.buffer (c.nlb * z) lists = (0, buf)) → (s.hostPath (s.sliceFn c.slice) = true) → (s.legsServe ns = true) → (s.readLeg ns = some k) → (s.legBackend ns k = some be) → 
    Does (.nvmeRead id lists) s fun t =>
      t.out.contains (.backend s.store.nextBack be 2 (c.slba + s.getF (R.beOffset be) F.beOffset_lba) (min (c.slba + c.nlb) ((c.slba / (65536 / z) + 1) * (65536 / z)) - c.slba) c.flags) = true ∧ (t.nvme? id).map (fun d => d.pieces.map fun p => (p.lba, p.count, p.off)) = some ((splitPieces z c.slba c.nlb []).map fun p => (p.lba, p.count, p.off)) ∧ MemKept s t) ∧
  (∀ s : State, ∀ (id ns z : Nat) (c : NvmeCmd), s.Inv = true → (s.ioIs id 8 ns c = true) → (z = s.lbaBytes ns) → (c.slba + c.nlb ≤ s.getF (R.nsSize ns) F.nsSize_lbas) → (c.reservedSet = false) → (s.getF R.storCfg F.storCfg_apprentice = 0) → (s.legsServe ns = true) → (s.flagClear ns = true) → 
    Does (.writeZeroes id) s fun t =>
      s.passedOn t ns 8 c.flags (splitPieces z c.slba c.nlb (s.liveLegs ns)) (s.liveLegs ns) = true ∧ (t.nvme? id).map (fun d => (d.started, d.pieces)) = some (true, splitPieces z c.slba c.nlb (s.liveLegs ns)) ∧ MemKept s t) ∧
  (∀ s : State, ∀ (id ns : Nat) (c : NvmeCmd), s.Inv = true → (s.ioIs id 8 ns c = true) → (c.slba + c.nlb ≤ s.getF (R.nsSize ns) F.nsSize_lbas) → (c.reservedSet = false) → (s.getF R.storCfg F.storCfg_apprentice = 1) → 
    Does (.writeZeroes id) s fun t =>
      t.out.contains (s.cqeOut c 0x020 false 0) = true ∧ t.store.backs = s.store.backs ∧ MemKept s t) ∧
  (∀ s : State, ∀ (id ns n : Nat) (c : NvmeCmd) (lists : List Got) (buf : List (Nat × Nat)) (l : List Byte) (rs : List (Nat × Nat)) (ps : List NvmePiece), s.Inv = true → (s.ioIs id 9 ns c = true) → (natBit (c.field 44 4) 2 = true) → (n = c.field 40 1 + 1) → (l.length = n * 16) → (rs = (chunks 16 n l).map (fun r => (fieldLE r 8 8, fieldLE r 4 4))) → ((rs.all fun r => decide (r.1 + r.2 ≤ s.getF (R.nsSize ns) F.nsSize_lbas)) = true) → (c.reservedSet = false) → (c.buffer (n * 16) lists = (0, buf)) → (s.getF R.storCfg F.storCfg_apprentice = 0) → (s.hostPath (s.sliceFn c.slice) = true) → (s.legsServe ns = true) → (s.flagClear ns = true) → (ps = byLba (rs.flatMap fun r => if r.2 = 0 then [] else splitPieces (s.lbaBytes ns) r.1 r.2 (s.liveLegs ns))) → (ps ≠ []) → 
    Does (.datasetManagement id lists (.bytes l)) s fun t =>
      s.passedOn t ns 9 4 ps (s.liveLegs ns) = true ∧ (t.nvme? id).map (fun d => (d.started, d.pieces)) = some (true, ps) ∧ MemKept s t) ∧
  (∀ s : State, ∀ (b id : Nat) (k : BackCmd) (c : NvmeCmd) (p : NvmePiece), s.Inv = true → (Tab.find? s.store.backs b = some k) → (k.cmd = some id) → (s.nvme? id = some c) → (c.pieces = [p]) → (k.piece = 0) → (p.legs = [k.leg]) → (k.op ≠ 2) → (c.status = 0) → (c.dnr = false) → (c.fate = 0) → (s.cqeRoom c.queue = true) → 
    Does (.backendCompletion b 0 false []) s fun t =>
      t.out.contains (s.cqeOut c 0 false 0) = true ∧ MemKept s t) ∧
  (∀ s : State, ∀ (b id a : Nat) (k : BackCmd) (c : NvmeCmd) (p : NvmePiece) (l : List Byte), s.Inv = true → (Tab.find? s.store.backs b = some k) → (k.cmd = some id) → (s.nvme? id = some c) → (c.pieces = [p]) → (k.piece = 0) → (p.legs = [k.leg]) → (p.retriedFrom = none) → (k.op = 2) → (s.getF (R.beCfg k.backend) F.beCfg_kind ≠ 1) → (c.buf = [(a, l.length)]) → (p.off = 0) → (l ≠ []) → (c.status = 0) → (c.dnr = false) → (c.fate = 0) → (c.slice = s.qpSlice c.queue) → (s.cqeRoom c.queue = true) → 
    Does (.backendCompletion b 0 false l) s fun t =>
      Wrote t (s.writesOf (s.sliceFn c.slice) (s.slicePasid c.slice) a l) ∧ t.out.contains (s.cqeOut c 0 false 0) = true ∧ MemKept s t) ∧
  (∀ s : State, ∀ (b id be : Nat) (st : Nat) (k : BackCmd) (c : NvmeCmd) (p : NvmePiece), s.Inv = true → (Tab.find? s.store.backs b = some k) → (k.cmd = some id) → (s.nvme? id = some c) → (c.pieces = [p]) → (k.piece = 0) → (p.retriedFrom = none) → (k.op = 2) → (st / 256 = 2 ∨ st / 256 = 3) → (s.mirrored k.ns = true) → (s.legUsable k.ns (1 - k.leg) = true) → (Tab.find? s.store.resync k.ns = none) → (s.legBackend k.ns (1 - k.leg) = some be) → 
    Does (.backendCompletion b st false []) s fun t =>
      t.out.contains (.backend s.store.nextBack be 2 (p.lba + s.getF (R.beOffset be) F.beOffset_lba) p.count c.flags) = true ∧ t.tallyOf 8 3 0 = s.tallyOf 8 3 0 + 1 ∧ MemKept s t) ∧
  (∀ s : State, ∀ (b : Nat) (k : BackCmd) (st : Nat), s.Inv = true → (Tab.find? s.store.backs b = some k) → (k.ns < 4096) → (k.leg < 2) → (k.op = 1 ∨ k.op = 8 ∨ k.op = 9) → (st ≠ 0) → (((k.cmd.bind s.nvme?).all fun c => c.status != 4) = true) → (s.mirrored k.ns = true) → (natBit (s.getF (R.nsStatus k.ns) F.nsStatus_failed) k.leg = false) → (Tab.find? s.store.resync k.ns = none) → 
    Does (.backendCompletion b st false []) s fun t =>
      natBit (t.getF (R.nsStatus k.ns) F.nsStatus_failed) k.leg = true ∧ t.getF (R.nsStatus k.ns) F.nsStatus_state = 2 ∧ t.tallyOf 8 5 0 = s.tallyOf 8 5 0 + 1 ∧ MemKept s t) ∧
  (∀ s : State, ∀ (b : Nat) (k : BackCmd), s.Inv = true → (Tab.find? s.store.backs b = some k) → (k.ns < 4096) → (k.leg < 2) → (s.mirrored k.ns = true) → (natBit (s.getF (R.nsStatus k.ns) F.nsStatus_failed) k.leg = false) → (Tab.find? s.store.resync k.ns = none) → 
    Does (.backendTimeout b) s fun t =>
      natBit (t.getF (R.nsStatus k.ns) F.nsStatus_failed) k.leg = true ∧ t.getF (R.nsStatus k.ns) F.nsStatus_state = 2 ∧ t.tallyOf 8 6 0 = s.tallyOf 8 6 0 + 1 ∧ MemKept s t) ∧
  (∀ s : State, ∀ (b id : Nat) (k : BackCmd) (c : NvmeCmd) (p : NvmePiece), s.Inv = true → (Tab.find? s.store.backs b = some k) → (k.cmd = some id) → (s.mirrored k.ns = false) → (s.nvme? id = some c) → (c.pieces = [p]) → (k.piece = 0) → (p.legs = [k.leg]) → (p.retriedFrom = none) → (k.op = 2 ∨ c.op ≠ 2) → (Tab.find? s.store.resync k.ns = none) → (c.status = 0) → (c.dnr = false) → (c.fate = 0) → (s.cqeRoom c.queue = true) → 
    Does (.backendTimeout b) s fun t =>
      t.out.contains (s.cqeOut c 0x022 false 0) = true ∧ MemKept s t) ∧
  (∀ s : State, ∀ (port id off a : Nat) (l : List Byte) (c : NvmeCmd) (host : Got), s.Inv = true → (s.portUsable port = true) → (s.store.cmds = [(id, c)]) → (id < 2 ^ 32) → (off < 2 ^ 24) → (c.fate ≤ 2) → (c.op = 2) → (c.admin = false) → (c.buf = [(a, off + l.length)]) → (l ≠ []) → ((s.store.backs.any fun k => k.2.cmd == some id && k.2.op == 2 && s.getF (R.beCfg k.2.backend) F.beCfg_kind == 1 && s.getF (R.beCfg k.2.backend) F.beCfg_port == port) = true) → (s.hostPath (s.sliceFn c.slice) = true) → 
    Does (.proxyAccess port (proxyAddr id off) 0 (some l) host) s fun t =>
      newWrites s t = (s.writesOf (s.sliceFn c.slice) (s.slicePasid c.slice) (a + off) l).reverse ∧ MemKept s t) ∧
  (∀ s : State, ∀ (port addr n : Nat) (host : Got), s.Inv = true → (port < 16) → (s.portUsable port = false ∨ addr < 2 ^ 63) → 
    Does (.proxyAccess port addr n none host) s fun t =>
      t.reg (R.dpViolLog port) = BitVec.ofNat 64 addr ∧ t.out.head? = some (.portUr port) ∧ t.tallyOf 7 0 port = s.tallyOf 7 0 port + 1 ∧ MemKept s t) ∧
  (∀ s : State, ∀ (ns : Nat), s.Inv = true → (s.mirrored ns = true) → (s.getF (R.nsMap ns) F.nsMap_valid = 1) → ((s.store.cmds.any fun e => e.2.ns == some ns) = false) → (Tab.find? s.store.unflushed ns = none) → (Tab.find? s.store.clean ns = none) → (Tab.find? s.store.resync ns = none) → 
    Does (.cleanFlagSet ns) s fun t =>
      Tab.find? t.store.clean ns = some () ∧ s.flagOut t ns true = true ∧ MemKept s t) ∧
  (∀ s : State, ∀ (id ns z : Nat) (c : NvmeCmd) (lists : List Got) (buf : List (Nat × Nat)), s.Inv = true → (s.ioIs id 1 ns c = true) → (z = s.lbaBytes ns) → (c.slba + c.nlb ≤ s.getF (R.nsSize ns) F.nsSize_lbas) → (c.reservedSet = false) → (c.nlb * z ≤ 2 ^ 21) → (c.buffer (c.nlb * z) lists = (0, buf)) → (s.getF R.storCfg F.storCfg_apprentice = 0) → (s.hostPath (s.sliceFn c.slice) = true) → (s.legsServe ns = true) → (Tab.find? s.store.clean ns = some ()) → (Tab.rising s.store.clean = true) → (s.flagBusy ns = false) → 
    Does (.nvmeWrite id lists) s fun t =>
      s.flagOut t ns false = true ∧ Tab.find? t.store.clean ns = none ∧ (Tab.get [] t.store.flagging ns).contains id = true ∧ (t.nvme? id).map (fun d => (d.started, d.ns, d.buf)) = some (true, some ns, buf) ∧ MemKept s t) ∧
  (∀ s : State, ∀ (ns : Nat), s.Inv = true → (s.serving = true) → (ns < 4096) → (s.getF (R.nsStatus ns) F.nsStatus_state = 2) → (s.getF (R.nsStatus ns) F.nsStatus_failed = 2) → ((s.setF (R.nsStatus ns) F.nsStatus_failed 0).legUsable ns 1 = true) → ((s.setF (R.nsStatus ns) F.nsStatus_failed 0).legUsable ns 0 = true) → 
    Does (.nsRearm ns) s fun t =>
      t.getF (R.nsStatus ns) F.nsStatus_state = 3 ∧ t.getF (R.nsStatus ns) F.nsStatus_failed = 0 ∧ Tab.find? t.store.resync ns = some (0, 0) ∧ Kept s t [R.nsStatus ns] []) ∧
  (∀ s : State, ∀ (ns n good lba : Nat), s.Inv = true → (ns < 4096) → (Tab.find? s.store.resync ns = some (good, lba)) → (lba + n < s.getF (R.nsSize ns) F.nsSize_lbas) → 
    Does (.resyncCopy ns n 0 0) s fun t =>
      s.resyncOut t ns good lba n = true ∧ Tab.find? t.store.resync ns = some (good, lba + n) ∧ t.getF (R.nsStatus ns) F.nsStatus_resync_pct = (lba + n) * 100 / s.getF (R.nsSize ns) F.nsSize_lbas ∧ MemKept s t) ∧
  (∀ s : State, ∀ (ns n good lba : Nat), s.Inv = true → (ns < 4096) → (Tab.find? s.store.resync ns = some (good, lba)) → (s.getF (R.nsSize ns) F.nsSize_lbas ≤ lba + n) → 
    Does (.resyncCopy ns n 0 0) s fun t =>
      s.resyncOut t ns good lba (s.getF (R.nsSize ns) F.nsSize_lbas - lba) = true ∧ t.store.resync = Tab.erase s.store.resync ns ∧ t.getF (R.nsStatus ns) F.nsStatus_state = 1 ∧ t.getF (R.nsStatus ns) F.nsStatus_resync_pct = 100 ∧ MemKept s t) ∧
  (∀ s : State, ∀ (b aw bound off : Nat) (lba4k clean : Bool), s.Inv = true → (b < 1024) → (Tab.rising s.store.lba4k = true) → (Tab.rising s.store.unclean = true) → (Tab.rising s.store.nabo = true) → (s.getF (R.beStatus b) F.beStatus_state = 1) → (aw < 2 ^ 16) → (bound < 2 ^ 16) → 
    Does (.backendReady b aw ⟨bound, off, lba4k⟩ clean) s fun t =>
      t.getF (R.beStatus b) F.beStatus_state = 2 ∧ t.getF (R.beStatus b) F.beStatus_awupf = aw ∧ t.getF (R.beStatus b) F.beStatus_boundary = bound ∧ (Tab.find? t.store.lba4k b).isSome = lba4k ∧ (Tab.find? t.store.unclean b).isSome = !clean ∧ Tab.get 0 t.store.nabo b = off ∧ MemKept s t)

/-- A received frame joins its pipeline with its ingress stamp, one with a bad FCS is dropped. A pass takes the received packet
first: a transmit verdict queues its frame, a drop verdict drops it, a program takes an action core; with nothing to do a slot
passes. A program at 256 bundles ends on the slow path and frees its core. A ring doorbell moves the tail or puts the ring in
error; a descriptor's frame joins its queue or its pipeline, a bad one ends with 0x02. The port sends the head frame that the
round robins pick. A refill adds rate to the tokens up to 8 times the burst. PFC pauses and releases. Object commands read,
write, enable and disable. A delay exchange gives the offset half the difference of the two delays, a PPS edge the phase;
without a source the servo holds over; the PPS land pulses where it is driven. -/
def Obligations.PacketCommands : Prop :=
  (∀ s : State, ∀ (port pipe prio : Nat) (body : List Byte), s.Inv = true → (s.netOpen port = true) → (pipe = s.pipeOf port) → (60 ≤ body.length) → (body.length ≤ 9212) → (macControl body ≠ some 1) → (macControl body ≠ some 0x101) → (prio < 8) → 
    Does (.frameReceive port body true prio) s fun t =>
      Tab.get [] t.pkt.rx pipe = Tab.get [] s.pkt.rx pipe ++ [⟨body, freshFields port 0 (body.length + 4) 0 (s.ingressStamp port).toNat false, s.pkt.order, pipe, prio, none, 0⟩] ∧ t.pkt.order = s.pkt.order + 1 ∧ MemKept s t ∧ RegsKept s t []) ∧
  (∀ s : State, ∀ (port prio : Nat) (body : List Byte) (fcs : Bool), s.Inv = true → (s.netOpen port = true) → (fcs = false ∨ body.length < 60 ∨ 9212 < body.length) → 
    Does (.frameReceive port body fcs prio) s fun t =>
      t.pkt = s.pkt ∧ t.tallyOf 9 6 (s.pipeOf port) = s.tallyOf 9 6 (s.pipeOf port) + 1 ∧ MemKept s t ∧ RegsKept s t daybookRegs) ∧
  (∀ s : State, ∀ (pipe : Nat) (feed : Feed), s.Inv = true → (Tab.get [] s.pkt.rx pipe = []) → (Tab.get [] s.pkt.again pipe = []) → (Tab.get [] s.pkt.host pipe = []) → (((below (16 - s.getF R.cipherCfg F.cipherCfg_job_cores)).find? fun k => (Tab.find? s.pkt.stage (firstAction + 16 * pipe + k)).isNone).isSome = true) → 
    Does (.pipelinePass pipe feed) s fun t =>
      (Tab.get (0, 0) t.pkt.slots pipe).1 = ((Tab.get (0, 0) s.pkt.slots pipe).1 + 1) % 16 ∧ t.out = s.out ∧ Kept s t [] []) ∧
  (∀ s : State, ∀ (pipe k v arg : Nat) (feed : Feed) (p : Packet) (ps : List Packet) (q : Packet) (body : List Byte), s.Inv = true → ((below (16 - s.getF R.cipherCfg F.cipherCfg_job_cores)).find? (fun k => (Tab.find? s.pkt.stage (firstAction + 16 * pipe + k)).isNone) = some k) → (Tab.get [] s.pkt.rx pipe = p :: ps) → ((s.parse p).1 = 0) → (q = (s.lookups (s.parse p).2).1) → (s.pkt.leaving = []) → ((s.pktSet fun k => { k with rx := Tab.put [] k.rx pipe ps }).mayLeave (s.lookups (s.parse p).2).1 = true) → (q.source < 8 ∨ 128 ≤ q.source) → ((s.lookups (s.parse p).2).2.policer = none) → ((s.lookups (s.parse p).2).2.program = none) → ((s.lookups (s.parse p).2).2.verdict = some v) → (v < 2 ^ 16) → (arg = v) → (s.emission q = some body) → ((s.tmQueue arg).owner = q.slice) → (body.length ≤ 9212) → (s.tmTakes arg (frameLen body) = true) → ((s.tmQueue arg).ecn = 0) → 
    Does (.pipelinePass pipe feed) s fun t =>
      Tab.get [] t.pkt.rx pipe = ps ∧ (t.tmQueue arg).frames.map (fun f => f.body) = (s.tmQueue arg).frames.map (fun f => f.body) ++ [.frame body] ∧ Kept s t [] ((below 16).map fun n => tallyKey 9 8 n)) ∧
  (∀ s : State, ∀ (pipe k : Nat) (feed : Feed) (p : Packet) (ps : List Packet), s.Inv = true → ((below (16 - s.getF R.cipherCfg F.cipherCfg_job_cores)).find? (fun k => (Tab.find? s.pkt.stage (firstAction + 16 * pipe + k)).isNone) = some k) → (Tab.get [] s.pkt.rx pipe = p :: ps) → (p.tx = none) → ((s.parse p).1 = 0) → (s.pkt.leaving = []) → ((s.pktSet fun k => { k with rx := Tab.put [] k.rx pipe ps }).mayLeave (s.lookups (s.parse p).2).1 = true) → ((s.lookups (s.parse p).2).2.policer = none) → ((s.lookups (s.parse p).2).2.program = none) → ((s.lookups (s.parse p).2).2.verdict = some (2 ^ 28)) → 
    Does (.pipelinePass pipe feed) s fun t =>
      Tab.get [] t.pkt.rx pipe = ps ∧ t.pkt.queues = s.pkt.queues ∧ t.tallyOf 9 6 pipe = s.tallyOf 9 6 pipe + 1 ∧ MemKept s t ∧ RegsKept s t []) ∧
  (∀ s : State, ∀ (pipe k pol : Nat) (feed : Feed) (p : Packet) (ps : List Packet), s.Inv = true → ((below (16 - s.getF R.cipherCfg F.cipherCfg_job_cores)).find? (fun k => (Tab.find? s.pkt.stage (firstAction + 16 * pipe + k)).isNone) = some k) → (Tab.get [] s.pkt.rx pipe = p :: ps) → (p.tx = none) → ((s.parse p).1 = 0) → (s.pkt.leaving = []) → ((s.lookups (s.parse p).2).2.policer = some pol) → ((Tab.get Policer.fresh s.pkt.policers pol).p.tokens < (8 * max 64 ((s.lookups (s.parse p).2).1.field 1) : Nat)) → 
    Does (.pipelinePass pipe feed) s fun t =>
      Tab.get [] t.pkt.rx pipe = ps ∧ t.pkt.queues = s.pkt.queues ∧ t.tallyOf 9 6 pipe = s.tallyOf 9 6 pipe + 1 ∧ t.tallyOf 9 10 2 = s.tallyOf 9 10 2 + 1 ∧ MemKept s t ∧ RegsKept s t []) ∧
  (∀ s : State, ∀ (core : Nat) (feed : Feed) (p : Packet), s.Inv = true → (s.tablesRise = true) → (Tab.find? s.pkt.stage core = some p) → ((s.core core).bundles = 256) → ((s.core core).stall = .none) → 
    Does (.actionTimeLimit core feed) s fun t =>
      t.core core = Core.clear ∧ t.pkt.stage = Tab.erase s.pkt.stage core) ∧
  (∀ s : State, ∀ (core : Nat) (feed : Feed), s.Inv = true → ((s.core core).bundles < 256) → 
    Does (.actionTimeLimit core feed) s fun t =>
      t = s) ∧
  (∀ s : State, ∀ (r : Nat) (v : Word), s.Inv = true → (r < 16384) → (s.getF (R.prCfg r) F.prCfg_enable = 1) → (s.sliceState (s.getF (R.prCfg r) F.prCfg_owner) = 1) → (v.toNat % 2 ^ 16 < ringSlots (s.getF (R.prRing r) F.prRing_size)) → 
    Does (.packetRingDoorbell (.reg r v)) s fun t =>
      t.getF (R.prTail r) F.prTail_tail = v.toNat % 2 ^ 16 ∧ Kept s t [R.prTail r] []) ∧
  (∀ s : State, ∀ (r : Nat) (v : Word), s.Inv = true → (r < 16384) → (s.getF (R.prCfg r) F.prCfg_enable = 1) → (s.sliceState (s.getF (R.prCfg r) F.prCfg_owner) = 1) → (ringSlots (s.getF (R.prRing r) F.prRing_size) ≤ v.toNat % 2 ^ 16) → 
    Does (.packetRingDoorbell (.reg r v)) s fun t =>
      t.getF (R.prStatus r) F.prStatus_state = 4 ∧ MemKept s t ∧ RegsKept s t (R.prStatus r :: daybookRegs)) ∧
  (∀ s : State, ∀ (r q n head owner : Nat) (host : Got) (d l : List Byte), s.Inv = true → (r < 16384) → (s.prOpen r 1 = true) → (head = s.getF (R.prStatus r) F.prStatus_head) → (head ≠ s.getF (R.prTail r) F.prTail_tail) → (s.ringBlocked (s.getF (R.prCfg r) F.prCfg_cq) = false) → (owner = s.getF (R.prCfg r) F.prCfg_owner) → (s.ringWaits owner 1 = false) → (s.getF (R.prRing r) F.prRing_space = 1) → ((s.ringRead owner (s.getF (R.prRing r) F.prRing_base * 4096) 1 (head * 32) 32 host).1 = .bytes d) → (fieldLE d 16 2 = 1) → (fieldLE d 20 12 = 0) → (n = fieldLE d 8 4) → (14 ≤ n) → (n ≤ 9212) → (l.length = n) → (q = fieldLE d 18 2) → ((s.tmQueue q).owner = owner) → (s.tmTakes q (frameLen l) = true) → 
    Does (.transmitDescriptor r host (.bytes l)) s fun t =>
      (t.tmQueue q).frames = (s.tmQueue q).frames ++ [⟨.frame l, false, some (r, s.pkt.nextTx), none⟩] ∧ t.getF (R.prStatus r) F.prStatus_head = (head + 1) % ringSlots (s.getF (R.prRing r) F.prRing_size) ∧ Kept s t [R.prStatus r, R.epStatus (s.sliceFn owner)] []) ∧
  (∀ s : State, ∀ (r head owner : Nat) (host data : Got) (d : List Byte), s.Inv = true → (r < 16384) → (s.prOpen r 1 = true) → (head = s.getF (R.prStatus r) F.prStatus_head) → (head ≠ s.getF (R.prTail r) F.prTail_tail) → (s.ringBlocked (s.getF (R.prCfg r) F.prCfg_cq) = false) → (owner = s.getF (R.prCfg r) F.prCfg_owner) → (s.ringWaits owner 1 = false) → (s.getF (R.prRing r) F.prRing_space = 1) → ((s.ringRead owner (s.getF (R.prRing r) F.prRing_base * 4096) 1 (head * 32) 32 host).1 = .bytes d) → (fieldLE d 8 4 < 14) → (Tab.get [] s.pkt.txs r = []) → (s.crOpen (s.getF (R.prCfg r) F.prCfg_cq) owner = false) → 
    Does (.transmitDescriptor r host data) s fun t =>
      t.pkt.queues = s.pkt.queues ∧ t.pkt.host = s.pkt.host ∧ Tab.get [] t.pkt.txs r = [] ∧ t.getF (R.prStatus r) F.prStatus_head = (head + 1) % ringSlots (s.getF (R.prRing r) F.prRing_size) ∧ MemKept s t) ∧
  (∀ s : State, ∀ (port g k : Nat) (l : List Byte) (f : TmFrame) (fs : List TmFrame), s.Inv = true → (s.netOpen port = true) → (s.full = true ∨ 0 ≤ s.portTokens port) → (f.body = .frame l) → ((Sched.pick (fun g => s.groupEligible g && decide ((s.tmGroup g).tokens ≥ 0)) s.groupHead s.groupQuantum (Tab.get Sched.idle s.pkt.minTier port).fuel (Tab.get Sched.idle s.pkt.minTier port)).1 = some g) → ((s.queuePick g).1 = some k) → ((s.tmQueue k).frames = f :: fs) → 
    Does (.tmSchedule port) s fun t =>
      t.out.contains (.netFrame port (wireFrame l) (if f.stamp then some (s.egressStamp port) else none)) = true ∧ (t.tmQueue k).frames = fs ∧ t.tallyOf 9 2 k = s.tallyOf 9 2 k + 1) ∧
  (∀ s : State, ∀ (port : Nat), s.Inv = true → (Tab.get Sched.idle s.pkt.minTier port = Sched.idle) → (Tab.get Sched.idle s.pkt.allTier port = Sched.idle) → 
    Does (.tmSchedule port) s fun t =>
      t.out = s.out ∧ t.pkt.queues = s.pkt.queues ∧ Kept s t [] []) ∧
  (∀ s : State, ∀ (n : Nat) (x : Shaper), s.Inv = true → (Tab.find? s.pkt.shapers n = some x) → (x.held = none) → 
    Does (.tokenRefill) s fun t =>
      Tab.get Shaper.fresh t.pkt.shapers n = { x with tokens := min (x.tokens + (x.rate : Nat)) (8 * x.burst : Nat) } ∧ Kept s t [] []) ∧
  (∀ s : State, ∀ (n b r : Nat) (x : Shaper), s.Inv = true → (Tab.find? s.pkt.shapers n = some x) → (x.held = some (b, r)) → 
    Does (.tokenRefill) s fun t =>
      Tab.get Shaper.fresh t.pkt.shapers n = ⟨b, r, min (min x.tokens (8 * b : Nat) + (r : Nat)) (8 * b : Nat), none⟩ ∧ Kept s t [] []) ∧
  (∀ s : State, ∀ (port c q : Nat), s.Inv = true → (port < s.netPorts) → (c < 8) → (q ≠ 0) → 
    Does (.pfcReceive port [(c, q)]) s fun t =>
      natBit (t.getF (R.netPortStatus port) F.netPortStatus_paused) c = true ∧ Kept s t [R.netPortStatus port] [tallyKey 9 8 (s.portPipe port)]) ∧
  (∀ s : State, ∀ (port c : Nat), s.Inv = true → (port < 8) → (c < 8) → (natBit (s.getF (R.netPortStatus port) F.netPortStatus_paused) c = true) → 
    Does (.pfcPauseExpire port c) s fun t =>
      natBit (t.getF (R.netPortStatus port) F.netPortStatus_paused) c = false ∧ Kept s t [R.netPortStatus port] []) ∧
  (∀ s : State, ∀ (v : Word), s.Inv = true → (s.serving = true) → (objKind v = 1) → (objIndex v < 65536) → 
    Does (.objRead v) s fun t =>
      t.reg (R.objData 0) = (s.tmQueue (objIndex v)).w0 ∧ t.reg (R.objData 1) = (s.tmQueue (objIndex v)).w1 ∧ t.getF R.objCmd F.objCmd_status = 0 ∧ MemKept s t ∧ RegsKept s t [R.objCmd, R.objData 0, R.objData 1, R.objData 2] ∧ t.pkt = s.pkt) ∧
  (∀ s : State, ∀ (v : Word), s.Inv = true → (s.serving = true) → (objExists (objKind v) (objIndex v) = false) → (objKind v ≠ 6) → (objKind v ≠ 7) → 
    Does (.objRead v) s fun t =>
      t.getF R.objCmd F.objCmd_status = 2 ∧ t.pkt = s.pkt ∧ Kept s t [R.objCmd] []) ∧
  (∀ s : State, ∀ (v : Word), s.Inv = true → (s.serving = true) → (objKind v = 2) → (objIndex v < 65535) → (1 ≤ getBits (s.reg (R.objData 0)) (20, 0)) → (getBits (s.reg (R.objData 0)) (20, 0) ≤ 1600000) → 
    Does (.objWrite v) s fun t =>
      (t.shaper (objIndex v)).held = some (getBits (s.reg (R.objData 0)) (55, 32), getBits (s.reg (R.objData 0)) (20, 0)) ∧ (t.shaper (objIndex v)).tokens = (s.shaper (objIndex v)).tokens ∧ t.getF R.objCmd F.objCmd_status = 0 ∧ Kept s t [R.objCmd] []) ∧
  (∀ s : State, ∀ (v : Word), s.Inv = true → (s.serving = true) → (objKind v = 1) → (objIndex v < 65536) → ((s.tmQueue (objIndex v)).frames = []) → (getBits (s.reg (R.objData 0)) (63, 63) = 1) → (getBits (s.reg (R.objData 0)) (42, 40) < s.netPorts) → (s.quietAllows (getBits (s.reg (R.objData 0)) (55, 48)) (fun x => natBit x.ports (getBits (s.reg (R.objData 0)) (42, 40))) = true) → (64 ≤ getBits (s.reg (R.objData 0)) (19, 0)) → (getBits (s.reg (R.objData 0)) (19, 0) ≤ 1048575) → 
    Does (.objWrite v) s fun t =>
      (t.tmQueue (objIndex v)).enabled = true ∧ (t.tmQueue (objIndex v)).quantum = getBits (s.reg (R.objData 0)) (19, 0) ∧ (t.tmQueue (objIndex v)).shaper = getBits (s.reg (R.objData 1)) (63, 48) ∧ (t.tmQueue (objIndex v)).limit = getBits (s.reg (R.objData 1)) (31, 16) * 4096 ∧ t.getF R.objCmd F.objCmd_status = 0 ∧ Kept s t [R.objCmd] []) ∧
  (∀ s : State, ∀ (v : Word), s.Inv = true → (s.serving = true) → (objKind v = 6) → (objIndex v < (s.lookTable s.objTable).size) → (objIndex v ≠ 0xFFFFFF) → (s.replicates 3 0 = false) → (s.replicates 1 0 = false) → 
    Does (.objWrite v) s fun t =>
      Tab.find? (t.lookTable s.objTable).entries (objIndex v) = some ⟨s.objBytes 0 8, s.objBytes 8 4, getBits (s.objWord 8) (7, 0), getBits (s.objWord 12) (15, 0), resultKept (s.objBytes 14 2)⟩ ∧ t.getF R.objCmd F.objCmd_status = 0 ∧ Kept s t [R.objCmd] []) ∧
  (∀ s : State, ∀ (v : Word), s.Inv = true → (s.serving = true) → (objKind v = 1) → (objIndex v < 65536) → (64 ≤ (s.tmQueue (objIndex v)).quantum) → (s.quietAllows (s.tmQueue (objIndex v)).owner (fun x => natBit x.ports (s.tmQueue (objIndex v)).port) = true) → 
    Does (.objEnable v) s fun t =>
      (t.tmQueue (objIndex v)).enabled = true ∧ t.getF R.objCmd F.objCmd_status = 0 ∧ Kept s t [R.objCmd] []) ∧
  (∀ s : State, ∀ (v : Word), s.Inv = true → (s.serving = true) → (objKind v = 8) → (1 ≤ objIndex v) → (objIndex v < 1024) → (Tab.find? s.progs (objIndex v) = none) → (s.replicates 3 0 = false) → 
    Does (.objEnable v) s fun t =>
      t.getF R.objCmd F.objCmd_status = 1 ∧ t.progs = s.progs ∧ MemKept s t) ∧
  (∀ s : State, ∀ (v : Word), s.Inv = true → (s.serving = true) → (objKind v = 1) → (objIndex v < 65536) → ((s.tmQueue (objIndex v)).frames.all (fun f => f.tx.isNone) = true) → 
    Does (.objDisable v) s fun t =>
      (t.tmQueue (objIndex v)).enabled = false ∧ (t.tmQueue (objIndex v)).frames = [] ∧ t.getF R.objCmd F.objCmd_status = 0 ∧ MemKept s t ∧ RegsKept s t [R.objCmd]) ∧
  (∀ s : State, ∀ (port dom tr : Nat) (origin corr : Int), s.Inv = true → (s.getF R.ptpCfg F.ptpCfg_enable = 1) → (port = s.getF R.ptpCfg F.ptpCfg_port) → (dom = s.getF R.ptpCfg F.ptpCfg_domain) → (tr = s.getF R.ptpCfg F.ptpCfg_transport) → (s.netOpen port = true) → 
    Does (.ptpMessage port dom ⟨tr, .sync false origin corr⟩) s fun t =>
      t.out = .delayReq port dom tr :: s.out ∧ t.pkt.ptp.t1 = origin + corr ∧ t.pkt.ptp.t2 = ptpTime (s.ingressStamp port) ∧ t.pkt.ptp.t3 = ptpTime (s.egressStamp port) ∧ Kept s t [] []) ∧
  (∀ s : State, ∀ (port dom tr : Nat) (recv corr off : Int), s.Inv = true → (s.getF R.ptpCfg F.ptpCfg_enable = 1) → (port = s.getF R.ptpCfg F.ptpCfg_port) → (dom = s.getF R.ptpCfg F.ptpCfg_domain) → (tr = s.getF R.ptpCfg F.ptpCfg_transport) → (s.netOpen port = true) → (s.pkt.ptp.ready = true) → (s.pkt.ptp.asked = true) → (s.followsPair = false) → (s.getF R.timeSrc F.timeSrc_src = 1) → (off = Int.tdiv ((s.pkt.ptp.t2 - s.pkt.ptp.t1) - ((recv - corr) - s.pkt.ptp.t3)) 2) → 
    Does (.ptpMessage port dom ⟨tr, .delayResp recv corr⟩) s fun t =>
      t.getF R.servoStatus F.servoStatus_offset_ns = wrap 32 (Int.tdiv off 65536) ∧ t.getF R.servoStatus F.servoStatus_holdover = 0 ∧ (0 < off → t.rateAdj ≤ s.rateAdj) ∧ (off < 0 → s.rateAdj ≤ t.rateAdj) ∧ Kept s t [R.servoStatus, R.timeRate] []) ∧
  (∀ s : State, s.Inv = true → (s.ppsDriven = false) → (s.followsPair = false) → (s.getF R.timeSrc F.timeSrc_src = 2) → (s.clock.ticks.toNat % 1600000000 < 800000000) → 
    Does (.ppsEdge) s fun t =>
      t.getF R.servoStatus F.servoStatus_pps_seen = 1 ∧ t.getF R.servoStatus F.servoStatus_offset_ns = wrap 32 (Int.tdiv ((s.clock.ticks.toNat % 1600000000 * 40960 : Nat) : Int) 65536) ∧ Kept s t [R.servoStatus, R.timeRate] []) ∧
  (∀ s : State, s.Inv = true → (s.ppsDriven = true) → 
    Does (.ppsEdge) s fun t =>
      t = s) ∧
  (∀ s : State, s.Inv = true → (s.getF R.timeSrc F.timeSrc_src ≠ 0) → 
    Does (.servoHoldover) s fun t =>
      t.getF R.servoStatus F.servoStatus_holdover = 1 ∧ t.reg R.timeRate = s.reg R.timeRate ∧ Kept s t [R.servoStatus] []) ∧
  (∀ s : State, s.Inv = true → (s.ppsDriven = true) → 
    Does (.ppsOutPulse) s fun t =>
      t.out = .ppsPulse :: s.out ∧ Kept s t [] [])

/-- A packet with a bad ICRC is dropped and counted. In order, a WRITE stores exactly its payload at its target and is acknowledged,
an atomic stores the new value and answers the old, a READ answers the region's bytes, a SEND fills its receive request; the
expected PSN moves on. Ahead of it a plain connection NAKs once; a duplicate WRITE stores nothing; a refused access NAKs. An ACK
retires packets and ends messages, an atomic's result is placed; a NAK resends, waits or ends the connection in error; a CNP is
noted; READ data are placed. A timer resends until the retries are used up, an expired lifetime ends in error; a path comes
back; a pending ACK goes out; a spilled context comes in. -/
def Obligations.TransportPacketCommands : Prop :=
  (∀ s : State, ∀ (p : RocePkt) (bad : Bool) (host : Got), s.Inv = true → (s.full = true) → (s.conn? p.conn = none) → 
    Does (.requestPacket p true bad host) s fun t =>
      t.net = s.net ∧ t.tallyOf 10 12 0 = s.tallyOf 10 12 0 + 1 ∧ Kept s t [] [tallyKey 10 12 0]) ∧
  (∀ s : State, ∀ (p : RocePkt) (bad : Bool) (host : Got) (c : Conn), s.Inv = true → (s.conn? p.conn = some c) → 
    Does (.requestPacket p false bad host) s fun t =>
      t.net = s.net ∧ t.tallyOf 10 12 c.port = s.tallyOf 10 12 c.port + 1 ∧ Kept s t [] [tallyKey 10 12 c.port]) ∧
  (∀ s : State, ∀ (n a : Nat) (p : RocePkt) (host : Got) (c : Conn), s.Inv = true → (s.takesOn n c = true) → (p.conn = n) → (c.sprayed = false) → (c.rx = []) → (c.ahead = []) → (p.psn = c.expPsn) → (p.psn < 2 ^ 24) → (p.op = .write) → (p.first = true) → (p.last = true) → (p.ce = false) → (p.imm = none) → (p.len = p.payload.length) → (p.payload ≠ []) → ((s.mrTarget c p.rkey p.va p.len 1).1 = some (0, a)) → ((s.memWrite 0x0A 0 6 c.owner a p.payload).1 = none) → ((Tab.find? s.net.mrs (p.rkey / 256)).isSome = true) → (s.takesFrame c c.ackQueue (.answer n (.ack p.psn 0 false)) = true) → (s.noneWaits = true) → 
    Does (.requestPacket p true false host) s fun t =>
      t.mem = putCells s.mem a p.payload ∧ (t.conn? n).map (fun d => d.expPsn) = some ((p.psn + 1) % 2 ^ 24) ∧ Joins s t c c.ackQueue (.answer n (.ack p.psn 0 false))) ∧
  (∀ s : State, ∀ (n a old : Nat) (p : RocePkt) (host : Got) (c : Conn) (l : List Byte), s.Inv = true → (s.takesOn n c = true) → (p.conn = n) → (c.sprayed = false) → (c.rx = []) → (c.ahead = []) → (p.psn = c.expPsn) → (p.psn < 2 ^ 24) → (p.op = .faa) → (p.va % 8 = 0) → (p.ce = false) → ((s.mrTarget c p.rkey p.va 8 3).1 = some (0, a)) → ((Tab.find? s.net.mrs (p.rkey / 256)).isSome = true) → (s.memRead 0x0A 0 6 c.owner a 8 = (.bytes l, s)) → (old = leNat l) → ((s.memWrite 0x0A 0 6 c.owner a (bytesLE 8 ((old + p.operand) % 2 ^ 64))).1 = none) → (s.takesFrame c c.ackQueue (.answer n (.atomic p.psn old)) = true) → (s.noneWaits = true) → 
    Does (.requestPacket p true false host) s fun t =>
      t.mem = putCells s.mem a (bytesLE 8 ((old + p.operand) % 2 ^ 64)) ∧ (t.conn? n).map (fun d => (d.expPsn, d.atomics.head?)) = some ((p.psn + 1) % 2 ^ 24, some (p.psn, old)) ∧ Joins s t c c.ackQueue (.answer n (.atomic p.psn old))) ∧
  (∀ s : State, ∀ (n a : Nat) (p : RocePkt) (host : Got) (c : Conn) (l : List Byte), s.Inv = true → (s.takesOn n c = true) → (p.conn = n) → (c.sprayed = false) → (c.rx = []) → (c.ahead = []) → (p.psn = c.expPsn) → (p.psn < 2 ^ 24) → (p.op = .read) → (p.ce = false) → (0 < p.len) → (p.len ≤ c.mtu) → ((s.mrTarget c p.rkey p.va p.len 2).1 = some (0, a)) → ((Tab.find? s.net.mrs (p.rkey / 256)).isSome = true) → (s.memRead 0x0A 0 6 c.owner a p.len = (.bytes l, s)) → (s.takesFrame c c.ackQueue (.answer n (.readData p.psn l)) = true) → 
    Does (.requestPacket p true false host) s fun t =>
      Joins s t c c.ackQueue (.answer n (.readData p.psn l)) ∧ (t.conn? n).map (fun d => d.expPsn) = some ((p.psn + 1) % 2 ^ 24) ∧ MemKept s t) ∧
  (∀ s : State, ∀ (n : Nat) (p : RocePkt) (host : Got) (c : Conn) (q : RecvReq), s.Inv = true → (s.takesOn n c = true) → (p.conn = n) → (c.sprayed = false) → (c.intake = false) → (c.storage = false) → (c.rx = []) → (c.ahead = []) → (p.psn = c.expPsn) → (p.psn < 2 ^ 24) → (p.op = .send) → (p.first = true) → (p.last = true) → (p.ce = false) → (p.payload ≠ []) → (c.recvs = [q]) → (p.payload.length ≤ q.length) → (q.space = 0) → ((s.memWrite 0x0A 0 6 c.owner q.local_ p.payload).1 = none) → (s.getF (R.crRing c.cq) F.crRing_space = 1) → (s.takesFrame c c.ackQueue (.answer n (.ack p.psn 0 false)) = true) → (s.noneWaits = true) → 
    Does (.requestPacket p true false host) s fun t =>
      t.mem = putCells s.mem q.local_ p.payload ∧ (t.conn? n).map (fun d => (d.expPsn, d.recvs)) = some ((p.psn + 1) % 2 ^ 24, []) ∧ Joins s t c c.ackQueue (.answer n (.ack p.psn 0 false))) ∧
  (∀ s : State, ∀ (n d : Nat) (p : RocePkt) (host : Got) (c : Conn), s.Inv = true → (s.takesOn n c = true) → (p.conn = n) → (c.sprayed = false) → (c.nakSent = false) → (p.ce = false) → (d = psnDist c.expPsn p.psn) → (0 < d) → (d < 2 ^ 23) → (s.takesFrame c c.ackQueue (.answer n (.nak .sequence c.expPsn)) = true) → 
    Does (.requestPacket p true false host) s fun t =>
      t.out = s.out ∧ Joins s t c c.ackQueue (.answer n (.nak .sequence c.expPsn)) ∧ (t.conn? n).map (fun d => (d.expPsn, d.nakSent)) = some (c.expPsn, true) ∧ Kept s t [] (tallyKey 10 4 0 :: ((below 8).map fun i => tallyKey 10 8 i))) ∧
  (∀ s : State, ∀ (n : Nat) (p : RocePkt) (host : Got) (c : Conn), s.Inv = true → (s.takesOn n c = true) → (p.conn = n) → (c.sprayed = false) → (c.nakSent = true) → (p.ce = false) → (0 < psnDist c.expPsn p.psn) → (psnDist c.expPsn p.psn < 2 ^ 23) → 
    Does (.requestPacket p true false host) s fun t =>
      t.out = s.out ∧ t.net.conns = s.net.conns ∧ Kept s t [] ((below 8).map fun i => tallyKey 10 8 i)) ∧
  (∀ s : State, ∀ (n : Nat) (p : RocePkt) (host : Got) (c : Conn), s.Inv = true → (s.takesOn n c = true) → (p.conn = n) → (c.sprayed = false) → (p.ce = false) → (2 ^ 23 ≤ psnDist c.expPsn p.psn) → (p.op = .write ∨ p.op = .send) → (s.takesFrame c c.ackQueue (.answer n (.ack ((c.expPsn + (2 ^ 24 - 1)) % 2 ^ 24) 0 false)) = true) → 
    Does (.requestPacket p true false host) s fun t =>
      t.out = s.out ∧ Joins s t c c.ackQueue (.answer n (.ack ((c.expPsn + (2 ^ 24 - 1)) % 2 ^ 24) 0 false)) ∧ (t.conn? n).map (fun d => (d.expPsn, d.recvs)) = some (c.expPsn, c.recvs) ∧ MemKept s t ∧ RegsKept s t []) ∧
  (∀ s : State, ∀ (n : Nat) (p : RocePkt) (host : Got) (c : Conn), s.Inv = true → (s.takesOn n c = true) → (p.conn = n) → (c.sprayed = false) → (c.rx = []) → (p.psn = c.expPsn) → (p.psn < 2 ^ 24) → (p.op = .write) → (p.first = true) → (p.ce = false) → (p.imm = none) → ((s.mrTarget c p.rkey p.va p.len 1).1 = none) → ((Tab.find? s.net.mrs (p.rkey / 256)).isSome = true) → (s.takesFrame c c.ackQueue (.answer n (.nak .access c.expPsn)) = true) → 
    Does (.requestPacket p true false host) s fun t =>
      Joins s t c c.ackQueue (.answer n (.nak .access c.expPsn)) ∧ (t.conn? n).map (fun d => d.expPsn) = some c.expPsn ∧ Kept s t [] (tallyKey 10 4 2 :: ((below 8).map fun i => tallyKey 10 8 i))) ∧
  (∀ s : State, ∀ (n : Nat) (p : RocePkt) (bad : Bool) (host : Got) (c : Conn), s.Inv = true → (s.full = true) → (s.conn? n = some c) → (p.conn = n) → (s.isResident n = true) → (c.state = 4) → (s.replicates 1 c.owner = false) → (s.takesFrame c c.ackQueue (.answer n (.nak .operational c.expPsn)) = true) → 
    Does (.requestPacket p true bad host) s fun t =>
      t.out = s.out ∧ Joins s t c c.ackQueue (.answer n (.nak .operational c.expPsn)) ∧ t.net = s.net ∧ Kept s t [] [tallyKey 10 4 3]) ∧
  (∀ s : State, ∀ (n : Nat) (p : RocePkt) (bad : Bool) (host : Got), s.Inv = true → (s.full = true) → (p.conn = n) → ((s.conn? n).isSome = true) → (s.isResident n = false) → 
    Does (.requestPacket p true bad host) s fun t =>
      Tab.get [] t.net.waits n = Tab.get [] s.net.waits n ++ [.packet p bad host] ∧ t.net.conns = s.net.conns ∧ t.out = s.out ∧ Kept s t [] []) ∧
  (∀ s : State, ∀ (n psn : Nat) (c : Conn) (m : Msg) (p : TxPkt), s.Inv = true → (s.conn? n = some c) → (c.state = 3) → (c.sprayed = false) → (c.txq = []) → (c.unacked = [p]) → (p.pkt.psn = psn) → (needsData p.pkt = false) → (psn < 2 ^ 24) → (c.msgs = [m]) → (m.op ≤ 3) → (m.owner = .request 77 false) → 
    Does (.ackReceive n psn 0 false none) s fun t =>
      (t.conn? n).map (fun d => (d.unacked, d.msgs, d.retries)) = some ([], [], 0) ∧ Kept s t [] []) ∧
  (∀ s : State, ∀ (n psn : Nat) (c : Conn) (p : TxPkt), s.Inv = true → (s.conn? n = some c) → (c.state = 3) → (c.sprayed = false) → (c.txq = []) → (c.unacked = [p]) → (2 ^ 23 ≤ psnDist p.pkt.psn psn) → (c.msgs = []) → 
    Does (.ackReceive n psn 0 false none) s fun t =>
      (t.conn? n).map (fun d => d.unacked) = some [p] ∧ t.out = s.out ∧ Kept s t [] []) ∧
  (∀ s : State, ∀ (n psn old : Nat) (c : Conn) (m : Msg) (p : TxPkt), s.Inv = true → (s.conn? n = some c) → (c.state = 3) → (c.sprayed = false) → (c.txq = []) → (c.unacked = [p]) → (p.pkt.psn = psn) → (c.msgs = [m]) → (m.op = 6) → (m.firstPsn = psn) → (m.answered = false) → (m.owner = .request 77 false) → (m.space = 0) → ((s.memWrite 0x0A 0 6 c.owner m.local_ (bytesLE 8 old)).1 = none) → (s.noneWaits = true) → 
    Does (.ackReceive n psn 0 false (some old)) s fun t =>
      t.mem = putCells s.mem m.local_ (bytesLE 8 old) ∧ (t.conn? n).map (fun d => (d.unacked, d.msgs)) = some ([], [])) ∧
  (∀ s : State, ∀ (n psn : Nat) (c : Conn) (p : TxPkt), s.Inv = true → (s.conn? n = some c) → (c.state = 3) → (c.sprayed = false) → (c.txq = []) → (c.msgs = []) → (c.unacked = [p]) → (p.pkt.psn = psn) → (psn < 2 ^ 24) → (s.since p.first ≤ s.lifetime) → (s.takesFrame c c.queue (.request n 0 p.pkt) = true) → 
    Does (.nakReceive n psn .sequence) s fun t =>
      Joins s t c c.queue (.request n 0 p.pkt) ∧ (t.conn? n).map (fun d => d.unacked.map fun x => (x.pkt, x.times)) = some [(p.pkt, p.times + 1)] ∧ MemKept s t ∧ RegsKept s t []) ∧
  (∀ s : State, ∀ (n psn tm : Nat) (c : Conn), s.Inv = true → (s.conn? n = some c) → (c.state = 3) → (c.txq = []) → (c.msgs = []) → (c.unacked = []) → (c.rnrRetry = 7) → 
    Does (.nakReceive n psn (.rnr tm)) s fun t =>
      (t.conn? n).map (fun d => (d.state, d.rnrWait, d.rnrs)) = some (3, true, c.rnrs + 1)) ∧
  (∀ s : State, ∀ (n psn : Nat) (c : Conn) (k : NakKind), s.Inv = true → (s.conn? n = some c) → (c.state = 3) → (c.txq = []) → (c.msgs = []) → (c.unacked = []) → (k = .access ∨ k = .invalid ∨ k = .operational) → 
    Does (.nakReceive n psn k) s fun t =>
      (t.conn? n).map (fun d => d.state) = some 4) ∧
  (∀ s : State, ∀ (n : Nat) (c : Conn), s.Inv = true → (s.conn? n = some c) → 
    Does (.cnpReceive n) s fun t =>
      t.conn? n = some { c with ceSeen := true } ∧ t.tallyOf 10 6 c.port = s.tallyOf 10 6 c.port + 1 ∧ Kept s t [] [tallyKey 10 6 c.port]) ∧
  (∀ s : State, ∀ (n psn : Nat) (c : Conn) (m : Msg) (l : List Byte), s.Inv = true → (s.conn? n = some c) → (c.msgs = [m]) → (c.unacked = []) → (m.op = 4) → (m.answered = false) → (m.covers psn = true) → (m.firstPsn = psn) → (m.space = 0) → (l ≠ []) → (l.length ≤ c.mtu) → (c.mtu < m.length) → (m.got = []) → (c.txq = []) → ((s.memWrite 0x0A 0 6 c.owner m.local_ l).1 = none) → (s.noneWaits = true) → 
    Does (.readResponse n psn l) s fun t =>
      t.mem = putCells s.mem m.local_ l ∧ (t.conn? n).map (fun d => d.msgs.map fun x => (x.got, x.answered)) = some [([0], false)]) ∧
  (∀ s : State, ∀ (n psn : Nat) (c : Conn) (p : TxPkt), s.Inv = true → (s.conn? n = some c) → (c.state = 3) → (c.sprayed = false) → (c.unacked = [p]) → (p.pkt.psn = psn) → (p.reported = false) → (c.retries < c.retryCnt) → (c.rnrWait = false) → (s.since p.first ≤ s.lifetime) → (s.takesFrame c c.queue (.request n 0 p.pkt) = true) → 
    Does (.retransmitTimeout n psn) s fun t =>
      Joins s t c c.queue (.request n 0 p.pkt) ∧ (t.conn? n).map (fun d => (d.retries, d.state)) = some (c.retries + 1, 3) ∧ MemKept s t ∧ RegsKept s t []) ∧
  (∀ s : State, ∀ (n psn : Nat) (c : Conn) (p : TxPkt), s.Inv = true → (s.conn? n = some c) → (c.state = 3) → (c.unacked = [p]) → (p.pkt.psn = psn) → (p.reported = false) → (c.retryCnt ≤ c.retries) → (c.rnrWait = false) → 
    Does (.retransmitTimeout n psn) s fun t =>
      (t.conn? n).map (fun d => (d.state, d.unacked)) = some (4, [])) ∧
  (∀ s : State, ∀ (n : Nat) (c : Conn) (p : TxPkt), s.Inv = true → (s.conn? n = some c) → (c.state = 3) → (c.sprayed = false) → (c.rnrWait = true) → (c.txq = []) → (c.unacked = [p]) → (p.reported = false) → (s.since p.first ≤ s.lifetime) → (s.takesFrame c c.queue (.request n 0 p.pkt) = true) → 
    Does (.rnrDelayEnd n) s fun t =>
      Joins s t c c.queue (.request n 0 p.pkt) ∧ (t.conn? n).map (fun d => d.rnrWait) = some false ∧ MemKept s t ∧ RegsKept s t []) ∧
  (∀ s : State, ∀ (n psn : Nat) (c : Conn), s.Inv = true → (s.conn? n = some c) → (c.state = 3) → (c.unacked.any (fun p => p.pkt.psn == psn) = true) → 
    Does (.connectionLifetimeExpiry n psn) s fun t =>
      (t.conn? n).map (fun d => d.state) = some 4) ∧
  (∀ s : State, ∀ (n k : Nat) (c : Conn), s.Inv = true → (s.conn? n = some c) → (natBit c.suspended k = true) → 
    Does (.pathResume n k) s fun t =>
      (t.conn? n).map (fun d => natBit d.suspended k) = some false ∧ Kept s t [] []) ∧
  (∀ s : State, ∀ (n : Nat) (c : Conn), s.Inv = true → (s.conn? n = some c) → (c.sprayed = true) → (0 < c.sinceAck) → (s.replicates 1 c.owner = false) → (s.takesFrame c c.ackQueue (.answer n (.ack ((c.expPsn + (2 ^ 24 - 1)) % 2 ^ 24) c.bitmap c.ceEcho)) = true) → 
    Does (.ackTimer n) s fun t =>
      t.out = s.out ∧ Joins s t c c.ackQueue (.answer n (.ack ((c.expPsn + (2 ^ 24 - 1)) % 2 ^ 24) c.bitmap c.ceEcho)) ∧ (t.conn? n).map (fun d => d.sinceAck) = some 0 ∧ Kept s t [] []) ∧
  (∀ s : State, ∀ (n : Nat) (c : Conn), s.Inv = true → (s.conn? n = some c) → (s.isResident n = false) → (Tab.get [] s.net.waits n = []) → 
    Does (.contextFillDone n true) s fun t =>
      t.isResident n = true ∧ t.conn? n = some c ∧ t.tallyOf 10 7 c.port = s.tallyOf 10 7 c.port + 1 ∧ MemKept s t ∧ RegsKept s t []) ∧
  (∀ s : State, ∀ (n : Nat) (c : Conn), s.Inv = true → (s.conn? n = some c) → (c.state = 3) → (s.isResident n = false) → (Tab.get [] s.net.waits n = []) → 
    Does (.contextFillDone n false) s fun t =>
      (t.conn? n).map (fun d => d.state) = some 4)

/-- A context is created in state reset, read back, moved 0 to 1 to 2 to 3 or to 0 or 4, other moves end with 0x0001; destroyed, it
is gone. Doorbells move the tails. The next work request of an opcode takes its PSNs and its first packet goes out with its
fields. A receive request waits for its message. An invalidation is busy until it is done; a window at its least and a link
change raise events. A new Sceran request is executed once and recorded, a known one is answered from its record, without a
store it is busy. A response releases the record, a release marks it, a retransmission sends again, a lifetime ends the request,
an expiry frees the record. -/
def Obligations.ConnectionAndSceranCommands : Prop :=
  (∀ s : State, ∀ (n : Nat) (v : Word) (c : Conn), s.Inv = true → (s.serving = true) → (s.full = true) → (n = getBits v F.connCmd_conn) → (s.conn? n = some c) → 
    Does (.connRead v) s fun t =>
      t.reg (R.connData 0) = setBits (c.ctx.getD 0 0) (63, 61) c.state ∧ t.reg (R.connData 1) = setBits (setBits 0 (47, 24) c.sendPsn) (23, 0) c.expPsn ∧ t.getF R.connCmd F.connCmd_status = 0 ∧ t.net = s.net ∧ MemKept s t ∧ RegsKept s t (R.connCmd :: (below 12).map R.connData)) ∧
  (∀ s : State, ∀ (n : Nat) (v : Word) (c : Conn), s.Inv = true → (s.serving = true) → (s.full = true) → (n = getBits v F.connCmd_conn) → (s.conn? n = none) → (c = Conn.fresh s.connWords) → (s.sliceState c.owner = 1) → ((s.connsOf c.owner).length < s.limit c.owner .connections) → (s.net.conns.length < s.connRoom) → 
    Does (.connCreate v) s fun t =>
      t.conn? n = some c ∧ c.state = 0 ∧ t.isResident n = true ∧ t.getF R.connCmd F.connCmd_status = 0 ∧ MemKept s t ∧ RegsKept s t [R.connCmd]) ∧
  (∀ s : State, ∀ (n : Nat) (v : Word), s.Inv = true → (s.serving = true) → (s.full = true) → (n = getBits v F.connCmd_conn) → ((s.conn? n).isSome = true) → 
    Does (.connCreate v) s fun t =>
      t.net = s.net ∧ t.getF R.connCmd F.connCmd_status = 1 ∧ MemKept s t ∧ RegsKept s t (R.connCmd :: daybookRegs)) ∧
  (∀ s : State, ∀ (n dest : Nat) (v : Word) (c : Conn), s.Inv = true → (s.serving = true) → (s.full = true) → (n = getBits v F.connCmd_conn) → (s.conn? n = some c) → (dest = getBits (s.reg (R.connData 0)) (63, 61)) → (dest ≠ 0) → (dest ≠ 4) → (dest ≠ c.state + 1 ∨ 3 < dest) → 
    Does (.connModify v) s fun t =>
      t.net = s.net ∧ t.getF R.connCmd F.connCmd_status = 1 ∧ MemKept s t ∧ RegsKept s t (R.connCmd :: daybookRegs)) ∧
  (∀ s : State, ∀ (n dest : Nat) (v : Word) (c x : Conn), s.Inv = true → (s.serving = true) → (s.full = true) → (n = getBits v F.connCmd_conn) → (s.conn? n = some c) → (dest = getBits (s.reg (R.connData 0)) (63, 61)) → (dest = c.state + 1) → (dest ≤ 2) → (x = Conn.fresh (setBits (s.connWords.getD 0 0) (55, 48) c.owner :: s.connWords.drop 1)) → (s.contextOk x = true) → (s.ringsOwned x = true) → (x.storage = false) → ((s.tmQueue x.queue).owner = c.owner) → ((s.tmQueue x.ackQueue).owner = c.owner) → 
    Does (.connModify v) s fun t =>
      (t.conn? n).map (fun d => (d.state, d.ctx, d.expPsn)) = some (dest, x.ctx, if dest = 2 then getBits (s.reg (R.connData 1)) (23, 0) else c.expPsn) ∧ t.getF R.connCmd F.connCmd_status = 0 ∧ MemKept s t ∧ RegsKept s t [R.connCmd]) ∧
  (∀ s : State, ∀ (n : Nat) (v : Word) (c : Conn), s.Inv = true → (s.serving = true) → (s.full = true) → (n = getBits v F.connCmd_conn) → (s.conn? n = some c) → (getBits (s.reg (R.connData 0)) (63, 61) = 4) → 
    Does (.connModify v) s fun t =>
      (t.conn? n).map (fun d => d.state) = some 4 ∧ t.getF R.connCmd F.connCmd_status = 0) ∧
  (∀ s : State, ∀ (n : Nat) (v : Word) (c : Conn), s.Inv = true → (s.serving = true) → (s.full = true) → (n = getBits v F.connCmd_conn) → (s.conn? n = some c) → (c.state = 4) → (s.replicates 1 c.owner = false) → 
    Does (.connDestroy v) s fun t =>
      t.net.conns = Tab.erase s.net.conns n ∧ t.getF R.connCmd F.connCmd_status = 0 ∧ Kept s t [R.connCmd] []) ∧
  (∀ s : State, ∀ (fn p v n i : Nat) (c : Conn), s.Inv = true → (s.bellAt 5 0 (.page fn p 0 4 v) = .hit n i) → (s.conn? n = some c) → (s.full = true) → (s.isResident n = true) → (c.state = 1 ∨ c.state = 2 ∨ c.state = 3) → (c.storage = false) → (s.sliceState c.owner = 1) → (i < ringSlots (c.field 5 (3, 0))) → 
    Does (.sendQueueDoorbell (.page fn p 0 4 v)) s fun t =>
      t.conn? n = some { c with sqTail := i } ∧ t.out = s.out ∧ Kept s t [] ((below 8).map fun i => tallyKey 10 8 i)) ∧
  (∀ s : State, ∀ (fn p v n i : Nat) (c : Conn), s.Inv = true → (s.bellAt 5 4 (.page fn p 4 4 v) = .hit n i) → (s.conn? n = some c) → (s.full = true) → (s.isResident n = true) → (c.state = 1 ∨ c.state = 2 ∨ c.state = 3) → (c.storage = false) → (s.sliceState c.owner = 1) → (i < ringSlots (c.field 6 (3, 0))) → 
    Does (.receiveQueueDoorbell (.page fn p 4 4 v)) s fun t =>
      t.conn? n = some { c with rqTail := i } ∧ t.out = s.out ∧ Kept s t [] ((below 8).map fun i => tallyKey 10 8 i)) ∧
  (∀ s : State, ∀ (n : Nat) (host : Got) (raw l : List Byte) (c : Conn), s.Inv = true → (s.asks n 0 c host raw = true) → (fieldLE raw 24 1 = 1) → (l.length = fieldLE raw 8 4) → (l ≠ []) → (l.length ≤ c.mtu) → (s.takesFrame c c.queue (.request n c.pickPath (c.firstOut raw l .send true none)) = true) → 
    Does (.send n host (.bytes l)) s fun t =>
      Joins s t c c.queue (.request n c.pickPath (c.firstOut raw l .send true none)) ∧ (t.conn? n).map (fun d => (d.sqHead, d.sendPsn, d.msgs.length)) = some ((c.sqHead + 1) % ringSlots (c.field 5 (3, 0)), (c.sendPsn + 1) % 2 ^ 24, 1) ∧ MemKept s t ∧ RegsKept s t [R.epStatus (s.sliceFn c.owner)]) ∧
  (∀ s : State, ∀ (n : Nat) (host : Got) (raw l : List Byte) (c : Conn), s.Inv = true → (s.asks n 1 c host raw = true) → (fieldLE raw 24 1 = 1) → (l.length = fieldLE raw 8 4) → (l ≠ []) → (l.length ≤ c.mtu) → (s.takesFrame c c.queue (.request n c.pickPath (c.firstOut raw l .send true (some (fieldLE raw 12 4)))) = true) → 
    Does (.sendWithImmediate n host (.bytes l)) s fun t =>
      Joins s t c c.queue (.request n c.pickPath (c.firstOut raw l .send true (some (fieldLE raw 12 4)))) ∧ (t.conn? n).map (fun d => (d.sqHead, d.sendPsn, d.msgs.length)) = some ((c.sqHead + 1) % ringSlots (c.field 5 (3, 0)), (c.sendPsn + 1) % 2 ^ 24, 1) ∧ MemKept s t ∧ RegsKept s t [R.epStatus (s.sliceFn c.owner)]) ∧
  (∀ s : State, ∀ (n : Nat) (host : Got) (raw l : List Byte) (c : Conn), s.Inv = true → (s.asks n 2 c host raw = true) → (fieldLE raw 24 1 = 1) → (l.length = fieldLE raw 8 4) → (c.mtu < l.length) → (l.length ≤ 2 * c.mtu) → (s.takesFrame c c.queue (.request n c.pickPath (c.firstOut raw l .write false none)) = true) → 
    Does (.rdmaWrite n host (.bytes l)) s fun t =>
      JoinsFirst s t c c.queue (.request n c.pickPath (c.firstOut raw l .write false none)) ∧ (t.conn? n).map (fun d => (d.sqHead, d.sendPsn, d.msgs.length)) = some ((c.sqHead + 1) % ringSlots (c.field 5 (3, 0)), (c.sendPsn + 2) % 2 ^ 24, 1) ∧ MemKept s t ∧ RegsKept s t [R.epStatus (s.sliceFn c.owner)]) ∧
  (∀ s : State, ∀ (n : Nat) (host : Got) (raw l : List Byte) (c : Conn), s.Inv = true → (s.asks n 3 c host raw = true) → (fieldLE raw 24 1 = 1) → (l.length = fieldLE raw 8 4) → (l ≠ []) → (l.length ≤ c.mtu) → (s.takesFrame c c.queue (.request n c.pickPath (c.firstOut raw l .write true (some (fieldLE raw 12 4)))) = true) → 
    Does (.rdmaWriteWithImmediate n host (.bytes l)) s fun t =>
      Joins s t c c.queue (.request n c.pickPath (c.firstOut raw l .write true (some (fieldLE raw 12 4)))) ∧ (t.conn? n).map (fun d => (d.sqHead, d.sendPsn, d.msgs.length)) = some ((c.sqHead + 1) % ringSlots (c.field 5 (3, 0)), (c.sendPsn + 1) % 2 ^ 24, 1) ∧ MemKept s t ∧ RegsKept s t [R.epStatus (s.sliceFn c.owner)]) ∧
  (∀ s : State, ∀ (n : Nat) (host : Got) (raw : List Byte) (c : Conn), s.Inv = true → (s.asks n 4 c host raw = true) → (fieldLE raw 24 1 = 1) → (s.takesFrame c c.queue (.request n c.pickPath (c.firstOut raw [] .read true none)) = true) → 
    Does (.rdmaRead n host) s fun t =>
      Joins s t c c.queue (.request n c.pickPath (c.firstOut raw [] .read true none)) ∧ (t.conn? n).map (fun d => (d.sqHead, d.sendPsn, d.msgs.length)) = some ((c.sqHead + 1) % ringSlots (c.field 5 (3, 0)), (c.sendPsn + max 1 (ceilDiv (fieldLE raw 8 4) c.mtu)) % 2 ^ 24, 1) ∧ MemKept s t ∧ RegsKept s t [R.epStatus (s.sliceFn c.owner)]) ∧
  (∀ s : State, ∀ (n : Nat) (host : Got) (raw : List Byte) (c : Conn), s.Inv = true → (s.asks n 5 c host raw = true) → (fieldLE raw 24 1 = 1) → (s.takesFrame c c.queue (.request n c.pickPath (c.firstOut raw [] .cas true none)) = true) → 
    Does (.atomicCompareSwap n host) s fun t =>
      Joins s t c c.queue (.request n c.pickPath (c.firstOut raw [] .cas true none)) ∧ (t.conn? n).map (fun d => (d.sqHead, d.sendPsn, d.msgs.length)) = some ((c.sqHead + 1) % ringSlots (c.field 5 (3, 0)), (c.sendPsn + 1) % 2 ^ 24, 1) ∧ MemKept s t ∧ RegsKept s t [R.epStatus (s.sliceFn c.owner)]) ∧
  (∀ s : State, ∀ (n : Nat) (host : Got) (raw : List Byte) (c : Conn), s.Inv = true → (s.asks n 6 c host raw = true) → (fieldLE raw 24 1 = 1) → (s.takesFrame c c.queue (.request n c.pickPath (c.firstOut raw [] .faa true none)) = true) → 
    Does (.atomicFetchAdd n host) s fun t =>
      Joins s t c c.queue (.request n c.pickPath (c.firstOut raw [] .faa true none)) ∧ (t.conn? n).map (fun d => (d.sqHead, d.sendPsn, d.msgs.length)) = some ((c.sqHead + 1) % ringSlots (c.field 5 (3, 0)), (c.sendPsn + 1) % 2 ^ 24, 1) ∧ MemKept s t ∧ RegsKept s t [R.epStatus (s.sliceFn c.owner)]) ∧
  (∀ s : State, ∀ (n : Nat) (raw : List Byte) (c : Conn), s.Inv = true → (s.conn? n = some c) → (c.rqHead ≠ c.rqTail) → (c.state = 2 ∨ c.state = 3) → (s.ringBlocked c.cq = false) → (s.ringWaits c.owner 1 = false) → (s.fetches c.owner = true) → (c.field 6 (4, 4) = 1) → (s.hostPath (s.sliceFn c.owner) = true) → (raw.length = 64) → (fieldLE raw 0 1 = 0x10) → (s.badRequest c.owner raw = false) → (c.rx = []) → 
    Does (.receive n (.bytes raw)) s fun t =>
      (t.conn? n).map (fun d => (d.recvs, d.rqHead)) = some (c.recvs ++ [⟨fieldLE raw 4 4, fieldLE raw 8 4, fieldLE raw 16 8, fieldLE raw 24 1⟩], (c.rqHead + 1) % ringSlots (c.field 6 (3, 0))) ∧ newWrites s t = [] ∧ Kept s t [R.epStatus (s.sliceFn c.owner)] []) ∧
  (∀ s : State, ∀ (v : Word), s.Inv = true → (s.serving = true) → (s.getF R.mrInval F.mrInval_busy = 0) → 
    Does (.mrInval v) s fun t =>
      t.net = { s.net with inval := some (getBits v F.mrInval_index) } ∧ t.getF R.mrInval F.mrInval_busy = 1 ∧ Kept s t [R.mrInval] []) ∧
  (∀ s : State, ∀ (v : Word), s.Inv = true → (s.serving = true) → (s.getF R.mrInval F.mrInval_busy = 1) → 
    Does (.mrInval v) s fun t =>
      t.net = s.net ∧ MemKept s t ∧ RegsKept s t daybookRegs) ∧
  (∀ s : State, ∀ (i : Nat), s.Inv = true → (s.net.inval = some i) → (s.replicates 1 0 = false) → 
    Does (.mrInvalDone) s fun t =>
      t.net = { s.net with inval := none, mrs := Tab.erase s.net.mrs i } ∧ t.getF R.mrInval F.mrInval_busy = 0 ∧ Kept s t [R.mrInval] []) ∧
  (∀ s : State, ∀ (n a : Nat) (c : Conn) (x : Rec), s.Inv = true → (s.conn? n = some c) → (c.state = 3) → (c.w = c.wMin) → (s.crOpen c.evq c.owner = true) → (s.crFull c.evq = false) → (Tab.get [] s.ringWait c.evq = []) → (s.getF (R.crRing c.evq) F.crRing_space = 0) → (a = s.getF (R.crRing c.evq) F.crRing_base * 4096 + s.getF (R.crStatus c.evq) F.crStatus_tail * 32) → (x = ⟨0, n % 2 ^ 16, 5, 0, c.owner, 0, 0, s.now, n + 0x85 * 2 ^ 24, false⟩) → ((s.memWrite 0x05 c.owner 6 c.owner a (x.bytes (s.getF (R.crStatus c.evq) F.crStatus_phase))).1 = none) → (s.noneWaits = true) → 
    Does (.windowAtMin n) s fun t =>
      t.mem = putCells s.mem a (x.bytes (s.getF (R.crStatus c.evq) F.crStatus_phase)) ∧ t.net = s.net) ∧
  (∀ s : State, ∀ (port : Nat), s.Inv = true → (port < s.netPorts) → (port < 8) → (s.getF (R.netPortStatus port) F.netPortStatus_link_up = 0) → 
    Does (.netLinkChange port true) s fun t =>
      t.getF (R.netPortStatus port) F.netPortStatus_link_up = 1 ∧ t.getF (R.netPortStatus port) F.netPortStatus_an_done = 1 ∧ t.net = s.net) ∧
  (∀ s : State, ∀ (ipv6 : Bool) (addr node id a i q : Nat) (epoch : Word) (l key : List Byte), s.Inv = true → (s.full = true) → (s.nodeKnown ipv6 addr = true) → (s.storeNamed = true) → (key = bytesLE 4 node ++ bytesLE 8 epoch.toNat ++ bytesLE 6 id) → (s.net.index = []) → ((s.sceranFind key).2 = some i) → ((s.memWrite 0x0A 0 6 0 a l).1 = none) → ((s.accessCode 0 (s.sceranAddr 0) 64) = none) → (meets a l.length (s.sceranAddr 0) 64 = false) → (s.replicates 1 0 = false) → (l ≠ []) → (s.nodeTakes node q (.sceranAnswer node epoch id 0 0 []) = true) → (s.noneWaits = true) → 
    Does (.sceranRequest ipv6 addr node epoch id (.write a l) true) s fun t =>
      JoinsNode s t node q (.sceranAnswer node epoch id 0 0 []) ∧ t.bytesAt a l.length = l ∧ Tab.find? t.net.index i = some ⟨crc64 key, 0, 1⟩ ∧ t.getF R.sceranStatus F.sceranStatus_records = 1) ∧
  (∀ s : State, ∀ (ipv6 : Bool) (addr node id i k q : Nat) (epoch : Word) (op : ScOp) (e : ScIndex) (tgt : Nat) (l : List Byte), s.Inv = true → (s.full = true) → (s.nodeKnown ipv6 addr = true) → (s.storeNamed = true) → ((s.sceranFind (sceranKey node epoch id)).1 = some i) → (Tab.find? s.net.index i = some e) → (k = s.sceranAddr e.number) → (op = .write tgt l) → (s.replicates 1 0 = false) → (s.nodeTakes node q (.sceranAnswer node epoch id (leNat (s.bytesAt (k + 20) 2)) 0 []) = true) → 
    Does (.sceranRequest ipv6 addr node epoch id op true) s fun t =>
      JoinsNode s t node q (.sceranAnswer node epoch id (leNat (s.bytesAt (k + 20) 2)) 0 []) ∧ t.net = s.net ∧ Kept s t [] [tallyKey 10 9 0, tallyKey 10 10 0]) ∧
  (∀ s : State, ∀ (ipv6 : Bool) (addr node id q : Nat) (epoch : Word) (op : ScOp), s.Inv = true → (s.full = true) → (s.nodeKnown ipv6 addr = true) → (s.storeNamed = false) → (s.nodeTakes node q (.sceranBusy node epoch id) = true) → 
    Does (.sceranRequest ipv6 addr node epoch id op true) s fun t =>
      t.out = s.out ∧ JoinsNode s t node q (.sceranBusy node epoch id) ∧ t.net = s.net ∧ Kept s t [] [tallyKey 10 9 0, tallyKey 10 11 0]) ∧
  (∀ s : State, ∀ (ipv6 : Bool) (addr id status old m q : Nat) (data : List Byte) (x : ScSent), s.Inv = true → (s.full = true) → (s.nodeKnown ipv6 addr = true) → (Tab.find? s.net.sent id = some x) → ((s.train.commits.any fun e => e.2.swapping) = false) → (x.dest = .node m) → (s.nodeTakes m q (.sceranRelease x.dest id) = true) → 
    Does (.sceranResponse ⟨ipv6, addr, true, id⟩ status old data) s fun t =>
      t.out = s.out ∧ JoinsNode s t m q (.sceranRelease x.dest id) ∧ t.net = { s.net with sent := Tab.erase s.net.sent id } ∧ Kept s t [] []) ∧
  (∀ s : State, ∀ (ipv6 : Bool) (addr : Nat) (node id i : Nat) (epoch : Word) (e : ScIndex), s.Inv = true → (s.full = true) → (s.nodeKnown ipv6 addr = true) → ((s.sceranFind (sceranKey node epoch id)).1 = some i) → (Tab.find? s.net.index i = some e) → (s.accessCode 0 (s.sceranAddr e.number) 64 = none) → (s.noneWaits = true) → 
    Does (.sceranRelease node epoch ⟨ipv6, addr, true, id⟩) s fun t =>
      Tab.find? t.net.index i = some { e with state := 2 } ∧ t.out = s.out ∧ MemKeptBut s t (s.sceranAddr e.number) 64) ∧
  (∀ s : State, ∀ (id m q : Nat) (x : ScSent), s.Inv = true → (Tab.find? s.net.sent id = some x) → (x.dest = .node m) → (s.nodeTakes m q (.sceran x.dest id x.op) = true) → 
    Does (.sceranRetransmit id) s fun t =>
      t.out = s.out ∧ JoinsNode s t m q (.sceran x.dest id x.op) ∧ Tab.find? t.net.sent id = some { x with tries := x.tries + 1 } ∧ Kept s t [] []) ∧
  (∀ s : State, ∀ (id : Nat), s.Inv = true → ((Tab.find? s.net.sent id).isSome = true) → ((s.train.commits.any fun e => e.2.swapping) = false) → 
    Does (.sceranLifetime id) s fun t =>
      t.net = { s.net with sent := Tab.erase s.net.sent id } ∧ t.out = s.out ∧ Kept s t [] []) ∧
  (∀ s : State, ∀ (n : Nat), s.Inv = true → ((s.net.index.any fun e => e.2.number == n) = true) → 
    Does (.sceranRecordExpiry n) s fun t =>
      (t.net.index.all fun e => e.2.number != n) = true ∧ t.getF R.sceranStatus F.sceranStatus_records = t.net.index.length % 2 ^ 32 ∧ Kept s t [R.sceranStatus] [])

/-- The random source, its test and the mask key. A key command loads, generates, imports or empties a slot with the staged
attributes, or reads them back, and clears KEY_DATA; load, generate and import are refused on a slot in use, a failed import
leaves the slot empty, unload is refused while a started job names the slot. A job writes what its recipe computes from what it
read, and a record with its status, its bytes and the counter it drew; GCM seal with hw_nonce uses the slot's salt and counter,
and the counter rises by one; a draw at the limit gives 0x0022 and writes nothing else. A wrong tag, a wrong signature and a
point off the curve give their codes. A job whose key is not unwrapped waits; the unwrap enters the pipeline's cache. -/
def Obligations.CipherCommands : Prop :=
  (∀ s : State, s.Inv = true → (s.drbgOk = true) → 
    Does (.drbgReseed) s fun t =>
      t = { s with cipher := { s.cipher with requests := 0, reseeded := s.now } }) ∧
  (∀ s : State, s.Inv = true → (s.drbgOk = true) → 
    Does (.maskRekey) s fun t =>
      t.cipher.maskKey = Config.random s.free ∧ t.cipher.requests = s.cipher.requests + 1 ∧ Kept s t [] []) ∧
  (∀ s : State, s.Inv = true → (s.tablesRise = true) → 
    Does (.entropyHealthFail) s fun t =>
      t.getF R.rngStatus F.rngStatus_failed = 1 ∧ t.getF R.rngStatus F.rngStatus_ok = 0 ∧ t.rngOk = false ∧ t.tallyOf 0x0B 9 4 = s.tallyOf 0x0B 9 4 + 1 ∧ MemKept s t) ∧
  (∀ s : State, ∀ (pass : Bool), s.Inv = true → (s.cipher.rngFails < 3) → (pass = true) → 
    Does (.entropyRetest pass) s fun t =>
      t.getF R.rngStatus F.rngStatus_failed = 0 ∧ t.getF R.rngStatus F.rngStatus_ok = 1 ∧ t.cipher.rngFails = 0 ∧ Kept s t [R.rngStatus] []) ∧
  (∀ s : State, ∀ (pass : Bool), s.Inv = true → (3 ≤ s.cipher.rngFails) → 
    Does (.entropyRetest pass) s fun t =>
      t = s) ∧
  (∀ s : State, ∀ (v : Word) (k : Nat), s.Inv = true → (s.keyRuns v 1 k = true) → (s.keyCheck k s.keyData true = 0) → (s.rngOk = true) → (s.entryWritten k = true) → (s.noneWaits = true) → 
    Does (.keyLoad v) s fun t =>
      { t.slot k with key := [], wrapped := [] } = s.stagedSlot ∧ t.keyOf k = s.keyData.take (keyBytes (s.getF R.keyAttr F.keyAttr_kind)) ∧ t.mem = putCells s.mem (s.slotAddr k) (t.slot k).wrapped ∧ t.keyEnded 0 k ∧ RegsKept s t (R.keyCmd :: (below 8).map R.keyData ++ storeRegs)) ∧
  (∀ s : State, ∀ (v : Word) (k : Nat), s.Inv = true → (s.keyRuns v 1 k = true) → ((s.slot k).state ≠ 0) → 
    Does (.keyLoad v) s fun t =>
      t.slot k = s.slot k ∧ t.keyEnded 1 k ∧ MemKept s t) ∧
  (∀ s : State, ∀ (v : Word) (k : Nat), s.Inv = true → (s.keyRuns v 2 k = true) → (s.keyCheck k [] false = 0) → (s.rngOk = true) → ((let kind := s.getF R.keyAttr F.keyAttr_kind; (s.drawBytes State.draw (keyBytes kind / 8)).2.entryWritten k) = true) → (s.noneWaits = true) → 
    Does (.keyGenerate v) s fun t =>
      { t.slot k with key := [], wrapped := [] } = s.stagedSlot ∧ (t.keyOf k).length = keyBytes (s.getF R.keyAttr F.keyAttr_kind) ∧ (s.getF R.keyAttr F.keyAttr_kind = 3 → 1 ≤ beNat (t.keyOf k) ∧ beNat (t.keyOf k) < bpN) ∧ t.mem = putCells s.mem (s.slotAddr k) (t.slot k).wrapped ∧ t.keyEnded 0 k) ∧
  (∀ s : State, ∀ (v : Word) (k : Nat), s.Inv = true → (s.keyRuns v 2 k = true) → ((s.slot k).state ≠ 0) → 
    Does (.keyGenerate v) s fun t =>
      t.slot k = s.slot k ∧ t.keyEnded 1 k ∧ MemKept s t) ∧
  (∀ s : State, ∀ (v : Word) (k u : Nat), s.Inv = true → (s.keyRuns v 3 k = true) → (s.keyCheck k [] false = 0) → (u = s.getF R.keyAttr F.keyAttr_wrap_slot) → ((s.slot u).state ≠ 0) → ((s.slot u).kind = 4) → (s.unwrapCode u = 0) → (s.rngOk = true) → (s.entryWritten k = true) → (s.noneWaits = true) → 
    Does (.keyImport v) s fun t =>
      (let o := keyUnwrap (s.keyOf u) (s.keyData.take (keyBytes (s.getF R.keyAttr F.keyAttr_kind) + 8)); let key := o.getD []; if o = none then t.slot k = s.slot k ∧ t.keyEnded 0x21 k ∧ MemKept s t else if s.getF R.keyAttr F.keyAttr_kind = 3 ∧ ¬ (1 ≤ beNat key ∧ beNat key < bpN) then t.slot k = s.slot k ∧ t.keyEnded 2 k ∧ MemKept s t else { t.slot k with key := [], wrapped := [] } = s.stagedSlot ∧ t.keyOf k = key ∧ t.mem = putCells s.mem (s.slotAddr k) (t.slot k).wrapped ∧ t.keyEnded 0 k)) ∧
  (∀ s : State, ∀ (v : Word) (k : Nat), s.Inv = true → (s.keyRuns v 4 k = true) → ((s.cipher.jobs.any fun e => jobNames e.2.raw k) = false) → ((s.queuedJobs.any fun r => jobNames r k) = false) → ((s.memWrite 0x0B 4 6 0 (s.slotAddr k) (zeros 128)).1 = none) → (s.noneWaits = true) → 
    Does (.keyUnload v) s fun t =>
      t.cipher.slots = Tab.erase s.cipher.slots k ∧ t.mem = putCells s.mem (s.slotAddr k) (zeros 128) ∧ t.keyEnded 0 k) ∧
  (∀ s : State, ∀ (v : Word) (k : Nat), s.Inv = true → (s.keyRuns v 4 k = true) → ((s.cipher.jobs.any fun e => jobNames e.2.raw k) = true) → 
    Does (.keyUnload v) s fun t =>
      t.slot k = s.slot k ∧ t.keyEnded 1 k ∧ MemKept s t) ∧
  (∀ s : State, ∀ (v : Word) (k : Nat) (x : KeySlot), s.Inv = true → (s.keyRuns v 5 k = true) → (x = s.slot k) → (x.kind < 16) → (x.owner < 256) → (x.state < 4) → (x.salt < 2 ^ 32) → 
    Does (.keyRead v) s fun t =>
      t.getF R.keyAttr F.keyAttr_kind = x.kind ∧ t.getF R.keyAttr F.keyAttr_state = x.state ∧ t.getF R.keyAttr F.keyAttr_owner = x.owner ∧ (t.getF R.keyAttr F.keyAttr_check = 1 ↔ x.inverse = true) ∧ (t.getF R.keyAttr F.keyAttr_allow_enc = 1 ↔ x.enc = true) ∧ (t.getF R.keyAttr F.keyAttr_allow_dec = 1 ↔ x.dec = true) ∧ (t.getF R.keyAttr F.keyAttr_nonce_hw = 1 ↔ x.nonceHw = true) ∧ t.getF R.keySalt F.keySalt_salt = x.salt ∧ t.reg R.keyCtr = x.counter ∧ t.reg R.keyLimit = x.limit ∧ t.cipher = s.cipher ∧ t.keyEnded 0 k ∧ MemKept s t) ∧
  (∀ s : State, ∀ (pipe k : Nat), s.Inv = true → (k < 2 ^ 16) → (Tab.find? s.cipher.wanted (pipe * 2 ^ 16 + k) = some ()) → 
    Does (.keyUnwrapDone pipe k) s fun t =>
      t.cachedKey pipe k = some (s.unwrapCode k) ∧ t.cipher.wanted = Tab.erase s.cipher.wanted (pipe * 2 ^ 16 + k) ∧ t.cipher.slots = s.cipher.slots ∧ Kept s t [] []) ∧
  (∀ s : State, ∀ (b : Bell) (q i : Nat), s.Inv = true → (s.bell 7 b = .hit q i) → (s.getF (R.cqCfg q) F.cqCfg_enable = 1) → (s.sliceState (s.cqOwner q) = 1) → (i < ringSlots (s.getF (R.cqRing q) F.cqRing_size)) → 
    Does (.cipherQueueDoorbell b) s fun t =>
      t.getF (R.cqTail q) F.cqTail_tail = i % 2 ^ 16 ∧ Kept s t [R.cqTail q] []) ∧
  (∀ s : State, ∀ (q : Nat) (v : Word), s.Inv = true → (q < 1024) → (s.getF (R.cqCfg q) F.cqCfg_enable = 0) → 
    Does (.cipherQueueDoorbell (.reg q v)) s fun t =>
      t.getF (R.cqTail q) F.cqTail_tail = v.toNat % 2 ^ 16 ∧ Kept s t [R.cqTail q] []) ∧
  (∀ s : State, ∀ (fn p off len v q i n : Nat), s.Inv = true → (s.bell 7 (.page fn p off len v) = .hit q i) → (s.getF (R.cqCfg q) F.cqCfg_enable = 0) → (n = s.cqOwner q) → 
    Does (.cipherQueueDoorbell (.page fn p off len v)) s fun t =>
      t.tallyOf 5 1 n = s.tallyOf 5 1 n + 1 ∧ Kept s t [] [tallyKey 5 1 n]) ∧
  (∀ s : State, ∀ (q : Nat) (io : JobIo) (raw src aux nonce : List Byte), s.Inv = true → (s.cipherRuns q 1 io raw false [src, aux, nonce, []] = true) → (src ≠ []) → 
    Does (.gcmSeal q io) s fun t =>
      (let key := s.keyOf (fieldLE raw 12 2); let ct := gcmCrypt key nonce src; Wrote t (s.jobWrites q (fieldLE raw 24 8) ct) ∧ Wrote t (s.jobWrites q (fieldLE raw 56 8) (gcmTag key nonce aux ct)) ∧ t.out.contains (s.jobOutcome q raw 0 ct.length 0) = true) ∧ t.slot (fieldLE raw 12 2) = s.slot (fieldLE raw 12 2) ∧ MemKept s t) ∧
  (∀ s : State, ∀ (q : Nat) (io : JobIo) (raw src aux : List Byte), s.Inv = true → (s.cipherRuns q 1 io raw true [src, aux, [], []] = true) → (src ≠ []) → 
    Does (.gcmSeal q io) s fun t =>
      (let k := fieldLE raw 12 2; let x := s.slot k; let nonce := bytesBE 4 x.salt ++ bytesBE 8 x.counter.toNat; let ct := gcmCrypt x.key nonce src; Wrote t (s.jobWrites q (fieldLE raw 48 8) nonce) ∧ Wrote t (s.jobWrites q (fieldLE raw 24 8) ct) ∧ Wrote t (s.jobWrites q (fieldLE raw 56 8) (gcmTag x.key nonce aux ct)) ∧ t.out.contains (s.jobOutcome q raw 0 ct.length x.counter.toNat) = true ∧ (s.tablesRise = true → t.slot k = { x with counter := x.counter + 1 })) ∧ t.tallyOf 0x0B 3 (q % 4) = s.tallyOf 0x0B 3 (q % 4) + 1 ∧ MemKept s t) ∧
  (∀ s : State, ∀ (q : Nat) (io : JobIo) (raw : List Byte), s.Inv = true → (s.cipherComes q 1 io raw = true) → ((s.jobCheck (s.cqOwner q) raw).1 = 0) → (natBit (fieldLE raw 1 1) 0 = true) → ((s.slot (fieldLE raw 12 2)).counter = (s.slot (fieldLE raw 12 2)).limit) → 
    Does (.gcmSeal q io) s fun t =>
      t.out.contains (s.jobOutcome q raw 0x22 0 0) = true ∧ (t.slot (fieldLE raw 12 2)).state = 2 ∧ (t.slot (fieldLE raw 12 2)).counter = (s.slot (fieldLE raw 12 2)).counter ∧ t.tallyOf 0x0B 4 (q % 4) = s.tallyOf 0x0B 4 (q % 4) + 1 ∧ MemKept s t) ∧
  (∀ s : State, ∀ (q : Nat) (io : JobIo) (raw : List Byte), s.Inv = true → (s.cipherComes q 1 io raw = true) → ((s.jobCheck (s.cqOwner q) raw).1 = 0) → (natBit (fieldLE raw 1 1) 0 = false) → (s.cachedKey (q % 4) (fieldLE raw 12 2) = none) → 
    Does (.gcmSeal q io) s fun t =>
      Tab.find? t.cipher.jobs q = some ⟨raw, none⟩ ∧ (Tab.find? t.cipher.wanted (q % 4 * 2 ^ 16 + fieldLE raw 12 2)).isSome = true ∧ newWrites s t = [] ∧ MemKept s t) ∧
  (∀ s : State, ∀ (q : Nat) (io : JobIo) (raw src aux nonce tag : List Byte), s.Inv = true → (s.cipherRuns q 2 io raw false [src, aux, nonce, tag] = true) → (src ≠ []) → 
    Does (.gcmOpen q io) s fun t =>
      (let key := s.keyOf (fieldLE raw 12 2); let pt := gcmCrypt key nonce src; if gcmTag key nonce aux src = tag then Wrote t (s.jobWrites q (fieldLE raw 24 8) pt) ∧ t.out.contains (s.jobOutcome q raw 0 pt.length 0) = true else newWrites s t = [s.jobOutcome q raw 0x21 0 0]) ∧ MemKept s t) ∧
  (∀ s : State, ∀ (q : Nat) (io : JobIo) (raw src nonce : List Byte), s.Inv = true → (s.cipherRuns q 3 io raw false [src, [], nonce, []] = true) → 
    Does (.ctr q io) s fun t =>
      (let o := ctrCrypt (s.keyOf (fieldLE raw 12 2)) (fun i => inc128 nonce i) src; Wrote t (s.jobWrites q (fieldLE raw 24 8) o) ∧ t.out.contains (s.jobOutcome q raw 0 o.length 0) = true) ∧ MemKept s t) ∧
  (∀ s : State, ∀ (q n : Nat) (io : JobIo) (raw src : List Byte), s.Inv = true → (s.cipherRuns q 4 io raw false [src, [], [], []] = true) → (src ≠ []) → (n = fieldLE raw 40 4) → 
    Does (.xtsEncrypt q io) s fun t =>
      (let us := chunks n (src.length / n) src; let o := ((us.zip (List.range us.length)).map fun p => xtsUnit true (s.keyOf (fieldLE raw 12 2)) (s.keyOf (fieldLE raw 14 2)) (fieldLE raw 32 8 + p.2) p.1).flatten; o ≠ [] → Wrote t (s.jobWrites q (fieldLE raw 24 8) o) ∧ t.out.contains (s.jobOutcome q raw 0 o.length 0) = true) ∧ MemKept s t) ∧
  (∀ s : State, ∀ (q n : Nat) (io : JobIo) (raw src : List Byte), s.Inv = true → (s.cipherRuns q 5 io raw false [src, [], [], []] = true) → (src ≠ []) → (n = fieldLE raw 40 4) → 
    Does (.xtsDecrypt q io) s fun t =>
      (let us := chunks n (src.length / n) src; let o := ((us.zip (List.range us.length)).map fun p => xtsUnit false (s.keyOf (fieldLE raw 12 2)) (s.keyOf (fieldLE raw 14 2)) (fieldLE raw 32 8 + p.2) p.1).flatten; o ≠ [] → Wrote t (s.jobWrites q (fieldLE raw 24 8) o) ∧ t.out.contains (s.jobOutcome q raw 0 o.length 0) = true) ∧ MemKept s t) ∧
  (∀ s : State, ∀ (q : Nat) (io : JobIo) (raw src : List Byte), s.Inv = true → (s.cipherRuns q 8 io raw false [src, [], [], []] = true) → 
    Does (.sha256 q io) s fun t =>
      Wrote t (s.jobWrites q (fieldLE raw 24 8) (sha256 src)) ∧ t.out.contains (s.jobOutcome q raw 0 32 0) = true ∧ t.tallyOf 0x0B 8 (q % 4) = s.tallyOf 0x0B 8 (q % 4) + BitVec.ofNat 64 src.length ∧ MemKept s t) ∧
  (∀ s : State, ∀ (q : Nat) (io : JobIo) (raw src : List Byte), s.Inv = true → (s.cipherRuns q 9 io raw false [src, [], [], []] = true) → 
    Does (.sha384 q io) s fun t =>
      Wrote t (s.jobWrites q (fieldLE raw 24 8) (sha384 src)) ∧ t.out.contains (s.jobOutcome q raw 0 48 0) = true ∧ MemKept s t) ∧
  (∀ s : State, ∀ (q : Nat) (io : JobIo) (raw src : List Byte), s.Inv = true → (s.cipherRuns q 0x0C io raw false [src, [], [], []] = true) → 
    Does (.ecdsaSign q io) s fun t =>
      (let l := ecdsaSign (beNat (s.keyOf (fieldLE raw 12 2))) src; (l ≠ [] → Wrote t (s.jobWrites q (fieldLE raw 24 8) l)) ∧ t.out.contains (s.jobOutcome q raw 0 l.length 0) = true) ∧ MemKept s t) ∧
  (∀ s : State, ∀ (q : Nat) (io : JobIo) (raw src aux tag : List Byte) (p : Nat × Nat), s.Inv = true → (s.cipherRuns q 0x0D io raw false [src, aux, [], tag] = true) → (ptOfBytes aux = some p) → 
    Does (.ecdsaVerify q io) s fun t =>
      t.out.contains (s.jobOutcome q raw (if ecdsaVerify p src tag then 0 else 0x21) 0 0) = true ∧ MemKept s t) ∧
  (∀ s : State, ∀ (q : Nat) (io : JobIo) (raw src aux tag : List Byte), s.Inv = true → (s.cipherRuns q 0x0D io raw false [src, aux, [], tag] = true) → (ptOfBytes aux = none) → 
    Does (.ecdsaVerify q io) s fun t =>
      t.out.contains (s.jobOutcome q raw 2 0 0) = true ∧ MemKept s t) ∧
  (∀ s : State, ∀ (q : Nat) (io : JobIo) (raw : List Byte), s.Inv = true → (s.cipherRuns q 0x0E io raw false [[], [], [], []] = true) → 
    Does (.publicKey q io) s fun t =>
      (let l := ptBytes (publicPoint (beNat (s.keyOf (fieldLE raw 12 2)))); (l ≠ [] → Wrote t (s.jobWrites q (fieldLE raw 24 8) l)) ∧ t.out.contains (s.jobOutcome q raw 0 l.length 0) = true) ∧ MemKept s t)

/-- Each emergency sets its bit, reads active, lowers the emergency rate to its own and is counted; clearing the last clears active.
A supply fault, THERMTRIP# and the power die's fallback enter OFF with their cause. An answer ends the command that waits; a nak
fails it with 0x0011 and leaves the device state; a request without an answer is resent once, then the link is lost. The meter's
values go into their registers. The cap loop lowers, holds or raises cap_rate as R415 says and sets or clears unmet; a phase
applies to the stacks named. The thermal rate falls by 4 at 105 °C and rises by 1 below 103 °C, not more often than once in 1
ms. -/
def Obligations.PowerEventCommands : Prop :=
  (∀ s : State, s.Inv = true → (s.emergIs 4 false = true) → 
    Does (.inputLow) s fun t =>
      EmergencyOn s t 4 32 ∧ t.pins.smbAlertN = false ∧ MemKept s t) ∧
  (∀ s : State, s.Inv = true → (s.emergIs 4 true = true) → 
    Does (.inputRecover) s fun t =>
      EmergencyOff s t 4 ∧ MemKept s t) ∧
  (∀ s : State, s.Inv = true → (s.power.off = false) → ((s.epOf 0).msixEnable = true) → (s.hostPath 0 = true) → (s.vectorMasked 0 0 = false) → ((s.epOf 0).funcMask = false) → 
    Does (.inputOvervoltage) s fun t =>
      t.out.head? = some (.msix 0 (s.vectorPasid 0 0) 0) ∧ t.getF R.emergStatus F.emergStatus_active = s.getF R.emergStatus F.emergStatus_active ∧ RegsKept s t (R.epStatus 0 :: daybookRegs) ∧ MemKept s t) ∧
  (∀ s : State, ∀ (high : Bool), s.Inv = true → (s.power.off = false) → 
    Does (.inputFaultOff high) s fun t =>
      EntersOff s t (if high then 2 else 1)) ∧
  (∀ s : State, s.Inv = true → (s.emergIs 3 false = true) → 
    Does (.powerAlert) s fun t =>
      EmergencyOn s t 3 8 ∧ MemKept s t) ∧
  (∀ s : State, s.Inv = true → (s.emergIs 3 true = true) → 
    Does (.overpowerClear) s fun t =>
      EmergencyOff s t 3 ∧ MemKept s t) ∧
  (∀ s : State, s.Inv = true → (s.power.off = false) → 
    Does (.thermtrip) s fun t =>
      EntersOff s t 3 ∧ t.pins.thermtripN = false) ∧
  (∀ s : State, s.Inv = true → (s.power.off = false) → 
    Does (.powerDieFallback true) s fun t =>
      EntersOff s t 4) ∧
  (∀ s : State, s.Inv = true → (s.power.off = false) → 
    Does (.powerDieFallback false) s fun t =>
      t = { s with power := { s.power with fallback := true } }) ∧
  (∀ s : State, ∀ (r : PlinkReq), s.Inv = true → (s.power.off = false) → (s.power.request = some r) → (r.op = 1) → 
    Does (.powerLinkAnswer true) s fun t =>
      t.pwr = 0 ∧ t.getF R.pwrState F.pwrState_last_status = 0 ∧ t.getF R.pwrState F.pwrState_busy = 0 ∧ t.power.request = none ∧ t.power.rails = [] ∧ t.bench.scratch = [] ∧ t.bench.engines = [] ∧ t.bench.barriers = [] ∧ MemKept s t) ∧
  (∀ s : State, ∀ (r : PlinkReq), s.Inv = true → (s.power.off = false) → (s.power.request = some r) → (r.op = 2) → 
    Does (.powerLinkAnswer true) s fun t =>
      t.pwr = s.pwr ∧ t.getF R.pwrState F.pwrState_last_status = 0 ∧ t.getF R.pwrState F.pwrState_busy = 0 ∧ t.power.request = none ∧ t.bench.scratch = [] ∧ t.bench.barriers = [] ∧ Kept s t (R.pwrState :: ((below 84).map fun k => R.benchStatus (k / 7) (k % 7))) []) ∧
  (∀ s : State, ∀ (r : PlinkReq), s.Inv = true → (s.power.off = false) → (s.power.request = some r) → (r.op = 1) → 
    Does (.powerLinkAnswer false) s fun t =>
      t.pwr = s.pwr ∧ t.getF R.pwrState F.pwrState_last_status = 0x11 ∧ t.power.request = none ∧ t.power.rails = s.power.rails ∧ t.tallyOf 2 5 0 = s.tallyOf 2 5 0 + 1 ∧ Kept s t [R.pwrState] [tallyKey 2 5 0]) ∧
  (∀ s : State, ∀ (r : PlinkReq), s.Inv = true → (s.power.off = false) → (s.power.request = some r) → (r.resent = false) → 
    Does (.powerLinkTimeout) s fun t =>
      t.power.request = some ⟨r.op, true⟩ ∧ t.tallyOf 2 4 0 = s.tallyOf 2 4 0 + 1 ∧ Kept s t [] [tallyKey 2 4 0]) ∧
  (∀ s : State, ∀ (r : PlinkReq), s.Inv = true → (s.emergIs 5 false = true) → (s.power.request = some r) → (r.resent = true) → (r.op = 1) → 
    Does (.powerLinkTimeout) s fun t =>
      EmergencyOn s t 5 16 ∧ t.getF R.capStatus F.capStatus_stale = 1 ∧ t.getF R.plinkStatus F.plinkStatus_link_ok = 0 ∧ t.pwr = s.pwr ∧ t.getF R.pwrState F.pwrState_last_status = 1 ∧ t.power.rails = s.power.rails ∧ MemKept s t) ∧
  (∀ s : State, s.Inv = true → (s.emergIs 5 true = true) → 
    Does (.powerLinkRetry true) s fun t =>
      EmergencyOff s t 5 ∧ t.getF R.capStatus F.capStatus_stale = 0 ∧ t.getF R.plinkStatus F.plinkStatus_link_ok = 1 ∧ MemKept s t) ∧
  (∀ s : State, s.Inv = true → (s.power.off = false) → 
    Does (.powerLinkRetry false) s fun t =>
      t = s) ∧
  (∀ s : State, ∀ (uj pin vin iin : Nat), s.Inv = true → (s.power.off = false) → (s.getF R.emergStatus F.emergStatus_link_lost = 0) → (pin < 2 ^ 16) → (vin < 2 ^ 16) → (iin < 2 ^ 16) → 
    Does (.energyUpdate uj pin vin iin) s fun t =>
      t.reg R.energy = BitVec.ofNat 64 uj ∧ t.getF R.powerNow F.powerNow_pin_w = pin ∧ t.getF R.powerNow F.powerNow_vin_mv = vin ∧ t.getF R.powerNow F.powerNow_iin_ma = iin ∧ Kept s t [R.energy, R.powerNow] []) ∧
  (∀ s : State, ∀ (uj pin vin iin : Nat), s.Inv = true → (s.power.off = false) → (s.getF R.emergStatus F.emergStatus_link_lost = 1) → 
    Does (.energyUpdate uj pin vin iin) s fun t =>
      t = s) ∧
  (∀ s : State, ∀ (p cap rate : Nat), s.Inv = true → (s.power.off = false) → (Tab.find? s.boot.down 1 = none) → (cap = max 500 (min 1000 (s.getF R.capCfg F.capCfg_cap_w))) → (rate = s.getF R.capStatus F.capStatus_cap_rate) → (cap < p) → (1 < rate) → (rate ≤ 64) → 
    Does (.capLoop p) s fun t =>
      t.getF R.capStatus F.capStatus_cap_rate = max 1 (rate - (p - cap + 5) / 6) ∧ t.power.quietCut = s.power.quietCut ∧ t.tallyOf 2 2 0 = s.tallyOf 2 2 0 + 1 ∧ MemKept s t) ∧
  (∀ s : State, ∀ (p cap : Nat), s.Inv = true → (s.power.off = false) → (Tab.find? s.boot.down 1 = none) → (cap = max 500 (min 1000 (s.getF R.capCfg F.capCfg_cap_w))) → (p ≤ cap) → (cap ≤ p + 12) → 
    Does (.capLoop p) s fun t =>
      t.getF R.capStatus F.capStatus_cap_rate = s.getF R.capStatus F.capStatus_cap_rate ∧ t.getF R.capStatus F.capStatus_unmet = 0 ∧ t.power.capOver = 0 ∧ MemKept s t) ∧
  (∀ s : State, ∀ (p cap rate : Nat), s.Inv = true → (s.power.off = false) → (Tab.find? s.boot.down 1 = none) → (cap = max 500 (min 1000 (s.getF R.capCfg F.capCfg_cap_w))) → (rate = s.getF R.capStatus F.capStatus_cap_rate) → (rate ≤ 64) → (p + 12 < cap) → (s.power.quietCut = 0) → 
    Does (.capLoop p) s fun t =>
      t.getF R.capStatus F.capStatus_cap_rate = (if s.capBinds then min 64 (rate + 1) else rate) ∧ t.getF R.capStatus F.capStatus_unmet = 0 ∧ MemKept s t) ∧
  (∀ s : State, ∀ (p cap : Nat), s.Inv = true → (s.power.off = false) → (Tab.find? s.boot.down 1 = none) → (cap = max 500 (min 1000 (s.getF R.capCfg F.capCfg_cap_w))) → (s.getF R.capStatus F.capStatus_cap_rate = 1) → (cap < p) → (s.power.capOver = 9) → 
    Does (.capLoop p) s fun t =>
      t.getF R.capStatus F.capStatus_cap_rate = 1 ∧ t.getF R.capStatus F.capStatus_unmet = 1 ∧ t.power.quietCut = s.power.quietCut + (p - cap + 5) / 6 ∧ MemKept s t) ∧
  (∀ s : State, ∀ (v : Word) (ph st : Nat), s.Inv = true → (s.serving = true) → (s.power.off = false) → (ph = getBits v F.phaseCtrl_phase) → (ph ≤ 4) → (st < 12) → 
    Does (.phaseCtrlWrite v) s fun t =>
      t.phaseOf st = (if natBit (getBits v F.phaseCtrl_stacks) st then ph else s.phaseOf st) ∧ t.tallyOf 2 3 st = s.tallyOf 2 3 st + (if natBit (getBits v F.phaseCtrl_stacks) st then 1 else 0) ∧ MemKept s t) ∧
  (∀ s : State, ∀ (v : Word) (st : Nat), s.Inv = true → (s.serving = true) → (s.power.off = false) → (4 < getBits v F.phaseCtrl_phase) → (st < 12) → 
    Does (.phaseCtrlWrite v) s fun t =>
      t.phaseOf st = s.phaseOf st ∧ RegsKept s t daybookRegs ∧ MemKept s t) ∧
  (∀ s : State, ∀ (st b : Nat), s.Inv = true → (s.power.off = false) → (s.getF (R.opPoint (s.phaseOf st)) F.opPoint_gate_idle = 1) → (s.benchBusy st b = false) → 
    Does (.benchGateIdle st b) s fun t =>
      Tab.find? t.power.gated (benchKey st b) = some () ∧ t.cores = Tab.erase s.cores (benchKey st b) ∧ (t.bench.engines.any fun e => e.1 / 9 == benchKey st b) = false ∧ (t.bench.scratch.any fun e => e.1 / 2 ^ 22 == benchKey st b) = false ∧ (t.bench.barriers.any fun e => e.1 / 16 == benchKey st b) = false ∧ Kept s t [] []) ∧
  (∀ s : State, ∀ (dies dram : List Nat), s.Inv = true → (s.emergIs 1 false = true) → ((dies.any fun x => decide (x ≥ 105)) = true) → (dies.all (fun x => decide (x < 256)) = true) → (dram.all (fun x => decide (x < 95)) = true) → (s.power.therm ≤ 64) → (8 ≤ s.power.therm) → 
    Does (.thermalLoop dies dram) s fun t =>
      t.power.therm = max 8 (s.power.therm - 4) ∧ t.getF R.tempStatus F.tempStatus_tj_max = dies.foldl max 0 ∧ natBit (t.reg R.emergStatus).toNat 1 = true ∧ t.getF R.emergStatus F.emergStatus_active = 1 ∧ t.getF R.emergStatus F.emergStatus_emerg_rate ≤ t.power.therm ∧ t.tallyOf 2 1 0 = s.tallyOf 2 1 0 + 1 ∧ MemKept s t) ∧
  (∀ s : State, ∀ (dies dram : List Nat), s.Inv = true → (s.power.off = false) → (dies.all (fun x => decide (x < 103)) = true) → (usTicks 1000 ≤ s.since s.power.thermRaise) → 
    Does (.thermalLoop dies dram) s fun t =>
      t.power.therm = min 64 (s.power.therm + 1) ∧ t.power.thermRaise = s.now ∧ MemKept s t) ∧
  (∀ s : State, ∀ (dies dram : List Nat), s.Inv = true → (s.power.off = false) → (dies.all (fun x => decide (x < 105)) = true) → (s.since s.power.thermRaise < usTicks 1000) → 
    Does (.thermalLoop dies dram) s fun t =>
      t.power.therm = s.power.therm ∧ t.power.thermRaise = s.power.thermRaise ∧ MemKept s t) ∧
  (∀ s : State, ∀ (st : Nat), s.Inv = true → (st < 12) → (s.emergIs (36 + st) false = true) → 
    Does (.droop st) s fun t =>
      natBit (t.getF R.emergStatus F.emergStatus_droop_stacks) st = true ∧ t.getF R.emergStatus F.emergStatus_droop = 1 ∧ t.getF R.emergStatus F.emergStatus_active = 1 ∧ t.getF R.emergStatus F.emergStatus_emerg_rate ≤ 8 ∧ t.tallyOf 2 1 2 = s.tallyOf 2 1 2 + 1 ∧ MemKept s t) ∧
  (∀ s : State, ∀ (st : Nat), s.Inv = true → (st < 12) → (s.emergIs (36 + st) true = true) → 
    Does (.droopClear st) s fun t =>
      natBit (t.getF R.emergStatus F.emergStatus_droop_stacks) st = false ∧ (t.getF R.emergStatus F.emergStatus_droop = 1 ↔ t.getF R.emergStatus F.emergStatus_droop_stacks ≠ 0) ∧ MemKept s t)

/-- To A0 asks the power die; to A1 stops new bench work, and the device enters A1 once the benches are idle, or the command ends
with 0x0012. Bench work brings A1 back to A0 with auto_a0. Arming completes with 0x0040 where the conditions hold and with
0x0001 otherwise, disarming clears it; a command the state does not list is refused with 0x0001. A triggered entry enters S1 or
S2 with its save, its pads held and, in S2, the hub's tables lost; where the conditions fail, or the power link is lost, the
arming is cleared and the device stays. A wake brings the device to A0 with its source and after S2 restores the save. The power
core releases pads; a host's write is ignored. -/
def Obligations.DeviceStateCommands : Prop :=
  (∀ s : State, ∀ (v : Word), s.Inv = true → (s.pwrTakes v 1 = true) → (s.pwr = 1) → 
    Does (.toA0 v) s fun t =>
      t.power.request = some ⟨1, false⟩ ∧ t.getF R.pwrState F.pwrState_busy = 1 ∧ t.pwr = 1 ∧ Kept s t [R.pwrState] []) ∧
  (∀ s : State, ∀ (v : Word), s.Inv = true → (s.pwrTakes v 1 = true) → (s.pwr ≠ 1) → 
    Does (.toA0 v) s fun t =>
      PwrRefused s t ∧ MemKept s t) ∧
  (∀ s : State, ∀ (v : Word), s.Inv = true → (s.pwrTakes v 2 = true) → (s.pwr = 0) → 
    Does (.toA1 v) s fun t =>
      t.power.stopping = true ∧ t.getF R.pwrState F.pwrState_busy = 1 ∧ t.pwr = 0 ∧ Kept s t [R.pwrState] []) ∧
  (∀ s : State, ∀ (v : Word), s.Inv = true → (s.pwrTakes v 2 = true) → (s.pwr ≠ 0) → 
    Does (.toA1 v) s fun t =>
      PwrRefused s t ∧ MemKept s t) ∧
  (∀ s : State, ∀ (v : Word), s.Inv = true → (s.power.off = false) → (s.serving = true) → (getBits v F.pwrStateCmd_op = 2) → (s.getF R.pwrState F.pwrState_busy = 1) → 
    Does (.toA1 v) s fun t =>
      t.power = s.power ∧ RegsKept s t daybookRegs ∧ MemKept s t) ∧
  (∀ s : State, s.Inv = true → (s.power.off = false) → (s.power.stopping = true) → (s.benchesIdle = true) → 
    Does (.a1Entry) s fun t =>
      t.pwr = 1 ∧ t.power.request = some ⟨2, false⟩ ∧ t.power.stopping = false ∧ (((below 12).map fun k => (k + 5, 2)) : Tab Nat) = t.power.rails ∧ MemKept s t) ∧
  (∀ s : State, s.Inv = true → (s.power.off = false) → (s.power.stopping = true) → (s.benchesIdle = false) → 
    Does (.a1Entry) s fun t =>
      t = s) ∧
  (∀ s : State, s.Inv = true → (s.power.off = false) → (s.power.stopping = true) → 
    Does (.a1Timeout) s fun t =>
      t.getF R.pwrState F.pwrState_last_status = 0x12 ∧ t.getF R.pwrState F.pwrState_busy = 0 ∧ t.power.stopping = false ∧ t.pwr = s.pwr ∧ Kept s t [R.pwrState] []) ∧
  (∀ s : State, s.Inv = true → (s.power.off = false) → (s.pwr = 1) → (s.getF R.pwrCfg F.pwrCfg_auto_a0 = 1) → (s.benchReady = true) → (s.getF R.pwrState F.pwrState_busy = 0) → 
    Does (.autoA0) s fun t =>
      t.power.request = some ⟨1, false⟩ ∧ t.getF R.pwrState F.pwrState_busy = 1 ∧ Kept s t [R.pwrState] []) ∧
  (∀ s : State, ∀ (v : Word), s.Inv = true → (s.pwrTakes v 3 = true) → (s.pwr ≤ 1) → (s.sleepOk false = true) → (s.activationOpen = false) → 
    Does (.armS1 v) s fun t =>
      t.getF R.pwrState F.pwrState_armed = 2 ∧ t.getF R.pwrState F.pwrState_last_status = 0x40 ∧ t.pwr = s.pwr ∧ Kept s t [R.pwrState] []) ∧
  (∀ s : State, ∀ (v : Word), s.Inv = true → (s.pwrTakes v 3 = true) → (s.sleepOk false = false) → 
    Does (.armS1 v) s fun t =>
      PwrRefused s t ∧ MemKept s t) ∧
  (∀ s : State, ∀ (v : Word), s.Inv = true → (s.pwrTakes v 4 = true) → (s.pwr ≤ 1) → (s.sleepOk true = true) → (s.activationOpen = false) → 
    Does (.armS2 v) s fun t =>
      t.getF R.pwrState F.pwrState_armed = 3 ∧ t.getF R.pwrState F.pwrState_last_status = 0x40 ∧ t.pwr = s.pwr ∧ Kept s t [R.pwrState] []) ∧
  (∀ s : State, ∀ (v : Word), s.Inv = true → (s.pwrTakes v 4 = true) → (s.sleepOk true = false) → 
    Does (.armS2 v) s fun t =>
      PwrRefused s t ∧ MemKept s t) ∧
  (∀ s : State, ∀ (v : Word), s.Inv = true → (s.pwrTakes v 5 = true) → 
    Does (.disarm v) s fun t =>
      t.getF R.pwrState F.pwrState_armed = 0 ∧ t.getF R.pwrState F.pwrState_last_status = 0 ∧ t.pwr = s.pwr ∧ Kept s t [R.pwrState] []) ∧
  (∀ s : State, s.Inv = true → (s.power.off = false) → (s.getF R.pwrState F.pwrState_armed = 2) → (s.pwr ≤ 1) → (s.getF R.pwrState F.pwrState_busy = 0) → (s.getF (R.epStatus 0) F.epStatus_d_state = 3) → (s.getF (R.epStatus 1) F.epStatus_d_state = 3) → (s.sleepOk false = true) → (s.pipesEmpty = true) → (s.net.conns = []) → 
    Does (.s1Entry false) s fun t =>
      t.pwr = 2 ∧ t.getF R.pwrState F.pwrState_armed = 0 ∧ t.getF R.padStatus F.padStatus_held = (if s.wakeEnabled 0 then 3 else 7) ∧ t.power.saved.isSome = true ∧ t.power.rails = s.sleepRails false ∧ t.regions = s.regions ∧ t.store = s.store ∧ t.net = s.net ∧ MemKept s t) ∧
  (∀ s : State, ∀ (linkLost : Bool), s.Inv = true → (s.power.off = false) → (s.getF R.pwrState F.pwrState_armed = 2) → (s.pwr ≤ 1) → (s.getF R.pwrState F.pwrState_busy = 0) → (s.getF (R.epStatus 0) F.epStatus_d_state = 3) → (s.getF (R.epStatus 1) F.epStatus_d_state = 3) → (s.sleepOk false = false) → 
    Does (.s1Entry linkLost) s fun t =>
      t.pwr = s.pwr ∧ t.getF R.pwrState F.pwrState_armed = 0 ∧ t.getF R.pwrState F.pwrState_last_status = 1 ∧ RegsKept s t (R.pwrState :: daybookRegs) ∧ MemKept s t) ∧
  (∀ s : State, s.Inv = true → (s.emergIs 5 false = true) → (s.getF R.pwrState F.pwrState_armed = 2) → (s.pwr ≤ 1) → (s.getF R.pwrState F.pwrState_busy = 0) → (s.getF (R.epStatus 0) F.epStatus_d_state = 3) → (s.getF (R.epStatus 1) F.epStatus_d_state = 3) → (s.sleepOk false = true) → 
    Does (.s1Entry true) s fun t =>
      t.pwr = s.pwr ∧ t.getF R.pwrState F.pwrState_armed = 0 ∧ EmergencyOn s t 5 16 ∧ t.power.rails = s.power.rails ∧ MemKept s t) ∧
  (∀ s : State, s.Inv = true → (s.power.off = false) → (s.getF R.pwrState F.pwrState_armed = 3) → (s.pwr ≤ 1) → (s.getF R.pwrState F.pwrState_busy = 0) → (((s.epOf 0).linkPm = 4 ∧ (s.epOf 1).linkPm = 4) ∨ ((s.epOf 0).perst = true ∧ (s.epOf 1).perst = true)) → (s.sleepOk true = true) → (s.pipesEmpty = true) → (s.net.conns = []) → (((s.listed (R.nsMap 0) 0x20 4096).any fun n => s.mirrored n) = false) → 
    Does (.s2Entry false) s fun t =>
      t.pwr = 3 ∧ t.getF R.pwrState F.pwrState_armed = 0 ∧ t.getF R.padStatus F.padStatus_held = 7 ∧ t.power.saved.isSome = true ∧ t.regions = s.regions ∧ t.force = s.force ∧ t.store = Storage.idle ∧ t.net = Net.idle ∧ t.dma = [] ∧ t.ringWait = [] ∧ t.tally = [] ∧ (t.regs.all fun e => keptRegister e.1) = true ∧ MemKept s t) ∧
  (∀ s : State, ∀ (linkLost : Bool), s.Inv = true → (s.power.off = false) → (s.getF R.pwrState F.pwrState_armed = 3) → (s.pwr ≤ 1) → (s.getF R.pwrState F.pwrState_busy = 0) → ((s.epOf 0).perst = true) → ((s.epOf 1).perst = true) → (s.sleepOk true = false) → 
    Does (.s2Entry linkLost) s fun t =>
      t.pwr = s.pwr ∧ t.getF R.pwrState F.pwrState_armed = 0 ∧ t.getF R.pwrState F.pwrState_last_status = 1 ∧ RegsKept s t (R.pwrState :: daybookRegs) ∧ MemKept s t) ∧
  (∀ s : State, ∀ (source : Nat), s.Inv = true → (s.power.off = false) → (s.pwr = 2) → ((source = 1) ∨ (3 ≤ source ∧ source ≤ 6 ∧ s.wakeEnabled (source - 3) = true ∧ (source = 6 → s.reg R.wakeTimer ≤ s.now))) → 
    Does (.wake source) s fun t =>
      t.pwr = 0 ∧ t.getF R.pwrState F.pwrState_wake_src = source ∧ t.getF R.padStatus F.padStatus_held = s.getF R.padStatus F.padStatus_held ∧ t.power.rails = [] ∧ t.tallyOf 2 6 source = s.tallyOf 2 6 source + 1 ∧ t.store = s.store ∧ t.net = s.net ∧ MemKept s t) ∧
  (∀ s : State, ∀ (source : Nat) (v : AonSave) (e : Nat × Word), s.Inv = true → (s.power.off = false) → (s.tablesRise = true) → (s.pwr = 3) → ((source = 2) ∨ (3 ≤ source ∧ source ≤ 6 ∧ s.wakeEnabled (source - 3) = true ∧ (source = 6 → s.reg R.wakeTimer ≤ s.now))) → (s.power.saved = some v) → (v.deep = true) → (Tab.rising v.regs = true) → (v.regs.contains e = true) → (([R.pwrState, R.padStatus, R.wakeStatus 0, R.wakeStatus 1, R.dbStatus, R.dbSeq, R.dbOverwrite, R.storCfg, R.spillCfg] ++ (below 16).map R.dpStatus).contains e.1 = false) → 
    Does (.wake source) s fun t =>
      t.pwr = 0 ∧ t.getF R.pwrState F.pwrState_wake_src = source ∧ t.regions = v.regions ∧ t.force = v.force ∧ t.reg e.1 = e.2 ∧ t.power.saved = none ∧ ((below 23).all fun k => (Tab.get Core.clear t.cores (zenzaCore k)).role == .firmware) = true ∧ MemKept s t) ∧
  (∀ s : State, ∀ (source : Nat), s.Inv = true → (s.power.off = false) → (s.pwr = 3) → (3 ≤ source) → (source ≤ 6) → (s.wakeEnabled (source - 3) = false) → 
    Does (.wake source) s fun t =>
      t = s) ∧
  (∀ s : State, ∀ (v : Word), s.Inv = true → (s.power.off = false) → 
    Does (.padRelease true v) s fun t =>
      (((below 3).all fun i => natBit (t.getF R.padStatus F.padStatus_held) i == (natBit (s.getF R.padStatus F.padStatus_held) i && !natBit (getBits v F.padRelease_release) i)) = true) ∧ Kept s t [R.padStatus] []) ∧
  (∀ s : State, ∀ (v : Word), s.Inv = true → (s.power.off = false) → 
    Does (.padRelease false v) s fun t =>
      RegsKept s t daybookRegs ∧ MemKept s t)

/-- The boot stops in the unconfigured or the safe state with its code, or runs the slot on trial or active, else the other with
fw_fallback; the image is applied in the same way, else the device is unconfigured. Apprentice service makes the running slots
active; full service needs trained memory, starts with memory of zeros and ends the apprentice mode of storage. A missed bound
sets late. A warm reset keeps what R435 and R440 say and nothing else. An expired watchdog of the security core is fatal once
service has begun, one of another core takes it from work until it restarts, a second one within 1 s is fatal or loses the
stack. -/
def Obligations.BootCommands : Prop :=
  (∀ s : State, ∀ (seen : BootSeen), s.Inv = true → (s.booting = true) → (seen.identityOk = false) → 
    Does (.bootVerify seen) s fun t =>
      t.stage = 9 ∧ t.getF R.bootStatus F.bootStatus_fail_code = 0x21 ∧ MemKept s t) ∧
  (∀ s : State, ∀ (seen : BootSeen), s.Inv = true → (s.booting = true) → (seen.identityOk = true) → (seen.counters < 4) → 
    Does (.bootVerify seen) s fun t =>
      t.stage = 8 ∧ t.getF R.bootStatus F.bootStatus_fail_code = 5 ∧ MemKept s t) ∧
  (∀ s : State, ∀ (seen : BootSeen), s.Inv = true → (s.booting = true) → (seen.identityOk = true) → (4 ≤ seen.counters) → (seen.rpmcOk = false) → 
    Does (.bootVerify seen) s fun t =>
      t.stage = 8 ∧ t.getF R.bootStatus F.bootStatus_fail_code = 0x21 ∧ MemKept s t) ∧
  (∀ s : State, ∀ (seen : BootSeen) (k : Nat), s.Inv = true → (s.booting = true) → (seen.identityOk = true) → (4 ≤ seen.counters) → (seen.rpmcOk = true) → (k = s.boot.flash.header.fwTrial.getD s.boot.flash.header.fwActive) → (k < 2) → 
    Does (.bootVerify seen) s fun t =>
      (if s.bundleCode k = 0 then t.stage = 1 ∧ t.getF R.fwVersion F.fwVersion_active_slot = k ∧ t.boot.fwTrying = s.boot.flash.header.fwTrial.isSome else if s.bundleCode (1 - k) = 0 then t.stage = 1 ∧ t.getF R.fwVersion F.fwVersion_active_slot = 1 - k ∧ t.getF R.bootStatus F.bootStatus_fw_fallback = 1 else t.stage = 9 ∧ t.getF R.bootStatus F.bootStatus_fail_code = s.bundleCode k) ∧ MemKept s t) ∧
  (∀ s : State, ∀ (x y : Image) (k : Nat), s.Inv = true → (s.stage = 1) → (k = s.boot.flash.header.imgTrial.getD s.boot.flash.header.imgActive) → (k < 2) → 
    Does (.imageApply x y) s fun t =>
      (let c := fun (n : Nat) => if n = 0 then x else y; if (s.imageCode k (c k)).1 = 0 then t.stage = 2 ∧ t.boot.imgSlot = k ∧ t.image.isSome = true else if (s.imageCode (1 - k) (c (1 - k))).1 = 0 then t.stage = 2 ∧ t.boot.imgSlot = 1 - k ∧ t.getF R.bootStatus F.bootStatus_image_fallback = 1 else t.stage = 8 ∧ t.getF R.bootStatus F.bootStatus_fail_code = (s.imageCode k (c k)).1 ∧ t.image = s.image) ∧ MemKept s t) ∧
  (∀ s : State, ∀ (failed : List PostUnit), s.Inv = true → (s.stage = 2) → 
    Does (.apprenticeServiceStart failed) s fun t =>
      t.stage = 3 ∧ t.getF R.postStatus F.postStatus_short_done = 1 ∧ t.boot.flash.header.fwActive = s.boot.fwSlot ∧ t.boot.flash.header.imgActive = s.boot.imgSlot ∧ t.boot.flash.header.fwTrial = (if s.boot.flash.header.fwTrial = some s.boot.fwSlot then none else s.boot.flash.header.fwTrial) ∧ t.boot.flash.header.imgTrial = (if s.boot.flash.header.imgTrial = some s.boot.imgSlot then none else s.boot.flash.header.imgTrial) ∧ t.boot.fwTrying = false ∧ t.boot.imgTrying = false) ∧
  (∀ s : State, ∀ (failed : List PostUnit), s.Inv = true → (s.stage = 3) → (s.boot.trained = true) → 
    Does (.fullServiceStart failed) s fun t =>
      t.stage = 4 ∧ t.mem = [] ∧ t.getF R.storCfg F.storCfg_apprentice = 0 ∧ t.getF R.postStatus F.postStatus_done = 1) ∧
  (∀ s : State, s.Inv = true → (s.stage = 3) → (s.boot.trained = true) → 
    Does (.fullServiceStart []) s fun t =>
      t.stage = 4 ∧ t.tallyOf 0x11 0 0 = s.tallyOf 0x11 0 0 + 1 ∧ t.tallyOf 0x11 2 0 = s.tallyOf 0x11 2 0) ∧
  (∀ s : State, ∀ (failed : List PostUnit), s.Inv = true → (s.stage = 3) → (s.boot.trained = false) → 
    Does (.fullServiceStart failed) s fun t =>
      t = s) ∧
  (∀ s : State, ∀ (full : Bool), s.Inv = true → (s.pins.pwrGood = true) → (s.stage < 3 ∨ (full = true ∧ s.stage = 3)) → 
    Does (.bootLate full) s fun t =>
      t.getF R.bootStatus F.bootStatus_late = 1 ∧ t.stage = s.stage ∧ RegsKept s t (R.bootStatus :: daybookRegs) ∧ MemKept s t) ∧
  (∀ s : State, ∀ (v : Word), s.Inv = true → (s.stage ≠ 0) → ((Tab.get Bucket.full s.daybook.buckets 1).tokens ≠ 0) → (getBits v F.resetCtrl_warm = 0xA55A) → 
    Does (.resetCtrlWrite v) s fun t =>
      WarmReset s t ∧ t.boot.flash = s.boot.flash ∧ t.getF R.dbStatus F.dbStatus_frozen = 0 ∧ t.daybook.ring ≠ []) ∧
  (∀ s : State, ∀ (v : Word), s.Inv = true → (getBits v F.resetCtrl_warm ≠ 0xA55A) → 
    Does (.resetCtrlWrite v) s fun t =>
      t = s) ∧
  (∀ s : State, ∀ (n : Nat), s.Inv = true → (10 ≤ n) → (s.power.off = false) → (s.pins.pwrGood = true) → (s.pins.devResetN = true) → 
    Does (.devResetNLow n) s fun t =>
      WarmReset s t ∧ t.boot.flash = s.boot.flash ∧ t.daybook = s.daybook ∧ t.pins.devResetN = false) ∧
  (∀ s : State, ∀ (n : Nat), s.Inv = true → (n < 10) → 
    Does (.devResetNLow n) s fun t =>
      t = s) ∧
  (∀ s : State, ∀ (l : List Nat), s.Inv = true → (s.power.off = false) → (s.pins.pwrGood = true) → (3 ≤ s.stage) → (s.stage < 8) → (Tab.find? s.boot.down 0 = none) → 
    Does (.watchdogExpiry 0 l) s fun t =>
      FatalEvent s t 3 ∧ natBit (t.reg R.wdogStatus).toNat 0 = true ∧ t.tallyOf 1 5 0 = s.tallyOf 1 5 0 + 1) ∧
  (∀ s : State, ∀ (l : List Nat), s.Inv = true → (s.power.off = false) → (s.pins.pwrGood = true) → (s.stage < 3) → (s.boot.fwTrying = true) → (Tab.find? s.boot.down 0 = none) → 
    Does (.watchdogExpiry 0 l) s fun t =>
      WarmReset s t ∧ t.boot.fwFell = true ∧ t.boot.flash.header.fwTrial = none ∧ t.boot.flash.bytes = s.boot.flash.bytes) ∧
  (∀ s : State, ∀ (core : Nat) (l : List Nat), s.Inv = true → (core = 1 ∨ core = 2) → (s.power.off = false) → (s.pins.pwrGood = true) → (s.stage ≠ 9) → (Tab.find? s.boot.down core = none) → (Tab.find? s.boot.expiries core = none) → 
    Does (.watchdogExpiry core l) s fun t =>
      Tab.find? t.boot.down core = some () ∧ Tab.find? t.boot.expiries core = some s.now ∧ natBit (t.reg R.wdogStatus).toNat core = true ∧ t.stage = s.stage ∧ t.tallyOf 1 5 core = s.tallyOf 1 5 core + 1 ∧ MemKept s t) ∧
  (∀ s : State, ∀ (core : Nat) (l : List Nat) (tm : Word), s.Inv = true → (1 ≤ core) → (core ≤ 10) → (s.power.off = false) → (s.pins.pwrGood = true) → (s.stage ≠ 9) → (Tab.find? s.boot.down core = none) → (Tab.find? s.boot.expiries core = some tm) → (s.since tm < usTicks 1000000) → 
    Does (.watchdogExpiry core l) s fun t =>
      FatalEvent s t 4 ∧ natBit (t.reg R.wdogStatus).toNat core = true) ∧
  (∀ s : State, ∀ (core st : Nat) (l : List Nat), s.Inv = true → (core = st + 11) → (st < 12) → (s.power.off = false) → (s.pins.pwrGood = true) → (s.stage ≠ 9) → (s.linkFenced st = false) → (Tab.find? s.boot.down core = none) → (Tab.find? s.boot.expiries core = none) → 
    Does (.watchdogExpiry core l) s fun t =>
      Tab.find? t.boot.down core = some () ∧ Tab.find? t.bench.stalled st = some () ∧ natBit (t.reg R.wdogStatus).toNat core = true ∧ MemKept s t) ∧
  (∀ s : State, ∀ (core st : Nat) (l : List Nat) (tm : Word), s.Inv = true → (core = st + 11) → (st < 12) → (s.power.off = false) → (s.pins.pwrGood = true) → (s.stage ≠ 9) → (s.linkFenced st = false) → (Tab.find? s.boot.down core = none) → (Tab.find? s.boot.expiries core = some tm) → (s.since tm < usTicks 1000000) → (s.bench.descs = []) → (s.bench.launches = []) → (s.serve.batches = []) → (s.snap = none) → 
    Does (.watchdogExpiry core l) s fun t =>
      t.getF (R.stackStatus st) F.stackStatus_isst_bench = 0xFF ∧ natBit (t.reg (R.repairStack + 8)).toNat st = true) ∧
  (∀ s : State, ∀ (core : Nat), s.Inv = true → ((Tab.find? s.boot.down core).isSome = true) → (core < 23) → (s.stage ≠ 9) → (s.boot.act = none) → (s.bench.breaks = []) → 
    Does (.coreRestart core) s fun t =>
      t.boot.down = Tab.erase s.boot.down core ∧ (t.core (zenzaCore core)).role = .firmware ∧ (t.core (zenzaCore core)).g = [] ∧ (core = 2 → t.bench.stalled = Tab.erase s.bench.stalled 12) ∧ Kept s t [] [])

/-- A flash write or erase changes its range of an inactive slot or the owner area and nothing else, another is refused with 0x0008.
A bundle that is valid is staged, an image that is valid is marked for the next reset, one that is not gives its code.
Activation starts, is deferred in an emergency, or waits for a reset; each core that is ready lets the next switch, the last
makes the slot active; a core that is not ready in time ends it with 0x0020 and the boot header unchanged. A commit raises its
counter to the running version and never lowers it. Ownership is claimed and transferred as R431 says. The responder answers the
requests of R442, Busy while the security core is paused. -/
def Obligations.FirmwareCommands : Prop :=
  (∀ s : State, ∀ (v : Word) (a n : Nat), s.Inv = true → (s.mboxTakes v 1 = true) → (a = (s.reg R.mboxArg0).toNat) → (n = (s.reg R.mboxArg1).toNat) → (n ≤ 4096) → (s.mboxArea a n = true) → (Tab.rising s.boot.flash.bytes = true) → 
    Does (.flashWrite v) s fun t =>
      t.flashRead a n = s.mboxBytes.take n ∧ FlashKeptBut s t a n ∧ MboxEnds t 0) ∧
  (∀ s : State, ∀ (v : Word) (a n : Nat), s.Inv = true → (s.mboxTakes v 1 = true) → (a = (s.reg R.mboxArg0).toNat) → (n = (s.reg R.mboxArg1).toNat) → (n ≤ 4096) → (s.mboxArea a n = false) → 
    Does (.flashWrite v) s fun t =>
      t.boot = s.boot ∧ MboxEnds t 8) ∧
  (∀ s : State, ∀ (v : Word) (a : Nat), s.Inv = true → (s.mboxTakes v 2 = true) → (a = (s.reg R.mboxArg0).toNat) → (a % 65536 = 0) → (s.mboxArea a 65536 = true) → (Tab.rising s.boot.flash.bytes = true) → 
    Does (.flashErase v) s fun t =>
      FlashErased t a 65536 ∧ FlashKeptBut s t a 65536 ∧ MboxEnds t 0) ∧
  (∀ s : State, ∀ (v : Word) (a : Nat), s.Inv = true → (s.mboxTakes v 2 = true) → (a = (s.reg R.mboxArg0).toNat) → (a % 65536 = 0) → (s.mboxArea a 65536 = false) → 
    Does (.flashErase v) s fun t =>
      t.boot = s.boot ∧ MboxEnds t 8) ∧
  (∀ s : State, ∀ (v : Word) (k : Nat), s.Inv = true → (s.mboxTakes v 3 = true) → (k = (s.reg R.mboxArg0).toNat) → (k < 2) → (k ≠ s.boot.flash.header.fwActive) → 
    Does (.stageFirmware v) s fun t =>
      (if s.bundleCode k = 0 then t.boot.staged.map (fun x => x.slot) = some k ∧ t.getF R.fwVersion F.fwVersion_staged = 1 ∧ MboxEnds t 0 else t.boot.staged = s.boot.staged ∧ t.tallyOf 1 2 0 = s.tallyOf 1 2 0 + 1 ∧ MboxEnds t (s.bundleCode k)) ∧ t.boot.flash = s.boot.flash) ∧
  (∀ s : State, ∀ (v : Word) (x : StagedFw), s.Inv = true → (s.mboxTakes v 4 = true) → (s.boot.staged = some x) → (s.activating = false) → (natBits x.hostIf 31 16 = s.getF R.hostIfRev F.hostIfRev_major) → (s.getF R.emergStatus F.emergStatus_active = 0) → 
    Does (.activateFirmware v) s fun t =>
      t.boot.act = some ⟨s.activationCores, [], false, true⟩ ∧ t.getF R.mboxCmd F.mboxCmd_busy = 1 ∧ t.boot.flash = s.boot.flash ∧ t.tallyOf 1 3 0 = s.tallyOf 1 3 0 + 1 ∧ MemKept s t) ∧
  (∀ s : State, ∀ (v : Word) (x : StagedFw), s.Inv = true → (s.mboxTakes v 4 = true) → (s.boot.staged = some x) → (s.activating = false) → (natBits x.hostIf 31 16 = s.getF R.hostIfRev F.hostIfRev_major) → (s.getF R.emergStatus F.emergStatus_active = 1) → 
    Does (.activateFirmware v) s fun t =>
      MboxEnds t 0x40 ∧ t.getF R.fwVersion F.fwVersion_deferred = 1 ∧ t.boot = s.boot ∧ t.tallyOf 1 4 0 = s.tallyOf 1 4 0 + 1) ∧
  (∀ s : State, ∀ (v : Word) (x : StagedFw), s.Inv = true → (s.mboxTakes v 4 = true) → (s.boot.staged = some x) → (s.activating = false) → (natBits x.hostIf 31 16 ≠ s.getF R.hostIfRev F.hostIfRev_major) → 
    Does (.activateFirmware v) s fun t =>
      MboxEnds t 0x40 ∧ t.getF R.fwVersion F.fwVersion_at_reset = 1 ∧ t.boot.flash.header.fwTrial = some x.slot ∧ t.boot.act = none) ∧
  (∀ s : State, ∀ (v : Word) (x : StagedFw), s.Inv = true → (s.mboxTakes v 4 = true) → (s.boot.staged = some x) → (s.activating = true) → 
    Does (.activateFirmware v) s fun t =>
      MboxEnds t 1 ∧ t.boot = s.boot) ∧
  (∀ s : State, s.Inv = true → (s.getF R.emergStatus F.emergStatus_active = 0) → (usTicks 100000 ≤ s.since s.power.lastEmergency) → (s.boot.act = none) → (s.getF R.fwVersion F.fwVersion_deferred = 1) → 
    Does (.activationResume) s fun t =>
      t.boot.act = some ⟨s.activationCores, [], false, false⟩ ∧ t.getF R.fwVersion F.fwVersion_deferred = 0 ∧ t.tallyOf 1 3 0 = s.tallyOf 1 3 0 + 1 ∧ MemKept s t) ∧
  (∀ s : State, ∀ (a : Activation) (c : Nat) (l : List Nat), s.Inv = true → (s.getF R.emergStatus F.emergStatus_active = 0) → (usTicks 100000 ≤ s.since s.power.lastEmergency) → (s.boot.act = some a) → (a.held = true) → (a.queue = c :: l) → (c ≠ 0) → 
    Does (.activationResume) s fun t =>
      t.boot.act = some { a with held := false } ∧ Tab.find? t.boot.down c = some () ∧ Kept s t [] []) ∧
  (∀ s : State, s.Inv = true → (s.getF R.emergStatus F.emergStatus_active = 1 ∨ s.since s.power.lastEmergency < usTicks 100000) → 
    Does (.activationResume) s fun t =>
      t = s) ∧
  (∀ s : State, ∀ (a : Activation) (core c : Nat) (l : List Nat), s.Inv = true → (s.boot.act = some a) → (a.held = false) → (a.queue = core :: c :: l) → (core < 23) → (s.bench.breaks = []) → (s.getF R.emergStatus F.emergStatus_active = 0) → 
    Does (.activationCoreReady core) s fun t =>
      t.boot.act = some { a with queue := c :: l, switched := core :: a.switched } ∧ (t.core (zenzaCore core)).role = .firmware ∧ t.boot.flash = s.boot.flash ∧ MemKept s t) ∧
  (∀ s : State, ∀ (a : Activation) (core c : Nat) (l : List Nat), s.Inv = true → (s.boot.act = some a) → (a.held = false) → (a.queue = core :: c :: l) → (core < 23) → (s.bench.breaks = []) → (s.getF R.emergStatus F.emergStatus_active = 1) → 
    Does (.activationCoreReady core) s fun t =>
      t.boot.act = some { a with queue := c :: l, switched := core :: a.switched, held := true } ∧ t.boot.flash = s.boot.flash ∧ Kept s t [] []) ∧
  (∀ s : State, ∀ (a : Activation) (core : Nat) (x : StagedFw), s.Inv = true → (s.boot.act = some a) → (a.held = false) → (a.queue = [core]) → (core < 23) → (s.boot.staged = some x) → (x.slot < 2) → (a.waits = true) → 
    Does (.activationCoreReady core) s fun t =>
      t.boot.act = none ∧ t.boot.flash.header.fwActive = x.slot ∧ t.boot.staged = none ∧ t.getF R.fwVersion F.fwVersion_active_slot = x.slot ∧ t.getF R.fwVersion F.fwVersion_power_pending = 1 ∧ t.reg R.hostIfRev = BitVec.ofNat 64 x.hostIf ∧ MboxEnds t 0) ∧
  (∀ s : State, ∀ (a : Activation) (c : Nat) (l : List Nat), s.Inv = true → (s.boot.act = some a) → (a.held = false) → (a.queue = c :: l) → (a.waits = true) → (s.bench.breaks = []) → 
    Does (.activationTimeout) s fun t =>
      t.boot.act = none ∧ t.boot.flash = s.boot.flash ∧ t.boot.staged = s.boot.staged ∧ t.reg R.fwVersion = s.reg R.fwVersion ∧ MboxEnds t 0x20) ∧
  (∀ s : State, ∀ (v : Word), s.Inv = true → (s.mboxTakes v 5 = true) → (s.boot.flash.counters.length = 4) → (s.getF R.fwVersion F.fwVersion_power_pending = 0) → (s.getF R.fwVersion F.fwVersion_deferred = 0) → (s.getF R.fwVersion F.fwVersion_at_reset = 0) → 
    Does (.commitFirmware v) s fun t =>
      t.rpmc 0 = max (s.rpmc 0) (s.getF R.fwVersion F.fwVersion_security_version) ∧ t.rpmc 1 = s.rpmc 1 ∧ t.rpmc 2 = s.rpmc 2 ∧ MboxEnds t 0) ∧
  (∀ s : State, ∀ (v : Word), s.Inv = true → (s.mboxTakes v 5 = true) → (s.getF R.fwVersion F.fwVersion_power_pending = 1) → 
    Does (.commitFirmware v) s fun t =>
      t.boot = s.boot ∧ MboxEnds t 1) ∧
  (∀ s : State, ∀ (v : Word) (x : Image) (k : Nat), s.Inv = true → (s.mboxTakes v 6 = true) → (k = (s.reg R.mboxArg0).toNat) → (k < 2) → 
    Does (.stageImage v x) s fun t =>
      (if (s.imageCode k x).1 = 0 then t.boot.flash.header.imgTrial = some k ∧ MboxEnds t 0 else t.boot = s.boot ∧ t.reg R.mboxArg1 = BitVec.ofNat 64 (s.imageCode k x).2 ∧ t.tallyOf 1 2 0 = s.tallyOf 1 2 0 + 1 ∧ MboxEnds t (s.imageCode k x).1) ∧ t.image = s.image) ∧
  (∀ s : State, ∀ (v : Word), s.Inv = true → (s.mboxTakes v 7 = true) → (s.boot.flash.counters.length = 4) → (s.image.isSome = true) → 
    Does (.commitImage v) s fun t =>
      t.rpmc 1 = max (s.rpmc 1) s.boot.imgVersion ∧ t.rpmc 0 = s.rpmc 0 ∧ t.rpmc 2 = s.rpmc 2 ∧ MboxEnds t 0) ∧
  (∀ s : State, ∀ (v : Word), s.Inv = true → (s.mboxTakes v 8 = true) → (s.boot.flash.counters.length = 4) → 
    Does (.claimOwnership v) s fun t =>
      (if s.endorsed then t.boot = s.boot ∧ MboxEnds t 1 else t.rpmc 2 = s.rpmc 2 + 1 ∧ t.getF R.bootStatus F.bootStatus_owned = 1 ∧ MboxEnds t 0)) ∧
  (∀ s : State, ∀ (v : Word), s.Inv = true → (s.mboxTakes v 9 = true) → (s.boot.flash.counters.length = 4) → 
    Does (.transferOwnership v) s fun t =>
      (if s.endorsed ∧ signedBy s.ownerKey (deviceId ++ s.mboxBytes.take 97 ++ bytesLE 4 (s.rpmc 2 + 1)) ((s.mboxBytes.drop 97).take 96) then t.rpmc 2 = s.rpmc 2 + 1 ∧ MboxEnds t 0 else t.boot = s.boot ∧ MboxEnds t 0x21)) ∧
  (∀ s : State, ∀ (tr : Nat), s.Inv = true → (3 ≤ s.stage) → (s.power.off = false) → (tr ≤ 3) → (s.securityPaused = false) → 
    Does (.spdmRequest tr .getVersion) s fun t =>
      t.out = .spdmVersion tr :: s.out ∧ Kept s t [] []) ∧
  (∀ s : State, ∀ (tr k : Nat) (sig : Bool), s.Inv = true → (3 ≤ s.stage) → (s.power.off = false) → (tr ≤ 3) → (s.securityPaused = false) → (Tab.find? s.boot.spdm tr = some ()) → (1 ≤ k) → (k ≤ 7) → 
    Does (.spdmRequest tr (.getMeasurements k sig)) s fun t =>
      t = s.emit (.spdmMeasurements tr [(k, s.measurement k)] sig)) ∧
  (∀ s : State, ∀ (tr : Nat) (req : SpdmReq), s.Inv = true → (3 ≤ s.stage) → (s.power.off = false) → (tr ≤ 3) → (s.securityPaused = true) → 
    Does (.spdmRequest tr req) s fun t =>
      t = s.emit (.spdmError tr 3)) ∧
  (∀ s : State, ∀ (tr : Nat) (req : SpdmReq), s.Inv = true → (s.stage < 3) → 
    Does (.spdmRequest tr req) s fun t =>
      t = s)

/-- A failed lane narrows the welt to four whole lanes or takes it down; it stays narrowed until the next pairing, at which it
returns to the lanes that trained. Pairing verifies the partner, refuses a difference with 0x0003, chooses the roles and begins
syncing. The standby applies an update and acknowledges it; an acknowledgement from it lets the oldest held ones go; a page of
the backlog is sent, an arriving page of a bulk region stored. Silence of the welt is fallback, of the pin a pin fault, of both
a probe; without a response a standby of state 3 takes over and an active is lone. Switchover hands the role over with both
backlogs empty. Rejoin syncs again, leave goes to single. -/
def Obligations.PairCommands : Prop :=
  (∀ s : State, ∀ (lane : Nat), s.Inv = true → (lane < 8) → (s.weltUp = true) → (s.pair.badLanes = 0) → 
    Does (.weltLaneFail lane) s fun t =>
      t.getF R.weltStatus F.weltStatus_lanes = (if lane < 4 then 0xF0 else 0x0F) ∧ t.getF R.weltStatus F.weltStatus_width = 4 ∧ t.weltUp = true ∧ Kept s t [R.weltStatus, R.pairStatus] []) ∧
  (∀ s : State, ∀ (lane : Nat), s.Inv = true → (lane < 4) → (s.weltUp = true) → (s.pair.badLanes = 16) → 
    Does (.weltLaneFail lane) s fun t =>
      t.getF R.weltStatus F.weltStatus_lanes = 0 ∧ t.getF R.weltStatus F.weltStatus_width = 0 ∧ t.weltUp = false ∧ Kept s t [R.weltStatus, R.pairStatus] []) ∧
  (∀ s : State, ∀ (lanes : Nat), s.Inv = true → (s.pairState = 0 ∨ s.pair.badLanes = 0) → (lanes = 255) → 
    Does (.weltLinkUp lanes) s fun t =>
      t.getF R.weltStatus F.weltStatus_lanes = 0xFF ∧ t.getF R.weltStatus F.weltStatus_width = 8 ∧ t.weltUp = true ∧ Kept s t [R.weltStatus, R.pairStatus] []) ∧
  (∀ s : State, ∀ (lanes : Nat), s.Inv = true → (1 ≤ s.pairState) → (s.pairState ≤ 3) → (s.pair.badLanes = 1) → (lanes = 255) → 
    Does (.weltLinkUp lanes) s fun t =>
      t.getF R.weltStatus F.weltStatus_lanes = 0xF0 ∧ t.getF R.weltStatus F.weltStatus_width = 4 ∧ t.pair.untrained = 0 ∧ Kept s t [R.weltStatus, R.pairStatus] []) ∧
  (∀ s : State, ∀ (p : Partner), s.Inv = true → (s.full = true) → (s.getF R.pairCfg F.pairCfg_enable = 1) → (s.weltUp = true) → (s.pairState = 0) → (p.verified = true) → (p.layout = s.reg R.memLayout) → (p.slices = (below 4).map (fun i => s.reg (R.pairSlices i))) → (p.classes = s.getF R.pairCfg F.pairCfg_classes) → 
    Does (.pairingStart p) s fun t =>
      Syncing s t (s.becomesActive p) ∧ t.getF R.pairStatus F.pairStatus_last_status = 0 ∧ (s.becomesActive p = true → t.pair.bulk = s.bulkPages) ∧ MemKept s t) ∧
  (∀ s : State, ∀ (p : Partner), s.Inv = true → (s.full = true) → (s.getF R.pairCfg F.pairCfg_enable = 1) → (s.weltUp = true) → (s.pairState = 0) → (p.verified = false) → 
    Does (.pairingStart p) s fun t =>
      t.pairState = 0 ∧ t.getF R.pairStatus F.pairStatus_last_status = 0x21 ∧ Kept s t [R.pairStatus] []) ∧
  (∀ s : State, ∀ (p : Partner), s.Inv = true → (s.full = true) → (s.getF R.pairCfg F.pairCfg_enable = 1) → (s.weltUp = true) → (s.pairState = 0) → (p.verified = true) → (p.classes ≠ s.getF R.pairCfg F.pairCfg_classes) → 
    Does (.pairingStart p) s fun t =>
      t.pairState = 0 ∧ t.getF R.pairStatus F.pairStatus_last_status = 3 ∧ RegsKept s t (R.pairStatus :: daybookRegs) ∧ MemKept s t) ∧
  (∀ s : State, s.Inv = true → (s.pairState = 2) → 
    Does (.syncComplete) s fun t =>
      t.pairState = 3 ∧ t.pairActive = s.pairActive ∧ RegsKept s t (R.pairStatus :: daybookRegs) ∧ MemKept s t) ∧
  (∀ s : State, ∀ (n : Nat) (raw : List Byte) (ls : List (List Byte)), s.Inv = true → (s.pairState = 2 ∨ s.pairState = 3) → (s.pairActive = false) → 
    Does (.mirrorUpdate (.arrives (.last n raw ls))) s fun t =>
      t.serve.lasts = Tab.insert s.serve.lasts n ⟨raw, ls⟩ ∧ t.out = .mirrorAck 0 :: s.out ∧ Kept s t [] []) ∧
  (∀ s : State, ∀ (n sp ep : Nat) (ctx : List Word), s.Inv = true → (s.pairState = 2 ∨ s.pairState = 3) → (s.pairActive = false) → (Tab.rising s.net.conns = true) → 
    Does (.mirrorUpdate (.arrives (.conn n ctx 3 sp ep []))) s fun t =>
      (Tab.find? t.net.conns n).map (fun c => (c.state, c.sendPsn, c.expPsn)) = some (1, sp, ep) ∧ t.out = .mirrorAck 0 :: s.out ∧ MemKept s t) ∧
  (∀ s : State, ∀ (a : Nat) (v : Word) (s1 : State), s.Inv = true → (s.pairState = 3) → (s.pairActive = false) → (s.heldSlices = []) → (s1.heldSlices = []) → (goesTo (s.regWrite a 0xFFFFFFFFFFFFFFFF v) s1 = true) → ([R.regionCmdGo, R.sliceCmdGo, R.objCmd].contains a = false) → 
    Does (.mirrorUpdate (.arrives (.writes [(a, v)]))) s fun t =>
      t = s1.emit (.mirrorAck 0)) ∧
  (∀ s : State, ∀ (u : MirrorUpd), s.Inv = true → (s.pairActive = true) → 
    Does (.mirrorUpdate (.arrives u)) s fun t =>
      t.serve = s.serve ∧ t.net = s.net ∧ t.out = s.out ∧ RegsKept s t daybookRegs ∧ MemKept s t) ∧
  (∀ s : State, ∀ (code : Nat), s.Inv = true → (s.pair.verdicts = []) → 
    Does (.mirrorUpdate (.verdict code)) s fun t =>
      t = { s with pair := { s.pair with verdicts := [code] } }) ∧
  (∀ s : State, ∀ (tm : Word) (conn q : Nat) (x : RoceAnswer) (c : Conn), s.Inv = true → (s.pair.held = [(tm, .answer conn q x)]) → (s.conn? conn = some c) → (s.takesFrame c q (.answer conn x) = true) → 
    Does (.sessionAck 1) s fun t =>
      t.pair.held = [] ∧ Joins s t c q (.answer conn x) ∧ t.out = s.out ∧ s.getF R.pairLag F.pairLag_hold_ns ≤ t.getF R.pairLag F.pairLag_hold_ns ∧ Kept s t [R.pairLag] []) ∧
  (∀ s : State, s.Inv = true → (s.pair.held = []) → 
    Does (.sessionAck 3) s fun t =>
      t = s) ∧
  (∀ s : State, ∀ (p k : Nat) (l : List (Nat × Nat)), s.Inv = true → (s.pairState = 2 ∨ s.pairState = 3) → (s.pairActive = true) → (s.weltUp = true) → (s.pair.bulkStopped = false) → (s.pair.bulk = (p, k) :: l) → (2 ≤ k) → 
    Does (.bulkCopy none) s fun t =>
      t.out = .mirrorBulk p (s.bytesAt (p * 4096) 4096) :: s.out ∧ t.pair.bulk = (p + 1, k - 1) :: l ∧ t.tallyOf 0x0C 6 0 = s.tallyOf 0x0C 6 0 + 4096 ∧ Kept s t [R.pairLag] [tallyKey 0x0C 6 0]) ∧
  (∀ s : State, ∀ (p i : Nat) (r : Region) (l : List Byte), s.Inv = true → (s.pairState = 2 ∨ s.pairState = 3) → (s.pairActive = false) → (s.regionOf (p * 4096) = some (i, r)) → (r.bulk = true) → (l.length = 4096) → ((s.memWrite 0x0C 0 6 r.owner (p * 4096) l).1 = none) → (s.noneWaits = true) → 
    Does (.bulkCopy (some (p, l))) s fun t =>
      t.mem = putCells s.mem (p * 4096) l) ∧
  (∀ s : State, ∀ (p : Nat) (l : List Byte), s.Inv = true → (s.pairActive = true) → 
    Does (.bulkCopy (some (p, l))) s fun t =>
      t.out = s.out ∧ RegsKept s t daybookRegs ∧ MemKept s t) ∧
  (∀ s : State, ∀ (v : Word), s.Inv = true → (s.pairTakes v 1 = true) → (s.pairState = 3) → (s.pairActive = true) → (s.pair.bulk = []) → (s.pair.held = []) → (s.heldSlices = []) → 
    Does (.switchover (.command v false)) s fun t =>
      t.pairActive = false ∧ t.pairState = 3 ∧ PairEnds t 0 ∧ t.out = .pairHandover :: s.out ∧ t.tallyOf 0x0C 4 0 = s.tallyOf 0x0C 4 0 + 1 ∧ MemKept s t) ∧
  (∀ s : State, ∀ (v : Word), s.Inv = true → (s.pairTakes v 1 = true) → (s.pairState = 3) → (s.pairActive = true) → 
    Does (.switchover (.command v true)) s fun t =>
      t.pairActive = true ∧ t.pairState = 3 ∧ PairEnds t 0x16 ∧ Kept s t [R.pairCmd, R.pairStatus] []) ∧
  (∀ s : State, ∀ (v : Word) (sl : Bool), s.Inv = true → (s.pairTakes v 1 = true) → (s.pairState ≠ 3) → 
    Does (.switchover (.command v sl)) s fun t =>
      t.pairState = s.pairState ∧ PairEnds t 1 ∧ MemKept s t) ∧
  (∀ s : State, s.Inv = true → (s.pairState = 3) → (s.pairActive = false) → (s.net.conns = []) → (s.serve.seqs = []) → (s.getF R.pairAnnCtrl F.pairAnnCtrl_length = 0) → 
    Does (.switchover .handover) s fun t =>
      TakesOver s t 3 ∧ MemKept s t) ∧
  (∀ s : State, ∀ (wake : Bool), s.Inv = true → (s.full = true) → (s.pairState ≠ 0) → (s.weltUp = true) → 
    Does (.heartbeatSend wake) s fun t =>
      t.out = .pairPin (!s.pins.hbOut) :: .weltHeartbeat s.now :: s.out ∧ t.pins.hbOut = !s.pins.hbOut ∧ Kept s t [] []) ∧
  (∀ s : State, s.Inv = true → (s.full = true) → (s.pairState = 0) → 
    Does (.heartbeatSend true) s fun t =>
      t.out = .pairPin true :: s.out ∧ t.pins.hbOut = true ∧ Kept s t [] []) ∧
  (∀ s : State, ∀ (tm : Word), s.Inv = true → (s.followsPair = false) → 
    Does (.heartbeatReceive (.welt tm)) s fun t =>
      t.pair.weltLive = true ∧ t.pair.bulkStopped = false ∧ t.getF R.pairStatus F.pairStatus_fallback = 0 ∧ Kept s t [R.pairStatus] []) ∧
  (∀ s : State, s.Inv = true → (s.pairState = 3) → 
    Does (.heartbeatReceive .pin) s fun t =>
      t.pair.pinLive = true ∧ t.getF R.pairStatus F.pairStatus_pin_ok = 1 ∧ Kept s t [R.pairStatus] []) ∧
  (∀ s : State, s.Inv = true → (1 ≤ s.pairState) → (s.pairState ≤ 3) → (s.pair.probing = false) → (s.pair.pinLive = true) → 
    Does (.heartbeatSilence true) s fun t =>
      t.getF R.pairStatus F.pairStatus_fallback = 1 ∧ t.pair.bulkStopped = true ∧ t.pairState = s.pairState ∧ t.tallyOf 0x0C 1 0 = s.tallyOf 0x0C 1 0 + 1 ∧ t.tallyOf 0x0C 0 0 = s.tallyOf 0x0C 0 0 + 1 ∧ MemKept s t) ∧
  (∀ s : State, s.Inv = true → (1 ≤ s.pairState) → (s.pairState ≤ 3) → (s.pair.probing = false) → (s.pair.weltLive = true) → 
    Does (.heartbeatSilence false) s fun t =>
      t.getF R.pairStatus F.pairStatus_pin_ok = 0 ∧ t.pairState = s.pairState ∧ t.pair.probing = false ∧ t.tallyOf 0x0C 0 0 = s.tallyOf 0x0C 0 0 + 1 ∧ MemKept s t) ∧
  (∀ s : State, ∀ (welt : Bool), s.Inv = true → (1 ≤ s.pairState) → (s.pairState ≤ 3) → (s.pair.probing = false) → ((if welt then s.pair.pinLive else s.pair.weltLive) = false) → 
    Does (.heartbeatSilence welt) s fun t =>
      t.pair.probing = true ∧ t.out = .pairProbe (s.getF R.pairCfg F.pairCfg_partner_node) :: s.out ∧ t.pairState = s.pairState ∧ t.tallyOf 0x0C 2 0 = s.tallyOf 0x0C 2 0 + 1 ∧ MemKept s t) ∧
  (∀ s : State, s.Inv = true → (s.pair.probing = true) → 
    Does (.probeTimeout true) s fun t =>
      t.getF R.pairStatus F.pairStatus_fallback = 1 ∧ t.pair.probing = false ∧ t.pairState = s.pairState ∧ t.pairActive = s.pairActive ∧ MemKept s t) ∧
  (∀ s : State, s.Inv = true → (s.pair.probing = true) → (s.pairState = 3) → (s.pairActive = false) → (s.net.conns = []) → (s.serve.seqs = []) → (s.getF R.pairAnnCtrl F.pairAnnCtrl_length = 0) → 
    Does (.probeTimeout false) s fun t =>
      TakesOver s t 4 ∧ MemKept s t) ∧
  (∀ s : State, s.Inv = true → (s.pair.probing = true) → (s.pairState ≠ 3 ∨ s.pairActive = true) → (s.pair.held = []) → 
    Does (.probeTimeout false) s fun t =>
      t.pairState = 4 ∧ t.pairActive = s.pairActive ∧ t.pair.bulk = [] ∧ MemKept s t) ∧
  (∀ s : State, ∀ (v : Word) (p : Partner), s.Inv = true → (s.pairTakes v 2 = true) → (s.pairState = 4) → (s.weltUp = true) → (s.pairRefusal p = 0) → 
    Does (.rejoin v p) s fun t =>
      Syncing s t s.pairActive ∧ PairEnds t 0 ∧ MemKept s t) ∧
  (∀ s : State, ∀ (v : Word) (p : Partner), s.Inv = true → (s.pairTakes v 2 = true) → (s.pairState ≠ 4) → 
    Does (.rejoin v p) s fun t =>
      t.pairState = s.pairState ∧ t.pair = s.pair ∧ PairEnds t 1 ∧ MemKept s t) ∧
  (∀ s : State, ∀ (v : Word), s.Inv = true → (s.pairTakes v 3 = true) → (s.pairState ≠ 0) → (s.pair.held = []) → 
    Does (.leave (some v)) s fun t =>
      t.pairState = 0 ∧ t.pairActive = false ∧ t.pair.bulk = [] ∧ t.out = .pairLeave :: s.out ∧ PairEnds t 0 ∧ MemKept s t) ∧
  (∀ s : State, s.Inv = true → (s.pairState ≠ 0) → (s.pair.held = []) → 
    Does (.leave none) s fun t =>
      t.pairState = 0 ∧ t.pairActive = false ∧ t.pair.bulk = [] ∧ t.out = s.out ∧ MemKept s t) ∧
  (∀ s : State, ∀ (v : Word), s.Inv = true → (s.pairTakes v 3 = true) → (s.pairState = 0) → 
    Does (.leave (some v)) s fun t =>
      t.pairState = 0 ∧ t.out = s.out ∧ PairEnds t 1 ∧ MemKept s t)

/-- A test starts on the bench whose turn it is and saves its device pages; its end zeroes pages 0 to 59, restores the saved pages
and shows the result, an abandoned one shows 2; a late window and a wait are recorded. A device fatal event stops the device.
Every bucket gains its tokens up to the burst. TALLY_SEL samples the counter it names; TALLY_DUMP writes count instances of 8
bytes, or is refused with 0x0002 or 0x0008. PLDM answers a sensor's reading, PMBus its readings and a NACK to any other command.
Power-good starts the boot ROM unless DEV_RESET_N is low, its rise starts it; PWR_EN low enters OFF with cause 5. The TAP
answers IDCODE, and EXTEST acts as BYPASS while DEV_RESET_N is high. -/
def Obligations.TestDaybookAndPinCommands : Prop :=
  (∀ s : State, ∀ (st b a : Nat), s.Inv = true → (s.isstMay st b a = true) → 
    Does (.isstStart st b) s fun t =>
      t.getF (R.stackStatus st) F.stackStatus_isst_bench = b ∧ t.getF (R.benchStatus st b) F.benchStatus_under_test = 1 ∧ t.mem = putCells s.mem a (s.devicePages (benchKey st b)) ∧ Tab.find? t.isst.last st = some b ∧ t.bench.scratch = s.bench.scratch ∧ t.tallyOf 0x11 1 st = s.tallyOf 0x11 1 st + 1 ∧ RegsKept s t [R.stackStatus st, R.benchStatus st b]) ∧
  (∀ s : State, ∀ (st b : Nat), s.Inv = true → (s.isstHeld st = true) → 
    Does (.isstStart st b) s fun t =>
      t = s) ∧
  (∀ s : State, ∀ (st b a : Nat), s.Inv = true → (st < 12) → (b < 7) → (s.isstBench st = some b) → (s.saveRegion st = some a) → (s.isstSound st b = true) → 
    Does (.isstEnd st [] false) s fun t =>
      t.getF (R.stackStatus st) F.stackStatus_isst_bench = 0xFF ∧ t.getF (R.benchStatus st b) F.benchStatus_under_test = 0 ∧ t.getF (R.isstStatus st) F.isstStatus_last_result = 0 ∧ t.getF (R.isstStatus st) F.isstStatus_last_bench = b ∧ t.reg (R.isstLast st) = s.now ∧ (t.bench.scratch.any fun e => decide (benchKey st b * 2 ^ 22 ≤ e.1) && decide (e.1 < benchKey st b * 2 ^ 22 + 60 * 65536) && e.2 != 0) = false ∧ Kept s t [R.stackStatus st, R.benchStatus st b, R.isstStatus st, R.isstLast st] []) ∧
  (∀ s : State, ∀ (st b : Nat) (f : IsstFault), s.Inv = true → (st < 12) → (b < 7) → (s.isstBench st = some b) → (s.isstSound st b = true) → (isstFaultFits f = true) → (f = .logic → s.bench.descs = [] ∧ s.bench.launches = [] ∧ s.serve.batches = []) → 
    Does (.isstEnd st [f] false) s fun t =>
      t.getF (R.isstStatus st) F.isstStatus_last_result = 1 ∧ t.getF (R.isstStatus st) F.isstStatus_last_bench = b ∧ t.tallyOf 0x11 2 st = s.tallyOf 0x11 2 st + 1 ∧ MemKept s t) ∧
  (∀ s : State, ∀ (st b : Nat), s.Inv = true → (st < 12) → (b < 7) → (s.isstBench st = some b) → 
    Does (.isstAbandon st) s fun t =>
      t.getF (R.stackStatus st) F.stackStatus_isst_bench = 0xFF ∧ t.getF (R.benchStatus st b) F.benchStatus_under_test = 0 ∧ t.getF (R.isstStatus st) F.isstStatus_last_result = 2 ∧ t.tallyOf 0x11 3 st = s.tallyOf 0x11 3 st + 1 ∧ t.bench = s.bench ∧ MemKept s t) ∧
  (∀ s : State, ∀ (st b : Nat), s.Inv = true → (st < 12) → (s.full = true) → 
    Does (.isstWindowLate st b) s fun t =>
      t.getF (R.isstStatus st) F.isstStatus_late = 1 ∧ t.tallyOf 0x11 4 st = s.tallyOf 0x11 4 st + 1 ∧ RegsKept s t (R.isstStatus st :: daybookRegs) ∧ MemKept s t) ∧
  (∀ s : State, ∀ (st b : Nat), s.Inv = true → (st < 12) → (s.full = true) → (s.isstNext st = some b) → (s.isstBench st = none) → 
    Does (.isstDeferLimit st b) s fun t =>
      Tab.find? t.isst.draining (benchKey st b) = some () ∧ t.isst.last = s.isst.last ∧ Kept s t [] []) ∧
  (∀ s : State, s.Inv = true → (s.stage = 2 ∨ s.stage = 3) → 
    Does (.postWaitTimeout []) s fun t =>
      t.getF R.postStatus F.postStatus_waited = 1 ∧ t.stage = s.stage ∧ RegsKept s t (R.postStatus :: daybookRegs) ∧ MemKept s t) ∧
  (∀ s : State, ∀ (g : Nat), s.Inv = true → (s.stage = 3) → (g < 16) → (natBit (s.reg (R.repairGroup g)).toNat ((groupLevel g).bitFor 3) = true) → 
    Does (.postWaitTimeout [.group g 3]) s fun t =>
      t.getF R.postStatus F.postStatus_waited = 1 ∧ natBit (t.reg (R.repairGroup g)).toNat ((groupLevel g).bitFor 3) = false ∧ t.tallyOf 0x11 2 0 = s.tallyOf 0x11 2 0 + 1 ∧ MemKept s t) ∧
  (∀ s : State, ∀ (cause : Nat), s.Inv = true → (s.stage ≠ 9) → (s.power.off = false) → (s.pins.pwrGood = true) → (1 ≤ cause) → (cause ≤ 6) → 
    Does (.deviceFatal cause) s fun t =>
      FatalEvent s t cause ∧ MemKept s t) ∧
  (∀ s : State, ∀ (i : Nat), s.Inv = true → (1 ≤ i) → (i ≤ 18) → (Tab.rising s.daybook.buckets = true) → 
    Does (.daybookTokenRefill) s fun t =>
      Tab.get Bucket.full t.daybook.buckets i = { Tab.get Bucket.full s.daybook.buckets i with tokens := min (max 1 (s.getF R.dbRate F.dbRate_burst)) ((Tab.get Bucket.full s.daybook.buckets i).tokens + max 1 (s.getF R.dbRate F.dbRate_per_ms)) } ∧ t.daybook.ring = s.daybook.ring ∧ Kept s t [] []) ∧
  (∀ s : State, ∀ (v : Word), s.Inv = true → (s.serving = true) → (getBits v F.tallySel_block ≠ 5 ∨ getBits v F.tallySel_item < 9) → 
    Does (.tallySel v) s fun t =>
      t.reg R.tallyVal = s.tallyOf (getBits v F.tallySel_block) (getBits v F.tallySel_item) (getBits v F.tallySel_instance) ∧ Kept s t [R.tallySel, R.tallyVal] []) ∧
  (∀ s : State, ∀ (v : Word) (n : Nat), s.Inv = true → (s.serving = true) → (getBits v F.tallySel_block = 5) → (getBits v F.tallySel_item = 9) → (n = getBits v F.tallySel_instance) → (n < 256) → 
    Does (.tallySel v) s fun t =>
      t.reg R.tallyVal = BitVec.ofNat 64 (s.use n .hbm / 2 ^ 30) ∧ Kept s t [R.tallySel, R.tallyVal] []) ∧
  (∀ s : State, ∀ (v : Word) (n a : Nat), s.Inv = true → (s.serving = true) → (s.getF R.tallyDump F.tallyDump_busy = 0) → (s.getF R.tallySel F.tallySel_block ≠ 5 ∨ s.getF R.tallySel F.tallySel_item < 9) → (n = getBits v F.tallyDump_count) → (1 ≤ n) → (n ≤ 4096) → (a = s.getF R.tallyDumpAddr F.tallyDumpAddr_addr * 8) → (s.owned 0 a (8 * n) = true) → ((let sel := s.reg R.tallySel; let l := (below n).flatMap fun i => bytesLE 8 (Tab.get 0 s.tally (tallyKey (getBits sel F.tallySel_block) (getBits sel F.tallySel_item) ((getBits sel F.tallySel_instance + i) % 65536))).toNat; (s.memWrite 0x01 0 0 0 a l).1) = none) → (s.recGoes (getBits v F.tallyDump_cq) 0 = true) → (s.noneWaits = true) → 
    Does (.tallyDump v) s fun t =>
      (let sel := s.reg R.tallySel; let l := (below n).flatMap fun i => bytesLE 8 (Tab.get 0 s.tally (tallyKey (getBits sel F.tallySel_block) (getBits sel F.tallySel_item) ((getBits sel F.tallySel_instance + i) % 65536))).toNat; t.mem = putCells s.mem a l ∧ t.out.contains (s.recOut (getBits v F.tallyDump_cq) ⟨0, 0, 0x0B, 0, 0, 0, 8 * n, s.now, getBits sel F.tallySel_block * 2 ^ 24 + getBits sel F.tallySel_item * 2 ^ 16 + getBits sel F.tallySel_instance, true⟩) = true) ∧ t.getF R.tallyDump F.tallyDump_status = 0) ∧
  (∀ s : State, ∀ (v : Word), s.Inv = true → (s.serving = true) → (s.getF R.tallyDump F.tallyDump_busy = 0) → (getBits v F.tallyDump_count = 0 ∨ 4096 < getBits v F.tallyDump_count) → (s.recGoes (getBits v F.tallyDump_cq) 0 = true) → 
    Does (.tallyDump v) s fun t =>
      t.getF R.tallyDump F.tallyDump_status = 2 ∧ MemKept s t) ∧
  (∀ s : State, ∀ (v : Word), s.Inv = true → (s.serving = true) → (s.getF R.tallyDump F.tallyDump_busy = 0) → (1 ≤ getBits v F.tallyDump_count) → (getBits v F.tallyDump_count ≤ 4096) → (s.owned 0 (s.getF R.tallyDumpAddr F.tallyDumpAddr_addr * 8) (8 * getBits v F.tallyDump_count) = false) → (s.recGoes (getBits v F.tallyDump_cq) 0 = true) → 
    Does (.tallyDump v) s fun t =>
      t.getF R.tallyDump F.tallyDump_status = 8 ∧ MemKept s t) ∧
  (∀ s : State, ∀ (id n : Nat), s.Inv = true → (s.stage ≠ 0) → (s.power.off = false) → (s.sensor id = some n) → 
    Does (.pldmRequest (.getSensorReading id)) s fun t =>
      t = s.emit (.pldm 0 [n])) ∧
  (∀ s : State, ∀ (id n : Nat), s.Inv = true → (s.stage ≠ 0) → (s.power.off = false) → (s.stateSensor id = some n) → 
    Does (.pldmRequest (.getStateSensorReadings id)) s fun t =>
      t = s.emit (.pldm 0 [n])) ∧
  (∀ s : State, ∀ (e : DbEntry) (es : List DbEntry), s.Inv = true → (s.stage ≠ 0) → (s.power.off = false) → (s.daybook.events = e :: es) → 
    Does (.pldmRequest .pollForPlatformEventMessage) s fun t =>
      t.daybook.events = es ∧ t.out = .pldm 0 [e.seq, e.source, e.code, e.detail] :: s.out ∧ Kept s t [] []) ∧
  (∀ s : State, s.Inv = true → (s.pins.pwrGood = true) → (s.power.off = false) → 
    Does (.pmbusCommand 0x97) s fun t =>
      t = s.emit (.pmbus (bytesLE 2 (linear11 (s.getF R.powerNow F.powerNow_pin_w) 1)))) ∧
  (∀ s : State, s.Inv = true → (s.pins.pwrGood = true) → (s.power.off = false) → 
    Does (.pmbusCommand 0x79) s fun t =>
      t = s.emit (.pmbus (bytesLE 2 s.statusWord))) ∧
  (∀ s : State, ∀ (code : Nat), s.Inv = true → (s.pins.pwrGood = true) → (s.power.off = false) → ([0x88, 0x89, 0x97, 0x8D, 0x8E, 0x86, 0x79, 0x03].contains code = false) → 
    Does (.pmbusCommand code) s fun t =>
      t = s.emit .pmbusNack) ∧
  (∀ s : State, s.Inv = true → (s.pins.pwrGood = true) → (s.power.off = false) → 
    Does (.clearFaults) s fun t =>
      t = s.emit (.pmbus [])) ∧
  (∀ s : State, ∀ (straps : Nat) (test : Bool), s.Inv = true → (s.pins.pwrGood = false) → (s.pins.thermtripN = true) → 
    Does (.powerGood straps test true) s fun t =>
      t.pins.pwrGood = true ∧ t.pins.straps = straps % 8 ∧ t.pins.testMode = test ∧ t.power.off = false ∧ t.getF R.plinkStatus F.plinkStatus_link_ok = 1 ∧ t.tallyOf 1 0 0 = s.tallyOf 1 0 0 + 1 ∧ MemKept s t) ∧
  (∀ s : State, ∀ (straps : Nat) (test : Bool), s.Inv = true → (s.pins.pwrGood = false) → (s.pins.thermtripN = true) → 
    Does (.powerGood straps test false) s fun t =>
      t.pins.pwrGood = true ∧ t.pins.devResetN = false ∧ Kept s t [] []) ∧
  (∀ s : State, s.Inv = true → (s.pins.devResetN = false) → (s.power.off = false) → (s.pins.pwrGood = true) → (s.pins.firstStart = false) → ((Tab.get Bucket.full s.daybook.buckets 1).tokens ≠ 0) → 
    Does (.devResetNRise) s fun t =>
      t.pins.devResetN = true ∧ t.getF R.dbStatus F.dbStatus_frozen = 0 ∧ t.daybook.ring ≠ [] ∧ t.tallyOf 1 0 0 = s.tallyOf 1 0 0 + 1 ∧ MemKept s t) ∧
  (∀ s : State, s.Inv = true → (s.power.off = false) → (s.pins.pwrGood = true) → 
    Does (.pwrEnDeassert) s fun t =>
      EntersOff s t 5 ∧ t.pins.pwrEn = false ∧ t.pins.thermtripN = true) ∧
  (∀ s : State, s.Inv = true → (s.pins.pwrGood = true) → 
    Does (.tapInstruction 0) s fun t =>
      t.pins.tap = 0 ∧ t.out = .tapIdcode s.idcode :: s.out ∧ Kept s t [] []) ∧
  (∀ s : State, ∀ (code : Nat), s.Inv = true → (s.pins.pwrGood = true) → (1 ≤ code) → 
    Does (.tapInstruction code) s fun t =>
      t.pins.tap = (if code ≤ 2 ∨ (code ≤ 5 ∧ s.pins.devResetN = false) then code else 1) ∧ t.out = s.out ∧ Kept s t [] [])
end

