-- ==== Sys2Proof/Laws/State.lean ====
section
/-! SUPPORT. What each basic update of the state leaves unchanged: one lemma per field per update. -/

namespace Sys2Proof.Machine

@[simp] theorem State.setReg_pending (s : State) (a : Nat) (v : Word) : (s.setReg a v).pending = s.pending := by unfold State.setReg; rfl
@[simp] theorem State.setReg_clock (s : State) (a : Nat) (v : Word) : (s.setReg a v).clock = s.clock := by unfold State.setReg; rfl
@[simp] theorem State.setReg_links (s : State) (a : Nat) (v : Word) : (s.setReg a v).links = s.links := by unfold State.setReg; rfl
@[simp] theorem State.setReg_fabric (s : State) (a : Nat) (v : Word) : (s.setReg a v).fabric = s.fabric := by unfold State.setReg; rfl
@[simp] theorem State.setReg_quietSlot (s : State) (a : Nat) (v : Word) : (s.setReg a v).quietSlot = s.quietSlot := by unfold State.setReg; rfl
@[simp] theorem State.setReg_mem (s : State) (a : Nat) (v : Word) : (s.setReg a v).mem = s.mem := by unfold State.setReg; rfl
@[simp] theorem State.setReg_bad (s : State) (a : Nat) (v : Word) : (s.setReg a v).bad = s.bad := by unfold State.setReg; rfl
@[simp] theorem State.setReg_regions (s : State) (a : Nat) (v : Word) : (s.setReg a v).regions = s.regions := by unfold State.setReg; rfl
@[simp] theorem State.setReg_force (s : State) (a : Nat) (v : Word) : (s.setReg a v).force = s.force := by unfold State.setReg; rfl
@[simp] theorem State.setReg_dirty (s : State) (a : Nat) (v : Word) : (s.setReg a v).dirty = s.dirty := by unfold State.setReg; rfl
@[simp] theorem State.setReg_ringWait (s : State) (a : Nat) (v : Word) : (s.setReg a v).ringWait = s.ringWait := by unfold State.setReg; rfl
@[simp] theorem State.setReg_daybook (s : State) (a : Nat) (v : Word) : (s.setReg a v).daybook = s.daybook := by unfold State.setReg; rfl
@[simp] theorem State.setReg_tally (s : State) (a : Nat) (v : Word) : (s.setReg a v).tally = s.tally := by unfold State.setReg; rfl
@[simp] theorem State.setReg_out (s : State) (a : Nat) (v : Word) : (s.setReg a v).out = s.out := by unfold State.setReg; rfl
@[simp] theorem State.setReg_image (s : State) (a : Nat) (v : Word) : (s.setReg a v).image = s.image := by unfold State.setReg; rfl
@[simp] theorem State.setReg_bench (s : State) (a : Nat) (v : Word) : (s.setReg a v).bench = s.bench := by unfold State.setReg; rfl
@[simp] theorem State.setReg_cores (s : State) (a : Nat) (v : Word) : (s.setReg a v).cores = s.cores := by unfold State.setReg; rfl
@[simp] theorem State.setReg_free (s : State) (a : Nat) (v : Word) : (s.setReg a v).free = s.free := by unfold State.setReg; rfl
@[simp] theorem State.setReg_stripes (s : State) (a : Nat) (v : Word) : (s.setReg a v).stripes = s.stripes := by unfold State.setReg; rfl
@[simp] theorem State.setReg_scrub (s : State) (a : Nat) (v : Word) : (s.setReg a v).scrub = s.scrub := by unfold State.setReg; rfl
@[simp] theorem State.setReg_ddr (s : State) (a : Nat) (v : Word) : (s.setReg a v).ddr = s.ddr := by unfold State.setReg; rfl
@[simp] theorem State.setReg_serve (s : State) (a : Nat) (v : Word) : (s.setReg a v).serve = s.serve := by unfold State.setReg; rfl
@[simp] theorem State.setReg_train (s : State) (a : Nat) (v : Word) : (s.setReg a v).train = s.train := by unfold State.setReg; rfl
@[simp] theorem State.setReg_snap (s : State) (a : Nat) (v : Word) : (s.setReg a v).snap = s.snap := by unfold State.setReg; rfl
@[simp] theorem State.setReg_dma (s : State) (a : Nat) (v : Word) : (s.setReg a v).dma = s.dma := by unfold State.setReg; rfl
@[simp] theorem State.setReg_dmaTurn (s : State) (a : Nat) (v : Word) : (s.setReg a v).dmaTurn = s.dmaTurn := by unfold State.setReg; rfl
@[simp] theorem State.setReg_ep (s : State) (a : Nat) (v : Word) : (s.setReg a v).ep = s.ep := by unfold State.setReg; rfl
@[simp] theorem State.setReg_tags (s : State) (a : Nat) (v : Word) : (s.setReg a v).tags = s.tags := by unfold State.setReg; rfl
@[simp] theorem State.setReg_quarantine (s : State) (a : Nat) (v : Word) : (s.setReg a v).quarantine = s.quarantine := by unfold State.setReg; rfl
@[simp] theorem State.setReg_sliceCmd (s : State) (a : Nat) (v : Word) : (s.setReg a v).sliceCmd = s.sliceCmd := by unfold State.setReg; rfl
@[simp] theorem State.setReg_slots (s : State) (a : Nat) (v : Word) : (s.setReg a v).slots = s.slots := by unfold State.setReg; rfl
@[simp] theorem State.setReg_store (s : State) (a : Nat) (v : Word) : (s.setReg a v).store = s.store := by unfold State.setReg; rfl
@[simp] theorem State.setReg_progs (s : State) (a : Nat) (v : Word) : (s.setReg a v).progs = s.progs := by unfold State.setReg; rfl
@[simp] theorem State.setReg_pkt (s : State) (a : Nat) (v : Word) : (s.setReg a v).pkt = s.pkt := by unfold State.setReg; rfl
@[simp] theorem State.setReg_net (s : State) (a : Nat) (v : Word) : (s.setReg a v).net = s.net := by unfold State.setReg; rfl
@[simp] theorem State.setReg_cipher (s : State) (a : Nat) (v : Word) : (s.setReg a v).cipher = s.cipher := by unfold State.setReg; rfl
@[simp] theorem State.setReg_power (s : State) (a : Nat) (v : Word) : (s.setReg a v).power = s.power := by unfold State.setReg; rfl
@[simp] theorem State.setReg_boot (s : State) (a : Nat) (v : Word) : (s.setReg a v).boot = s.boot := by unfold State.setReg; rfl
@[simp] theorem State.setReg_pair (s : State) (a : Nat) (v : Word) : (s.setReg a v).pair = s.pair := by unfold State.setReg; rfl
@[simp] theorem State.setReg_isst (s : State) (a : Nat) (v : Word) : (s.setReg a v).isst = s.isst := by unfold State.setReg; rfl
@[simp] theorem State.setReg_pins (s : State) (a : Nat) (v : Word) : (s.setReg a v).pins = s.pins := by unfold State.setReg; rfl

@[simp] theorem State.setF_pending (s : State) (a : Nat) (f : Fld) (v : Nat) : (s.setF a f v).pending = s.pending := State.setReg_pending ..
@[simp] theorem State.setF_clock (s : State) (a : Nat) (f : Fld) (v : Nat) : (s.setF a f v).clock = s.clock := State.setReg_clock ..
@[simp] theorem State.setF_links (s : State) (a : Nat) (f : Fld) (v : Nat) : (s.setF a f v).links = s.links := State.setReg_links ..
@[simp] theorem State.setF_fabric (s : State) (a : Nat) (f : Fld) (v : Nat) : (s.setF a f v).fabric = s.fabric := State.setReg_fabric ..
@[simp] theorem State.setF_quietSlot (s : State) (a : Nat) (f : Fld) (v : Nat) : (s.setF a f v).quietSlot = s.quietSlot := State.setReg_quietSlot ..
@[simp] theorem State.setF_mem (s : State) (a : Nat) (f : Fld) (v : Nat) : (s.setF a f v).mem = s.mem := State.setReg_mem ..
@[simp] theorem State.setF_bad (s : State) (a : Nat) (f : Fld) (v : Nat) : (s.setF a f v).bad = s.bad := State.setReg_bad ..
@[simp] theorem State.setF_regions (s : State) (a : Nat) (f : Fld) (v : Nat) : (s.setF a f v).regions = s.regions := State.setReg_regions ..
@[simp] theorem State.setF_force (s : State) (a : Nat) (f : Fld) (v : Nat) : (s.setF a f v).force = s.force := State.setReg_force ..
@[simp] theorem State.setF_dirty (s : State) (a : Nat) (f : Fld) (v : Nat) : (s.setF a f v).dirty = s.dirty := State.setReg_dirty ..
@[simp] theorem State.setF_ringWait (s : State) (a : Nat) (f : Fld) (v : Nat) : (s.setF a f v).ringWait = s.ringWait := State.setReg_ringWait ..
@[simp] theorem State.setF_daybook (s : State) (a : Nat) (f : Fld) (v : Nat) : (s.setF a f v).daybook = s.daybook := State.setReg_daybook ..
@[simp] theorem State.setF_tally (s : State) (a : Nat) (f : Fld) (v : Nat) : (s.setF a f v).tally = s.tally := State.setReg_tally ..
@[simp] theorem State.setF_out (s : State) (a : Nat) (f : Fld) (v : Nat) : (s.setF a f v).out = s.out := State.setReg_out ..
@[simp] theorem State.setF_image (s : State) (a : Nat) (f : Fld) (v : Nat) : (s.setF a f v).image = s.image := State.setReg_image ..
@[simp] theorem State.setF_bench (s : State) (a : Nat) (f : Fld) (v : Nat) : (s.setF a f v).bench = s.bench := State.setReg_bench ..
@[simp] theorem State.setF_cores (s : State) (a : Nat) (f : Fld) (v : Nat) : (s.setF a f v).cores = s.cores := State.setReg_cores ..
@[simp] theorem State.setF_free (s : State) (a : Nat) (f : Fld) (v : Nat) : (s.setF a f v).free = s.free := State.setReg_free ..
@[simp] theorem State.setF_stripes (s : State) (a : Nat) (f : Fld) (v : Nat) : (s.setF a f v).stripes = s.stripes := State.setReg_stripes ..
@[simp] theorem State.setF_scrub (s : State) (a : Nat) (f : Fld) (v : Nat) : (s.setF a f v).scrub = s.scrub := State.setReg_scrub ..
@[simp] theorem State.setF_ddr (s : State) (a : Nat) (f : Fld) (v : Nat) : (s.setF a f v).ddr = s.ddr := State.setReg_ddr ..
@[simp] theorem State.setF_serve (s : State) (a : Nat) (f : Fld) (v : Nat) : (s.setF a f v).serve = s.serve := State.setReg_serve ..
@[simp] theorem State.setF_train (s : State) (a : Nat) (f : Fld) (v : Nat) : (s.setF a f v).train = s.train := State.setReg_train ..
@[simp] theorem State.setF_snap (s : State) (a : Nat) (f : Fld) (v : Nat) : (s.setF a f v).snap = s.snap := State.setReg_snap ..
@[simp] theorem State.setF_dma (s : State) (a : Nat) (f : Fld) (v : Nat) : (s.setF a f v).dma = s.dma := State.setReg_dma ..
@[simp] theorem State.setF_dmaTurn (s : State) (a : Nat) (f : Fld) (v : Nat) : (s.setF a f v).dmaTurn = s.dmaTurn := State.setReg_dmaTurn ..
@[simp] theorem State.setF_ep (s : State) (a : Nat) (f : Fld) (v : Nat) : (s.setF a f v).ep = s.ep := State.setReg_ep ..
@[simp] theorem State.setF_tags (s : State) (a : Nat) (f : Fld) (v : Nat) : (s.setF a f v).tags = s.tags := State.setReg_tags ..
@[simp] theorem State.setF_quarantine (s : State) (a : Nat) (f : Fld) (v : Nat) : (s.setF a f v).quarantine = s.quarantine := State.setReg_quarantine ..
@[simp] theorem State.setF_sliceCmd (s : State) (a : Nat) (f : Fld) (v : Nat) : (s.setF a f v).sliceCmd = s.sliceCmd := State.setReg_sliceCmd ..
@[simp] theorem State.setF_slots (s : State) (a : Nat) (f : Fld) (v : Nat) : (s.setF a f v).slots = s.slots := State.setReg_slots ..
@[simp] theorem State.setF_store (s : State) (a : Nat) (f : Fld) (v : Nat) : (s.setF a f v).store = s.store := State.setReg_store ..
@[simp] theorem State.setF_progs (s : State) (a : Nat) (f : Fld) (v : Nat) : (s.setF a f v).progs = s.progs := State.setReg_progs ..
@[simp] theorem State.setF_pkt (s : State) (a : Nat) (f : Fld) (v : Nat) : (s.setF a f v).pkt = s.pkt := State.setReg_pkt ..
@[simp] theorem State.setF_net (s : State) (a : Nat) (f : Fld) (v : Nat) : (s.setF a f v).net = s.net := State.setReg_net ..
@[simp] theorem State.setF_cipher (s : State) (a : Nat) (f : Fld) (v : Nat) : (s.setF a f v).cipher = s.cipher := State.setReg_cipher ..
@[simp] theorem State.setF_power (s : State) (a : Nat) (f : Fld) (v : Nat) : (s.setF a f v).power = s.power := State.setReg_power ..
@[simp] theorem State.setF_boot (s : State) (a : Nat) (f : Fld) (v : Nat) : (s.setF a f v).boot = s.boot := State.setReg_boot ..
@[simp] theorem State.setF_pair (s : State) (a : Nat) (f : Fld) (v : Nat) : (s.setF a f v).pair = s.pair := State.setReg_pair ..
@[simp] theorem State.setF_isst (s : State) (a : Nat) (f : Fld) (v : Nat) : (s.setF a f v).isst = s.isst := State.setReg_isst ..
@[simp] theorem State.setF_pins (s : State) (a : Nat) (f : Fld) (v : Nat) : (s.setF a f v).pins = s.pins := State.setReg_pins ..

@[simp] theorem State.setBit_pending (s : State) (a i : Nat) : (s.setBit a i).pending = s.pending := State.setF_pending ..
@[simp] theorem State.setBit_clock (s : State) (a i : Nat) : (s.setBit a i).clock = s.clock := State.setF_clock ..
@[simp] theorem State.setBit_links (s : State) (a i : Nat) : (s.setBit a i).links = s.links := State.setF_links ..
@[simp] theorem State.setBit_fabric (s : State) (a i : Nat) : (s.setBit a i).fabric = s.fabric := State.setF_fabric ..
@[simp] theorem State.setBit_quietSlot (s : State) (a i : Nat) : (s.setBit a i).quietSlot = s.quietSlot := State.setF_quietSlot ..
@[simp] theorem State.setBit_mem (s : State) (a i : Nat) : (s.setBit a i).mem = s.mem := State.setF_mem ..
@[simp] theorem State.setBit_bad (s : State) (a i : Nat) : (s.setBit a i).bad = s.bad := State.setF_bad ..
@[simp] theorem State.setBit_regions (s : State) (a i : Nat) : (s.setBit a i).regions = s.regions := State.setF_regions ..
@[simp] theorem State.setBit_force (s : State) (a i : Nat) : (s.setBit a i).force = s.force := State.setF_force ..
@[simp] theorem State.setBit_dirty (s : State) (a i : Nat) : (s.setBit a i).dirty = s.dirty := State.setF_dirty ..
@[simp] theorem State.setBit_ringWait (s : State) (a i : Nat) : (s.setBit a i).ringWait = s.ringWait := State.setF_ringWait ..
@[simp] theorem State.setBit_daybook (s : State) (a i : Nat) : (s.setBit a i).daybook = s.daybook := State.setF_daybook ..
@[simp] theorem State.setBit_tally (s : State) (a i : Nat) : (s.setBit a i).tally = s.tally := State.setF_tally ..
@[simp] theorem State.setBit_out (s : State) (a i : Nat) : (s.setBit a i).out = s.out := State.setF_out ..
@[simp] theorem State.setBit_image (s : State) (a i : Nat) : (s.setBit a i).image = s.image := State.setF_image ..
@[simp] theorem State.setBit_bench (s : State) (a i : Nat) : (s.setBit a i).bench = s.bench := State.setF_bench ..
@[simp] theorem State.setBit_cores (s : State) (a i : Nat) : (s.setBit a i).cores = s.cores := State.setF_cores ..
@[simp] theorem State.setBit_free (s : State) (a i : Nat) : (s.setBit a i).free = s.free := State.setF_free ..
@[simp] theorem State.setBit_stripes (s : State) (a i : Nat) : (s.setBit a i).stripes = s.stripes := State.setF_stripes ..
@[simp] theorem State.setBit_scrub (s : State) (a i : Nat) : (s.setBit a i).scrub = s.scrub := State.setF_scrub ..
@[simp] theorem State.setBit_ddr (s : State) (a i : Nat) : (s.setBit a i).ddr = s.ddr := State.setF_ddr ..
@[simp] theorem State.setBit_serve (s : State) (a i : Nat) : (s.setBit a i).serve = s.serve := State.setF_serve ..
@[simp] theorem State.setBit_train (s : State) (a i : Nat) : (s.setBit a i).train = s.train := State.setF_train ..
@[simp] theorem State.setBit_snap (s : State) (a i : Nat) : (s.setBit a i).snap = s.snap := State.setF_snap ..
@[simp] theorem State.setBit_dma (s : State) (a i : Nat) : (s.setBit a i).dma = s.dma := State.setF_dma ..
@[simp] theorem State.setBit_dmaTurn (s : State) (a i : Nat) : (s.setBit a i).dmaTurn = s.dmaTurn := State.setF_dmaTurn ..
@[simp] theorem State.setBit_ep (s : State) (a i : Nat) : (s.setBit a i).ep = s.ep := State.setF_ep ..
@[simp] theorem State.setBit_tags (s : State) (a i : Nat) : (s.setBit a i).tags = s.tags := State.setF_tags ..
@[simp] theorem State.setBit_quarantine (s : State) (a i : Nat) : (s.setBit a i).quarantine = s.quarantine := State.setF_quarantine ..
@[simp] theorem State.setBit_sliceCmd (s : State) (a i : Nat) : (s.setBit a i).sliceCmd = s.sliceCmd := State.setF_sliceCmd ..
@[simp] theorem State.setBit_slots (s : State) (a i : Nat) : (s.setBit a i).slots = s.slots := State.setF_slots ..
@[simp] theorem State.setBit_store (s : State) (a i : Nat) : (s.setBit a i).store = s.store := State.setF_store ..
@[simp] theorem State.setBit_progs (s : State) (a i : Nat) : (s.setBit a i).progs = s.progs := State.setF_progs ..
@[simp] theorem State.setBit_pkt (s : State) (a i : Nat) : (s.setBit a i).pkt = s.pkt := State.setF_pkt ..
@[simp] theorem State.setBit_net (s : State) (a i : Nat) : (s.setBit a i).net = s.net := State.setF_net ..
@[simp] theorem State.setBit_cipher (s : State) (a i : Nat) : (s.setBit a i).cipher = s.cipher := State.setF_cipher ..
@[simp] theorem State.setBit_power (s : State) (a i : Nat) : (s.setBit a i).power = s.power := State.setF_power ..
@[simp] theorem State.setBit_boot (s : State) (a i : Nat) : (s.setBit a i).boot = s.boot := State.setF_boot ..
@[simp] theorem State.setBit_pair (s : State) (a i : Nat) : (s.setBit a i).pair = s.pair := State.setF_pair ..
@[simp] theorem State.setBit_isst (s : State) (a i : Nat) : (s.setBit a i).isst = s.isst := State.setF_isst ..
@[simp] theorem State.setBit_pins (s : State) (a i : Nat) : (s.setBit a i).pins = s.pins := State.setF_pins ..

@[simp] theorem State.clrBit_pending (s : State) (a i : Nat) : (s.clrBit a i).pending = s.pending := State.setF_pending ..
@[simp] theorem State.clrBit_clock (s : State) (a i : Nat) : (s.clrBit a i).clock = s.clock := State.setF_clock ..
@[simp] theorem State.clrBit_links (s : State) (a i : Nat) : (s.clrBit a i).links = s.links := State.setF_links ..
@[simp] theorem State.clrBit_fabric (s : State) (a i : Nat) : (s.clrBit a i).fabric = s.fabric := State.setF_fabric ..
@[simp] theorem State.clrBit_quietSlot (s : State) (a i : Nat) : (s.clrBit a i).quietSlot = s.quietSlot := State.setF_quietSlot ..
@[simp] theorem State.clrBit_mem (s : State) (a i : Nat) : (s.clrBit a i).mem = s.mem := State.setF_mem ..
@[simp] theorem State.clrBit_bad (s : State) (a i : Nat) : (s.clrBit a i).bad = s.bad := State.setF_bad ..
@[simp] theorem State.clrBit_regions (s : State) (a i : Nat) : (s.clrBit a i).regions = s.regions := State.setF_regions ..
@[simp] theorem State.clrBit_force (s : State) (a i : Nat) : (s.clrBit a i).force = s.force := State.setF_force ..
@[simp] theorem State.clrBit_dirty (s : State) (a i : Nat) : (s.clrBit a i).dirty = s.dirty := State.setF_dirty ..
@[simp] theorem State.clrBit_ringWait (s : State) (a i : Nat) : (s.clrBit a i).ringWait = s.ringWait := State.setF_ringWait ..
@[simp] theorem State.clrBit_daybook (s : State) (a i : Nat) : (s.clrBit a i).daybook = s.daybook := State.setF_daybook ..
@[simp] theorem State.clrBit_tally (s : State) (a i : Nat) : (s.clrBit a i).tally = s.tally := State.setF_tally ..
@[simp] theorem State.clrBit_out (s : State) (a i : Nat) : (s.clrBit a i).out = s.out := State.setF_out ..
@[simp] theorem State.clrBit_image (s : State) (a i : Nat) : (s.clrBit a i).image = s.image := State.setF_image ..
@[simp] theorem State.clrBit_bench (s : State) (a i : Nat) : (s.clrBit a i).bench = s.bench := State.setF_bench ..
@[simp] theorem State.clrBit_cores (s : State) (a i : Nat) : (s.clrBit a i).cores = s.cores := State.setF_cores ..
@[simp] theorem State.clrBit_free (s : State) (a i : Nat) : (s.clrBit a i).free = s.free := State.setF_free ..
@[simp] theorem State.clrBit_stripes (s : State) (a i : Nat) : (s.clrBit a i).stripes = s.stripes := State.setF_stripes ..
@[simp] theorem State.clrBit_scrub (s : State) (a i : Nat) : (s.clrBit a i).scrub = s.scrub := State.setF_scrub ..
@[simp] theorem State.clrBit_ddr (s : State) (a i : Nat) : (s.clrBit a i).ddr = s.ddr := State.setF_ddr ..
@[simp] theorem State.clrBit_serve (s : State) (a i : Nat) : (s.clrBit a i).serve = s.serve := State.setF_serve ..
@[simp] theorem State.clrBit_train (s : State) (a i : Nat) : (s.clrBit a i).train = s.train := State.setF_train ..
@[simp] theorem State.clrBit_snap (s : State) (a i : Nat) : (s.clrBit a i).snap = s.snap := State.setF_snap ..
@[simp] theorem State.clrBit_dma (s : State) (a i : Nat) : (s.clrBit a i).dma = s.dma := State.setF_dma ..
@[simp] theorem State.clrBit_dmaTurn (s : State) (a i : Nat) : (s.clrBit a i).dmaTurn = s.dmaTurn := State.setF_dmaTurn ..
@[simp] theorem State.clrBit_ep (s : State) (a i : Nat) : (s.clrBit a i).ep = s.ep := State.setF_ep ..
@[simp] theorem State.clrBit_tags (s : State) (a i : Nat) : (s.clrBit a i).tags = s.tags := State.setF_tags ..
@[simp] theorem State.clrBit_quarantine (s : State) (a i : Nat) : (s.clrBit a i).quarantine = s.quarantine := State.setF_quarantine ..
@[simp] theorem State.clrBit_sliceCmd (s : State) (a i : Nat) : (s.clrBit a i).sliceCmd = s.sliceCmd := State.setF_sliceCmd ..
@[simp] theorem State.clrBit_slots (s : State) (a i : Nat) : (s.clrBit a i).slots = s.slots := State.setF_slots ..
@[simp] theorem State.clrBit_store (s : State) (a i : Nat) : (s.clrBit a i).store = s.store := State.setF_store ..
@[simp] theorem State.clrBit_progs (s : State) (a i : Nat) : (s.clrBit a i).progs = s.progs := State.setF_progs ..
@[simp] theorem State.clrBit_pkt (s : State) (a i : Nat) : (s.clrBit a i).pkt = s.pkt := State.setF_pkt ..
@[simp] theorem State.clrBit_net (s : State) (a i : Nat) : (s.clrBit a i).net = s.net := State.setF_net ..
@[simp] theorem State.clrBit_cipher (s : State) (a i : Nat) : (s.clrBit a i).cipher = s.cipher := State.setF_cipher ..
@[simp] theorem State.clrBit_power (s : State) (a i : Nat) : (s.clrBit a i).power = s.power := State.setF_power ..
@[simp] theorem State.clrBit_boot (s : State) (a i : Nat) : (s.clrBit a i).boot = s.boot := State.setF_boot ..
@[simp] theorem State.clrBit_pair (s : State) (a i : Nat) : (s.clrBit a i).pair = s.pair := State.setF_pair ..
@[simp] theorem State.clrBit_isst (s : State) (a i : Nat) : (s.clrBit a i).isst = s.isst := State.setF_isst ..
@[simp] theorem State.clrBit_pins (s : State) (a i : Nat) : (s.clrBit a i).pins = s.pins := State.setF_pins ..

@[simp] theorem State.emit_pending (s : State) (o : Out) : (s.emit o).pending = s.pending := rfl
@[simp] theorem State.emit_regs (s : State) (o : Out) : (s.emit o).regs = s.regs := rfl
@[simp] theorem State.emit_clock (s : State) (o : Out) : (s.emit o).clock = s.clock := rfl
@[simp] theorem State.emit_links (s : State) (o : Out) : (s.emit o).links = s.links := rfl
@[simp] theorem State.emit_fabric (s : State) (o : Out) : (s.emit o).fabric = s.fabric := rfl
@[simp] theorem State.emit_quietSlot (s : State) (o : Out) : (s.emit o).quietSlot = s.quietSlot := rfl
@[simp] theorem State.emit_mem (s : State) (o : Out) : (s.emit o).mem = s.mem := rfl
@[simp] theorem State.emit_bad (s : State) (o : Out) : (s.emit o).bad = s.bad := rfl
@[simp] theorem State.emit_regions (s : State) (o : Out) : (s.emit o).regions = s.regions := rfl
@[simp] theorem State.emit_force (s : State) (o : Out) : (s.emit o).force = s.force := rfl
@[simp] theorem State.emit_dirty (s : State) (o : Out) : (s.emit o).dirty = s.dirty := rfl
@[simp] theorem State.emit_ringWait (s : State) (o : Out) : (s.emit o).ringWait = s.ringWait := rfl
@[simp] theorem State.emit_daybook (s : State) (o : Out) : (s.emit o).daybook = s.daybook := rfl
@[simp] theorem State.emit_tally (s : State) (o : Out) : (s.emit o).tally = s.tally := rfl
@[simp] theorem State.emit_image (s : State) (o : Out) : (s.emit o).image = s.image := rfl
@[simp] theorem State.emit_bench (s : State) (o : Out) : (s.emit o).bench = s.bench := rfl
@[simp] theorem State.emit_cores (s : State) (o : Out) : (s.emit o).cores = s.cores := rfl
@[simp] theorem State.emit_free (s : State) (o : Out) : (s.emit o).free = s.free := rfl
@[simp] theorem State.emit_stripes (s : State) (o : Out) : (s.emit o).stripes = s.stripes := rfl
@[simp] theorem State.emit_scrub (s : State) (o : Out) : (s.emit o).scrub = s.scrub := rfl
@[simp] theorem State.emit_ddr (s : State) (o : Out) : (s.emit o).ddr = s.ddr := rfl
@[simp] theorem State.emit_serve (s : State) (o : Out) : (s.emit o).serve = s.serve := rfl
@[simp] theorem State.emit_train (s : State) (o : Out) : (s.emit o).train = s.train := rfl
@[simp] theorem State.emit_snap (s : State) (o : Out) : (s.emit o).snap = s.snap := rfl
@[simp] theorem State.emit_dma (s : State) (o : Out) : (s.emit o).dma = s.dma := rfl
@[simp] theorem State.emit_dmaTurn (s : State) (o : Out) : (s.emit o).dmaTurn = s.dmaTurn := rfl
@[simp] theorem State.emit_ep (s : State) (o : Out) : (s.emit o).ep = s.ep := rfl
@[simp] theorem State.emit_tags (s : State) (o : Out) : (s.emit o).tags = s.tags := rfl
@[simp] theorem State.emit_quarantine (s : State) (o : Out) : (s.emit o).quarantine = s.quarantine := rfl
@[simp] theorem State.emit_sliceCmd (s : State) (o : Out) : (s.emit o).sliceCmd = s.sliceCmd := rfl
@[simp] theorem State.emit_slots (s : State) (o : Out) : (s.emit o).slots = s.slots := rfl
@[simp] theorem State.emit_store (s : State) (o : Out) : (s.emit o).store = s.store := rfl
@[simp] theorem State.emit_progs (s : State) (o : Out) : (s.emit o).progs = s.progs := rfl
@[simp] theorem State.emit_pkt (s : State) (o : Out) : (s.emit o).pkt = s.pkt := rfl
@[simp] theorem State.emit_net (s : State) (o : Out) : (s.emit o).net = s.net := rfl
@[simp] theorem State.emit_cipher (s : State) (o : Out) : (s.emit o).cipher = s.cipher := rfl
@[simp] theorem State.emit_power (s : State) (o : Out) : (s.emit o).power = s.power := rfl
@[simp] theorem State.emit_boot (s : State) (o : Out) : (s.emit o).boot = s.boot := rfl
@[simp] theorem State.emit_pair (s : State) (o : Out) : (s.emit o).pair = s.pair := rfl
@[simp] theorem State.emit_isst (s : State) (o : Out) : (s.emit o).isst = s.isst := rfl
@[simp] theorem State.emit_pins (s : State) (o : Out) : (s.emit o).pins = s.pins := rfl

@[simp] theorem State.count_pending (s : State) (b i n k : Nat) : (s.count b i n k).pending = s.pending := rfl
@[simp] theorem State.count_regs (s : State) (b i n k : Nat) : (s.count b i n k).regs = s.regs := rfl
@[simp] theorem State.count_clock (s : State) (b i n k : Nat) : (s.count b i n k).clock = s.clock := rfl
@[simp] theorem State.count_links (s : State) (b i n k : Nat) : (s.count b i n k).links = s.links := rfl
@[simp] theorem State.count_fabric (s : State) (b i n k : Nat) : (s.count b i n k).fabric = s.fabric := rfl
@[simp] theorem State.count_quietSlot (s : State) (b i n k : Nat) : (s.count b i n k).quietSlot = s.quietSlot := rfl
@[simp] theorem State.count_mem (s : State) (b i n k : Nat) : (s.count b i n k).mem = s.mem := rfl
@[simp] theorem State.count_bad (s : State) (b i n k : Nat) : (s.count b i n k).bad = s.bad := rfl
@[simp] theorem State.count_regions (s : State) (b i n k : Nat) : (s.count b i n k).regions = s.regions := rfl
@[simp] theorem State.count_force (s : State) (b i n k : Nat) : (s.count b i n k).force = s.force := rfl
@[simp] theorem State.count_dirty (s : State) (b i n k : Nat) : (s.count b i n k).dirty = s.dirty := rfl
@[simp] theorem State.count_ringWait (s : State) (b i n k : Nat) : (s.count b i n k).ringWait = s.ringWait := rfl
@[simp] theorem State.count_daybook (s : State) (b i n k : Nat) : (s.count b i n k).daybook = s.daybook := rfl
@[simp] theorem State.count_out (s : State) (b i n k : Nat) : (s.count b i n k).out = s.out := rfl
@[simp] theorem State.count_image (s : State) (b i n k : Nat) : (s.count b i n k).image = s.image := rfl
@[simp] theorem State.count_bench (s : State) (b i n k : Nat) : (s.count b i n k).bench = s.bench := rfl
@[simp] theorem State.count_cores (s : State) (b i n k : Nat) : (s.count b i n k).cores = s.cores := rfl
@[simp] theorem State.count_free (s : State) (b i n k : Nat) : (s.count b i n k).free = s.free := rfl
@[simp] theorem State.count_stripes (s : State) (b i n k : Nat) : (s.count b i n k).stripes = s.stripes := rfl
@[simp] theorem State.count_scrub (s : State) (b i n k : Nat) : (s.count b i n k).scrub = s.scrub := rfl
@[simp] theorem State.count_ddr (s : State) (b i n k : Nat) : (s.count b i n k).ddr = s.ddr := rfl
@[simp] theorem State.count_serve (s : State) (b i n k : Nat) : (s.count b i n k).serve = s.serve := rfl
@[simp] theorem State.count_train (s : State) (b i n k : Nat) : (s.count b i n k).train = s.train := rfl
@[simp] theorem State.count_snap (s : State) (b i n k : Nat) : (s.count b i n k).snap = s.snap := rfl
@[simp] theorem State.count_dma (s : State) (b i n k : Nat) : (s.count b i n k).dma = s.dma := rfl
@[simp] theorem State.count_dmaTurn (s : State) (b i n k : Nat) : (s.count b i n k).dmaTurn = s.dmaTurn := rfl
@[simp] theorem State.count_ep (s : State) (b i n k : Nat) : (s.count b i n k).ep = s.ep := rfl
@[simp] theorem State.count_tags (s : State) (b i n k : Nat) : (s.count b i n k).tags = s.tags := rfl
@[simp] theorem State.count_quarantine (s : State) (b i n k : Nat) : (s.count b i n k).quarantine = s.quarantine := rfl
@[simp] theorem State.count_sliceCmd (s : State) (b i n k : Nat) : (s.count b i n k).sliceCmd = s.sliceCmd := rfl
@[simp] theorem State.count_slots (s : State) (b i n k : Nat) : (s.count b i n k).slots = s.slots := rfl
@[simp] theorem State.count_store (s : State) (b i n k : Nat) : (s.count b i n k).store = s.store := rfl
@[simp] theorem State.count_progs (s : State) (b i n k : Nat) : (s.count b i n k).progs = s.progs := rfl
@[simp] theorem State.count_pkt (s : State) (b i n k : Nat) : (s.count b i n k).pkt = s.pkt := rfl
@[simp] theorem State.count_net (s : State) (b i n k : Nat) : (s.count b i n k).net = s.net := rfl
@[simp] theorem State.count_cipher (s : State) (b i n k : Nat) : (s.count b i n k).cipher = s.cipher := rfl
@[simp] theorem State.count_power (s : State) (b i n k : Nat) : (s.count b i n k).power = s.power := rfl
@[simp] theorem State.count_boot (s : State) (b i n k : Nat) : (s.count b i n k).boot = s.boot := rfl
@[simp] theorem State.count_pair (s : State) (b i n k : Nat) : (s.count b i n k).pair = s.pair := rfl
@[simp] theorem State.count_isst (s : State) (b i n k : Nat) : (s.count b i n k).isst = s.isst := rfl
@[simp] theorem State.count_pins (s : State) (b i n k : Nat) : (s.count b i n k).pins = s.pins := rfl

@[simp] theorem State.putBytes_pending (s : State) (a : Nat) (l : List Byte) : (s.putBytes a l).pending = s.pending := rfl
@[simp] theorem State.putBytes_regs (s : State) (a : Nat) (l : List Byte) : (s.putBytes a l).regs = s.regs := rfl
@[simp] theorem State.putBytes_clock (s : State) (a : Nat) (l : List Byte) : (s.putBytes a l).clock = s.clock := rfl
@[simp] theorem State.putBytes_links (s : State) (a : Nat) (l : List Byte) : (s.putBytes a l).links = s.links := rfl
@[simp] theorem State.putBytes_fabric (s : State) (a : Nat) (l : List Byte) : (s.putBytes a l).fabric = s.fabric := rfl
@[simp] theorem State.putBytes_quietSlot (s : State) (a : Nat) (l : List Byte) : (s.putBytes a l).quietSlot = s.quietSlot := rfl
@[simp] theorem State.putBytes_bad (s : State) (a : Nat) (l : List Byte) : (s.putBytes a l).bad = s.bad := rfl
@[simp] theorem State.putBytes_regions (s : State) (a : Nat) (l : List Byte) : (s.putBytes a l).regions = s.regions := rfl
@[simp] theorem State.putBytes_force (s : State) (a : Nat) (l : List Byte) : (s.putBytes a l).force = s.force := rfl
@[simp] theorem State.putBytes_dirty (s : State) (a : Nat) (l : List Byte) : (s.putBytes a l).dirty = s.dirty := rfl
@[simp] theorem State.putBytes_ringWait (s : State) (a : Nat) (l : List Byte) : (s.putBytes a l).ringWait = s.ringWait := rfl
@[simp] theorem State.putBytes_daybook (s : State) (a : Nat) (l : List Byte) : (s.putBytes a l).daybook = s.daybook := rfl
@[simp] theorem State.putBytes_tally (s : State) (a : Nat) (l : List Byte) : (s.putBytes a l).tally = s.tally := rfl
@[simp] theorem State.putBytes_out (s : State) (a : Nat) (l : List Byte) : (s.putBytes a l).out = s.out := rfl
@[simp] theorem State.putBytes_image (s : State) (a : Nat) (l : List Byte) : (s.putBytes a l).image = s.image := rfl
@[simp] theorem State.putBytes_bench (s : State) (a : Nat) (l : List Byte) : (s.putBytes a l).bench = s.bench := rfl
@[simp] theorem State.putBytes_cores (s : State) (a : Nat) (l : List Byte) : (s.putBytes a l).cores = s.cores := rfl
@[simp] theorem State.putBytes_free (s : State) (a : Nat) (l : List Byte) : (s.putBytes a l).free = s.free := rfl
@[simp] theorem State.putBytes_stripes (s : State) (a : Nat) (l : List Byte) : (s.putBytes a l).stripes = s.stripes := rfl
@[simp] theorem State.putBytes_scrub (s : State) (a : Nat) (l : List Byte) : (s.putBytes a l).scrub = s.scrub := rfl
@[simp] theorem State.putBytes_ddr (s : State) (a : Nat) (l : List Byte) : (s.putBytes a l).ddr = s.ddr := rfl
@[simp] theorem State.putBytes_serve (s : State) (a : Nat) (l : List Byte) : (s.putBytes a l).serve = s.serve := rfl
@[simp] theorem State.putBytes_train (s : State) (a : Nat) (l : List Byte) : (s.putBytes a l).train = s.train := rfl
@[simp] theorem State.putBytes_snap (s : State) (a : Nat) (l : List Byte) : (s.putBytes a l).snap = s.snap := rfl
@[simp] theorem State.putBytes_dma (s : State) (a : Nat) (l : List Byte) : (s.putBytes a l).dma = s.dma := rfl
@[simp] theorem State.putBytes_dmaTurn (s : State) (a : Nat) (l : List Byte) : (s.putBytes a l).dmaTurn = s.dmaTurn := rfl
@[simp] theorem State.putBytes_ep (s : State) (a : Nat) (l : List Byte) : (s.putBytes a l).ep = s.ep := rfl
@[simp] theorem State.putBytes_tags (s : State) (a : Nat) (l : List Byte) : (s.putBytes a l).tags = s.tags := rfl
@[simp] theorem State.putBytes_quarantine (s : State) (a : Nat) (l : List Byte) : (s.putBytes a l).quarantine = s.quarantine := rfl
@[simp] theorem State.putBytes_sliceCmd (s : State) (a : Nat) (l : List Byte) : (s.putBytes a l).sliceCmd = s.sliceCmd := rfl
@[simp] theorem State.putBytes_slots (s : State) (a : Nat) (l : List Byte) : (s.putBytes a l).slots = s.slots := rfl
@[simp] theorem State.putBytes_store (s : State) (a : Nat) (l : List Byte) : (s.putBytes a l).store = s.store := rfl
@[simp] theorem State.putBytes_progs (s : State) (a : Nat) (l : List Byte) : (s.putBytes a l).progs = s.progs := rfl
@[simp] theorem State.putBytes_pkt (s : State) (a : Nat) (l : List Byte) : (s.putBytes a l).pkt = s.pkt := rfl
@[simp] theorem State.putBytes_net (s : State) (a : Nat) (l : List Byte) : (s.putBytes a l).net = s.net := rfl
@[simp] theorem State.putBytes_cipher (s : State) (a : Nat) (l : List Byte) : (s.putBytes a l).cipher = s.cipher := rfl
@[simp] theorem State.putBytes_power (s : State) (a : Nat) (l : List Byte) : (s.putBytes a l).power = s.power := rfl
@[simp] theorem State.putBytes_boot (s : State) (a : Nat) (l : List Byte) : (s.putBytes a l).boot = s.boot := rfl
@[simp] theorem State.putBytes_pair (s : State) (a : Nat) (l : List Byte) : (s.putBytes a l).pair = s.pair := rfl
@[simp] theorem State.putBytes_isst (s : State) (a : Nat) (l : List Byte) : (s.putBytes a l).isst = s.isst := rfl
@[simp] theorem State.putBytes_pins (s : State) (a : Nat) (l : List Byte) : (s.putBytes a l).pins = s.pins := rfl

@[simp] theorem State.zeroRange_pending (s : State) (a n : Nat) : (s.zeroRange a n).pending = s.pending := rfl
@[simp] theorem State.zeroRange_regs (s : State) (a n : Nat) : (s.zeroRange a n).regs = s.regs := rfl
@[simp] theorem State.zeroRange_clock (s : State) (a n : Nat) : (s.zeroRange a n).clock = s.clock := rfl
@[simp] theorem State.zeroRange_links (s : State) (a n : Nat) : (s.zeroRange a n).links = s.links := rfl
@[simp] theorem State.zeroRange_fabric (s : State) (a n : Nat) : (s.zeroRange a n).fabric = s.fabric := rfl
@[simp] theorem State.zeroRange_quietSlot (s : State) (a n : Nat) : (s.zeroRange a n).quietSlot = s.quietSlot := rfl
@[simp] theorem State.zeroRange_bad (s : State) (a n : Nat) : (s.zeroRange a n).bad = s.bad := rfl
@[simp] theorem State.zeroRange_regions (s : State) (a n : Nat) : (s.zeroRange a n).regions = s.regions := rfl
@[simp] theorem State.zeroRange_force (s : State) (a n : Nat) : (s.zeroRange a n).force = s.force := rfl
@[simp] theorem State.zeroRange_dirty (s : State) (a n : Nat) : (s.zeroRange a n).dirty = s.dirty := rfl
@[simp] theorem State.zeroRange_ringWait (s : State) (a n : Nat) : (s.zeroRange a n).ringWait = s.ringWait := rfl
@[simp] theorem State.zeroRange_daybook (s : State) (a n : Nat) : (s.zeroRange a n).daybook = s.daybook := rfl
@[simp] theorem State.zeroRange_tally (s : State) (a n : Nat) : (s.zeroRange a n).tally = s.tally := rfl
@[simp] theorem State.zeroRange_out (s : State) (a n : Nat) : (s.zeroRange a n).out = s.out := rfl
@[simp] theorem State.zeroRange_image (s : State) (a n : Nat) : (s.zeroRange a n).image = s.image := rfl
@[simp] theorem State.zeroRange_bench (s : State) (a n : Nat) : (s.zeroRange a n).bench = s.bench := rfl
@[simp] theorem State.zeroRange_cores (s : State) (a n : Nat) : (s.zeroRange a n).cores = s.cores := rfl
@[simp] theorem State.zeroRange_free (s : State) (a n : Nat) : (s.zeroRange a n).free = s.free := rfl
@[simp] theorem State.zeroRange_stripes (s : State) (a n : Nat) : (s.zeroRange a n).stripes = s.stripes := rfl
@[simp] theorem State.zeroRange_scrub (s : State) (a n : Nat) : (s.zeroRange a n).scrub = s.scrub := rfl
@[simp] theorem State.zeroRange_ddr (s : State) (a n : Nat) : (s.zeroRange a n).ddr = s.ddr := rfl
@[simp] theorem State.zeroRange_serve (s : State) (a n : Nat) : (s.zeroRange a n).serve = s.serve := rfl
@[simp] theorem State.zeroRange_train (s : State) (a n : Nat) : (s.zeroRange a n).train = s.train := rfl
@[simp] theorem State.zeroRange_snap (s : State) (a n : Nat) : (s.zeroRange a n).snap = s.snap := rfl
@[simp] theorem State.zeroRange_dma (s : State) (a n : Nat) : (s.zeroRange a n).dma = s.dma := rfl
@[simp] theorem State.zeroRange_dmaTurn (s : State) (a n : Nat) : (s.zeroRange a n).dmaTurn = s.dmaTurn := rfl
@[simp] theorem State.zeroRange_ep (s : State) (a n : Nat) : (s.zeroRange a n).ep = s.ep := rfl
@[simp] theorem State.zeroRange_tags (s : State) (a n : Nat) : (s.zeroRange a n).tags = s.tags := rfl
@[simp] theorem State.zeroRange_quarantine (s : State) (a n : Nat) : (s.zeroRange a n).quarantine = s.quarantine := rfl
@[simp] theorem State.zeroRange_sliceCmd (s : State) (a n : Nat) : (s.zeroRange a n).sliceCmd = s.sliceCmd := rfl
@[simp] theorem State.zeroRange_slots (s : State) (a n : Nat) : (s.zeroRange a n).slots = s.slots := rfl
@[simp] theorem State.zeroRange_store (s : State) (a n : Nat) : (s.zeroRange a n).store = s.store := rfl
@[simp] theorem State.zeroRange_progs (s : State) (a n : Nat) : (s.zeroRange a n).progs = s.progs := rfl
@[simp] theorem State.zeroRange_pkt (s : State) (a n : Nat) : (s.zeroRange a n).pkt = s.pkt := rfl
@[simp] theorem State.zeroRange_net (s : State) (a n : Nat) : (s.zeroRange a n).net = s.net := rfl
@[simp] theorem State.zeroRange_cipher (s : State) (a n : Nat) : (s.zeroRange a n).cipher = s.cipher := rfl
@[simp] theorem State.zeroRange_power (s : State) (a n : Nat) : (s.zeroRange a n).power = s.power := rfl
@[simp] theorem State.zeroRange_boot (s : State) (a n : Nat) : (s.zeroRange a n).boot = s.boot := rfl
@[simp] theorem State.zeroRange_pair (s : State) (a n : Nat) : (s.zeroRange a n).pair = s.pair := rfl
@[simp] theorem State.zeroRange_isst (s : State) (a n : Nat) : (s.zeroRange a n).isst = s.isst := rfl
@[simp] theorem State.zeroRange_pins (s : State) (a n : Nat) : (s.zeroRange a n).pins = s.pins := rfl

@[simp] theorem State.setBucket_pending (s : State) (i : Nat) (b : Bucket) : (s.setBucket i b).pending = s.pending := rfl
@[simp] theorem State.setBucket_regs (s : State) (i : Nat) (b : Bucket) : (s.setBucket i b).regs = s.regs := rfl
@[simp] theorem State.setBucket_clock (s : State) (i : Nat) (b : Bucket) : (s.setBucket i b).clock = s.clock := rfl
@[simp] theorem State.setBucket_links (s : State) (i : Nat) (b : Bucket) : (s.setBucket i b).links = s.links := rfl
@[simp] theorem State.setBucket_fabric (s : State) (i : Nat) (b : Bucket) : (s.setBucket i b).fabric = s.fabric := rfl
@[simp] theorem State.setBucket_quietSlot (s : State) (i : Nat) (b : Bucket) : (s.setBucket i b).quietSlot = s.quietSlot := rfl
@[simp] theorem State.setBucket_mem (s : State) (i : Nat) (b : Bucket) : (s.setBucket i b).mem = s.mem := rfl
@[simp] theorem State.setBucket_bad (s : State) (i : Nat) (b : Bucket) : (s.setBucket i b).bad = s.bad := rfl
@[simp] theorem State.setBucket_regions (s : State) (i : Nat) (b : Bucket) : (s.setBucket i b).regions = s.regions := rfl
@[simp] theorem State.setBucket_force (s : State) (i : Nat) (b : Bucket) : (s.setBucket i b).force = s.force := rfl
@[simp] theorem State.setBucket_dirty (s : State) (i : Nat) (b : Bucket) : (s.setBucket i b).dirty = s.dirty := rfl
@[simp] theorem State.setBucket_ringWait (s : State) (i : Nat) (b : Bucket) : (s.setBucket i b).ringWait = s.ringWait := rfl
@[simp] theorem State.setBucket_tally (s : State) (i : Nat) (b : Bucket) : (s.setBucket i b).tally = s.tally := rfl
@[simp] theorem State.setBucket_out (s : State) (i : Nat) (b : Bucket) : (s.setBucket i b).out = s.out := rfl
@[simp] theorem State.setBucket_image (s : State) (i : Nat) (b : Bucket) : (s.setBucket i b).image = s.image := rfl
@[simp] theorem State.setBucket_bench (s : State) (i : Nat) (b : Bucket) : (s.setBucket i b).bench = s.bench := rfl
@[simp] theorem State.setBucket_cores (s : State) (i : Nat) (b : Bucket) : (s.setBucket i b).cores = s.cores := rfl
@[simp] theorem State.setBucket_free (s : State) (i : Nat) (b : Bucket) : (s.setBucket i b).free = s.free := rfl
@[simp] theorem State.setBucket_stripes (s : State) (i : Nat) (b : Bucket) : (s.setBucket i b).stripes = s.stripes := rfl
@[simp] theorem State.setBucket_scrub (s : State) (i : Nat) (b : Bucket) : (s.setBucket i b).scrub = s.scrub := rfl
@[simp] theorem State.setBucket_ddr (s : State) (i : Nat) (b : Bucket) : (s.setBucket i b).ddr = s.ddr := rfl
@[simp] theorem State.setBucket_serve (s : State) (i : Nat) (b : Bucket) : (s.setBucket i b).serve = s.serve := rfl
@[simp] theorem State.setBucket_train (s : State) (i : Nat) (b : Bucket) : (s.setBucket i b).train = s.train := rfl
@[simp] theorem State.setBucket_snap (s : State) (i : Nat) (b : Bucket) : (s.setBucket i b).snap = s.snap := rfl
@[simp] theorem State.setBucket_dma (s : State) (i : Nat) (b : Bucket) : (s.setBucket i b).dma = s.dma := rfl
@[simp] theorem State.setBucket_dmaTurn (s : State) (i : Nat) (b : Bucket) : (s.setBucket i b).dmaTurn = s.dmaTurn := rfl
@[simp] theorem State.setBucket_ep (s : State) (i : Nat) (b : Bucket) : (s.setBucket i b).ep = s.ep := rfl
@[simp] theorem State.setBucket_tags (s : State) (i : Nat) (b : Bucket) : (s.setBucket i b).tags = s.tags := rfl
@[simp] theorem State.setBucket_quarantine (s : State) (i : Nat) (b : Bucket) : (s.setBucket i b).quarantine = s.quarantine := rfl
@[simp] theorem State.setBucket_sliceCmd (s : State) (i : Nat) (b : Bucket) : (s.setBucket i b).sliceCmd = s.sliceCmd := rfl
@[simp] theorem State.setBucket_slots (s : State) (i : Nat) (b : Bucket) : (s.setBucket i b).slots = s.slots := rfl
@[simp] theorem State.setBucket_store (s : State) (i : Nat) (b : Bucket) : (s.setBucket i b).store = s.store := rfl
@[simp] theorem State.setBucket_progs (s : State) (i : Nat) (b : Bucket) : (s.setBucket i b).progs = s.progs := rfl
@[simp] theorem State.setBucket_pkt (s : State) (i : Nat) (b : Bucket) : (s.setBucket i b).pkt = s.pkt := rfl
@[simp] theorem State.setBucket_net (s : State) (i : Nat) (b : Bucket) : (s.setBucket i b).net = s.net := rfl
@[simp] theorem State.setBucket_cipher (s : State) (i : Nat) (b : Bucket) : (s.setBucket i b).cipher = s.cipher := rfl
@[simp] theorem State.setBucket_power (s : State) (i : Nat) (b : Bucket) : (s.setBucket i b).power = s.power := rfl
@[simp] theorem State.setBucket_boot (s : State) (i : Nat) (b : Bucket) : (s.setBucket i b).boot = s.boot := rfl
@[simp] theorem State.setBucket_pair (s : State) (i : Nat) (b : Bucket) : (s.setBucket i b).pair = s.pair := rfl
@[simp] theorem State.setBucket_isst (s : State) (i : Nat) (b : Bucket) : (s.setBucket i b).isst = s.isst := rfl
@[simp] theorem State.setBucket_pins (s : State) (i : Nat) (b : Bucket) : (s.setBucket i b).pins = s.pins := rfl

@[simp] theorem State.setPending_pending (s : State) (f v : Nat) : (s.setPending f v).pending = s.pending := State.setBit_pending ..
@[simp] theorem State.setPending_clock (s : State) (f v : Nat) : (s.setPending f v).clock = s.clock := State.setBit_clock ..
@[simp] theorem State.setPending_links (s : State) (f v : Nat) : (s.setPending f v).links = s.links := State.setBit_links ..
@[simp] theorem State.setPending_fabric (s : State) (f v : Nat) : (s.setPending f v).fabric = s.fabric := State.setBit_fabric ..
@[simp] theorem State.setPending_quietSlot (s : State) (f v : Nat) : (s.setPending f v).quietSlot = s.quietSlot := State.setBit_quietSlot ..
@[simp] theorem State.setPending_mem (s : State) (f v : Nat) : (s.setPending f v).mem = s.mem := State.setBit_mem ..
@[simp] theorem State.setPending_bad (s : State) (f v : Nat) : (s.setPending f v).bad = s.bad := State.setBit_bad ..
@[simp] theorem State.setPending_regions (s : State) (f v : Nat) : (s.setPending f v).regions = s.regions := State.setBit_regions ..
@[simp] theorem State.setPending_force (s : State) (f v : Nat) : (s.setPending f v).force = s.force := State.setBit_force ..
@[simp] theorem State.setPending_dirty (s : State) (f v : Nat) : (s.setPending f v).dirty = s.dirty := State.setBit_dirty ..
@[simp] theorem State.setPending_ringWait (s : State) (f v : Nat) : (s.setPending f v).ringWait = s.ringWait := State.setBit_ringWait ..
@[simp] theorem State.setPending_daybook (s : State) (f v : Nat) : (s.setPending f v).daybook = s.daybook := State.setBit_daybook ..
@[simp] theorem State.setPending_tally (s : State) (f v : Nat) : (s.setPending f v).tally = s.tally := State.setBit_tally ..
@[simp] theorem State.setPending_out (s : State) (f v : Nat) : (s.setPending f v).out = s.out := State.setBit_out ..
@[simp] theorem State.setPending_image (s : State) (f v : Nat) : (s.setPending f v).image = s.image := State.setBit_image ..
@[simp] theorem State.setPending_bench (s : State) (f v : Nat) : (s.setPending f v).bench = s.bench := State.setBit_bench ..
@[simp] theorem State.setPending_cores (s : State) (f v : Nat) : (s.setPending f v).cores = s.cores := State.setBit_cores ..
@[simp] theorem State.setPending_free (s : State) (f v : Nat) : (s.setPending f v).free = s.free := State.setBit_free ..
@[simp] theorem State.setPending_stripes (s : State) (f v : Nat) : (s.setPending f v).stripes = s.stripes := State.setBit_stripes ..
@[simp] theorem State.setPending_scrub (s : State) (f v : Nat) : (s.setPending f v).scrub = s.scrub := State.setBit_scrub ..
@[simp] theorem State.setPending_ddr (s : State) (f v : Nat) : (s.setPending f v).ddr = s.ddr := State.setBit_ddr ..
@[simp] theorem State.setPending_serve (s : State) (f v : Nat) : (s.setPending f v).serve = s.serve := State.setBit_serve ..
@[simp] theorem State.setPending_train (s : State) (f v : Nat) : (s.setPending f v).train = s.train := State.setBit_train ..
@[simp] theorem State.setPending_snap (s : State) (f v : Nat) : (s.setPending f v).snap = s.snap := State.setBit_snap ..
@[simp] theorem State.setPending_dma (s : State) (f v : Nat) : (s.setPending f v).dma = s.dma := State.setBit_dma ..
@[simp] theorem State.setPending_dmaTurn (s : State) (f v : Nat) : (s.setPending f v).dmaTurn = s.dmaTurn := State.setBit_dmaTurn ..
@[simp] theorem State.setPending_ep (s : State) (f v : Nat) : (s.setPending f v).ep = s.ep := State.setBit_ep ..
@[simp] theorem State.setPending_tags (s : State) (f v : Nat) : (s.setPending f v).tags = s.tags := State.setBit_tags ..
@[simp] theorem State.setPending_quarantine (s : State) (f v : Nat) : (s.setPending f v).quarantine = s.quarantine := State.setBit_quarantine ..
@[simp] theorem State.setPending_sliceCmd (s : State) (f v : Nat) : (s.setPending f v).sliceCmd = s.sliceCmd := State.setBit_sliceCmd ..
@[simp] theorem State.setPending_slots (s : State) (f v : Nat) : (s.setPending f v).slots = s.slots := State.setBit_slots ..
@[simp] theorem State.setPending_store (s : State) (f v : Nat) : (s.setPending f v).store = s.store := State.setBit_store ..
@[simp] theorem State.setPending_progs (s : State) (f v : Nat) : (s.setPending f v).progs = s.progs := State.setBit_progs ..
@[simp] theorem State.setPending_pkt (s : State) (f v : Nat) : (s.setPending f v).pkt = s.pkt := State.setBit_pkt ..
@[simp] theorem State.setPending_net (s : State) (f v : Nat) : (s.setPending f v).net = s.net := State.setBit_net ..
@[simp] theorem State.setPending_cipher (s : State) (f v : Nat) : (s.setPending f v).cipher = s.cipher := State.setBit_cipher ..
@[simp] theorem State.setPending_power (s : State) (f v : Nat) : (s.setPending f v).power = s.power := State.setBit_power ..
@[simp] theorem State.setPending_boot (s : State) (f v : Nat) : (s.setPending f v).boot = s.boot := State.setBit_boot ..
@[simp] theorem State.setPending_pair (s : State) (f v : Nat) : (s.setPending f v).pair = s.pair := State.setBit_pair ..
@[simp] theorem State.setPending_isst (s : State) (f v : Nat) : (s.setPending f v).isst = s.isst := State.setBit_isst ..
@[simp] theorem State.setPending_pins (s : State) (f v : Nat) : (s.setPending f v).pins = s.pins := State.setBit_pins ..

end Sys2Proof.Machine
end

