-- ==== Sys2Proof/Laws/Tab.lean ====
section
/-! SUPPORT. Laws of sparse tables: reading after writing, and that every operation keeps the canonical form. -/

namespace Sys2Proof.Machine

variable {α : Type}

theorem Tab.find?_insert (t : Tab α) (k j : Nat) (v : α) :
    Tab.find? (Tab.insert t k v) j = if j = k then some v else Tab.find? t j := by
  induction t with
  | nil => simp [Tab.insert, Tab.find?]
  | cons e t ih =>
    obtain ⟨a, b⟩ := e
    simp only [Tab.insert]
    split
    · simp [Tab.find?]
    · split
      · rename_i h1 h2
        subst h2
        by_cases h : j = k <;> simp [Tab.find?, h]
      · rename_i h1 h2
        simp only [Tab.find?, ih]
        by_cases hj : j = a
        · subst hj; simp [Ne.symm h2]
        · simp [hj]

theorem Tab.risingFrom_mono {b c : Nat} (h : b ≤ c) (t : Tab α) (ht : Tab.risingFrom c t = true) :
    Tab.risingFrom b t = true := by
  cases t with
  | nil => rfl
  | cons e t =>
    obtain ⟨k, v⟩ := e
    simp only [Tab.risingFrom, Bool.and_eq_true, decide_eq_true_eq] at ht ⊢
    exact ⟨by omega, ht.2⟩

theorem Tab.risingFrom_find? (t : Tab α) (b k : Nat) (h : Tab.risingFrom b t = true) (hk : k < b) :
    Tab.find? t k = none := by
  induction t generalizing b with
  | nil => rfl
  | cons e t ih =>
    obtain ⟨a, v⟩ := e
    simp only [Tab.risingFrom, Bool.and_eq_true, decide_eq_true_eq] at h
    have : k ≠ a := by omega
    simp only [Tab.find?, this, if_false]
    exact ih (a + 1) h.2 (by omega)

theorem Tab.find?_erase (t : Tab α) (k j : Nat) (h : Tab.rising t = true) :
    Tab.find? (Tab.erase t k) j = if j = k then none else Tab.find? t j := by
  have key : ∀ (t : Tab α) (b : Nat), Tab.risingFrom b t = true →
      Tab.find? (Tab.erase t k) j = if j = k then none else Tab.find? t j := by
    intro t
    induction t with
    | nil => intro b _; simp [Tab.erase, Tab.find?]
    | cons e t ih =>
      intro b h
      obtain ⟨a, v⟩ := e
      simp only [Tab.risingFrom, Bool.and_eq_true, decide_eq_true_eq] at h
      simp only [Tab.erase]
      by_cases ha : k = a
      · subst ha
        simp only [if_true]
        by_cases hj : j = k
        · subst hj; simp [Tab.risingFrom_find? t (j + 1) j h.2 (by omega)]
        · simp [hj, Tab.find?]
      · simp only [ha, if_false, Tab.find?, ih (a + 1) h.2]
        by_cases hj : j = a
        · subst hj; simp [Ne.symm ha]
        · simp [hj]
  exact key t 0 h

theorem Tab.risingFrom_insert (t : Tab α) (b k : Nat) (v : α) (h : Tab.risingFrom b t = true) (hk : b ≤ k) :
    Tab.risingFrom b (Tab.insert t k v) = true := by
  induction t generalizing b with
  | nil => simp [Tab.insert, Tab.risingFrom, hk]
  | cons e t ih =>
    obtain ⟨a, w⟩ := e
    simp only [Tab.risingFrom, Bool.and_eq_true, decide_eq_true_eq] at h
    simp only [Tab.insert]
    split
    · simp only [Tab.risingFrom, Bool.and_eq_true, decide_eq_true_eq]
      exact ⟨hk, by omega, h.2⟩
    · split
      · rename_i h1 h2
        subst h2
        simp only [Tab.risingFrom, Bool.and_eq_true, decide_eq_true_eq]
        exact ⟨hk, h.2⟩
      · simp only [Tab.risingFrom, Bool.and_eq_true, decide_eq_true_eq]
        exact ⟨h.1, ih (a + 1) h.2 (by omega)⟩

theorem Tab.rising_insert (t : Tab α) (k : Nat) (v : α) (h : Tab.rising t = true) :
    Tab.rising (Tab.insert t k v) = true := Tab.risingFrom_insert t 0 k v h (Nat.zero_le _)

theorem Tab.risingFrom_erase (t : Tab α) (b k : Nat) (h : Tab.risingFrom b t = true) :
    Tab.risingFrom b (Tab.erase t k) = true := by
  induction t generalizing b with
  | nil => simp [Tab.erase, Tab.risingFrom]
  | cons e t ih =>
    obtain ⟨a, w⟩ := e
    simp only [Tab.risingFrom, Bool.and_eq_true, decide_eq_true_eq] at h
    simp only [Tab.erase]
    split
    · exact Tab.risingFrom_mono (by omega) t h.2
    · simp only [Tab.risingFrom, Bool.and_eq_true, decide_eq_true_eq]
      exact ⟨h.1, ih (a + 1) h.2⟩

theorem Tab.rising_erase (t : Tab α) (k : Nat) (h : Tab.rising t = true) :
    Tab.rising (Tab.erase t k) = true := Tab.risingFrom_erase t 0 k h

theorem Tab.risingFrom_filter (t : Tab α) (b : Nat) (p : Nat × α → Bool) (h : Tab.risingFrom b t = true) :
    Tab.risingFrom b (t.filter p) = true := by
  induction t generalizing b with
  | nil => rfl
  | cons e t ih =>
    obtain ⟨a, w⟩ := e
    simp only [Tab.risingFrom, Bool.and_eq_true, decide_eq_true_eq] at h
    simp only [List.filter_cons]
    split
    · simp only [Tab.risingFrom, Bool.and_eq_true, decide_eq_true_eq]
      exact ⟨h.1, ih (a + 1) h.2⟩
    · exact Tab.risingFrom_mono (by omega) _ (ih (a + 1) h.2)

theorem Tab.rising_filter (t : Tab α) (p : Nat × α → Bool) (h : Tab.rising t = true) :
    Tab.rising (t.filter p) = true := Tab.risingFrom_filter t 0 p h

variable [DecidableEq α]

theorem Tab.noDefault_insert (d : α) (t : Tab α) (k : Nat) (v : α) (hv : v ≠ d) (h : Tab.noDefault d t = true) :
    Tab.noDefault d (Tab.insert t k v) = true := by
  induction t with
  | nil => simp [Tab.insert, Tab.noDefault, hv]
  | cons e t ih =>
    obtain ⟨a, w⟩ := e
    simp only [Tab.noDefault, List.all_cons, Bool.and_eq_true, decide_eq_true_eq] at h
    simp only [Tab.insert]
    split
    · simp only [Tab.noDefault, List.all_cons, Bool.and_eq_true, decide_eq_true_eq]
      exact ⟨hv, h.1, h.2⟩
    · split
      · simp only [Tab.noDefault, List.all_cons, Bool.and_eq_true, decide_eq_true_eq]
        exact ⟨hv, h.2⟩
      · simp only [Tab.noDefault, List.all_cons, Bool.and_eq_true, decide_eq_true_eq]
        exact ⟨h.1, ih h.2⟩

theorem Tab.noDefault_erase (d : α) (t : Tab α) (k : Nat) (h : Tab.noDefault d t = true) :
    Tab.noDefault d (Tab.erase t k) = true := by
  induction t with
  | nil => exact h
  | cons e t ih =>
    obtain ⟨a, w⟩ := e
    simp only [Tab.noDefault, List.all_cons, Bool.and_eq_true, decide_eq_true_eq] at h
    simp only [Tab.erase]
    split
    · exact h.2
    · simp only [Tab.noDefault, List.all_cons, Bool.and_eq_true, decide_eq_true_eq]
      exact ⟨h.1, ih h.2⟩

theorem Tab.noDefault_filter (d : α) (t : Tab α) (p : Nat × α → Bool) (h : Tab.noDefault d t = true) :
    Tab.noDefault d (t.filter p) = true := by
  simp only [Tab.noDefault, List.all_eq_true, List.mem_filter] at h ⊢
  exact fun x hx => h x hx.1

/-- Setting a key keeps the canonical form. -/
theorem Tab.wf_put (d : α) (t : Tab α) (k : Nat) (v : α) (h : Tab.wf d t = true) : Tab.wf d (Tab.put d t k v) = true := by
  simp only [Tab.wf, Bool.and_eq_true] at h ⊢
  simp only [Tab.put]
  split
  · exact ⟨Tab.rising_erase t k h.1, Tab.noDefault_erase d t k h.2⟩
  · rename_i hv
    exact ⟨Tab.rising_insert t k v h.1, Tab.noDefault_insert d t k v hv h.2⟩

/-- Erasing a key keeps the canonical form. -/
theorem Tab.wf_erase (d : α) (t : Tab α) (k : Nat) (h : Tab.wf d t = true) : Tab.wf d (Tab.erase t k) = true := by
  simp only [Tab.wf, Bool.and_eq_true] at h ⊢
  exact ⟨Tab.rising_erase t k h.1, Tab.noDefault_erase d t k h.2⟩

/-- Dropping entries keeps the canonical form. -/
theorem Tab.wf_filter (d : α) (t : Tab α) (p : Nat × α → Bool) (h : Tab.wf d t = true) : Tab.wf d (t.filter p) = true := by
  simp only [Tab.wf, Bool.and_eq_true] at h ⊢
  exact ⟨Tab.rising_filter t p h.1, Tab.noDefault_filter d t p h.2⟩

/-- Reading after setting a key. -/
theorem Tab.get_put (d : α) (t : Tab α) (k j : Nat) (v : α) (h : Tab.rising t = true) :
    Tab.get d (Tab.put d t k v) j = if j = k then v else Tab.get d t j := by
  simp only [Tab.get, Tab.put]
  by_cases hv : v = d
  · simp only [hv, if_true, Tab.find?_erase t k j h]
    by_cases hj : j = k <;> simp [hj]
  · simp only [hv, if_false, Tab.find?_insert]
    by_cases hj : j = k <;> simp [hj]

end Sys2Proof.Machine
end

