-- ==== Sys2Proof/Laws/Ops.lean ====
section
/-! SUPPORT. Laws of bit fields, registers, memory, the tally: what is read after a write, what a write leaves alone, and that the
canonical forms are kept. -/

namespace Sys2Proof.Machine

/-! ## Bit fields -/

/-- Bit i of a word's value is bit i of the word. -/
theorem testBit_toNat_word (w : Word) (i : Nat) : w.toNat.testBit i = w.getLsbD i := rfl

/-- Bit i of a field: bit lo + i of the word, below the field's width. -/
theorem testBit_getBits (w : Word) (hi lo i : Nat) :
    (getBits w (hi, lo)).testBit i = (decide (i < hi + 1 - lo) && w.getLsbD (lo + i)) := by
  simp only [getBits, Fld.width, Nat.testBit_mod_two_pow, testBit_toNat_word, BitVec.getLsbD_ushiftRight]

/-- Bit j of a word with a field set: the value's bit inside the field, the word's bit outside. -/
theorem getLsbD_setBits (w : Word) (hi lo v j : Nat) (hj : j < 64) :
    (setBits w (hi, lo) v).getLsbD j =
      if lo ≤ j ∧ j < lo + (hi + 1 - lo) then v.testBit (j - lo) else w.getLsbD j := by
  by_cases h1 : j < lo
  · simp only [setBits, fldMask, Fld.width, BitVec.getLsbD_or, BitVec.getLsbD_and, BitVec.getLsbD_not, BitVec.getLsbD_shiftLeft,
      hj, h1, if_neg (show ¬ (lo ≤ j ∧ j < lo + (hi + 1 - lo)) by omega)]
    simp
  · by_cases h2 : j - lo < hi + 1 - lo
    · have : lo ≤ j ∧ j < lo + (hi + 1 - lo) := by omega
      have h3 : j - lo < 64 := by omega
      simp only [setBits, fldMask, Fld.width, BitVec.getLsbD_or, BitVec.getLsbD_and, BitVec.getLsbD_not,
        BitVec.getLsbD_shiftLeft, BitVec.getLsbD_ofNat, Nat.testBit_two_pow_sub_one, Nat.testBit_mod_two_pow, hj, h1, h2, h3,
        if_pos this]
      simp
    · have : ¬ (lo ≤ j ∧ j < lo + (hi + 1 - lo)) := by omega
      simp only [setBits, fldMask, Fld.width, BitVec.getLsbD_or, BitVec.getLsbD_and, BitVec.getLsbD_not,
        BitVec.getLsbD_shiftLeft, BitVec.getLsbD_ofNat, Nat.testBit_two_pow_sub_one, Nat.testBit_mod_two_pow, hj, h1, h2,
        if_neg this]
      simp

/-- A field reads as it was set, modulo its width. -/
theorem getBits_setBits (w : Word) (hi lo v : Nat) (h : lo ≤ hi) (h64 : hi < 64) :
    getBits (setBits w (hi, lo) v) (hi, lo) = v % 2 ^ (hi + 1 - lo) := by
  apply Nat.eq_of_testBit_eq
  intro i
  rw [testBit_getBits, Nat.testBit_mod_two_pow]
  by_cases hi' : i < hi + 1 - lo
  · rw [getLsbD_setBits _ _ _ _ _ (by omega), if_pos (by omega), Nat.add_sub_cancel_left]
  · simp [hi']

/-- Setting a field leaves the bits of a disjoint field. -/
theorem getBits_setBits_disjoint (w : Word) (hi lo v hi' lo' : Nat) (h : lo ≤ hi) (h64 : hi' < 64)
    (hd : hi < lo' ∨ hi' < lo) : getBits (setBits w (hi, lo) v) (hi', lo') = getBits w (hi', lo') := by
  apply Nat.eq_of_testBit_eq
  intro i
  rw [testBit_getBits, testBit_getBits]
  by_cases hi2 : i < hi' + 1 - lo'
  · rw [getLsbD_setBits _ _ _ _ _ (by omega), if_neg (by omega)]
  · simp [hi2]

/-! ## Registers -/

/-- A register reads as it was set; every other register keeps its value. -/
theorem State.reg_setReg (s : State) (a b : Nat) (v : Word) (h : s.regsWf = true) :
    (s.setReg a v).reg b = if b = a then v else s.reg b := by
  simp only [State.regsWf, Bool.and_eq_true] at h
  unfold State.reg State.setReg
  simp only [Tab.put]
  by_cases hv : v = resetOf a
  · simp only [hv, if_true, Tab.find?_erase s.regs a b h.1]
    by_cases hb : b = a <;> simp [hb]
  · simp only [hv, if_false, Tab.find?_insert]
    by_cases hb : b = a <;> simp [hb]

/-- Setting a register keeps the canonical form. -/
theorem State.regsWf_setReg (s : State) (a : Nat) (v : Word) (h : s.regsWf = true) : (s.setReg a v).regsWf = true := by
  simp only [State.regsWf, Bool.and_eq_true, List.all_eq_true, decide_eq_true_eq] at h ⊢
  unfold State.setReg
  simp only [Tab.put]
  have mem_erase : ∀ (t : Tab Word) (e : Nat × Word), e ∈ Tab.erase t a → e ∈ t := by
    intro t
    induction t with
    | nil => intro e he; exact he
    | cons x t ih =>
      intro e he
      simp only [Tab.erase] at he
      split at he
      · exact List.mem_cons_of_mem _ he
      · rcases List.mem_cons.1 he with rfl | he
        · exact List.mem_cons_self
        · exact List.mem_cons_of_mem _ (ih e he)
  have mem_insert : ∀ (t : Tab Word) (e : Nat × Word), e ∈ Tab.insert t a v → e = (a, v) ∨ e ∈ t := by
    intro t
    induction t with
    | nil => intro e he; exact Or.inl (List.mem_singleton.1 he)
    | cons x t ih =>
      intro e he
      simp only [Tab.insert] at he
      split at he
      · rcases List.mem_cons.1 he with rfl | he
        · exact Or.inl rfl
        · exact Or.inr he
      · split at he
        · rcases List.mem_cons.1 he with rfl | he
          · exact Or.inl rfl
          · exact Or.inr (List.mem_cons_of_mem _ he)
        · rcases List.mem_cons.1 he with rfl | he
          · exact Or.inr List.mem_cons_self
          · rcases ih e he with h | h
            · exact Or.inl h
            · exact Or.inr (List.mem_cons_of_mem _ h)
  by_cases hv : v = resetOf a
  · simp only [hv, if_true]
    exact ⟨Tab.rising_erase _ _ h.1, fun e he => h.2 e (mem_erase _ e he)⟩
  · simp only [hv, if_false]
    refine ⟨Tab.rising_insert _ _ _ h.1, fun e he => ?_⟩
    rcases mem_insert _ e he with rfl | he
    · exact hv
    · exact h.2 e he

/-- Setting a field of a register keeps the canonical form. -/
theorem State.regsWf_setF (s : State) (a : Nat) (f : Fld) (v : Nat) (h : s.regsWf = true) : (s.setF a f v).regsWf = true :=
  s.regsWf_setReg a _ h

/-- A field of a register reads as it was set. -/
theorem State.getF_setF (s : State) (a hi lo v : Nat) (h : s.regsWf = true) (hl : lo ≤ hi) (h64 : hi < 64) :
    (s.setF a (hi, lo) v).getF a (hi, lo) = v % 2 ^ (hi + 1 - lo) := by
  unfold State.getF State.setF
  rw [s.reg_setReg a a _ h, if_pos rfl, getBits_setBits _ _ _ _ hl h64]

/-- Setting a field of a register leaves a disjoint field of it. -/
theorem State.getF_setF_disjoint (s : State) (a hi lo v hi' lo' : Nat) (h : s.regsWf = true) (hl : lo ≤ hi) (h64 : hi' < 64)
    (hd : hi < lo' ∨ hi' < lo) : (s.setF a (hi, lo) v).getF a (hi', lo') = s.getF a (hi', lo') := by
  unfold State.getF State.setF
  rw [s.reg_setReg a a _ h, if_pos rfl, getBits_setBits_disjoint _ _ _ _ _ _ hl h64 hd]

/-- Setting a field of a register leaves every other register. -/
theorem State.reg_setF_ne (s : State) (a b : Nat) (f : Fld) (v : Nat) (h : s.regsWf = true) (hb : b ≠ a) :
    (s.setF a f v).reg b = s.reg b := by
  unfold State.setF
  rw [s.reg_setReg a b _ h, if_neg hb]

/-! ## Memory -/

/-- Storing bytes keeps the canonical form. -/
theorem putCells_wf (m : List Host.Cell) (a : Nat) (l : List Byte) (h : Tab.wf 0 m = true) : Tab.wf 0 (putCells m a l) = true := by
  induction l generalizing m a with
  | nil => exact h
  | cons b l ih => exact ih _ _ (Tab.wf_put 0 m a b h)

/-- Reading a byte after storing bytes: the byte stored there, or the one before. -/
theorem putCells_get (m : List Host.Cell) (a j : Nat) (l : List Byte) (h : Tab.wf 0 m = true) :
    Tab.get 0 (putCells m a l) j = if a ≤ j ∧ j < a + l.length then l.getD (j - a) 0 else Tab.get 0 m j := by
  induction l generalizing m a with
  | nil =>
    have : ¬ (a ≤ j ∧ j < a + ([] : List Byte).length) := by simp only [List.length_nil]; omega
    rw [if_neg this]
    rfl
  | cons b l ih =>
    have hw := Tab.wf_put 0 m a b h
    have hr : Tab.rising m = true := by simp only [Tab.wf, Bool.and_eq_true] at h; exact h.1
    simp only [putCells]
    rw [ih _ _ hw, Tab.get_put 0 m a j b hr]
    simp only [List.length_cons]
    by_cases hj : j = a
    · subst hj
      rw [if_neg (by omega), if_pos rfl, if_pos (by omega)]
      simp
    · rw [if_neg hj]
      by_cases h2 : a + 1 ≤ j ∧ j < a + 1 + l.length
      · rw [if_pos h2, if_pos (by omega)]
        have : j - a = (j - (a + 1)) + 1 := by omega
        rw [this]
        rfl
      · rw [if_neg h2, if_neg (by omega)]

/-- Storing bytes keeps memory in its canonical form. -/
theorem State.memWf_putBytes (s : State) (a : Nat) (l : List Byte) (h : s.memWf = true) : (s.putBytes a l).memWf = true :=
  putCells_wf s.mem a l h

/-- Zeroing a range keeps memory in its canonical form. -/
theorem State.memWf_zeroRange (s : State) (a n : Nat) (h : s.memWf = true) : (s.zeroRange a n).memWf = true :=
  Tab.wf_filter 0 s.mem _ h

/-- A byte read after a store: the byte stored there, or the byte before. -/
theorem State.byteAt_putBytes (s : State) (a j : Nat) (l : List Byte) (h : s.memWf = true) :
    (s.putBytes a l).byteAt j = if a ≤ j ∧ j < a + l.length then l.getD (j - a) 0 else s.byteAt j :=
  putCells_get s.mem a j l h

/-- A byte read after zeroing a range. -/
theorem State.byteAt_zeroRange (s : State) (a n j : Nat) (h : s.memWf = true) :
    (s.zeroRange a n).byteAt j = if a ≤ j ∧ j < a + n then 0 else s.byteAt j := by
  have hr : Tab.rising s.mem = true := by simp only [State.memWf, Tab.wf, Bool.and_eq_true] at h; exact h.1
  have key : ∀ (t : List Host.Cell) (b : Nat), Tab.risingFrom b t = true →
      Tab.find? (t.filter fun c => decide (c.1 < a) || decide (a + n ≤ c.1)) j =
        if a ≤ j ∧ j < a + n then none else Tab.find? t j := by
    intro t
    induction t with
    | nil => intro b _; simp [Tab.find?]
    | cons e t ih =>
      intro b hb
      obtain ⟨k, v⟩ := e
      simp only [Tab.risingFrom, Bool.and_eq_true, decide_eq_true_eq] at hb
      simp only [List.filter_cons]
      split
      · rename_i hk
        simp only [Bool.or_eq_true, decide_eq_true_eq] at hk
        simp only [Tab.find?, ih (k + 1) hb.2]
        by_cases hj : j = k
        · subst hj
          rw [if_pos rfl, if_neg (by omega), if_pos rfl]
        · simp [hj]
      · rename_i hk
        simp only [Bool.or_eq_true, decide_eq_true_eq, not_or, Nat.not_lt, Nat.not_le] at hk
        rw [ih (k + 1) hb.2]
        by_cases hj : j = k
        · subst hj
          rw [if_pos (by omega), if_pos (by omega)]
        · simp [Tab.find?, hj]
  show (Tab.find? (s.mem.filter _) j).getD 0 = _
  rw [key s.mem 0 hr]
  split <;> rfl

/-! ## The tally -/

/-- Counting keeps the tally in its canonical form. -/
theorem State.tallyWf_count (s : State) (b i n k : Nat) (h : s.tallyWf = true) : (s.count b i n k).tallyWf = true :=
  Tab.wf_put 0 s.tally _ _ h

/-- A counter after counting: n more, modulo 2⁶⁴ (R479); every other counter is unchanged. -/
theorem State.tally_count (s : State) (b i n k j : Nat) (h : s.tallyWf = true) :
    Tab.get 0 (s.count b i n k).tally j =
      if j = tallyKey b i n then Tab.get 0 s.tally j + BitVec.ofNat 64 k else Tab.get 0 s.tally j := by
  have hr : Tab.rising s.tally = true := by simp only [State.tallyWf, Tab.wf, Bool.and_eq_true] at h; exact h.1
  show Tab.get 0 (Tab.put 0 s.tally (tallyKey b i n) _) j = _
  rw [Tab.get_put 0 s.tally _ j _ hr]
  by_cases hj : j = tallyKey b i n
  · subst hj; simp
  · simp [hj]

/-! ## Reset -/

/-- The state after reset has every canonical form, and no command waits. -/
theorem State.reset_inv : State.reset.Inv = true := by decide

end Sys2Proof.Machine
end

