-- ==== Sys2Proof/Laws/Frames.lean ====
section
/-! SUPPORT. What each shared operation can change: which fields of the state, which registers, counters and bytes it leaves. -/

namespace Sys2Proof.Machine

/-- The registers that a daybook entry moves. -/
def dbRegs : List Nat := [R.dbStatus, R.dbSeq, R.dbOverwrite]

/-- Setting a register changes registers only. -/
theorem State.setReg_shape (s : State) (a : Nat) (v : Word) : ∃ r, s.setReg a v = { s with regs := r } := by
  unfold State.setReg; exact ⟨_, rfl⟩

/-- Setting a field changes registers only. -/
theorem State.setF_shape (s : State) (a : Nat) (f : Fld) (v : Nat) : ∃ r, s.setF a f v = { s with regs := r } :=
  s.setReg_shape a _

/-- One entry changes the daybook and its registers only. -/
theorem State.dbWrite_shape (s : State) (e : DbEvent) : ∃ r d, s.dbWrite e = { s with regs := r, daybook := d } := by
  unfold State.dbWrite State.setF State.setReg
  dsimp only
  split <;> exact ⟨_, _, rfl⟩

/-- An entry after its source's suppressed ones changes the daybook and its registers only. -/
theorem State.dbWriteAfter_shape (s : State) (e : DbEvent) (b : Bucket) :
    ∃ r d, s.dbWriteAfter e b = { s with regs := r, daybook := d } := by
  unfold State.dbWriteAfter
  split
  · exact s.dbWrite_shape e
  · obtain ⟨r, d, h⟩ := s.dbWrite_shape
      { source := e.source, inst := e.inst, code := 0x00F0, detail := b.suppressed + b.firstCode % 256 * 2 ^ 32 }
    obtain ⟨r', d', h'⟩ := State.dbWrite_shape { s with regs := r, daybook := d } e
    exact ⟨r', d', by rw [h, h']⟩

/-- A recorded event changes the daybook and its registers only. -/
theorem State.record_shape (s : State) (e : DbEvent) : ∃ r d, s.record e = { s with regs := r, daybook := d } := by
  unfold State.record
  split
  · exact ⟨_, _, rfl⟩
  · dsimp only
    split
    · obtain ⟨r, d, h⟩ := s.dbWriteAfter_shape e (Tab.get Bucket.full s.daybook.buckets e.source)
      rw [h]; exact ⟨_, _, rfl⟩
    · split
      · exact ⟨_, _, rfl⟩
      · obtain ⟨r, d, h⟩ := s.dbWriteAfter_shape e (Tab.get Bucket.full s.daybook.buckets e.source)
        rw [h]; exact ⟨_, _, rfl⟩

/-- Taking a link out of L1 changes registers and the endpoints only. -/
theorem State.linkWake_shape (s : State) (fn : Nat) : ∃ r e, s.linkWake fn = { s with regs := r, ep := e } := by
  unfold State.linkWake State.setF State.setReg State.epSet
  dsimp only
  split <;> exact ⟨_, _, rfl⟩

/-- INTA following INTX_PEND changes the endpoints and the log of outputs only. -/
theorem State.intaSync_shape (s : State) : ∃ o e, s.intaSync = { s with out := o, ep := e } := by
  unfold State.intaSync State.epSet State.emit
  dsimp only
  split <;> exact ⟨_, _, rfl⟩

/-- Setting a bit of INTX_PEND changes registers, the endpoints and the log of outputs only. -/
theorem State.intxSet_shape (s : State) (b : Nat) : ∃ r o e, s.intxSet b = { s with regs := r, out := o, ep := e } := by
  obtain ⟨r, h⟩ := s.setF_shape (R.intxPend 0) (b, b) 1
  unfold State.intxSet State.setBit
  dsimp only
  rw [h]
  split
  · exact ⟨r, s.out, s.ep, rfl⟩
  · split
    · unfold State.epSet; exact ⟨r, s.out, _, rfl⟩
    · obtain ⟨o, e, h2⟩ := State.intaSync_shape { s with regs := r }
      exact ⟨r, o, e, by rw [h2]⟩

/-- Raising a vector changes registers, the endpoints and the log of outputs only. -/
theorem State.raise_shape (s : State) (fn v : Nat) : ∃ r o e, s.raise fn v = { s with regs := r, out := o, ep := e } := by
  have hp : ∃ r, s.setPending fn v = { s with regs := r } := by
    unfold State.setPending State.setBit; exact s.setF_shape _ _ _
  unfold State.raise
  dsimp only
  split
  · split
    · obtain ⟨r, e, h⟩ := s.linkWake_shape fn
      rw [h]; unfold State.emit; exact ⟨_, _, _, rfl⟩
    · obtain ⟨r, h⟩ := hp; exact ⟨r, s.out, s.ep, by rw [h]⟩
  · split
    · exact s.intxSet_shape _
    · obtain ⟨r, h⟩ := hp; exact ⟨r, s.out, s.ep, by rw [h]⟩

/-- Sending a message for each element of a list puts the messages into the log, and changes nothing else. -/
theorem State.emitAll_shape {α : Type} (f : α → Out) (l : List α) (s : State) :
    l.foldl (fun s p => s.emit (f p)) s = { s with out := (l.map f).reverse ++ s.out } := by
  induction l generalizing s with
  | nil => rfl
  | cons p l ih => rw [List.foldl_cons, ih, List.map_cons, List.reverse_cons, List.append_assoc]; rfl

/-- Write requests change registers, the endpoints and the log of outputs only. -/
theorem State.emitWrites_shape (s : State) (fn : Nat) (pasid : Option Nat) (a : Nat) (l : List Byte) :
    ∃ r o e, s.emitWrites fn pasid a l = { s with regs := r, out := o, ep := e } := by
  unfold State.emitWrites
  dsimp only
  obtain ⟨r, e, h⟩ := s.linkWake_shape fn
  rw [h]
  exact ⟨r, _, e, State.emitAll_shape _ _ _⟩

/-- A write to host memory changes the log of outputs, the endpoints, the dirty pages, registers and the tally only. -/
theorem State.hostWrite_shape (s : State) (n a : Nat) (l : List Byte) :
    ∃ r o e d t, s.hostWrite n a l = { s with regs := r, out := o, ep := e, dirty := d, tally := t } := by
  unfold State.hostWrite
  obtain ⟨r, o, e, h⟩ := s.emitWrites_shape (s.sliceFn n) (s.slicePasid n) a l
  rw [h]
  unfold State.logPages
  split
  · dsimp only
    split
    · unfold State.setF State.setReg; exact ⟨_, _, _, _, _, rfl⟩
    · exact ⟨_, _, _, _, _, rfl⟩
  · exact ⟨_, _, _, _, _, rfl⟩

/-! ## The fields record leaves -/

@[simp] theorem State.record_pending (s : State) (e : DbEvent) : (s.record e).pending = s.pending := by
  obtain ⟨_, _, h⟩ := s.record_shape e; rw [h]
@[simp] theorem State.record_clock (s : State) (e : DbEvent) : (s.record e).clock = s.clock := by
  obtain ⟨_, _, h⟩ := s.record_shape e; rw [h]
@[simp] theorem State.record_links (s : State) (e : DbEvent) : (s.record e).links = s.links := by
  obtain ⟨_, _, h⟩ := s.record_shape e; rw [h]
@[simp] theorem State.record_fabric (s : State) (e : DbEvent) : (s.record e).fabric = s.fabric := by
  obtain ⟨_, _, h⟩ := s.record_shape e; rw [h]
@[simp] theorem State.record_quietSlot (s : State) (e : DbEvent) : (s.record e).quietSlot = s.quietSlot := by
  obtain ⟨_, _, h⟩ := s.record_shape e; rw [h]
@[simp] theorem State.record_mem (s : State) (e : DbEvent) : (s.record e).mem = s.mem := by
  obtain ⟨_, _, h⟩ := s.record_shape e; rw [h]
@[simp] theorem State.record_bad (s : State) (e : DbEvent) : (s.record e).bad = s.bad := by
  obtain ⟨_, _, h⟩ := s.record_shape e; rw [h]
@[simp] theorem State.record_regions (s : State) (e : DbEvent) : (s.record e).regions = s.regions := by
  obtain ⟨_, _, h⟩ := s.record_shape e; rw [h]
@[simp] theorem State.record_force (s : State) (e : DbEvent) : (s.record e).force = s.force := by
  obtain ⟨_, _, h⟩ := s.record_shape e; rw [h]
@[simp] theorem State.record_dirty (s : State) (e : DbEvent) : (s.record e).dirty = s.dirty := by
  obtain ⟨_, _, h⟩ := s.record_shape e; rw [h]
@[simp] theorem State.record_ringWait (s : State) (e : DbEvent) : (s.record e).ringWait = s.ringWait := by
  obtain ⟨_, _, h⟩ := s.record_shape e; rw [h]
@[simp] theorem State.record_tally (s : State) (e : DbEvent) : (s.record e).tally = s.tally := by
  obtain ⟨_, _, h⟩ := s.record_shape e; rw [h]
@[simp] theorem State.record_out (s : State) (e : DbEvent) : (s.record e).out = s.out := by
  obtain ⟨_, _, h⟩ := s.record_shape e; rw [h]
@[simp] theorem State.record_image (s : State) (e : DbEvent) : (s.record e).image = s.image := by
  obtain ⟨_, _, h⟩ := s.record_shape e; rw [h]
@[simp] theorem State.record_bench (s : State) (e : DbEvent) : (s.record e).bench = s.bench := by
  obtain ⟨_, _, h⟩ := s.record_shape e; rw [h]
@[simp] theorem State.record_cores (s : State) (e : DbEvent) : (s.record e).cores = s.cores := by
  obtain ⟨_, _, h⟩ := s.record_shape e; rw [h]
@[simp] theorem State.record_free (s : State) (e : DbEvent) : (s.record e).free = s.free := by
  obtain ⟨_, _, h⟩ := s.record_shape e; rw [h]
@[simp] theorem State.record_stored (s : State) (e : DbEvent) : (s.record e).stored = s.stored := by
  obtain ⟨_, _, h⟩ := s.record_shape e; rw [h]
@[simp] theorem State.record_stripes (s : State) (e : DbEvent) : (s.record e).stripes = s.stripes := by
  obtain ⟨_, _, h⟩ := s.record_shape e; rw [h]
@[simp] theorem State.record_scrub (s : State) (e : DbEvent) : (s.record e).scrub = s.scrub := by
  obtain ⟨_, _, h⟩ := s.record_shape e; rw [h]
@[simp] theorem State.record_ddr (s : State) (e : DbEvent) : (s.record e).ddr = s.ddr := by
  obtain ⟨_, _, h⟩ := s.record_shape e; rw [h]
@[simp] theorem State.record_flawed (s : State) (e : DbEvent) : (s.record e).flawed = s.flawed := by
  obtain ⟨_, _, h⟩ := s.record_shape e; rw [h]
@[simp] theorem State.record_serve (s : State) (e : DbEvent) : (s.record e).serve = s.serve := by
  obtain ⟨_, _, h⟩ := s.record_shape e; rw [h]
@[simp] theorem State.record_train (s : State) (e : DbEvent) : (s.record e).train = s.train := by
  obtain ⟨_, _, h⟩ := s.record_shape e; rw [h]
@[simp] theorem State.record_snap (s : State) (e : DbEvent) : (s.record e).snap = s.snap := by
  obtain ⟨_, _, h⟩ := s.record_shape e; rw [h]
@[simp] theorem State.record_dma (s : State) (e : DbEvent) : (s.record e).dma = s.dma := by
  obtain ⟨_, _, h⟩ := s.record_shape e; rw [h]
@[simp] theorem State.record_dmaTurn (s : State) (e : DbEvent) : (s.record e).dmaTurn = s.dmaTurn := by
  obtain ⟨_, _, h⟩ := s.record_shape e; rw [h]
@[simp] theorem State.record_ep (s : State) (e : DbEvent) : (s.record e).ep = s.ep := by
  obtain ⟨_, _, h⟩ := s.record_shape e; rw [h]
@[simp] theorem State.record_tags (s : State) (e : DbEvent) : (s.record e).tags = s.tags := by
  obtain ⟨_, _, h⟩ := s.record_shape e; rw [h]
@[simp] theorem State.record_quarantine (s : State) (e : DbEvent) : (s.record e).quarantine = s.quarantine := by
  obtain ⟨_, _, h⟩ := s.record_shape e; rw [h]
@[simp] theorem State.record_sliceCmd (s : State) (e : DbEvent) : (s.record e).sliceCmd = s.sliceCmd := by
  obtain ⟨_, _, h⟩ := s.record_shape e; rw [h]
@[simp] theorem State.record_slots (s : State) (e : DbEvent) : (s.record e).slots = s.slots := by
  obtain ⟨_, _, h⟩ := s.record_shape e; rw [h]
@[simp] theorem State.record_store (s : State) (e : DbEvent) : (s.record e).store = s.store := by
  obtain ⟨_, _, h⟩ := s.record_shape e; rw [h]
@[simp] theorem State.record_progs (s : State) (e : DbEvent) : (s.record e).progs = s.progs := by
  obtain ⟨_, _, h⟩ := s.record_shape e; rw [h]
@[simp] theorem State.record_pkt (s : State) (e : DbEvent) : (s.record e).pkt = s.pkt := by
  obtain ⟨_, _, h⟩ := s.record_shape e; rw [h]
@[simp] theorem State.record_net (s : State) (e : DbEvent) : (s.record e).net = s.net := by
  obtain ⟨_, _, h⟩ := s.record_shape e; rw [h]
@[simp] theorem State.record_cipher (s : State) (e : DbEvent) : (s.record e).cipher = s.cipher := by
  obtain ⟨_, _, h⟩ := s.record_shape e; rw [h]
@[simp] theorem State.record_power (s : State) (e : DbEvent) : (s.record e).power = s.power := by
  obtain ⟨_, _, h⟩ := s.record_shape e; rw [h]
@[simp] theorem State.record_boot (s : State) (e : DbEvent) : (s.record e).boot = s.boot := by
  obtain ⟨_, _, h⟩ := s.record_shape e; rw [h]
@[simp] theorem State.record_pair (s : State) (e : DbEvent) : (s.record e).pair = s.pair := by
  obtain ⟨_, _, h⟩ := s.record_shape e; rw [h]
@[simp] theorem State.record_isst (s : State) (e : DbEvent) : (s.record e).isst = s.isst := by
  obtain ⟨_, _, h⟩ := s.record_shape e; rw [h]
@[simp] theorem State.record_pins (s : State) (e : DbEvent) : (s.record e).pins = s.pins := by
  obtain ⟨_, _, h⟩ := s.record_shape e; rw [h]

/-! ## The fields raise leaves -/

@[simp] theorem State.raise_pending (s : State) (fn v : Nat) : (s.raise fn v).pending = s.pending := by
  obtain ⟨_, _, _, h⟩ := s.raise_shape fn v; rw [h]
@[simp] theorem State.raise_clock (s : State) (fn v : Nat) : (s.raise fn v).clock = s.clock := by
  obtain ⟨_, _, _, h⟩ := s.raise_shape fn v; rw [h]
@[simp] theorem State.raise_links (s : State) (fn v : Nat) : (s.raise fn v).links = s.links := by
  obtain ⟨_, _, _, h⟩ := s.raise_shape fn v; rw [h]
@[simp] theorem State.raise_fabric (s : State) (fn v : Nat) : (s.raise fn v).fabric = s.fabric := by
  obtain ⟨_, _, _, h⟩ := s.raise_shape fn v; rw [h]
@[simp] theorem State.raise_quietSlot (s : State) (fn v : Nat) : (s.raise fn v).quietSlot = s.quietSlot := by
  obtain ⟨_, _, _, h⟩ := s.raise_shape fn v; rw [h]
@[simp] theorem State.raise_mem (s : State) (fn v : Nat) : (s.raise fn v).mem = s.mem := by
  obtain ⟨_, _, _, h⟩ := s.raise_shape fn v; rw [h]
@[simp] theorem State.raise_bad (s : State) (fn v : Nat) : (s.raise fn v).bad = s.bad := by
  obtain ⟨_, _, _, h⟩ := s.raise_shape fn v; rw [h]
@[simp] theorem State.raise_regions (s : State) (fn v : Nat) : (s.raise fn v).regions = s.regions := by
  obtain ⟨_, _, _, h⟩ := s.raise_shape fn v; rw [h]
@[simp] theorem State.raise_force (s : State) (fn v : Nat) : (s.raise fn v).force = s.force := by
  obtain ⟨_, _, _, h⟩ := s.raise_shape fn v; rw [h]
@[simp] theorem State.raise_dirty (s : State) (fn v : Nat) : (s.raise fn v).dirty = s.dirty := by
  obtain ⟨_, _, _, h⟩ := s.raise_shape fn v; rw [h]
@[simp] theorem State.raise_ringWait (s : State) (fn v : Nat) : (s.raise fn v).ringWait = s.ringWait := by
  obtain ⟨_, _, _, h⟩ := s.raise_shape fn v; rw [h]
@[simp] theorem State.raise_daybook (s : State) (fn v : Nat) : (s.raise fn v).daybook = s.daybook := by
  obtain ⟨_, _, _, h⟩ := s.raise_shape fn v; rw [h]
@[simp] theorem State.raise_tally (s : State) (fn v : Nat) : (s.raise fn v).tally = s.tally := by
  obtain ⟨_, _, _, h⟩ := s.raise_shape fn v; rw [h]
@[simp] theorem State.raise_image (s : State) (fn v : Nat) : (s.raise fn v).image = s.image := by
  obtain ⟨_, _, _, h⟩ := s.raise_shape fn v; rw [h]
@[simp] theorem State.raise_bench (s : State) (fn v : Nat) : (s.raise fn v).bench = s.bench := by
  obtain ⟨_, _, _, h⟩ := s.raise_shape fn v; rw [h]
@[simp] theorem State.raise_cores (s : State) (fn v : Nat) : (s.raise fn v).cores = s.cores := by
  obtain ⟨_, _, _, h⟩ := s.raise_shape fn v; rw [h]
@[simp] theorem State.raise_free (s : State) (fn v : Nat) : (s.raise fn v).free = s.free := by
  obtain ⟨_, _, _, h⟩ := s.raise_shape fn v; rw [h]
@[simp] theorem State.raise_stored (s : State) (fn v : Nat) : (s.raise fn v).stored = s.stored := by
  obtain ⟨_, _, _, h⟩ := s.raise_shape fn v; rw [h]
@[simp] theorem State.raise_stripes (s : State) (fn v : Nat) : (s.raise fn v).stripes = s.stripes := by
  obtain ⟨_, _, _, h⟩ := s.raise_shape fn v; rw [h]
@[simp] theorem State.raise_scrub (s : State) (fn v : Nat) : (s.raise fn v).scrub = s.scrub := by
  obtain ⟨_, _, _, h⟩ := s.raise_shape fn v; rw [h]
@[simp] theorem State.raise_ddr (s : State) (fn v : Nat) : (s.raise fn v).ddr = s.ddr := by
  obtain ⟨_, _, _, h⟩ := s.raise_shape fn v; rw [h]
@[simp] theorem State.raise_flawed (s : State) (fn v : Nat) : (s.raise fn v).flawed = s.flawed := by
  obtain ⟨_, _, _, h⟩ := s.raise_shape fn v; rw [h]
@[simp] theorem State.raise_serve (s : State) (fn v : Nat) : (s.raise fn v).serve = s.serve := by
  obtain ⟨_, _, _, h⟩ := s.raise_shape fn v; rw [h]
@[simp] theorem State.raise_train (s : State) (fn v : Nat) : (s.raise fn v).train = s.train := by
  obtain ⟨_, _, _, h⟩ := s.raise_shape fn v; rw [h]
@[simp] theorem State.raise_snap (s : State) (fn v : Nat) : (s.raise fn v).snap = s.snap := by
  obtain ⟨_, _, _, h⟩ := s.raise_shape fn v; rw [h]
@[simp] theorem State.raise_dma (s : State) (fn v : Nat) : (s.raise fn v).dma = s.dma := by
  obtain ⟨_, _, _, h⟩ := s.raise_shape fn v; rw [h]
@[simp] theorem State.raise_dmaTurn (s : State) (fn v : Nat) : (s.raise fn v).dmaTurn = s.dmaTurn := by
  obtain ⟨_, _, _, h⟩ := s.raise_shape fn v; rw [h]
@[simp] theorem State.raise_tags (s : State) (fn v : Nat) : (s.raise fn v).tags = s.tags := by
  obtain ⟨_, _, _, h⟩ := s.raise_shape fn v; rw [h]
@[simp] theorem State.raise_quarantine (s : State) (fn v : Nat) : (s.raise fn v).quarantine = s.quarantine := by
  obtain ⟨_, _, _, h⟩ := s.raise_shape fn v; rw [h]
@[simp] theorem State.raise_sliceCmd (s : State) (fn v : Nat) : (s.raise fn v).sliceCmd = s.sliceCmd := by
  obtain ⟨_, _, _, h⟩ := s.raise_shape fn v; rw [h]
@[simp] theorem State.raise_slots (s : State) (fn v : Nat) : (s.raise fn v).slots = s.slots := by
  obtain ⟨_, _, _, h⟩ := s.raise_shape fn v; rw [h]
@[simp] theorem State.raise_store (s : State) (fn v : Nat) : (s.raise fn v).store = s.store := by
  obtain ⟨_, _, _, h⟩ := s.raise_shape fn v; rw [h]
@[simp] theorem State.raise_progs (s : State) (fn v : Nat) : (s.raise fn v).progs = s.progs := by
  obtain ⟨_, _, _, h⟩ := s.raise_shape fn v; rw [h]
@[simp] theorem State.raise_pkt (s : State) (fn v : Nat) : (s.raise fn v).pkt = s.pkt := by
  obtain ⟨_, _, _, h⟩ := s.raise_shape fn v; rw [h]
@[simp] theorem State.raise_net (s : State) (fn v : Nat) : (s.raise fn v).net = s.net := by
  obtain ⟨_, _, _, h⟩ := s.raise_shape fn v; rw [h]
@[simp] theorem State.raise_cipher (s : State) (fn v : Nat) : (s.raise fn v).cipher = s.cipher := by
  obtain ⟨_, _, _, h⟩ := s.raise_shape fn v; rw [h]
@[simp] theorem State.raise_power (s : State) (fn v : Nat) : (s.raise fn v).power = s.power := by
  obtain ⟨_, _, _, h⟩ := s.raise_shape fn v; rw [h]
@[simp] theorem State.raise_boot (s : State) (fn v : Nat) : (s.raise fn v).boot = s.boot := by
  obtain ⟨_, _, _, h⟩ := s.raise_shape fn v; rw [h]
@[simp] theorem State.raise_pair (s : State) (fn v : Nat) : (s.raise fn v).pair = s.pair := by
  obtain ⟨_, _, _, h⟩ := s.raise_shape fn v; rw [h]
@[simp] theorem State.raise_isst (s : State) (fn v : Nat) : (s.raise fn v).isst = s.isst := by
  obtain ⟨_, _, _, h⟩ := s.raise_shape fn v; rw [h]
@[simp] theorem State.raise_pins (s : State) (fn v : Nat) : (s.raise fn v).pins = s.pins := by
  obtain ⟨_, _, _, h⟩ := s.raise_shape fn v; rw [h]

/-! ## The fields hostWrite leaves -/

@[simp] theorem State.hostWrite_pending (s : State) (n a : Nat) (l : List Byte) : (s.hostWrite n a l).pending = s.pending := by
  obtain ⟨_, _, _, _, _, h⟩ := s.hostWrite_shape n a l; rw [h]
@[simp] theorem State.hostWrite_clock (s : State) (n a : Nat) (l : List Byte) : (s.hostWrite n a l).clock = s.clock := by
  obtain ⟨_, _, _, _, _, h⟩ := s.hostWrite_shape n a l; rw [h]
@[simp] theorem State.hostWrite_links (s : State) (n a : Nat) (l : List Byte) : (s.hostWrite n a l).links = s.links := by
  obtain ⟨_, _, _, _, _, h⟩ := s.hostWrite_shape n a l; rw [h]
@[simp] theorem State.hostWrite_fabric (s : State) (n a : Nat) (l : List Byte) : (s.hostWrite n a l).fabric = s.fabric := by
  obtain ⟨_, _, _, _, _, h⟩ := s.hostWrite_shape n a l; rw [h]
@[simp] theorem State.hostWrite_quietSlot (s : State) (n a : Nat) (l : List Byte) : (s.hostWrite n a l).quietSlot = s.quietSlot := by
  obtain ⟨_, _, _, _, _, h⟩ := s.hostWrite_shape n a l; rw [h]
@[simp] theorem State.hostWrite_mem (s : State) (n a : Nat) (l : List Byte) : (s.hostWrite n a l).mem = s.mem := by
  obtain ⟨_, _, _, _, _, h⟩ := s.hostWrite_shape n a l; rw [h]
@[simp] theorem State.hostWrite_bad (s : State) (n a : Nat) (l : List Byte) : (s.hostWrite n a l).bad = s.bad := by
  obtain ⟨_, _, _, _, _, h⟩ := s.hostWrite_shape n a l; rw [h]
@[simp] theorem State.hostWrite_regions (s : State) (n a : Nat) (l : List Byte) : (s.hostWrite n a l).regions = s.regions := by
  obtain ⟨_, _, _, _, _, h⟩ := s.hostWrite_shape n a l; rw [h]
@[simp] theorem State.hostWrite_force (s : State) (n a : Nat) (l : List Byte) : (s.hostWrite n a l).force = s.force := by
  obtain ⟨_, _, _, _, _, h⟩ := s.hostWrite_shape n a l; rw [h]
@[simp] theorem State.hostWrite_ringWait (s : State) (n a : Nat) (l : List Byte) : (s.hostWrite n a l).ringWait = s.ringWait := by
  obtain ⟨_, _, _, _, _, h⟩ := s.hostWrite_shape n a l; rw [h]
@[simp] theorem State.hostWrite_daybook (s : State) (n a : Nat) (l : List Byte) : (s.hostWrite n a l).daybook = s.daybook := by
  obtain ⟨_, _, _, _, _, h⟩ := s.hostWrite_shape n a l; rw [h]
@[simp] theorem State.hostWrite_image (s : State) (n a : Nat) (l : List Byte) : (s.hostWrite n a l).image = s.image := by
  obtain ⟨_, _, _, _, _, h⟩ := s.hostWrite_shape n a l; rw [h]
@[simp] theorem State.hostWrite_bench (s : State) (n a : Nat) (l : List Byte) : (s.hostWrite n a l).bench = s.bench := by
  obtain ⟨_, _, _, _, _, h⟩ := s.hostWrite_shape n a l; rw [h]
@[simp] theorem State.hostWrite_cores (s : State) (n a : Nat) (l : List Byte) : (s.hostWrite n a l).cores = s.cores := by
  obtain ⟨_, _, _, _, _, h⟩ := s.hostWrite_shape n a l; rw [h]
@[simp] theorem State.hostWrite_free (s : State) (n a : Nat) (l : List Byte) : (s.hostWrite n a l).free = s.free := by
  obtain ⟨_, _, _, _, _, h⟩ := s.hostWrite_shape n a l; rw [h]
@[simp] theorem State.hostWrite_stored (s : State) (n a : Nat) (l : List Byte) : (s.hostWrite n a l).stored = s.stored := by
  obtain ⟨_, _, _, _, _, h⟩ := s.hostWrite_shape n a l; rw [h]
@[simp] theorem State.hostWrite_stripes (s : State) (n a : Nat) (l : List Byte) : (s.hostWrite n a l).stripes = s.stripes := by
  obtain ⟨_, _, _, _, _, h⟩ := s.hostWrite_shape n a l; rw [h]
@[simp] theorem State.hostWrite_scrub (s : State) (n a : Nat) (l : List Byte) : (s.hostWrite n a l).scrub = s.scrub := by
  obtain ⟨_, _, _, _, _, h⟩ := s.hostWrite_shape n a l; rw [h]
@[simp] theorem State.hostWrite_ddr (s : State) (n a : Nat) (l : List Byte) : (s.hostWrite n a l).ddr = s.ddr := by
  obtain ⟨_, _, _, _, _, h⟩ := s.hostWrite_shape n a l; rw [h]
@[simp] theorem State.hostWrite_flawed (s : State) (n a : Nat) (l : List Byte) : (s.hostWrite n a l).flawed = s.flawed := by
  obtain ⟨_, _, _, _, _, h⟩ := s.hostWrite_shape n a l; rw [h]
@[simp] theorem State.hostWrite_serve (s : State) (n a : Nat) (l : List Byte) : (s.hostWrite n a l).serve = s.serve := by
  obtain ⟨_, _, _, _, _, h⟩ := s.hostWrite_shape n a l; rw [h]
@[simp] theorem State.hostWrite_train (s : State) (n a : Nat) (l : List Byte) : (s.hostWrite n a l).train = s.train := by
  obtain ⟨_, _, _, _, _, h⟩ := s.hostWrite_shape n a l; rw [h]
@[simp] theorem State.hostWrite_snap (s : State) (n a : Nat) (l : List Byte) : (s.hostWrite n a l).snap = s.snap := by
  obtain ⟨_, _, _, _, _, h⟩ := s.hostWrite_shape n a l; rw [h]
@[simp] theorem State.hostWrite_dma (s : State) (n a : Nat) (l : List Byte) : (s.hostWrite n a l).dma = s.dma := by
  obtain ⟨_, _, _, _, _, h⟩ := s.hostWrite_shape n a l; rw [h]
@[simp] theorem State.hostWrite_dmaTurn (s : State) (n a : Nat) (l : List Byte) : (s.hostWrite n a l).dmaTurn = s.dmaTurn := by
  obtain ⟨_, _, _, _, _, h⟩ := s.hostWrite_shape n a l; rw [h]
@[simp] theorem State.hostWrite_tags (s : State) (n a : Nat) (l : List Byte) : (s.hostWrite n a l).tags = s.tags := by
  obtain ⟨_, _, _, _, _, h⟩ := s.hostWrite_shape n a l; rw [h]
@[simp] theorem State.hostWrite_quarantine (s : State) (n a : Nat) (l : List Byte) : (s.hostWrite n a l).quarantine = s.quarantine := by
  obtain ⟨_, _, _, _, _, h⟩ := s.hostWrite_shape n a l; rw [h]
@[simp] theorem State.hostWrite_sliceCmd (s : State) (n a : Nat) (l : List Byte) : (s.hostWrite n a l).sliceCmd = s.sliceCmd := by
  obtain ⟨_, _, _, _, _, h⟩ := s.hostWrite_shape n a l; rw [h]
@[simp] theorem State.hostWrite_slots (s : State) (n a : Nat) (l : List Byte) : (s.hostWrite n a l).slots = s.slots := by
  obtain ⟨_, _, _, _, _, h⟩ := s.hostWrite_shape n a l; rw [h]
@[simp] theorem State.hostWrite_store (s : State) (n a : Nat) (l : List Byte) : (s.hostWrite n a l).store = s.store := by
  obtain ⟨_, _, _, _, _, h⟩ := s.hostWrite_shape n a l; rw [h]
@[simp] theorem State.hostWrite_progs (s : State) (n a : Nat) (l : List Byte) : (s.hostWrite n a l).progs = s.progs := by
  obtain ⟨_, _, _, _, _, h⟩ := s.hostWrite_shape n a l; rw [h]
@[simp] theorem State.hostWrite_pkt (s : State) (n a : Nat) (l : List Byte) : (s.hostWrite n a l).pkt = s.pkt := by
  obtain ⟨_, _, _, _, _, h⟩ := s.hostWrite_shape n a l; rw [h]
@[simp] theorem State.hostWrite_net (s : State) (n a : Nat) (l : List Byte) : (s.hostWrite n a l).net = s.net := by
  obtain ⟨_, _, _, _, _, h⟩ := s.hostWrite_shape n a l; rw [h]
@[simp] theorem State.hostWrite_cipher (s : State) (n a : Nat) (l : List Byte) : (s.hostWrite n a l).cipher = s.cipher := by
  obtain ⟨_, _, _, _, _, h⟩ := s.hostWrite_shape n a l; rw [h]
@[simp] theorem State.hostWrite_power (s : State) (n a : Nat) (l : List Byte) : (s.hostWrite n a l).power = s.power := by
  obtain ⟨_, _, _, _, _, h⟩ := s.hostWrite_shape n a l; rw [h]
@[simp] theorem State.hostWrite_boot (s : State) (n a : Nat) (l : List Byte) : (s.hostWrite n a l).boot = s.boot := by
  obtain ⟨_, _, _, _, _, h⟩ := s.hostWrite_shape n a l; rw [h]
@[simp] theorem State.hostWrite_pair (s : State) (n a : Nat) (l : List Byte) : (s.hostWrite n a l).pair = s.pair := by
  obtain ⟨_, _, _, _, _, h⟩ := s.hostWrite_shape n a l; rw [h]
@[simp] theorem State.hostWrite_isst (s : State) (n a : Nat) (l : List Byte) : (s.hostWrite n a l).isst = s.isst := by
  obtain ⟨_, _, _, _, _, h⟩ := s.hostWrite_shape n a l; rw [h]
@[simp] theorem State.hostWrite_pins (s : State) (n a : Nat) (l : List Byte) : (s.hostWrite n a l).pins = s.pins := by
  obtain ⟨_, _, _, _, _, h⟩ := s.hostWrite_shape n a l; rw [h]

/-! ## Registers -/

/-- Setting a register leaves every other register. -/
theorem State.reg_setReg_ne (s : State) (a b : Nat) (v : Word) (h : s.regsWf = true) (hb : b ≠ a) :
    (s.setReg a v).reg b = s.reg b := by rw [s.reg_setReg a b v h, if_neg hb]

/-- One entry keeps the canonical form of the registers, and leaves every register but the daybook's. -/
theorem State.dbWrite_regs (s : State) (e : DbEvent) (h : s.regsWf = true) :
    (s.dbWrite e).regsWf = true ∧ ∀ b, b ∉ dbRegs → (s.dbWrite e).reg b = s.reg b := by
  unfold State.dbWrite
  dsimp only
  generalize hd : ({ s with daybook := _ } : State) = s1
  have h1 : s1.regsWf = true := by subst hd; exact h
  have e1 : ∀ b, s1.reg b = s.reg b := by intro b; subst hd; rfl
  have h2 := s1.regsWf_setF R.dbStatus F.dbStatus_head ((s.getF R.dbStatus F.dbStatus_head + 1) % s.getF R.dbStatus F.dbStatus_entries) h1
  have h3 := State.regsWf_setF _ R.dbSeq F.dbSeq_next (s.getF R.dbSeq F.dbSeq_next + 1) h2
  have key : ∀ b, b ∉ dbRegs → b ≠ R.dbStatus ∧ b ≠ R.dbSeq ∧ b ≠ R.dbOverwrite := by
    intro b hb; simpa only [dbRegs, List.mem_cons, List.not_mem_nil, or_false, not_or] using hb
  split
  · refine ⟨State.regsWf_setReg _ _ _ h3, fun b hb => ?_⟩
    obtain ⟨b1, b2, b3⟩ := key b hb
    rw [State.reg_setReg_ne _ _ _ _ h3 b3, State.reg_setF_ne _ _ _ _ _ h2 b2, State.reg_setF_ne _ _ _ _ _ h1 b1, e1]
  · refine ⟨h3, fun b hb => ?_⟩
    obtain ⟨b1, b2, _⟩ := key b hb
    rw [State.reg_setF_ne _ _ _ _ _ h2 b2, State.reg_setF_ne _ _ _ _ _ h1 b1, e1]

/-- A recorded event keeps the canonical form of the registers, and leaves every register but the daybook's. -/
theorem State.record_regs (s : State) (e : DbEvent) (h : s.regsWf = true) :
    (s.record e).regsWf = true ∧ ∀ b, b ∉ dbRegs → (s.record e).reg b = s.reg b := by
  have after : ∀ b0, (s.dbWriteAfter e b0).regsWf = true ∧ ∀ b, b ∉ dbRegs → (s.dbWriteAfter e b0).reg b = s.reg b := by
    intro b0
    unfold State.dbWriteAfter
    split
    · exact s.dbWrite_regs e h
    · obtain ⟨w1, k1⟩ := s.dbWrite_regs
        { source := e.source, inst := e.inst, code := 0x00F0, detail := b0.suppressed + b0.firstCode % 256 * 2 ^ 32 } h
      obtain ⟨w2, k2⟩ := State.dbWrite_regs _ e w1
      exact ⟨w2, fun b hb => (k2 b hb).trans (k1 b hb)⟩
  unfold State.record
  split
  · exact ⟨h, fun _ _ => rfl⟩
  · dsimp only
    split
    · exact after _
    · split
      · exact ⟨h, fun _ _ => rfl⟩
      · exact after _

/-- A recorded event leaves every register but the daybook's. -/
theorem State.reg_record (s : State) (e : DbEvent) (b : Nat) (h : s.regsWf = true) (hb : b ∉ dbRegs) :
    (s.record e).reg b = s.reg b := (s.record_regs e h).2 b hb

/-- A recorded event keeps the canonical form of the registers. -/
theorem State.regsWf_record (s : State) (e : DbEvent) (h : s.regsWf = true) : (s.record e).regsWf = true := (s.record_regs e h).1

/-- Taking a link out of L1 keeps the canonical form of the registers. -/
theorem State.regsWf_linkWake (s : State) (fn : Nat) (h : s.regsWf = true) : (s.linkWake fn).regsWf = true := by
  unfold State.linkWake
  dsimp only
  split
  · exact State.regsWf_setF _ _ _ _ h
  · exact h

/-- Raising a vector keeps the canonical form of the registers. -/
theorem State.regsWf_raise (s : State) (fn v : Nat) (h : s.regsWf = true) : (s.raise fn v).regsWf = true := by
  have hp : (s.setPending fn v).regsWf = true := s.regsWf_setF _ _ _ h
  unfold State.raise
  dsimp only
  split
  · split
    · exact s.regsWf_linkWake fn h
    · exact hp
  · split
    · unfold State.intxSet
      dsimp only
      have h1 : (s.setBit (R.intxPend 0) (min v 63)).regsWf = true := s.regsWf_setF _ _ _ h
      split
      · exact h1
      · split
        · exact h1
        · obtain ⟨o, e, h2⟩ := (s.setBit (R.intxPend 0) (min v 63)).intaSync_shape
          rw [h2]; exact h1
    · exact hp

/-- A frozen daybook records nothing (R477). -/
theorem State.record_frozen (s : State) (e : DbEvent) (h : s.getF R.dbStatus F.dbStatus_frozen = 1) : s.record e = s := by
  unfold State.record; rw [if_pos h]

/-! ## Memory -/

/-- What a read rebuilds of a stitched range leaves memory as it was. -/
theorem State.rebuild_mem (s : State) (a len : Nat) : (s.rebuild a len).mem = s.mem := by
  have mend : ∀ (l : List Nat) (f : State → Nat → Nat × Nat) (s : State),
      (l.foldl (fun s p => s.mendUnit (f s p).1 (f s p).2) s).mem = s.mem := by
    intro l f
    induction l with
    | nil => intro s; rfl
    | cons p l ih => intro s; rw [List.foldl_cons, ih]; rfl
  unfold State.rebuild
  split
  · dsimp only
    split
    · rfl
    · rw [State.count_mem]; exact mend _ (fun s p => ((s.stitchAt p).x, (s.stitchAt p).dataStack)) s
  · rfl

/-- A read of device memory as it is performed leaves memory as it was. -/
theorem State.memReadNow_mem (s : State) (source inst err slice a len : Nat) :
    (s.memReadNow source inst err slice a len).2.mem = s.mem := by
  unfold State.memReadNow
  split
  · unfold State.recordBlocked
    dsimp only
    split
    · rw [State.count_mem, State.record_mem]
    · rfl
  · split
    · unfold State.logUncorrectable; simp
    · unfold State.logUncorrectable; simp
    · exact s.rebuild_mem a len

/-- A read that needs no reconstruction waits for no stripe, and leaves memory as it was. -/
theorem State.memRead_mem (s : State) (source inst err slice a len : Nat) (h : s.needsRebuild a len = false) :
    (s.memRead source inst err slice a len).2.mem = s.mem := by
  unfold State.memRead
  rw [h]
  exact s.memReadNow_mem source inst err slice a len

end Sys2Proof.Machine
end

