-- ==== Sys2Proof/Tests/Slice0.lean ====
section
/-! SUPPORT. Tests: witnesses that the hypotheses of the statements can be met, ill-formed terms, single steps. -/

namespace Sys2Proof.Machine

set_option Elab.async false

/-- A device at start-up stage n, nothing else having happened since reset. -/
def atStage (n : Nat) : State := State.reset.setF R.bootStatus F.bootStatus_stage n

/-- A device in full service. -/
def running : State := atStage 4

/-- A device asleep in S2. -/
def atS2 : State := running.setF R.pwrState F.pwrState_state 3

/-- A device whose link k stands as given. -/
def linkIn (k : Nat) (l : Link) : State := running.setLink k l

/-- A flit of zeros, whose CRC-64 is 0. -/
def okFlit : List Byte := zeros 256

/-- An image that names nothing. -/
def plainImage : Image := ⟨[], [], false, false, [], 1024, false, false, [], [], [], none, none, 0, [], []⟩

/-- A device in full service with its image applied and BAR0 of both functions open. -/
def imaged : State :=
  { running with image := some plainImage,
                 ep := [(0, { Ep.reset with memSpace := true }), (1, { Ep.reset with memSpace := true })] }

/-- A state with one field of a register set. -/
def w (s : State) (a : Nat) (f : Fld) (v : Nat) : State := s.setF a f v

/-- 128 bytes with some fields set: offset, width, value. -/
def raw (fs : List (Nat × Nat × Nat)) : List Byte :=
  (below 128).map fun i => BitVec.ofNat 8 (fs.foldl (fun v f =>
    if f.1 ≤ i ∧ i < f.1 + f.2.1 then f.2.2 / 256 ^ (i - f.1) % 256 else v) 0)

/-- A device in full service with slice 0 active, the memory and the benches of every stack in service, and the first 1 MiB of
stack 0 a plain region of slice 0. -/
def ready : State :=
  let s := w running (R.sliceBind 0) F.sliceBind_state 1
  let s := (below 12).foldl (fun s st => w (w s (R.hbmStatus st) F.hbmStatus_mem_in_service 1)
    (R.stackStatus st) F.stackStatus_in_service 1) s
  let s := w s (R.epStatus 0) F.epStatus_link_up 1
  let s := w s (R.epStatus 0) F.epStatus_bme 1
  { s with regions := [(0, ⟨0, 2 ^ 20, 0, 0, false, 1, false⟩)], ep := [(0, { Ep.reset with memSpace := true })] }

/-- Ready, with descriptor 5 of 128 bytes in flight, its only sub-part (stack 0, position 0) in a phase. -/
def inFlight (r : List Byte) (ph : SubPhase) : State :=
  { ready with bench := { ready.bench with descs := [(5, ⟨1, r, 0, [{ SubPart.fresh 0 0 with phase := ph }], false, 0, 0, 0, 0, false, []⟩)] } }

/-- The same descriptor. -/
def descOf (r : List Byte) (ph : SubPhase) : Desc := ⟨1, r, 0, [{ SubPart.fresh 0 0 with phase := ph }], false, 0, 0, 0, 0, false, []⟩

/-- A reduce of two FP32 sources of one element, 1.0 and 2.0, to FP32. -/
def sumRaw : List Byte :=
  raw [(0, 1, 3), (10, 2, 1), (12, 1, 1), (40, 8, 0x1000), (48, 8, 0x100), (56, 4, 2), (60, 4, 1), (72, 8, 0x2000)]

/-- Its descriptor runs on stack 0. -/
def sumState : State :=
  { inFlight sumRaw .running with mem := [(0x1002, 0x80), (0x1003, 0x3F), (0x1103, 0x40)] }

/-- A quantize of one FP32 block to E4M3. -/
def quantRaw : List Byte := raw [(0, 1, 6), (10, 2, 1), (12, 1, 1), (40, 8, 0x1000), (48, 8, 0x2000), (64, 4, 1), (69, 1, 5)]

/-- Its descriptor runs on stack 0. -/
def quantState : State := { inFlight quantRaw .running with mem := [(0x1002, 0x80), (0x1003, 0x3F)] }

/-- A quantize of one FP32 block to MXFP8 E4M3, its scales at 0x3000. -/
def mxRaw : List Byte := raw [(0, 1, 6), (10, 2, 1), (12, 1, 1), (40, 8, 0x1000), (48, 8, 0x2000), (56, 8, 0x3000), (64, 4, 1)]

/-- Its descriptor runs on stack 0. -/
def mxState : State := { inFlight mxRaw .running with mem := [(0x1002, 0x80), (0x1003, 0x3F)] }

/-- A launch of one waiting instance. -/
def launchState : State :=
  let s := inFlight (raw [(0, 1, 0x10), (10, 2, 1), (12, 1, 1), (40, 8, 0x4000), (62, 2, 3)]) .ended
  { s with bench := { s.bench with launches := [(5, ⟨[.waiting], []⟩)] } }

/-- The security core runs firmware at level P, its handler at 0x100. -/
def coreState : State :=
  ready.setCore 96 { Core.clear with role := .firmware, status := 1, tvec := 0x100, pc := 0x40, g := [(5, 7), (14, 8192)] }


/-- Ready, with slice 0 granted all that its fields can name. -/
def roomy : State :=
  { ready with force := [(0, { SliceForce.none with quotaMem := BitVec.allOnes 64, quotaQ := BitVec.allOnes 64, quotaNet := BitVec.allOnes 64, quotaServe := BitVec.allOnes 64, applied := true })] }

/-- Roomy, with 8 GiB of each stack stitched and the first 40 MiB of the stitched range region 1 of slice 0. -/
def stitched : State :=
  let s := w roomy R.memLayout F.memLayout_stitched_gib 8
  { s with regions := s.regions ++ [(1, ⟨0x8000000000, 40 * 2 ^ 20, 0, 1, false, 1, false⟩)] }

/-- A value of REGION_CMD_GO, or of another command register, as its fields give it. -/
def word (fs : List (Fld × Nat)) : Word := fs.foldl (fun v f => setBits v f.1 f.2) 0

/-- A descriptor without sub-parts. -/
def wholeOf (r : List Byte) : Desc := ⟨1, r, 0, [], false, 0, 0, 0, 0, false, []⟩

/-- A state with descriptor 5, without sub-parts, in flight. -/
def withDesc (s : State) (r : List Byte) : State := { s with bench := { s.bench with descs := [(5, wholeOf r)] } }

/-- A descriptor of an opcode and op, or kind, for the first bench of the first stack. -/
def opRaw (opcode op : Nat) (fs : List (Nat × Nat × Nat)) : List Byte :=
  raw ([(0, 1, opcode), (10, 2, 1), (12, 1, 1), (40, 1, op)] ++ fs)

/-- A last of one layer, one head of 32 channels, BF16 keys and values, FP32 output, for slice 0. -/
def tinyLast : LastRec :=
  ⟨raw [(0, 2, 1), (2, 2, 1), (4, 2, 1), (6, 2, 32), (8, 1, 5), (9, 1, 1), (11, 1, 1), (12, 1, 1), (16, 4, 0x3F800000),
        (20, 4, 100), (40, 8, 0x8000), (48, 1, 1)], [zeros 32]⟩

/-- Roomy, with the last bound as slot 0, an arena at 512 KiB and sequence 3 active with one token in the arena's first frame. -/
def served : State :=
  { roomy with serve := { roomy.serve with lasts := [(0, tinyLast)], arenas := [(0x80000, ⟨0, 0x80000, 0x4000⟩)],
                                           frames := [(0x80000, ⟨3, 0, false, 0x4000⟩)],
                                           seqs := [(3, ⟨.active, 0, 0, 0, [0], [(0, 1)], [(0, 0x80000)]⟩)] } }

/-- Served, with ports 0 and 1 up and their doorbell pages decoded. -/
def portServed : State :=
  [0, 1].foldl (fun s p => w (w (w s (R.dpStatus p) F.dpStatus_state 3) (R.dpCtrl p) F.dpCtrl_port_enable 1)
    (R.dpDbBase p) F.dpDbBase_enable 1) served

/-- Served, with the KV cold tier present. -/
def coldServed : State :=
  { w served R.memLayout F.memLayout_ddr7_use 2 with ddr := ⟨[7], 64 * gib, gib, []⟩ }

/-- A batch of slice 0 that attends over sequence 3 without an append, formed on stack 0. -/
def tinyBatch : Batch :=
  { Batch.fresh with desc := some 5, entries := [(3, true)], q := 0x1000, kv := 0x2000, out := 0x3000, started := true,
                     undo := [(3, 1)], counts := [1], parts := [0], takers := [(3, 0, 0)], homes := [0], rows := [RowAcc.start tinyLast] }

/-- Served, with that batch running. -/
def attending : State :=
  let s := withDesc served (opRaw 1 0 [])
  { s with serve := { s.serve with batches := [(0, tinyBatch)], next := 1 } }

/-- A job of one device: two microbatches of one record, ten records, 32 FP32 elements, intake at 64 KiB, pool area at 4 GiB. -/
def jobRaw : List Byte :=
  raw [(0, 8, 0x77), (8, 8, 5), (16, 8, 6), (24, 8, 9), (32, 4, 2), (36, 2, 1), (40, 8, 9), (48, 4, 2), (52, 4, 1), (56, 8, 10),
       (64, 8, 32), (72, 4, 3), (80, 8, 0x100000000), (88, 8, 0x10000), (96, 8, 0x10000), (104, 4, 9), (112, 8, 0x20000)]

/-- The same job, of which another device is the committer. -/
def jobRaw2 : List Byte := setField (setField jobRaw 36 2 2) 76 2 1

/-- Roomy, with namespace 0 of slice 0, job 1 open with nothing arrived, and a 64 KiB region of DDR5 main for checkpoints. -/
def training : State :=
  let s := w (w (w roomy (R.nsMap 0) F.nsMap_valid 1) (R.nsMap 0) F.nsMap_owner 0) (R.nsSize 0) F.nsSize_lbas 64
  let s := w (w s R.memLayout F.memLayout_staging_gib 1) (R.dpStatus 0) F.dpStatus_owner 0
  let s := w (w (w s (R.dpStatus 0) F.dpStatus_state 3) (R.dpCtrl 0) F.dpCtrl_port_enable 1) (R.crRing 0) F.crRing_space 1
  { s with train := { s.train with jobs := [(1, ⟨0, jobRaw, [], false⟩)] }, ddr := ⟨[0, 7], 64 * gib, 0, []⟩,
           regions := s.regions ++ [(9, ⟨0x10000000000, 0x200000, 0, 2, false, 1, false⟩)],
           image := some { plainImage with dma15 := true } }

/-- The shard list entry of those 64 KiB, and the shard. -/
def shardEntry : List Byte := bytesLE 8 0x10000000000 ++ bytesLE 4 65536 ++ [1, 0, 0, 0] ++ zeros 16

/-- The shard of that entry. -/
def shard1 : Shard := ⟨0x10000000000, 65536, 1, 0, 0⟩

/-- Training, with a checkpoint of job 1 under way: its record, and the pages copied, staged and sent. -/
def snapping (r : List Byte) (p : Snap) : State :=
  let s := withDesc training (opRaw 5 1 [(42, 2, 1), (44, 4, 1)])
  { s with snap := some p, train := { s.train with jobs := [(1, ⟨0, r, [], false⟩)], ckpts := [(1, ⟨5, r, 3, [], 65536, 0⟩)] } }

/-- An epoch of one shard of one page, of which nothing is sent. -/
def snap1 : Snap := ⟨1, 0, [shard1], [], [], [], 0, 0, [], []⟩

/-- An epoch of two shards of one page each, of which nothing is sent. -/
def snap2 : Snap := ⟨1, 0, [shard1, ⟨0x10000010000, 65536, 2, 65536, 0⟩], [], [(0, [7])], [], 0, 0, [], []⟩

/-- A DMA descriptor of an opcode: its bytes, class 3, source, destination, both in device memory. -/
def dmaRaw (op n src dst : Nat) (fs : List (Nat × Nat × Nat)) : List Byte :=
  (raw ([(0, 1, op), (1, 1, 12), (8, 4, n), (16, 8, src), (24, 8, dst)] ++ fs)).take 64

/-- Ready, with DMA channel 1023 enabled on a host ring. -/
def dmaReady : State :=
  w (w (w ready (R.chanCfg 15 63) F.chanCfg_enable 1) (R.chanRing 15 63) F.chanRing_space 1) (R.chanTail 15 63) F.chanTail_tail 1

/-- The same, running one descriptor. -/
def dmaRunning (l : List Byte) : State :=
  { w dmaReady (R.chanStatus 15 63) F.chanStatus_state 1 with dma := [(1023, [DmaWork.fetched 1 0 l 0])] }

/-- A function out of PERST#, with Memory Space Enable. -/
def epUp : Ep := { Ep.reset with perst := false, memSpace := true }

/-- A state with the configuration state of function 1 set. -/
def withEp1 (s : State) (e : Ep) : State := { s with ep := [(0, epUp), (1, e)] }

/-- Ready, with the first 2 MiB of BAR4 of function 0 open on the first region, both functions' links up. -/
def hosted : State :=
  let s := w (w (w (w ready (R.aperCtrl 0 7) F.aperCtrl_valid 1) (R.aperCtrl 0 7) F.aperCtrl_w 1) (R.aperCtrl 0 7) F.aperCtrl_r 1)
    (R.aperSize 0 7) F.aperSize_units 1
  withEp1 (w (w s (R.epStatus 1) F.epStatus_link_up 1) (R.epStatus 1) F.epStatus_bme 1) epUp

/-- A state with slice 9 bound to function 1 and active. -/
def withSlice9 (s : State) : State := w (w s (R.sliceBind 9) F.sliceBind_state 1) (R.sliceBind 9) F.sliceBind_function 1


/-- Ready, with port 7 usable and its window 15 open on the first 2 MiB of device memory, at bus address 4 MiB. -/
def ported : State :=
  let s := w (w (w (w ready (R.dpStatus 7) F.dpStatus_state 3) (R.dpCtrl 7) F.dpCtrl_port_enable 1) (R.iwBus 7 15) F.iwBus_bus_base 2)
    (R.iwSize 7 15) F.iwSize_units 1
  w (w (w s (R.iwCtrl 7 15) F.iwCtrl_valid 1) (R.iwCtrl 7 15) F.iwCtrl_w 1) (R.iwCtrl 7 15) F.iwCtrl_r 1


/-- Ready, with queue pair 4095 and the admin queue pair of slice 0 enabled (64 entries each), namespace 0 with 64 LBAs of 4 KiB
attached to slice 0 as NSID 1, its legs the backends 0 and 1023, both ready and reached over TCP. -/
def stored : State :=
  let qp (s : State) (q : Nat) : State :=
    w (w (w (w s (R.qpCfg q) F.qpCfg_enable 1) (R.qpCfg q) F.qpCfg_sq_size 63) (R.qpCfg q) F.qpCfg_cq_size 63) (R.qpCq q) F.qpCq_base 0x77
  let be (s : State) (b : Nat) : State :=
    w (w (w (w s (R.beCfg b) F.beCfg_valid 1) (R.beCfg b) F.beCfg_kind 3) (R.beStatus b) F.beStatus_state 2) (R.beOffset b) F.beOffset_lba (b * 16)
  let s := be (be (qp (qp ready 4095) 0x1000) 0) 1023
  let s := w (w (w (w s (R.nsMap 0) F.nsMap_valid 1) (R.nsMap 0) F.nsMap_nsid 1) (R.nsMap 0) F.nsMap_lba_4k 1) (R.nsSize 0) F.nsSize_lbas 64
  let s := w (w (w s (R.nsLegs 0) F.nsLegs_leg0 0) (R.nsLegs 0) F.nsLegs_leg1 1023) (R.nsStatus 0) F.nsStatus_state 1
  let s := w s R.storCfg F.storCfg_apprentice 0
  { s with store := { s.store with lba4k := [(0, ()), (1023, ())] } }

/-- An NVMe command of an opcode with command identifier 9 and NSID 1, its other fields as given, as queue pair q fetched it. -/
def nvmeOf (q op : Nat) (fs : List (Nat × Nat × Nat)) : NvmeCmd :=
  ⟨q, 0, (raw ([(0, 1, op), (2, 2, 9), (4, 4, 1)] ++ fs)).take 64, none, [], [], 0, false, false, 0⟩

/-- Stored, with a command as number 3. -/
def withCmd (c : NvmeCmd) : State := { stored with store := { stored.store with cmds := [(3, c)], nextCmd := 4 } }


/-- A result of a lookup: verdict, and which of its fields are valid. -/
def resultOf (verdict program policer valid : Nat) : List Byte :=
  bytesLE 4 verdict ++ bytesLE 2 program ++ [0, BitVec.ofNat 8 valid] ++ bytesLE 2 policer ++ zeros 6

/-- Ready, with network port 0 up, a parse graph of one node that accepts everything, and lookup table 63 in the list of pass 1,
its default entry as given. -/
def packets (dflt : List Byte) : State :=
  let s := w (w (w ready (R.netPortStatus 0) F.netPortStatus_link_up 1) (R.pnA 0) F.pnA_valid 1) (R.pnA 0) F.pnA_default_next 0x100
  let s := s.setReg (R.lookupList 0) 0xFFFFFFFFFFFFFF3F
  { s with pkt := { s.pkt with tables := [(63, ⟨setBits (setBits 0 (63, 63) 1) (46, 40) 4, 0, 0, dflt, []⟩)] } }

/-- A received packet of 60 bytes from port 0. -/
def packet1 : Packet := ⟨zeros 60, freshFields 0 0 64 0 5 false, 0, 0, 0, none, 0⟩

/-- A state with that packet at the head of pipeline 0. -/
def withPacket (s : State) : State := { s with pkt := { s.pkt with rx := [(0, [packet1])] } }

/-- An enabled queue of slice 0 on port 0 with a limit of 256 MiB less 4 KiB, without a shaper. -/
def queueOf (fs : List TmFrame) : TmQueue :=
  ⟨setBits (setBits 0 (63, 63) 1) (19, 0) 64, setBits (setBits 0 (63, 48) 0xFFFF) (31, 16) 0xFFFF, fs⟩


/-- A context of slice 0: remote queue pair 0x123, request queue 7, answer queue 8, both rings in host memory with 64 entries,
completion ring 3, event ring 4, path MTU 1,024, windows of 64 KiB; bits 31 to 25 of word 0 as given. -/
def ctxOf (bits : Nat) : List Word :=
  [BitVec.ofNat 64 (0x123 + bits * 2 ^ 25), 0, 0, 0, 0x70008, 0x10, 0x10, BitVec.ofNat 64 (3 * 2 ^ 48 + 4 * 2 ^ 32 + 7 * 2 ^ 28 + 7 * 2 ^ 24 + 1),
   BitVec.ofNat 64 (64 * 2 ^ 32 + 65536), 0]

/-- A plain connection in a state with that context. -/
def connIn (st : Nat) : Conn := { Conn.fresh (ctxOf 0) with state := st, w := 65536, sendPsn := 0xFFFFFF, expPsn := 0xFFFFFF }

/-- Ready, with a connection as number 9. -/
def linked (c : Conn) : State :=
  { ready with net := { ready.net with conns := [(9, c)], resident := [9] },
               pkt := { ready.pkt with queues := [(7, queueOf []), (8, queueOf [])] } }

/-- A request packet of one packet for connection 9. -/
def pktOf (op : RoceOp) (psn va : Nat) (l : List Byte) : RocePkt :=
  ⟨9, psn, op, true, true, va, 0x205, l.length, 0, l, none, false, 3, 4, false⟩

/-- A cached memory region entry: va and address 0x4000, 4 KiB, every access, key 5, slice 0. -/
def mrRaw : List Byte := bytesLE 8 0x4000 ++ bytesLE 8 0x5000 ++ bytesLE 8 4096 ++ [15, 5, 0, 0, 0, 1, 0, 0]

/-- Linked, with that entry as number 2. -/
def withMr (c : Conn) : State := { linked c with net := { (linked c).net with mrs := [(2, mrRaw)] } }

/-- A packet sent once. -/
def sentOf (p : RocePkt) : TxPkt := ⟨p, 0, 0, 0, 1, false⟩

/-- A message of a work request with one packet. -/
def msgOf (op psn len : Nat) : Msg := ⟨.request 77 false, op, len, psn, psn, 0x6000, 0, [], false⟩

/-- A work request of an opcode: length, local address, space 1, key, remote address, operands. -/
def reqRaw (op len : Nat) : List Byte :=
  (raw [(0, 1, op), (4, 4, 77), (8, 4, len), (12, 4, 0x55), (16, 8, 0x6000), (24, 1, 1), (28, 4, 0x205), (32, 8, 0x4008), (40, 8, 3), (48, 8, 4)]).take 64

/-- Ready, with a node table of one IPv4 node, 7 at 0x0A000001, its queue 0, and a Sceran store at 64 KiB in a region of 32 MiB. -/
def sceranReady : State :=
  let s := w (w ready R.sceranStore F.sceranStore_base 16) (R.scNode 0) F.scNode_valid 1
  let s := w s (R.scNode 0) F.scNode_node 7
  { s.setReg (R.scAddr 0 1) 0x0A000001 with
    regions := [(0, ⟨0, 2 ^ 25, 0, 0, false, 1, false⟩)], pkt := { ready.pkt with queues := [(0, queueOf [])] } }


/-- A loaded slot of slice 0 with a key; a wrapped entry of zeros, as its bytes in the key table are. -/
def keySlot (kind : Nat) (key : List Byte) : KeySlot :=
  ⟨1, kind, 0, false, true, true, false, 0x1A2B3C4D, 0xFF, 0x100, key, zeros 128⟩

/-- Ready, with cipher queue 1023 enabled, its ring and completion ring in host memory, one job queued, slots 66 and 67 (AES-128),
68 (P-384) and 69 (key encryption) loaded, 66 and 67 unwrapped. -/
def cipherReady : State :=
  let s := w (w (w (w ready (R.cqCfg 1023) F.cqCfg_enable 1) (R.cqCfg 1023) F.cqCfg_cq 4095) (R.cqRing 1023) F.cqRing_space 1)
    (R.cqTail 1023) F.cqTail_tail 1
  let s := w (w (w s (R.crCfg 4095) F.crCfg_enable 1) (R.crRing 4095) F.crRing_space 1) R.cipherCfg F.cipherCfg_job_cores 8
  let s := w s R.rngStatus F.rngStatus_ok 1
  { s with cipher := { s.cipher with slots := [(66, keySlot 1 (zeros 16)), (67, keySlot 1 (zeros 15 ++ [1])), (68, keySlot 3 (zeros 47 ++ [2])), (69, keySlot 4 (zeros 32))],
                                     cache := [(3, [(66, 0), (67, 0)])] } }

/-- A job of a recipe on slot 66, all its addresses in host memory. -/
def jobRaw3 (recipe : Nat) (fs : List (Nat × Nat × Nat)) : List Byte :=
  (raw ([(0, 1, recipe), (2, 1, 7), (4, 4, 77), (12, 2, 66), (16, 8, 0x1000), (24, 8, 0x2000), (48, 8, 0x3000), (56, 8, 0x4000)] ++ fs)).take 64

/-- What the host answers to a job's reads. -/
def ioOf (raw src aux nonce tag : List Byte) : JobIo := ⟨.bytes raw, .bytes src, .bytes aux, .bytes nonce, .bytes tag, []⟩


/-- A device that may sleep, S1 or S2 armed as given. -/
def armed (n : Nat) : State := w running R.pwrState F.pwrState_armed n

/-- A device asleep as given, with its save. -/
def asleep (n : Nat) : State :=
  { w (armed 0) R.pwrState F.pwrState_state n with power := { Power.reset with saved := some ⟨n == 3, [(R.capCfg, 800)], [(0, ⟨0, 2 ^ 20, 0, 0, false, 1, false⟩)], [], []⟩ } }


/-- A state with the boot state of another. -/
def withBoot (s : State) (b : Boot) : State := { s with boot := b }

/-- A boot ROM that starts: powered, out of reset. -/
def romReady : State := { State.reset with pins := { Pins.reset with pwrGood := true, devResetN := true, testMode := false } }

/-- A mailbox command word. -/
def mboxWord (op : Nat) : Word := word [(F.mboxCmd_op, op)]

/-- A bundle staged in slot 1 with a host interface revision. -/
def stagedFw (hostIf : Nat) : StagedFw := ⟨1, 9, hostIf, zeros 48⟩

/-- Running, with a bundle staged. -/
def fwReady (hostIf : Nat) : State := withBoot running { Boot.reset with staged := some (stagedFw hostIf) }

/-- Running, with an activation of that bundle under way. -/
def switching (a : Activation) : State := withBoot running { Boot.reset with staged := some (stagedFw 0x10000), act := some a }


/-- Ready, the pair enabled with every class, slice 9 mirrored, the welt up, in a state and role. -/
def paired (st role : Nat) : State :=
  let s := w (w (w ready R.pairCfg F.pairCfg_enable 1) R.pairCfg F.pairCfg_classes 15) R.pairCfg F.pairCfg_partner_node 0x77
  let s := w (w (w (s.setReg (R.pairSlices 0) 0x200) R.pairStatus F.pairStatus_state st) R.pairStatus F.pairStatus_role role) R.pairStatus F.pairStatus_welt_up 1
  { w (w s R.weltStatus F.weltStatus_lanes 0xFF) R.weltStatus F.weltStatus_width 8 with pair := { Pair.single with weltLive := true, pinLive := true } }

/-- Paired, with pair state as given. -/
def pairedWith (st role : Nat) (p : Pair) : State := { paired st role with pair := p }

/-- Both sources live. -/
def livePair : Pair := { Pair.single with weltLive := true, pinLive := true }

/-- Paired as given, region 2 of slice 0 a bulk region of two pages. -/
def bulked (st role : Nat) : State :=
  { paired st role with regions := ready.regions ++ [(2, ⟨0x200000, 0x200000, 0, 0, true, 1, false⟩)], pair := { livePair with bulk := [(0x200, 2), (0x300, 1)] } }

/-- A partner that is alike, its identifier the highest. -/
def twin : Partner := ⟨true, List.replicate 48 0xFF, false, resetOf R.memLayout, [0x200, 0, 0, 0], 15⟩

/-- Ready, with the save region of stack 11. -/
def testable : State :=
  let s := (below 7).foldl (fun s b => w s (R.benchStatus 11 b) F.benchStatus_logical_pos b) ready
  { s with regions := ready.regions ++ [(4091, ⟨11 * 2 ^ 35, 0x200000, 0, 0, false, 1, false⟩)] }

/-- Testable, with bench 2 of stack 11 under test. -/
def underTest : State := w (w testable (R.stackStatus 11) F.stackStatus_isst_bench 2) (R.benchStatus 11 2) F.benchStatus_under_test 1

/-- A powered device. -/
def poweredUp : State := { ready with pins := romReady.pins }
set_option maxRecDepth 20000 in
/-- For each clause, in order, a state and operands that meet its hypotheses. -/
theorem witness_ClockCommands : List.all [
    decide ((fun (s : State) => s.Inv = true ∧ (s.active = true)) (running)),
    decide ((fun (s : State) => s.Inv = true ∧ (s.active = false)) (atS2)),
    decide ((fun (s : State) => s.Inv = true) (running)),
    decide ((fun (s : State) => s.Inv = true) (running)),
    decide ((fun (s : State) => s.Inv = true) (running)),
    decide ((fun (s : State) => s.Inv = true ∧ (s.servoOwns = false)) (running)),
    decide ((fun (s : State) => s.Inv = true ∧ (s.servoOwns = true)) (running.setF R.timeSrc F.timeSrc_src 1)),
    decide ((fun (s : State) => s.Inv = true ∧ (s.servoOwns = false)) (running)),
    decide ((fun (s : State) => s.Inv = true) (running))] id = true := by decide +kernel

set_option maxRecDepth 20000 in
/-- For each clause, in order, a state and operands that meet its hypotheses. -/
theorem witness_LinkCommands : List.all [
    decide ((fun (s : State) => (fun (f : List Byte) => (fun (n : Nat) => (fun (k : Nat) => s.Inv = true ∧ ((s.link k).phase = .up) ∧ (flitOk f = true) ∧ (n ≠ (s.link k).delivered)) (0)) (4)) (okFlit)) (running)),
    decide ((fun (s : State) => (fun (f : List Byte) => (fun (k : Nat) => s.Inv = true ∧ ((s.link k).phase = .up) ∧ (flitOk f = true)) (0)) (okFlit)) (running)),
    decide ((fun (s : State) => (fun (k : Nat) => (fun (f : List Byte) => s.Inv = true ∧ ((s.link k).phase = .up) ∧ (flitOk f = false) ∧ ((s.link k).crcFails < 7)) ([])) (0)) (running)),
    decide ((fun (s : State) => (fun (k : Nat) => (fun (f : List Byte) => s.Inv = true ∧ ((s.link k).phase = .up) ∧ (flitOk f = false) ∧ ((s.link k).crcFails ≥ 7)) ([])) (3)) (linkIn 3 ⟨.up, 7, true, 0⟩)),
    decide ((fun (s : State) => (fun (k : Nat) => s.Inv = true ∧ ((s.link k).phase = .retrain)) (3)) (linkIn 3 ⟨.retrain, 8, true, 0⟩)),
    decide ((fun (s : State) => (fun (k : Nat) => s.Inv = true ∧ ((s.link k).phase = .retrain)) (3)) (linkIn 3 ⟨.retrain, 8, true, 0⟩)),
    decide ((fun (s : State) => (fun (k : Nat) => s.Inv = true ∧ ((s.link k).phase = .waitRetry)) (3)) (linkIn 3 ⟨.waitRetry, 8, true, 0⟩)),
    decide ((fun (s : State) => (fun (k : Nat) => s.Inv = true ∧ ((s.link k).phase = .waitRetry) ∧ (12 ≤ k)) (12)) (linkIn 12 ⟨.waitRetry, 8, true, 0⟩)),
    decide ((fun (s : State) => (fun (k : Nat) => (fun (lane : Nat) => s.Inv = true ∧ (k < 15) ∧ (lane < 64 * linkModules k) ∧ ((s.link k).phase = .up) ∧ (s.reg (R.repairLink k + 16) = 0) ∧ (s.unitPresent (linkLevel k) (64 * linkModules k) = true) ∧ (s.unitFenced (linkLevel k) (64 * linkModules k) = false)) (0)) (0)) (running)),
    decide ((fun (s : State) => (fun (addr : Nat) => (fun (len : Nat) => s.Inv = true ∧ (¬ ((len = 4 ∨ len = 8) ∧ addr % len = 0))) (4)) (2)) (running)),
    decide ((fun (s : State) => (fun (addr : Nat) => (fun (len : Nat) => s.Inv = true ∧ (¬ ((len = 4 ∨ len = 8) ∧ addr % len = 0))) (4)) (2)) (running))] id = true := by decide +kernel

set_option maxRecDepth 20000 in
/-- For each clause, in order, a state and operands that meet its hypotheses. -/
theorem witness_FabricArbitration : List.all [
    decide ((fun (s : State) => (fun (n : Nat) => (fun (e : List (Nat × Nat)) => (fun (p : Nat) => s.Inv = true ∧ (0 < ((e.foldl FabricPort.refund ((Tab.get FabricPort.idle s.fabric p).refill n)).left))) (0)) ([(3, 2)])) (4)) ({ running with fabric := [(0, { FabricPort.idle with left := 9 })] })),
    decide ((fun (s : State) => (fun (l : List FabricRequest) => (fun (e : List (Nat × Nat)) => (fun (p : Nat) => (fun (n : Nat) => s.Inv = true ∧ ((e.foldl FabricPort.refund ((Tab.get FabricPort.idle s.fabric p).refill n)).left = 0) ∧ (l.all (fun r => !s.grantable (e.foldl FabricPort.refund ((Tab.get FabricPort.idle s.fabric p).refill n)) r) = true)) (0)) (0)) ([(3, 2)])) ([⟨.barrier, 1, 2, none⟩])) (running)),
    decide ((fun (s : State) => (fun (l : List FabricRequest) => (fun (e : List (Nat × Nat)) => (fun (n : Nat) => (fun (q : FabricPort) => (fun (p : Nat) => s.Inv = true ∧ (e.foldl FabricPort.refund ((Tab.get FabricPort.idle s.fabric p).refill n) = q) ∧ (q.left = 0) ∧ (l.any (fun r => s.grantable q r) = true)) (0)) (([(3, 2)] : List (Nat × Nat)).foldl FabricPort.refund (FabricPort.idle.refill 7))) (7)) ([(3, 2)])) ([⟨.mirror, 1, 4, none⟩, ⟨.dma, 2, 16, none⟩, ⟨.checkpoint, 1, 3, none⟩, ⟨.mirror, 0, 5, none⟩])) (running)),
    decide ((fun (s : State) => s.Inv = true) (running))] id = true := by decide +kernel

set_option maxRecDepth 20000 in
/-- For each clause, in order, a state and operands that meet its hypotheses. -/
theorem witness_RegisterWrites : List.all [
    decide ((fun (s : State) => (fun (a : Nat) => (fun (fn : Nat) => s.Inv = true ∧ (fn < 2) ∧ (a < 2 ^ 26) ∧ (s.barOpen fn = false)) (0)) (0x300)) (State.reset)),
    decide ((fun (s : State) => (fun (a : Nat) => (fun (w : Bool) => (fun (fn : Nat) => s.Inv = true ∧ (fn < 2) ∧ (a < 2 ^ 26) ∧ (s.barOpen fn = true) ∧ (a % (if w then 8 else 4) ≠ 0)) (0)) (true)) (0x304)) (imaged)),
    decide ((fun (s : State) => (fun (a : Nat) => (fun (fn : Nat) => (fun (w : Bool) => s.Inv = true ∧ (fn < 2) ∧ (a < 2 ^ 26) ∧ (s.barOpen fn = true) ∧ (a % (if w then 8 else 4) = 0) ∧ ((bar0Reaches fn (a / 8 * 8) && s.answersAt (a / 8 * 8)) = false)) (false)) (0)) (0x100004)) ({ imaged with regs := [] })),
    decide ((fun (s : State) => (fun (a : Nat) => (fun (v : Word) => (fun (u : State) => (fun (fn : Nat) => (fun (w : Bool) => s.Inv = true ∧ (fn < 2) ∧ (a < 2 ^ 26) ∧ (s.barOpen fn = true) ∧ (a % (if w then 8 else 4) = 0) ∧ ((bar0Reaches fn (a / 8 * 8) && s.answersAt (a / 8 * 8)) = true) ∧ ((s.route (a / 8 * 8) (reach a w) (placed a w v)).map (fun r => goesTo r u) = some true)) (false)) (0)) (imaged.setF R.timeSrc F.timeSrc_src 3)) (3)) (R.timeSrc)) (imaged)),
    decide ((fun (s : State) => (fun (a : Nat) => (fun (fn : Nat) => (fun (w : Bool) => (fun (v : Word) => s.Inv = true ∧ (fn < 2) ∧ (a < 2 ^ 26) ∧ (s.barOpen fn = true) ∧ (a % (if w then 8 else 4) = 0) ∧ ((bar0Reaches fn (a / 8 * 8) && s.answersAt (a / 8 * 8)) = true) ∧ (s.route (a / 8 * 8) (reach a w) (placed a w v) = none) ∧ (regAt (a / 8 * 8) = none)) (0)) (false)) (0)) (0x300)) (imaged)),
    decide ((fun (s : State) => (fun (a : Nat) => (fun (d : RegDesc) => (fun (fn : Nat) => (fun (w : Bool) => (fun (v : Word) => s.Inv = true ∧ (fn < 2) ∧ (a < 2 ^ 26) ∧ (s.barOpen fn = true) ∧ (a % (if w then 8 else 4) = 0) ∧ ((bar0Reaches fn (a / 8 * 8) && s.answersAt (a / 8 * 8)) = true) ∧ (s.route (a / 8 * 8) (reach a w) (placed a w v) = none) ∧ (regAt (a / 8 * 8) = some d) ∧ ((d.hasLock && s.image.isSome) = false)) (0)) (false)) (0)) (((regAt R.memLayout).getD ⟨"", 0, [], []⟩))) (R.memLayout)) ({ imaged with image := none })),
    decide ((fun (s : State) => (fun (a : Nat) => (fun (w : Bool) => (fun (d : RegDesc) => (fun (fn : Nat) => (fun (v : Word) => s.Inv = true ∧ (fn < 2) ∧ (a < 2 ^ 26) ∧ (s.barOpen fn = true) ∧ (a % (if w then 8 else 4) = 0) ∧ ((bar0Reaches fn (a / 8 * 8) && s.answersAt (a / 8 * 8)) = true) ∧ (s.route (a / 8 * 8) (reach a w) (placed a w v) = none) ∧ (regAt (a / 8 * 8) = some d) ∧ ((d.hasLock && s.image.isSome) = true)) (0)) (0)) (((regAt R.memLayout).getD ⟨"", 0, [], []⟩))) (true)) (R.memLayout)) (imaged))] id = true := by decide +kernel

set_option maxRecDepth 20000 in
/-- For each clause, in order, a state and operands that meet its hypotheses. -/
theorem witness_BenchQueues : List.all [
    decide ((fun (s : State) => (fun (q : Nat) => (fun (v : Word) => s.Inv = true ∧ (q < 1024) ∧ (s.getF (R.bqCfg q) F.bqCfg_enable = 1) ∧ (s.sliceState (s.getF (R.bqCfg q) F.bqCfg_owner) = 1) ∧ (v.toNat % 2 ^ 16 < ringSlots (s.getF (R.bqRing q) F.bqRing_size))) (5)) (1)) (w ready (R.bqCfg 1) F.bqCfg_enable 1)),
    decide ((fun (s : State) => (fun (q : Nat) => (fun (v : Word) => s.Inv = true ∧ (q < 1024) ∧ (s.getF (R.bqCfg q) F.bqCfg_enable = 1) ∧ (s.sliceState (s.getF (R.bqCfg q) F.bqCfg_owner) = 1) ∧ (v.toNat % 2 ^ 16 ≥ ringSlots (s.getF (R.bqRing q) F.bqRing_size))) (64)) (1)) (w ready (R.bqCfg 1) F.bqCfg_enable 1)),
    decide ((fun (s : State) => (fun (p : Nat) => (fun (q : Nat) => (fun (fn : Nat) => (fun (n : Nat) => s.Inv = true ∧ (getBits (s.reg (R.doorbellEntry fn p)) F.doorbellEntry_queue = q) ∧ (s.getF (R.bqCfg q) F.bqCfg_enable = 0) ∧ (n = (if getBits (s.reg (R.doorbellEntry fn p)) F.doorbellEntry_valid = 1 then getBits (s.reg (R.doorbellEntry fn p)) F.doorbellEntry_slice else 0))) (0)) (0)) (0)) (3)) (w (w ready (R.doorbellEntry 0 3) F.doorbellEntry_valid 1) (R.doorbellEntry 0 3) F.doorbellEntry_kind 1)),
    decide ((fun (s : State) => (fun (q : Nat) => s.Inv = true ∧ (q < 1024) ∧ (s.getF (R.bqCfg q) F.bqCfg_enable = 0)) (0)) (ready)),
    decide ((fun (s : State) => (fun (q : Nat) => (fun (l : List Byte) => s.Inv = true ∧ (q < 1024) ∧ (s.getF (R.bqCfg q) F.bqCfg_enable = 1) ∧ (s.getF (R.bqStatus q) F.bqStatus_state ≠ 4) ∧ (s.fetches (s.getF (R.bqCfg q) F.bqCfg_owner) = true) ∧ (s.getF (R.bqStatus q) F.bqStatus_head ≠ s.getF (R.bqTail q) F.bqTail_tail) ∧ (s.queueHeld q [0x02, 0x03, 0x08, 0x09, 0x0A] = false) ∧ (s.getF (R.bqRing q) F.bqRing_space = 1) ∧ (s.hostPath (s.sliceFn (s.getF (R.bqCfg q) F.bqCfg_owner)) = true) ∧ (s.ringWaits (s.getF (R.bqCfg q) F.bqCfg_owner) 1 = false) ∧ (l.length = 128) ∧ ((s.setF (R.bqStatus q) F.bqStatus_head ((s.getF (R.bqStatus q) F.bqStatus_head + 1) % ringSlots (s.getF (R.bqRing q) F.bqRing_size))).descCheck (s.getF (R.bqCfg q) F.bqCfg_owner) l = 0)) (raw [(0, 1, 0x11), (3, 1, 0x40), (10, 2, 1), (12, 1, 1), (40, 2, 5)])) (1)) (w (w (w (w ready (R.bqCfg 1) F.bqCfg_enable 1) (R.bqTail 1) F.bqTail_tail 3) (R.bqRing 1) F.bqRing_space 1) (R.crCfg 0) F.crCfg_enable 1)),
    decide ((fun (s : State) => (fun (q : Nat) => s.Inv = true ∧ (q < 1024) ∧ (s.getF (R.bqCfg q) F.bqCfg_enable = 1) ∧ (s.getF (R.bqStatus q) F.bqStatus_state ≠ 4) ∧ (s.fetches (s.getF (R.bqCfg q) F.bqCfg_owner) = true) ∧ (s.getF (R.bqStatus q) F.bqStatus_head ≠ s.getF (R.bqTail q) F.bqTail_tail) ∧ (s.queueHeld q [0x02, 0x03, 0x08, 0x09, 0x0A] = false) ∧ (s.getF (R.bqRing q) F.bqRing_space = 1) ∧ (s.ringWaits (s.getF (R.bqCfg q) F.bqCfg_owner) 1 = false)) (1)) (w (w (w ready (R.bqCfg 1) F.bqCfg_enable 1) (R.bqTail 1) F.bqTail_tail 3) (R.bqRing 1) F.bqRing_space 1))] id = true := by decide +kernel

set_option maxRecDepth 20000 in
/-- For each clause, in order, a state and operands that meet its hypotheses. -/
theorem witness_SubPartsRun : List.all [
    decide ((fun (s : State) => (fun (d : Nat) => (fun (x : Desc) => (fun (p : SubPart) => (fun (stack : Nat) => (fun (pos : Nat) => (fun (b : Nat) => (fun (more : List Nat) => s.Inv = true ∧ (s.desc? d = some x) ∧ (x.sub? stack pos = some p) ∧ (p.phase = .waiting) ∧ (s.stackUp stack = true) ∧ (s.benchesFor stack pos = b :: more) ∧ (s.waitOver x stack pos b = some 0) ∧ (s.turn d x = true) ∧ (((b :: more).all fun y => s.benchOpen stack y x.slice && decide (y < 7)) = true) ∧ (s.journalHeld d stack pos x = false) ∧ (s.ownFirst x stack pos = true) ∧ (stack < 12)) ([])) (0)) (0)) (0)) (SubPart.fresh 0 0)) (descOf (raw [(0, 1, 3)]) .waiting)) (5)) (inFlight (raw [(0, 1, 3)]) .waiting)),
    decide ((fun (s : State) => (fun (d : Nat) => (fun (x : Desc) => (fun (p : SubPart) => (fun (stack : Nat) => (fun (pos : Nat) => (fun (b : Nat) => (fun (c : Nat) => (fun (more : List Nat) => s.Inv = true ∧ (s.desc? d = some x) ∧ (x.sub? stack pos = some p) ∧ (p.phase = .waiting) ∧ (s.stackUp stack = true) ∧ (s.benchesFor stack pos = b :: more) ∧ (s.waitOver x stack pos b = some c) ∧ ((decide (s.turn d x = true) && (c != 0 || ((b :: more).all fun y => s.benchOpen stack y x.slice) && !s.journalHeld d stack pos x && s.ownFirst x stack pos)) = false)) ([])) (0)) (0)) (0)) (0)) (SubPart.fresh 0 0)) (descOf (raw [(0, 1, 3)]) .waiting)) (5)) (w (inFlight (raw [(0, 1, 3)]) .waiting) (R.benchStatus 0 0) F.benchStatus_busy 1)),
    decide ((fun (s : State) => (fun (d : Nat) => (fun (c : Nat) => (fun (x : Desc) => (fun (p : SubPart) => (fun (stack : Nat) => (fun (pos : Nat) => (fun (b : Nat) => (fun (more : List Nat) => s.Inv = true ∧ (s.desc? d = some x) ∧ (x.sub? stack pos = some p) ∧ (p.phase = .waiting) ∧ (s.stackUp stack = true) ∧ (s.benchesFor stack pos = b :: more) ∧ (s.waitOver x stack pos b = some c) ∧ (c ≠ 0) ∧ (s.turn d x = true)) ([])) (0)) (0)) (0)) (SubPart.fresh 0 0)) (descOf (raw [(0, 1, 3), (3, 1, 0x92)]) .waiting)) (0x15)) (5)) (w (inFlight (raw [(0, 1, 3), (3, 1, 0x92)]) .waiting) (R.stackBarrier 0 2) barBroken 1)),
    decide ((fun (s : State) => (fun (d : Nat) => (fun (x : Desc) => (fun (p : SubPart) => (fun (stack : Nat) => (fun (pos : Nat) => (fun (b : Nat) => (fun (more : List Nat) => s.Inv = true ∧ (s.desc? d = some x) ∧ (x.sub? stack pos = some p) ∧ (p.phase = .waiting) ∧ (s.stackUp stack = true) ∧ (s.benchesFor stack pos = b :: more) ∧ (s.waitOver x stack pos b = none)) ([])) (0)) (0)) (0)) (SubPart.fresh 0 0)) (descOf (raw [(0, 1, 3), (3, 1, 0x92)]) .waiting)) (5)) (inFlight (raw [(0, 1, 3), (3, 1, 0x92)]) .waiting)),
    decide ((fun (s : State) => (fun (d : Nat) => (fun (x : Desc) => (fun (p : SubPart) => (fun (stack : Nat) => (fun (pos : Nat) => s.Inv = true ∧ (s.desc? d = some x) ∧ (x.sub? stack pos = some p) ∧ (p.phase = .waiting) ∧ (s.stackUp stack = true) ∧ (s.benchesFor stack pos = [])) (0)) (0)) (SubPart.fresh 0 0)) (descOf (raw [(0, 1, 3)]) .waiting)) (5)) ((below 7).foldl (fun s b => s.setF (R.repairBench 0 + 8) (b, b) 1) (inFlight (raw [(0, 1, 3)]) .waiting))),
    decide ((fun (s : State) => (fun (d : Nat) => (fun (x : Desc) => (fun (p : SubPart) => (fun (stack : Nat) => (fun (pos : Nat) => s.Inv = true ∧ (s.desc? d = some x) ∧ (x.sub? stack pos = some p) ∧ (p.phase = .waiting) ∧ (s.stackUp stack = false) ∧ (x.arriveAfter = false) ∧ ((x.mapSub stack pos fun p => { p with phase := .ended, code := 0x15 }).allEnded = false)) (0)) (0)) (SubPart.fresh 0 0)) ({ descOf (raw [(0, 1, 3)]) .waiting with subs := [SubPart.fresh 0 0, SubPart.fresh 1 0] })) (5)) ({ w ready (R.stackStatus 0) F.stackStatus_in_service 0 with bench := { ready.bench with descs := [(5, { descOf (raw [(0, 1, 3)]) .waiting with subs := [SubPart.fresh 0 0, SubPart.fresh 1 0] })] } })),
    decide ((fun (s : State) => (fun (d : Nat) => (fun (stack : Nat) => (fun (pos : Nat) => s.Inv = true ∧ (((s.desc? d).bind fun x => (x.sub? stack pos).map fun p => p.phase == .waiting).getD false = false)) (0)) (0)) (5)) (inFlight (raw [(0, 1, 3)]) .running)),
    decide ((fun (s : State) => (fun (d : Nat) => (fun (x : Desc) => (fun (p : SubPart) => (fun (stack : Nat) => (fun (pos : Nat) => s.Inv = true ∧ (s.desc? d = some x) ∧ (x.sub? stack pos = some p) ∧ (p.phase = .running) ∧ (p.did = true)) (0)) (0)) ({ SubPart.fresh 0 0 with phase := .running, did := true })) ({ descOf (raw [(0, 1, 3)]) .running with subs := [{ SubPart.fresh 0 0 with phase := .running, did := true }, { SubPart.fresh 1 0 with phase := .running }] })) (5)) ({ ready with bench := { ready.bench with descs := [(5, { descOf (raw [(0, 1, 3)]) .running with subs := [{ SubPart.fresh 0 0 with phase := .running, did := true }, { SubPart.fresh 1 0 with phase := .running }] })] } })),
    decide ((fun (s : State) => (fun (d : Nat) => (fun (x : Desc) => (fun (p : SubPart) => (fun (stack : Nat) => (fun (pos : Nat) => s.Inv = true ∧ (s.desc? d = some x) ∧ (x.sub? stack pos = some p) ∧ (p.phase = .running) ∧ (p.did = true) ∧ (p.also = []) ∧ (p.code = 0) ∧ (x.arriveAfter = false) ∧ ((x.mapSub stack pos fun p => { p with phase := .ended, code := 0 }).allEnded = false)) (0)) (0)) ({ SubPart.fresh 0 0 with phase := .running, did := true })) ({ descOf (raw [(0, 1, 3)]) .running with subs := [{ SubPart.fresh 0 0 with phase := .running, did := true }, { SubPart.fresh 1 0 with phase := .running }] })) (5)) ({ ready with bench := { ready.bench with descs := [(5, { descOf (raw [(0, 1, 3)]) .running with subs := [{ SubPart.fresh 0 0 with phase := .running, did := true }, { SubPart.fresh 1 0 with phase := .running }] })] } })),
    decide ((fun (s : State) => (fun (d : Nat) => (fun (x : Desc) => (fun (p : SubPart) => (fun (stack : Nat) => (fun (pos : Nat) => s.Inv = true ∧ (s.desc? d = some x) ∧ (x.sub? stack pos = some p) ∧ (p.phase = .running) ∧ (p.did = true) ∧ (p.also = []) ∧ (x.arriveAfter = false) ∧ (natBit x.stackMask 0 = true) ∧ (stack < 12) ∧ (p.bench < 7) ∧ ((x.mapSub stack pos fun p => { p with phase := .ended, code := p.code }).allEnded = true)) (0)) (0)) ({ SubPart.fresh 0 0 with phase := .running, did := true })) ({ descOf (raw [(0, 1, 3), (10, 2, 1)]) .running with subs := [{ SubPart.fresh 0 0 with phase := .running, did := true }] })) (5)) ({ ready with bench := { ready.bench with descs := [(5, { descOf (raw [(0, 1, 3), (10, 2, 1)]) .running with subs := [{ SubPart.fresh 0 0 with phase := .running, did := true }] })] } })),
    decide ((fun (s : State) => (fun (d : Nat) => (fun (stack : Nat) => (fun (pos : Nat) => s.Inv = true ∧ (((s.desc? d).bind fun x => (x.sub? stack pos).map fun p => p.phase == .running && p.did).getD false = false)) (0)) (0)) (5)) (inFlight (raw [(0, 1, 3)]) .running))] id = true := by decide +kernel

set_option maxRecDepth 20000 in
/-- For each clause, in order, a state and operands that meet its hypotheses. -/
theorem witness_ReduceAndQuantize : List.all [
    decide ((fun (s : State) => (fun (d : Nat) => (fun (x : Desc) => s.Inv = true ∧ (s.desc? d = some x) ∧ (x.opcode = 0x03) ∧ (x.subs.length = 1) ∧ (x.ready = true) ∧ (x.field 64 1 ≤ 2) ∧ (x.field 66 1 ≠ 1) ∧ ((s.readRanges x.slice ((below (x.field 56 4)).map fun k => (x.field 40 8 + k * x.field 48 8, x.field 60 4 * formBytes (x.field 64 1)))).2.1 = []) ∧ (((s.readRanges x.slice ((below (x.field 56 4)).map fun k => (x.field 40 8 + k * x.field 48 8, x.field 60 4 * formBytes (x.field 64 1)))).2.2.writeRanges x.slice [(x.field 72 8, ((below (x.field 60 4)).map fun i => (reduceElement x.raw ((below (x.field 56 4)).map fun k => s.bytesAt (x.field 40 8 + k * x.field 48 8 + i * formBytes (x.field 64 1)) (formBytes (x.field 64 1))) [] (x.rnd i)).1).flatten)]).1 = []) ∧ (s.noneWaits = true)) (descOf sumRaw .running)) (5)) (sumState)),
    decide ((fun (s : State) => (fun (d : Nat) => (fun (x : Desc) => s.Inv = true ∧ (s.desc? d = some x) ∧ (x.opcode = 0x06) ∧ (x.subs.length = 1) ∧ (x.ready = true) ∧ (5 ≤ x.field 69 1) ∧ ((s.memRead 0x0E 0 0 x.slice (x.field 40 8) (32 * x.field 64 4 * (if x.field 68 1 = 0 then 4 else 2))).1 = .bytes (s.bytesAt (x.field 40 8) (32 * x.field 64 4 * (if x.field 68 1 = 0 then 4 else 2)))) ∧ (((s.memRead 0x0E 0 0 x.slice (x.field 40 8) (32 * x.field 64 4 * (if x.field 68 1 = 0 then 4 else 2))).2.writeRanges x.slice [(x.field 48 8, (quantizeAll (x.field 68 1) (x.field 69 1) (x.field 64 4) (s.bytesAt (x.field 40 8) (32 * x.field 64 4 * (if x.field 68 1 = 0 then 4 else 2))) x.rnd).1)]).1 = []) ∧ (s.noneWaits = true)) (descOf quantRaw .running)) (5)) (quantState)),
    decide ((fun (s : State) => (fun (d : Nat) => (fun (x : Desc) => s.Inv = true ∧ (s.desc? d = some x) ∧ (x.opcode = 0x06) ∧ (x.subs.length = 1) ∧ (x.ready = true) ∧ (x.field 69 1 ≤ 4) ∧ ((s.memRead 0x0E 0 0 x.slice (x.field 40 8) (32 * x.field 64 4 * (if x.field 68 1 = 0 then 4 else 2))).1 = .bytes (s.bytesAt (x.field 40 8) (32 * x.field 64 4 * (if x.field 68 1 = 0 then 4 else 2)))) ∧ (((s.memRead 0x0E 0 0 x.slice (x.field 40 8) (32 * x.field 64 4 * (if x.field 68 1 = 0 then 4 else 2))).2.writeRanges x.slice [(x.field 48 8, (quantizeAll (x.field 68 1) (x.field 69 1) (x.field 64 4) (s.bytesAt (x.field 40 8) (32 * x.field 64 4 * (if x.field 68 1 = 0 then 4 else 2))) x.rnd).1), (x.field 56 8, (quantizeAll (x.field 68 1) (x.field 69 1) (x.field 64 4) (s.bytesAt (x.field 40 8) (32 * x.field 64 4 * (if x.field 68 1 = 0 then 4 else 2))) x.rnd).2.1)]).1 = []) ∧ (s.noneWaits = true)) (descOf mxRaw .running)) (5)) (mxState))] id = true := by decide +kernel

set_option maxRecDepth 20000 in
/-- For each clause, in order, a state and operands that meet its hypotheses. -/
theorem witness_BarrierAndLaunchCommands : List.all [
    decide ((fun (s : State) => (fun (d : Nat) => (fun (x : Desc) => s.Inv = true ∧ (s.desc? d = some x) ∧ (x.opcode = 0x11) ∧ (x.scope = 3) ∧ (x.field 40 2 ≠ 0) ∧ (barReady (s.barrier .device x.barNo) = false) ∧ (s.waitPending .device x.barNo d = false) ∧ (s.turn d x = true) ∧ ((Tab.find? s.bench.stalled 12).isNone = true) ∧ (((maskList 12 x.stackMask).any s.stackUp) = true) ∧ (x.cq < 4096)) (descOf (raw [(0, 1, 0x11), (3, 1, 0xC2), (10, 2, 1), (40, 2, 7)]) .ended)) (5)) (inFlight (raw [(0, 1, 0x11), (3, 1, 0xC2), (10, 2, 1), (40, 2, 7)]) .ended)),
    decide ((fun (s : State) => (fun (d : Nat) => (fun (x : Desc) => s.Inv = true ∧ (s.desc? d = some x) ∧ (x.opcode = 0x11) ∧ (x.scope = 3) ∧ (x.field 40 2 ≠ 0) ∧ (barReady (s.barrier .device x.barNo) = false) ∧ (s.waitPending .device x.barNo d = true) ∧ (x.cq < 4096)) (descOf (raw [(0, 1, 0x11), (3, 1, 0xC2), (40, 2, 7)]) .ended)) (5)) ({ inFlight (raw [(0, 1, 0x11), (3, 1, 0xC2), (40, 2, 7)]) .ended with cores := [(0, { Core.clear with stall := .bar .device 2 1 })] })),
    decide ((fun (s : State) => (fun (n : Nat) => s.Inv = true ∧ (n < 16) ∧ (barReady (s.reg (R.deviceBarrier n)) = true) ∧ ((Tab.find? s.bench.stalled 12).isNone = true)) (3)) (w (w ready (R.deviceBarrier 3) barExpected 2) (R.deviceBarrier 3) barArrived 2)),
    decide ((fun (s : State) => (fun (st : Nat) => (fun (n : Nat) => s.Inv = true ∧ (st < 12) ∧ (n < 16) ∧ (barReady (s.reg (R.stackBarrier st n)) = true) ∧ ((Tab.find? s.bench.stalled st).isNone = true)) (3)) (1)) (w (w ready (R.stackBarrier 1 3) barExpected 2) (R.stackBarrier 1 3) barArrived 2)),
    decide ((fun (s : State) => (fun (st : Nat) => (fun (n : Nat) => s.Inv = true ∧ (s.serving = true) ∧ (getBits (s.reg (R.stackBarrier st n)) barArrived = 0) ∧ (s.linkFenced st = false)) (3)) (2)) (ready)),
    decide ((fun (s : State) => (fun (st : Nat) => (fun (n : Nat) => s.Inv = true ∧ (st < 12) ∧ (n < 16) ∧ (s.serving = true) ∧ (getBits (s.reg (R.stackBarrier st n)) barArrived ≠ 0)) (3)) (2)) (w ready (R.stackBarrier 2 3) barArrived 1)),
    decide ((fun (s : State) => (fun (d : Nat) => (fun (x : Desc) => s.Inv = true ∧ (s.desc? d = some x) ∧ (x.opcode = 0x10) ∧ ((Tab.find? s.bench.launches d).isNone = true) ∧ ((s.launchLimit x).isSome = true) ∧ (s.turn d x = true) ∧ (((maskList 12 x.stackMask).any fun st => winSetBad (s.windows st (x.field 60 2)) (x.field 68 1)) = false) ∧ ((s.policyOf x.slice).signed = false)) (descOf (raw [(0, 1, 0x10), (10, 2, 1), (12, 1, 1), (62, 2, 3)]) .ended)) (5)) (inFlight (raw [(0, 1, 0x10), (10, 2, 1), (12, 1, 1), (62, 2, 3)]) .ended)),
    decide ((fun (s : State) => (fun (d : Nat) => (fun (x : Desc) => (fun (l : Launch) => (fun (b : Nat) => (fun (idx : Nat) => (fun (stack : Nat) => (fun (pos : Nat) => s.Inv = true ∧ (s.desc? d = some x) ∧ (Tab.find? s.bench.launches d = some l) ∧ (l.insts[idx]? = some .waiting) ∧ (natBit x.stackMask stack = true) ∧ (natBit x.benchMask pos = true) ∧ (s.turn d x = true) ∧ (s.stackUp stack = true) ∧ (s.benchFor stack pos = some b) ∧ (s.waitOver x stack pos b = some 0) ∧ (x.field 68 1 ≤ (s.freePageList (benchKey stack b)).length) ∧ (s.benchOpen stack b x.slice = true) ∧ (stack < 12) ∧ (b < 7)) (0)) (0)) (0)) (0)) (⟨[.waiting], []⟩)) (descOf (raw [(0, 1, 0x10), (10, 2, 1), (12, 1, 1), (40, 8, 0x4000), (62, 2, 3)]) .ended)) (5)) (launchState)),
    decide ((fun (s : State) => (fun (n : Nat) => (fun (x : Desc) => (fun (l : Launch) => (fun (core : Nat) => (fun (idx : Nat) => s.Inv = true ∧ ((Tab.get Core.clear s.cores core).role = .kernel n idx) ∧ (core < 84) ∧ (s.desc? n = some x) ∧ (Tab.find? s.bench.launches n = some l) ∧ (((l.insts.set idx (.ended 0x12 (exitValue 0x10 (Tab.get Core.clear s.cores core)))).all fun i => i.outcome.isSome) = false) ∧ ((x.arriveAfter && x.scope == 1) = false)) (0)) (0)) (⟨[.running 0, .waiting], []⟩)) (descOf (raw [(0, 1, 0x10), (10, 2, 1), (12, 1, 1), (40, 8, 0x4000), (62, 2, 3)]) .ended)) (5)) ({ launchState with cores := [(0, { Core.clear with role := .kernel 5 0 })], bench := { launchState.bench with launches := [(5, ⟨[.running 0, .waiting], []⟩)] } })),
    decide ((fun (s : State) => (fun (page : Nat) => (fun (stack : Nat) => (fun (b : Nat) => s.Inv = true ∧ (Tab.find? s.bench.pages (benchKey stack b * 64 + page) = some 2) ∧ (s.linkFenced stack = false)) (0)) (0)) (3)) ({ ready with bench := { ready.bench with pages := [(3, 2)], scratch := [(3 * 65536, 9)] } }))] id = true := by decide +kernel

set_option maxRecDepth 20000 in
/-- For each clause, in order, a state and operands that meet its hypotheses. -/
theorem witness_RampGovernor : List.all [
    decide ((fun (s : State) => (fun (stack : Nat) => s.Inv = true ∧ (s.tablesRise = true) ∧ (s.linkFenced stack = false)) (0)) ({ ready with bench := { ready.bench with rates := [(5, ⟨64, false, false⟩), (6, ⟨8, false, true⟩)] } })),
    decide ((fun (s : State) => (fun (stack : Nat) => s.Inv = true ∧ (s.linkFenced stack = true)) (0)) (ready.setLink 0 ⟨.fenced, 0, false, 0⟩)),
    decide ((fun (s : State) => (fun (stack : Nat) => s.Inv = true ∧ (s.tablesRise = true) ∧ (stack < 12)) (0)) ({ ready with bench := { ready.bench with rates := [(5, ⟨8, false, true⟩), (9, ⟨16, false, true⟩)] } }))] id = true := by decide +kernel

set_option maxRecDepth 20000 in
/-- For each clause, in order, a state and operands that meet its hypotheses. -/
theorem witness_BenchFaults : List.all [
    decide ((fun (s : State) => (fun (e : Nat) => (fun (st : Nat) => (fun (b : Nat) => s.Inv = true ∧ (st < 12) ∧ (b < 7) ∧ (e < 8) ∧ (s.linkFenced st = false) ∧ (s.unitFenced (engineLevel st b) e = false) ∧ (s.reg (R.repairEngine st b + 16) = 0) ∧ (s.freeSpare (engineLevel st b) = some 8)) (0)) (0)) (2)) (ready)),
    decide ((fun (s : State) => (fun (e : Nat) => (fun (lane : Nat) => (fun (st : Nat) => (fun (b : Nat) => s.Inv = true ∧ (st < 12) ∧ (b < 7) ∧ (e < 9) ∧ (lane < 32) ∧ (s.linkFenced st = false) ∧ (s.unitFenced (laneLevel st b e) lane = false) ∧ (s.reg (R.repairLane st (9 * b + e) + 16) = 0) ∧ (s.freeSpare (laneLevel st b e) = some 32)) (0)) (0)) (7)) (2)) (ready)),
    decide ((fun (s : State) => (fun (b : Nat) => (fun (st : Nat) => s.Inv = true ∧ (st < 12) ∧ (b < 6) ∧ (s.linkFenced st = false) ∧ (s.unitFenced (benchLevel st) b = false) ∧ (s.reg (R.repairBench st + 16) = 0) ∧ (s.freeSpare (benchLevel st) = some 6)) (0)) (2)) (ready)),
    decide ((fun (s : State) => (fun (e : Nat) => (fun (st : Nat) => (fun (b : Nat) => s.Inv = true ∧ (s.tablesRise = true) ∧ ((Tab.find? s.bench.entering (benchKey st b * 9 + e)).isSome = true)) (0)) (0)) (8)) ({ ready with bench := { ready.bench with entering := [(8, ())] } })),
    decide ((fun (s : State) => (fun (b : Nat) => (fun (st : Nat) => s.Inv = true ∧ (s.tablesRise = true) ∧ ((Tab.find? s.bench.entering (2 ^ 20 + benchKey st b)).isSome = true)) (0)) (6)) ({ ready with bench := { ready.bench with entering := [(2 ^ 20 + 6, ())] } }))] id = true := by decide +kernel

set_option maxRecDepth 20000 in
/-- For each clause, in order, a state and operands that meet its hypotheses. -/
theorem witness_CoreBundlesAndExceptions : List.all [
    decide ((fun (s : State) => (fun (core : Nat) => (fun (wd : Nat) => (fun (feed : Feed) => s.Inv = true ∧ (s.atBundle core feed [wd] = true) ∧ (legalAs core [wd] [⟨.a0, wd, []⟩] = true) ∧ (syMajor wd = 0) ∧ ((s.core core).pred (syPred wd) = true)) (⟨[0x800A5700#32], .bytes [], false, [], []⟩)) (0x800A5700)) (96)) (coreState)),
    decide ((fun (s : State) => (fun (core : Nat) => (fun (wd : Nat) => (fun (feed : Feed) => s.Inv = true ∧ (s.atBundle core feed [wd] = true) ∧ (legalAs core [wd] [⟨.b, wd, []⟩] = true) ∧ (syMajor wd = 0x18) ∧ ((s.core core).pred (syPred wd) = true)) (⟨[BitVec.ofNat 32 (0x80000000 + 0x18 * 2 ^ 25 + 5)], .bytes [], false, [], []⟩)) (0x80000000 + 0x18 * 2 ^ 25 + 5)) (96)) (coreState)),
    decide ((fun (s : State) => (fun (core : Nat) => (fun (ws : List Nat) => (fun (wd : Nat) => (fun (feed : Feed) => s.Inv = true ∧ (s.atBundle core feed ws = true) ∧ (illegalAt core ws wd = true) ∧ ((s.core core).role = .firmware) ∧ (natBit (s.core core).status.toNat 2 = false)) (⟨[BitVec.ofNat 32 (0x80000000 + 0x1F * 2 ^ 25)], .bytes [], false, [], []⟩)) (0x80000000 + 0x1F * 2 ^ 25)) ([0x80000000 + 0x1F * 2 ^ 25])) (96)) (coreState)),
    decide ((fun (s : State) => (fun (core : Nat) => (fun (cop : Nat) => (fun (o : CopOp) => (fun (o' : CopOp) => (fun (q : List CopOp) => s.Inv = true ∧ ((s.core core).role ≠ .free) ∧ ((s.core core).halted = false) ∧ ((s.core core).stall = .none) ∧ (((s.core core).cop cop).queue = o :: o' :: q) ∧ (s.engineEntering core cop o = false)) ([])) (⟨2, 0, 0, 0, 0, 0, 0, 0, 0⟩)) (⟨0, 0, 0, 0, 0, 0, 0, 0, 0⟩)) (6)) (96)) (coreState.setCore 96 ((coreState.core 96).setCop 6 { Cop.idle with queue := [⟨0, 0, 0, 0, 0, 0, 0, 0, 0⟩, ⟨2, 0, 0, 0, 0, 0, 0, 0, 0⟩] }))),
    decide ((fun (s : State) => (fun (core : Nat) => (fun (va : Word) => (fun (bus : Bool) => (fun (l : List (Word × Bool)) => s.Inv = true ∧ ((s.core core).role = .firmware) ∧ ((s.core core).halted = false) ∧ ((s.core core).stall = .none) ∧ ((s.core core).fails = (va, bus) :: l) ∧ (natBit (s.core core).status.toNat 2 = false)) ([])) (true)) (0x500)) (96)) (coreState.setCore 96 { coreState.core 96 with fails := [(0x500, true)] })),
    decide ((fun (s : State) => (fun (core : Nat) => (fun (line : Nat) => s.Inv = true ∧ (line < 64) ∧ ((s.core core).role = .firmware) ∧ ((s.core core).halted = false) ∧ (natBit (s.core core).status.toNat 3 = false)) (9)) (96)) (coreState)),
    decide ((fun (s : State) => (fun (core : Nat) => (fun (line : Nat) => s.Inv = true ∧ (line < 64) ∧ ((s.core core).role = .firmware) ∧ ((s.core core).halted = false) ∧ ((s.core core).stall = .none) ∧ ((s.core core).status = 9) ∧ ((s.core core).ipend = 0) ∧ (natBit (s.core core).ienable.toNat line = true)) (9)) (96)) (coreState.setCore 96 { coreState.core 96 with status := 9, ienable := 0x200 }))] id = true := by decide +kernel

set_option maxRecDepth 20000 in
/-- For each clause, in order, a state and operands that meet its hypotheses. -/
theorem witness_RegionCommands : List.all [
    decide ((fun (s : State) => (fun (v : Word) => (fun (i : Nat) => s.Inv = true ∧ (s.serving = true) ∧ (s.regionIdle = true) ∧ ((s.regionArgs v).index = i) ∧ (i < 4080) ∧ (s.createStatus (s.regionArgs v) = 0) ∧ (s.replicates 3 (s.regionArgs v).owner = false)) (4079)) (word [(F.regionCmdGo_op, 1), (F.regionCmdGo_index, 4079)])) (w (w roomy R.regionCmdBase F.regionCmdBase_base 1) R.regionCmdSize F.regionCmdSize_granules 1)),
    decide ((fun (s : State) => (fun (v : Word) => s.Inv = true ∧ (s.serving = true) ∧ (s.regionIdle = true) ∧ (4080 ≤ getBits v F.regionCmdGo_index)) (word [(F.regionCmdGo_op, 1), (F.regionCmdGo_index, 4080)])) (roomy)),
    decide ((fun (s : State) => (fun (v : Word) => s.Inv = true ∧ (s.serving = true) ∧ (s.regionIdle = true) ∧ (getBits v F.regionCmdGo_index < 4080) ∧ ((Tab.find? s.regions (getBits v F.regionCmdGo_index)).isSome = true)) (word [(F.regionCmdGo_op, 1)])) (roomy)),
    decide ((fun (s : State) => (fun (v : Word) => (fun (i : Nat) => (fun (r : Region) => s.Inv = true ∧ (s.serving = true) ∧ (s.regionIdle = true) ∧ (getBits v F.regionCmdGo_index = i) ∧ (i < 4080) ∧ (Tab.find? s.regions i = some r) ∧ (r.state ≠ 2) ∧ (s.mapped r.base r.size = false) ∧ (s.replicates 3 r.owner = false)) (⟨0, 2 ^ 20, 0, 0, false, 1, false⟩)) (0)) (word [(F.regionCmdGo_op, 2)])) (roomy)),
    decide ((fun (s : State) => (fun (v : Word) => (fun (i : Nat) => (fun (r : Region) => s.Inv = true ∧ (s.serving = true) ∧ (s.regionIdle = true) ∧ (getBits v F.regionCmdGo_index = i) ∧ (i < 4080) ∧ (Tab.find? s.regions i = some r) ∧ (r.state = 1) ∧ (s.replicates 3 r.owner = false) ∧ (natBit (s.getF R.pairCfg F.pairCfg_classes) 0 = true)) (⟨0, 2 ^ 20, 0, 0, false, 1, false⟩)) (0)) (word [(F.regionCmdGo_op, 3)])) (w (w roomy R.pairCfg F.pairCfg_classes 1) R.regionCmdAttr F.regionCmdAttr_bulk_mirror 1)),
    decide ((fun (s : State) => (fun (i : Nat) => (fun (r : Region) => s.Inv = true ∧ (Tab.find? s.regions i = some r) ∧ (r.state = 2) ∧ (r.creating = true) ∧ (s.noneWaits = true)) (⟨2 ^ 21, 2 ^ 21, 0, 0, false, 2, true⟩)) (3)) ({ roomy with regions := [(3, ⟨2 ^ 21, 2 ^ 21, 0, 0, false, 2, true⟩)], mem := [(5, 1), (2 ^ 21 + 1, 9)] })),
    decide ((fun (s : State) => (fun (i : Nat) => (fun (r : Region) => s.Inv = true ∧ (Tab.find? s.regions i = some r) ∧ (r.state = 2) ∧ (r.creating = false) ∧ (s.noneWaits = true)) (⟨2 ^ 21, 2 ^ 21, 0, 0, false, 2, false⟩)) (3)) ({ roomy with regions := [(3, ⟨2 ^ 21, 2 ^ 21, 0, 0, false, 2, false⟩)], mem := [(5, 1), (2 ^ 21 + 1, 9)] }))] id = true := by decide +kernel

set_option maxRecDepth 20000 in
/-- For each clause, in order, a state and operands that meet its hypotheses. -/
theorem witness_MemoryTierCommands : List.all [
    decide ((fun (s : State) => (fun (stack : Nat) => s.Inv = true ∧ (stack < 12)) (11)) (ready)),
    decide ((fun (s : State) => (fun (c : Nat) => s.Inv = true ∧ (s.ddr.kept.contains c = true) ∧ (s.ddr.fenced.contains c = false)) (7)) ({ ready with ddr := ⟨[0, 7], 64 * gib, 0, []⟩ })),
    decide ((fun (s : State) => (fun (a : Nat) => (fun (data : List Byte) => (fun (source : Nat) => (fun (slice : Nat) => s.Inv = true ∧ (s.isStitched a = true) ∧ (data ≠ []) ∧ ((a - 0x8000000000) % 40960 + data.length ≤ 40960) ∧ (Tab.find? s.stripes (stripeOf a) = none) ∧ ((s.memWrite 0x0D 0xFF source slice a data).1 = none) ∧ (s.noneWaits = true)) (0)) (0)) ([1, 2, 3])) (0x8000000100)) (stitched)),
    decide ((fun (s : State) => (fun (a : Nat) => (fun (data : List Byte) => (fun (l : List StripeReq) => s.Inv = true ∧ (s.isStitched a = true) ∧ (data ≠ []) ∧ ((a - 0x8000000000) % 40960 + data.length ≤ 40960) ∧ (Tab.find? s.stripes (stripeOf a) = some l)) ([])) ([1, 2, 3])) (0x8000000100)) ({ stitched with stripes := [(0, [])] })),
    decide ((fun (s : State) => (fun (n : Nat) => s.Inv = true ∧ (Tab.find? s.stripes n = some [])) (0)) ({ stitched with stripes := [(0, [])] })),
    decide ((fun (s : State) => (fun (a : Nat) => (fun (data : List Byte) => (fun (n : Nat) => (fun (source : Nat) => (fun (slice : Nat) => s.Inv = true ∧ (Tab.find? s.stripes n = some [.write source slice a data]) ∧ (({ s with stripes := Tab.erase s.stripes n }).noneWaits = true) ∧ ((({ s with stripes := Tab.erase s.stripes n }).memWrite 0x0D 0xFF source slice a data).1 = none)) (0)) (0)) (0)) ([7])) (0x8000000100)) ({ stitched with stripes := [(0, [.write 0 0 0x8000000100 [7]])] })),
    decide ((fun (s : State) => (fun (a : Nat) => (fun (len : Nat) => (fun (l : List Byte) => (fun (source : Nat) => (fun (slice : Nat) => s.Inv = true ∧ (s.isStitched a = true) ∧ (s.needsRebuild a len = false ∨ s.lockedIn a len = []) ∧ ((s.memRead 0x0D 0xFF source slice a len).1 = .bytes l)) (0)) (0)) ([7, 0])) (2)) (0x8000000100)) ({ stitched with mem := [(0x8000000100, 7)] })),
    decide ((fun (s : State) => (fun (a : Nat) => (fun (len : Nat) => (fun (n : Nat) => (fun (l : List Nat) => s.Inv = true ∧ (s.isStitched a = true) ∧ (s.needsRebuild a len = true) ∧ (s.lockedIn a len = n :: l)) ([])) (0)) (2)) (0x8000000100)) ({ w stitched R.stitchStatus F.stitchStatus_lost_stacks 4 with stripes := [(0, [])] })),
    decide ((fun (s : State) => s.Inv = true ∧ (2 ≤ s.getF R.pwrState F.pwrState_state)) (atS2)),
    decide ((fun (s : State) => (fun (burst : List Byte) => (fun (ev : List CodeEvent) => (fun (s' : State) => s.Inv = true ∧ (ev.foldl State.codeEvent s = s') ∧ (s'.getF R.pwrState F.pwrState_state < 2) ∧ (s'.stackMem (s'.scrub.hbm / 2 ^ 30) = true) ∧ ((s.scrub.hbm + 1) / 2 ^ 30 = s.scrub.hbm / 2 ^ 30) ∧ (s.scrub.hbm / 2 ^ 30 < 12) ∧ (Tab.find? s'.bad (badHbm (s.scrub.hbm / 2 ^ 30) (s.scrub.hbm % 2 ^ 30 * 32)) = none) ∧ (hbmDecode (s.scrub.hbm % 2 ^ 30 * 32) burst = .clean)) (State.codeEvent ready (.bench 3))) ([.bench 3])) (zeros 36)) (ready)),
    decide ((fun (s : State) => (fun (burst : List Byte) => s.Inv = true ∧ (s.getF R.pwrState F.pwrState_state < 2) ∧ (s.stackMem (s.scrub.hbm / 2 ^ 30) = true) ∧ (s.scrub.hbm % 2 ^ 30 * 32 < 2 ^ 35 - s.stitchedSize) ∧ (hbmDecode (s.scrub.hbm % 2 ^ 30 * 32) burst = .uncorrectable)) ([1, 2])) (ready)),
    decide ((fun (s : State) => s.Inv = true ∧ (True)) (atStage 2))] id = true := by decide +kernel

set_option maxRecDepth 20000 in
/-- For each clause, in order, a state and operands that meet its hypotheses. -/
theorem witness_SequenceCommands : List.all [
    decide ((fun (s : State) => (fun (d : Nat) => (fun (x : Desc) => s.Inv = true ∧ (s.acts d x 1 1 = true) ∧ (s.openCode x (s.stackList x.slice (x.field 52 4)) = 0) ∧ (s.noneWaits = true)) (wholeOf (opRaw 1 1 [(48, 4, 7), (52, 4, 5), (16, 8, 77)]))) (5)) (withDesc served (opRaw 1 1 [(48, 4, 7), (52, 4, 5), (16, 8, 77)]))),
    decide ((fun (s : State) => (fun (d : Nat) => (fun (x : Desc) => s.Inv = true ∧ (s.acts d x 1 1 = true) ∧ (s.openCode x (s.stackList x.slice (x.field 52 4)) ≠ 0) ∧ (s.noneWaits = true)) (wholeOf (opRaw 1 1 [(48, 4, 3)]))) (5)) (withDesc served (opRaw 1 1 [(48, 4, 3)]))),
    decide ((fun (s : State) => (fun (d : Nat) => (fun (x : Desc) => (fun (y : Seqn) => s.Inv = true ∧ (s.acts d x 1 2 = true) ∧ (s.seq? (x.field 48 4) = some y) ∧ (y.slice = x.slice) ∧ (y.state = .active ∨ y.state = .lost) ∧ (s.seqHeld (x.field 48 4) = false) ∧ (s.serve.frames.any (fun e => e.2.seq == x.field 48 4) = true) ∧ ((y.pages.all fun e => (Tab.find? s.serve.cold e.2).isNone) = true) ∧ (s.noneWaits = true)) (⟨.active, 0, 0, 0, [0], [(0, 1)], [(0, 0x80000)]⟩)) (wholeOf (opRaw 1 2 [(48, 4, 3)]))) (5)) (withDesc served (opRaw 1 2 [(48, 4, 3)]))),
    decide ((fun (s : State) => (fun (d : Nat) => (fun (x : Desc) => (fun (y : Seqn) => s.Inv = true ∧ (s.acts d x 1 2 = true) ∧ (s.seq? (x.field 48 4) = some y) ∧ (y.slice = x.slice) ∧ (y.state = .parked ∨ y.state = .lost) ∧ (s.seqHeld (x.field 48 4) = false)) (⟨.parked, 0, 0, 0, [0], [(0, 1)], [(0, 0x40000000000)]⟩)) (wholeOf (opRaw 1 2 [(48, 4, 3)]))) (5)) (withDesc { coldServed with serve := { coldServed.serve with frames := [], cold := [(0x40000000000, 0x4000)], seqs := [(3, ⟨.parked, 0, 0, 0, [0], [(0, 1)], [(0, 0x40000000000)]⟩)] } } (opRaw 1 2 [(48, 4, 3)]))),
    decide ((fun (s : State) => (fun (d : Nat) => (fun (x : Desc) => (fun (y : Seqn) => s.Inv = true ∧ (s.acts d x 1 3 = true) ∧ (s.seq? (x.field 48 4) = some y) ∧ (y.slice = x.slice) ∧ (y.state = .active) ∧ (s.seqHeld (x.field 48 4) = false) ∧ (x.field 52 4 ≤ y.length) ∧ (s.noneWaits = true)) (⟨.active, 0, 0, 0, [0], [(0, 1)], [(0, 0x80000)]⟩)) (wholeOf (opRaw 1 3 [(48, 4, 3)]))) (5)) (withDesc served (opRaw 1 3 [(48, 4, 3)]))),
    decide ((fun (s : State) => (fun (d : Nat) => (fun (x : Desc) => (fun (y : Seqn) => (fun (l : LastRec) => (fun (slots : List Nat) => (fun (s' : State) => s.Inv = true ∧ (s.acts d x 1 4 = true) ∧ (s.seq? (x.field 48 4) = some y) ∧ (y.slice = x.slice) ∧ (y.state = .active) ∧ (s.seqHeld (x.field 48 4) = false) ∧ (s.coldTier = true) ∧ (s.last? y.last = some l) ∧ (s.coldSlots l.frameBytes y.pages.length = some (slots, s')) ∧ (s.ddr.fenced.contains 7 = false) ∧ ((s'.copyFrames (x.field 48 4) y.slice l.frameBytes true ((y.pages.map Prod.snd).zip slots)).1 = 0)) (((s.coldSlots tinyLast.frameBytes 1).getD ([], s)).2)) ([0x40000000000])) (tinyLast)) (⟨.active, 0, 0, 0, [0], [(0, 1)], [(0, 0x80000)]⟩)) (wholeOf (opRaw 1 4 [(48, 4, 3)]))) (5)) (withDesc coldServed (opRaw 1 4 [(48, 4, 3)]))),
    decide ((fun (s : State) => (fun (d : Nat) => (fun (x : Desc) => (fun (y : Seqn) => (fun (l : LastRec) => (fun (frames : List Nat) => (fun (s' : State) => s.Inv = true ∧ (s.acts d x 1 5 = true) ∧ (s.seq? (x.field 48 4) = some y) ∧ (y.slice = x.slice) ∧ (y.state = .parked) ∧ (s.seqHeld (x.field 48 4) = false) ∧ (s.coldTier = true) ∧ (s.last? y.last = some l) ∧ (s.framesOf y.slice + y.pages.length ≤ s.limit y.slice .frames) ∧ (s.allocPages (y.pages.map fun e => (x.field 48 4, e.1 / 1024, e.1 % 1024)) = some (frames, s')) ∧ ((s'.copyFrames (x.field 48 4) y.slice l.frameBytes false ((y.pages.map Prod.snd).zip frames)).1 = 0)) (((s.allocPages [(3, 0, 0)]).getD ([], s)).2)) ([0x80000])) (tinyLast)) (⟨.parked, 0, 0, 0, [0], [(0, 1)], [(0, 0x40000000000)]⟩)) (wholeOf (opRaw 1 5 [(48, 4, 3)]))) (5)) (withDesc { coldServed with serve := { coldServed.serve with frames := [], cold := [(0x40000000000, 0x4000)], seqs := [(3, ⟨.parked, 0, 0, 0, [0], [(0, 1)], [(0, 0x40000000000)]⟩)] } } (opRaw 1 5 [(48, 4, 3)]))),
    decide ((fun (s : State) => (fun (addr : Nat) => (fun (n : Nat) => (fun (f : Frame) => s.Inv = true ∧ (Tab.find? s.serve.frames addr = some f) ∧ (f.zeroing = true) ∧ (n = f.bytes) ∧ (s.noneWaits = true)) (⟨3, 0, true, 0x4000⟩)) (0x4000)) (0x80000)) ({ served with mem := [(0x80001, 5), (0x84000, 6)], serve := { served.serve with frames := [(0x80000, ⟨3, 0, true, 0x4000⟩)] } }))] id = true := by decide +kernel

set_option maxRecDepth 20000 in
/-- For each clause, in order, a state and operands that meet its hypotheses. -/
theorem witness_LastAndFeedCommands : List.all [
    decide ((fun (s : State) => (fun (d : Nat) => (fun (k : Nat) => (fun (x : Desc) => (fun (r : List Byte) => (fun (tab : List Byte) => s.Inv = true ∧ (s.acts d x 1 8 = true) ∧ (x.slice = 0) ∧ (x.field 56 8 % 64 = 0) ∧ (s.owned 0 (x.field 56 8) 128 = true) ∧ (s.memRead 0x0F 0xFF 6 0 (x.field 56 8) 128 = (.bytes r, s)) ∧ (lastOk ⟨r, []⟩ = true) ∧ (s.owned 0 (fieldLE r 40 8) (fieldLE r 0 2 * 32) = true) ∧ (s.memRead 0x0F 0xFF 6 0 (fieldLE r 40 8) (fieldLE r 0 2 * 32) = (.bytes tab, s)) ∧ ((chunks 32 (fieldLE r 0 2) tab).all layerOk = true) ∧ ((LastRec.ranges ⟨r, chunks 32 (fieldLE r 0 2) tab⟩).all (fun e => s.owned 0 e.1 e.2) = true) ∧ (k = x.field 42 2) ∧ (s.last? k = none) ∧ (s.replicates 3 0 = false) ∧ (s.noneWaits = true)) (zeros 32)) (tinyLast.raw)) (wholeOf (opRaw 1 8 [(42, 2, 63), (56, 8, 0x4000)]))) (63)) (5)) ({ withDesc served (opRaw 1 8 [(42, 2, 63), (56, 8, 0x4000)]) with mem := putCells [] 0x4000 tinyLast.raw })),
    decide ((fun (s : State) => (fun (d : Nat) => (fun (k : Nat) => (fun (x : Desc) => s.Inv = true ∧ (s.acts d x 1 9 = true) ∧ (x.slice = 0) ∧ (k = x.field 42 2) ∧ ((s.last? k).isSome = true) ∧ ((s.serve.seqs.any fun e => e.2.last == k) = false) ∧ ((s.serve.feeds.any fun e => e.2.last == k) = false) ∧ ((s.serve.arenas.any fun e => e.2.last == k) = false) ∧ (s.replicates 3 0 = false) ∧ (s.noneWaits = true)) (wholeOf (opRaw 1 9 []))) (0)) (5)) (withDesc { served with serve := { served.serve with seqs := [], arenas := [] } } (opRaw 1 9 []))),
    decide ((fun (s : State) => (fun (d : Nat) => (fun (x : Desc) => (fun (l : LastRec) => (fun (r : Region) => (fun (k : Nat) => (fun (i : Nat) => s.Inv = true ∧ (s.acts d x 1 10 = true) ∧ (x.slice = 0) ∧ (k = x.field 42 2) ∧ (s.last? k = some l) ∧ (List.find? (fun (e : Nat × Region) => e.2.base == x.field 56 8) s.regions = some (i, r)) ∧ (r.tier = 0) ∧ (r.owner = 0) ∧ (r.state = 1) ∧ (Tab.find? s.serve.arenas (x.field 56 8) = none) ∧ (s.arenaFrames + r.size / l.frameBytes ≤ 4194304) ∧ (s.replicates 3 0 = false) ∧ (s.noneWaits = true)) (0)) (0)) (⟨0, 2 ^ 20, 0, 0, false, 1, false⟩)) (tinyLast)) (wholeOf (opRaw 1 10 []))) (5)) (withDesc served (opRaw 1 10 []))),
    decide ((fun (s : State) => (fun (d : Nat) => (fun (x : Desc) => (fun (r : Arena) => s.Inv = true ∧ (s.acts d x 1 13 = true) ∧ (x.slice = 0) ∧ (Tab.find? s.serve.arenas (x.field 56 8) = some r) ∧ ((s.serve.frames.any fun e => !e.2.zeroing && decide (x.field 56 8 ≤ e.1) && decide (e.1 < x.field 56 8 + r.size)) = false) ∧ (s.replicates 3 0 = false) ∧ (s.noneWaits = true)) (⟨0, 0x80000, 0x4000⟩)) (wholeOf (opRaw 1 13 [(56, 8, 0x80000)]))) (5)) (withDesc { served with serve := { served.serve with frames := [(0x80000, ⟨3, 0, true, 0x4000⟩)] } } (opRaw 1 13 [(56, 8, 0x80000)]))),
    decide ((fun (s : State) => (fun (d : Nat) => (fun (x : Desc) => (fun (l : LastRec) => (fun (n : Nat) => s.Inv = true ∧ (s.acts d x 1 11 = true) ∧ (x.slice = 0) ∧ (s.last? (x.field 42 2) = some l) ∧ (n = 64 + alignUp (4 * x.field 46 2) 64 + alignUp (x.field 46 2 * l.qRow) 64 + x.field 46 2 * l.kvRow) ∧ (s.bufferCode (x.field 52 4) (x.field 56 8) n = 0) ∧ (s.bufferCode (x.field 52 4) (x.field 64 8) n = 0) ∧ (s.getF (R.dpStatus (x.field 41 1)) F.dpStatus_owner = x.field 52 4) ∧ (l.permits (x.field 52 4) = true) ∧ (s.feed? (x.field 48 4) = none) ∧ (s.noneWaits = true)) (512)) (tinyLast)) (wholeOf (opRaw 1 11 [(46, 2, 2), (48, 4, 63), (56, 8, 0x4000), (64, 8, 0x8000), (88, 4, 64)]))) (5)) (w (withDesc served (opRaw 1 11 [(46, 2, 2), (48, 4, 63), (56, 8, 0x4000), (64, 8, 0x8000), (88, 4, 64)])) (R.dpStatus 0) F.dpStatus_owner 0)),
    decide ((fun (s : State) => (fun (d : Nat) => (fun (x : Desc) => (fun (y : FeedBind) => s.Inv = true ∧ (s.acts d x 1 12 = true) ∧ (x.slice = 0) ∧ (s.feed? (x.field 48 4) = some y) ∧ (y.closing = none) ∧ (y.waiting = none) ∧ (s.feedBusy (x.field 48 4) = false) ∧ (s.noneWaits = true)) (⟨0, 0, 0, 2, 0, 0, 0, 0, 64, 0, 1, none, false, none⟩)) (wholeOf (opRaw 1 12 []))) (5)) ({ withDesc served (opRaw 1 12 []) with serve := { served.serve with feeds := [(0, ⟨0, 0, 0, 2, 0, 0, 0, 0, 64, 0, 1, none, false, none⟩)] } })),
    decide ((fun (s : State) => (fun (port : Nat) => (fun (y : FeedBind) => (fun (f : Nat) => s.Inv = true ∧ (s.portUsable port = true) ∧ (port < 8) ∧ (s.getF (R.dpDbBase port) F.dpDbBase_enable = 1) ∧ (s.feed? f = some y) ∧ (y.port ≠ port)) (0)) (⟨0, 0, 0, 2, 0, 0, 0, 0, 64, 0, 1, none, false, none⟩)) (1)) ({ portServed with serve := { portServed.serve with feeds := [(0, ⟨0, 0, 0, 2, 0, 0, 0, 0, 64, 0, 1, none, false, none⟩)] } })),
    decide ((fun (s : State) => (fun (port : Nat) => s.Inv = true ∧ (port < 8) ∧ (s.portUsable port = false ∨ s.getF (R.dpDbBase port) F.dpDbBase_enable = 0)) (0)) (served)),
    decide ((fun (s : State) => (fun (y : FeedBind) => (fun (b : Batch) => (fun (port : Nat) => (fun (f : Nat) => (fun (v : Nat) => (fun (n : Nat) => s.Inv = true ∧ (s.portUsable port = true) ∧ (port < 8) ∧ (s.getF (R.dpDbBase port) F.dpDbBase_enable = 1) ∧ (s.feed? f = some y) ∧ (y.port = port) ∧ (y.error = false) ∧ (y.closing = none) ∧ (y.waiting = none) ∧ (s.serve.batches = [(n, b)]) ∧ (b.feed = some (f, 1 - v % 2, 9))) (0)) (0)) (0)) (0)) ({ tinyBatch with desc := none, feed := some (0, 1, 9) })) (⟨0, 0, 0, 2, 0, 0, 0, 0, 64, 0, 1, none, false, none⟩)) ({ portServed with serve := { portServed.serve with feeds := [(0, ⟨0, 0, 0, 2, 0, 0, 0, 0, 64, 0, 1, none, false, none⟩)], batches := [(0, { tinyBatch with desc := none, feed := some (0, 1, 9) })] } })),
    decide ((fun (s : State) => (fun (y : FeedBind) => (fun (port : Nat) => (fun (f : Nat) => (fun (v : Nat) => s.Inv = true ∧ (s.portUsable port = true) ∧ (port < 8) ∧ (s.getF (R.dpDbBase port) F.dpDbBase_enable = 1) ∧ (s.feed? f = some y) ∧ (y.port = port) ∧ (y.error = false) ∧ (y.closing = none) ∧ (y.waiting = none) ∧ (s.serve.batches = []) ∧ ((s.intakeFeed f (v % 2) (natBits v 31 16)).serve.batches.isEmpty = false)) (0)) (0)) (0)) (⟨0, 0, 0, 2, 0x4000, 0x8000, 0, 0, 64, 0, 1, none, false, none⟩)) ({ portServed with mem := [(0x4002, 1), (0x4040, 3)], serve := { portServed.serve with feeds := [(0, ⟨0, 0, 0, 2, 0x4000, 0x8000, 0, 0, 64, 0, 1, none, false, none⟩)] } })),
    decide ((fun (s : State) => (fun (d : Nat) => (fun (x : Desc) => s.Inv = true ∧ (s.acts d x 1 8 = true) ∧ (x.slice ≠ 0) ∧ (s.noneWaits = true)) ({ wholeOf (opRaw 1 8 []) with slice := 3 })) (5)) ({ withDesc served (opRaw 1 8 []) with bench := { ready.bench with descs := [(5, { wholeOf (opRaw 1 8 []) with slice := 3 })] } }))] id = true := by decide +kernel

set_option maxRecDepth 20000 in
/-- For each clause, in order, a state and operands that meet its hypotheses. -/
theorem witness_AttendBatches : List.all [
    decide ((fun (s : State) => (fun (d : Nat) => (fun (x : Desc) => (fun (l : List Byte) => (fun (b : Batch) => (fun (s' : State) => s.Inv = true ∧ (s.acts d x 1 0 = true) ∧ (s.memRead 0x0F 0xFF 6 x.slice (x.field 56 8) (4 * x.field 46 2) = (.bytes l, s)) ∧ ((elems 4 (x.field 46 2) l).any (fun v => natBits v 30 12 != 0) = false) ∧ (b = { Batch.fresh with desc := some d, slice := x.slice, last := x.field 42 2, layer := x.field 44 2, entries := (elems 4 (x.field 46 2) l).map batchEntry, q := x.field 64 8, kv := x.field 72 8, out := x.field 80 8 }) ∧ (s.batchWaits s.serve.next b = false) ∧ (s' = { s.setDesc d { x with performed := true } with serve := { s.serve with next := s.serve.next + 1 } }) ∧ (s'.batchRuns b = true)) ({ s.setDesc d { x with performed := true } with serve := { s.serve with next := s.serve.next + 1 } })) ({ Batch.fresh with desc := some 5, entries := [(3, false)], q := 0x1000, kv := 0x2000, out := 0x3000 })) ([3, 0, 0, 0])) (wholeOf (opRaw 1 0 [(46, 2, 1), (56, 8, 0x4000), (64, 8, 0x1000), (72, 8, 0x2000), (80, 8, 0x3000)]))) (5)) ({ withDesc served (opRaw 1 0 [(46, 2, 1), (56, 8, 0x4000), (64, 8, 0x1000), (72, 8, 0x2000), (80, 8, 0x3000)]) with mem := [(0x4000, 3)] })),
    decide ((fun (s : State) => (fun (n : Nat) => (fun (b : Batch) => s.Inv = true ∧ (s.batch? n = some b) ∧ (b.started = false) ∧ (b.feed = none) ∧ (s.batchWaits n b = false) ∧ (s.batchRuns b = true)) ({ tinyBatch with started := false, entries := [(3, false)] })) (1)) ({ attending with serve := { attending.serve with batches := [(1, { tinyBatch with started := false, entries := [(3, false)] })] } })),
    decide ((fun (s : State) => (fun (n : Nat) => (fun (b : Batch) => (fun (m : Nat) => (fun (c : Batch) => s.Inv = true ∧ (s.batch? n = some b) ∧ (s.serve.batches = [(m, c), (n, b)]) ∧ (m < n) ∧ (c.entries.any (fun e => b.entries.any fun y => e.1 == y.1) = true)) (tinyBatch)) (0)) ({ tinyBatch with started := false })) (1)) ({ attending with serve := { attending.serve with batches := [(0, tinyBatch), (1, { tinyBatch with started := false })] } })),
    decide ((fun (s : State) => (fun (b : Batch) => (fun (l : LastRec) => (fun (u : State) => (fun (rows : List RowAcc) => (fun (n : Nat) => (fun (stack : Nat) => s.Inv = true ∧ (s.batch? n = some b) ∧ (s.last? b.last = some l) ∧ (b.started = true) ∧ (b.failed = []) ∧ (s.partOpenOn stack b.slice false = true) ∧ (b.parts.contains stack = true) ∧ (b.maxDone.contains stack = false) ∧ (u = s.benchesOn stack b (s.partBenches stack false)) ∧ ((u.partPhase b l stack (phaseOne l) 0 (b.entries.zip (b.counts.zip b.rows))).1.toOption = some rows) ∧ ((u.partPhase b l stack (phaseOne l) 0 (b.entries.zip (b.counts.zip b.rows))).2 = u)) (0)) (0)) (match (s.partPhase tinyBatch tinyLast 0 (phaseOne tinyLast) 0 (tinyBatch.entries.zip (tinyBatch.counts.zip tinyBatch.rows))).1 with | .ok r => r | .error _ => [])) (s.benchesOn 0 tinyBatch (s.partBenches 0 false))) (tinyLast)) (tinyBatch)) (attending)),
    decide ((fun (s : State) => (fun (b : Batch) => (fun (l : LastRec) => (fun (u : State) => (fun (rows : List RowAcc) => (fun (n : Nat) => (fun (stack : Nat) => s.Inv = true ∧ (s.batch? n = some b) ∧ (s.last? b.last = some l) ∧ (b.started = true) ∧ (b.failed = []) ∧ (b.parts.contains stack = true) ∧ (b.maxDone.contains stack = true) ∧ (b.merged.contains stack = false) ∧ (b.exchanged stack = true) ∧ (s.partOpenOn stack b.slice true = true) ∧ (u = s.benchesOn stack b (s.partBenches stack true)) ∧ ((u.partPhase b l stack (phaseTwo l) 0 (b.entries.zip (b.counts.zip b.rows))).1.toOption = some rows) ∧ ((u.partPhase b l stack (phaseTwo l) 0 (b.entries.zip (b.counts.zip b.rows))).2 = u) ∧ (b.parts.all (stack :: b.merged).contains = false)) (0)) (0)) (match (s.partPhase tinyBatch tinyLast 0 (phaseTwo tinyLast) 0 (tinyBatch.entries.zip (tinyBatch.counts.zip tinyBatch.rows))).1 with | .ok r => r | .error _ => [])) (s.benchesOn 0 b (s.partBenches 0 true))) (tinyLast)) ({ tinyBatch with parts := [0, 1], maxDone := [0, 1] })) ({ attending with serve := { attending.serve with batches := [(0, { tinyBatch with parts := [0, 1], maxDone := [0, 1] })] } })),
    decide ((fun (s : State) => (fun (d : Nat) => (fun (x : Desc) => (fun (b : Batch) => (fun (l : LastRec) => (fun (u : State) => (fun (acc : RowAcc) => (fun (n : Nat) => (fun (stack : Nat) => s.Inv = true ∧ (s.batch? n = some b) ∧ (s.last? b.last = some l) ∧ (b.started = true) ∧ (b.parts = [stack]) ∧ (b.maxDone = [stack]) ∧ (b.merged = []) ∧ (b.failed = []) ∧ (s.partOpenOn stack b.slice true = true) ∧ (u = s.benchesOn stack b (s.partBenches stack true)) ∧ (b.desc = some d) ∧ (b.feed = none) ∧ (s.desc? d = some x) ∧ ((u.partPhase b l stack (phaseTwo l) 0 (b.entries.zip (b.counts.zip b.rows))).1.toOption = some [acc]) ∧ ((u.partPhase b l stack (phaseTwo l) 0 (b.entries.zip (b.counts.zip b.rows))).2 = u) ∧ ((u.memWrite 0x0F 0xFF 6 b.slice b.out (outputRow l acc).1).1 = none) ∧ (x.arriveAfter = false) ∧ (s.getF (R.crRing x.cq) F.crRing_space = 1) ∧ (s.noneWaits = true)) (0)) (0)) (match (s.partPhase tinyBatch tinyLast 0 (phaseTwo tinyLast) 0 (tinyBatch.entries.zip (tinyBatch.counts.zip tinyBatch.rows))).1 with | .ok (r :: _) => r | _ => RowAcc.start tinyLast)) (s.benchesOn 0 b (s.partBenches 0 true))) (tinyLast)) ({ tinyBatch with maxDone := [0] })) (wholeOf (opRaw 1 0 []))) (5)) (w { attending with serve := { attending.serve with batches := [(0, { tinyBatch with maxDone := [0] })] } } (R.crRing 0) F.crRing_space 1))] id = true := by decide +kernel

set_option maxRecDepth 20000 in
/-- For each clause, in order, a state and operands that meet its hypotheses. -/
theorem witness_GatherCommands : List.all [
    decide ((fun (s : State) => (fun (d : Nat) => (fun (i : Nat) => (fun (x : Desc) => (fun (l : LastRec) => (fun (raw : List Byte) => (fun (row : List Byte) => s.Inv = true ∧ (s.desc? d = some x) ∧ (x.opcode = 2) ∧ (x.field 40 1 = 0) ∧ (s.gate d x = some 0) ∧ (x.field 41 1 = 0xFF) ∧ (s.last? (x.field 42 2) = some l) ∧ (l.permits x.slice = true) ∧ (x.field 48 4 = 1) ∧ (s.memRead 0x0F 0xFF 6 x.slice (x.field 56 8) 4 = (.bytes raw, s)) ∧ (i = leNat raw) ∧ (raw.length = 4) ∧ (l.field 24 8 ≠ 0) ∧ (i < l.field 32 4) ∧ (s.memRead 0x0F 0xFF 6 0 (l.field 24 8 + i * l.field 36 4) (l.field 36 4) = (.bytes row, s)) ∧ ((s.memWrite 0x0F 0xFF 6 x.slice (x.field 64 8) row).1 = none) ∧ (s.getF (R.crRing x.cq) F.crRing_space = 1) ∧ (s.noneWaits = true)) ([0, 9] ++ zeros 62)) ([1, 0, 0, 0])) (⟨tinyLast.raw.take 24 ++ bytesLE 8 0x8000 ++ bytesLE 4 2 ++ bytesLE 4 64 ++ tinyLast.raw.drop 40, []⟩)) (wholeOf (opRaw 2 0 [(41, 1, 0xFF), (48, 4, 1), (56, 8, 0x4000), (64, 8, 0x6000)]))) (1)) (5)) ({ w (withDesc served (opRaw 2 0 [(41, 1, 0xFF), (48, 4, 1), (56, 8, 0x4000), (64, 8, 0x6000)])) (R.crRing 0) F.crRing_space 1 with serve := { served.serve with lasts := [(0, ⟨tinyLast.raw.take 24 ++ bytesLE 8 0x8000 ++ bytesLE 4 2 ++ bytesLE 4 64 ++ tinyLast.raw.drop 40, []⟩)] }, mem := [(0x4000, 1), (0x8041, 9)] })),
    decide ((fun (s : State) => (fun (d : Nat) => (fun (x : Desc) => (fun (l : LastRec) => (fun (raw : List Byte) => s.Inv = true ∧ (s.desc? d = some x) ∧ (x.opcode = 2) ∧ (x.field 40 1 = 0) ∧ (s.gate d x = some 0) ∧ (x.field 41 1 = 0xFF) ∧ (s.last? (x.field 42 2) = some l) ∧ (l.permits x.slice = true) ∧ (s.memRead 0x0F 0xFF 6 x.slice (x.field 56 8) (4 * x.field 48 4) = (.bytes raw, s)) ∧ ((elems 4 (x.field 48 4) raw).any (fun i => decide (l.field 32 4 ≤ i)) = true) ∧ (s.getF (R.crRing x.cq) F.crRing_space = 1)) ([1, 0, 0, 0])) (tinyLast)) (wholeOf (opRaw 2 0 [(41, 1, 0xFF), (48, 4, 1), (56, 8, 0x4000), (64, 8, 0x6000)]))) (5)) ({ w (withDesc served (opRaw 2 0 [(41, 1, 0xFF), (48, 4, 1), (56, 8, 0x4000), (64, 8, 0x6000)])) (R.crRing 0) F.crRing_space 1 with mem := [(0x4000, 1)] })),
    decide ((fun (s : State) => (fun (d : Nat) => (fun (x : Desc) => (fun (l : LastRec) => (fun (lay : List Byte) => (fun (raw : List Byte) => (fun (row : List Byte) => s.Inv = true ∧ (s.desc? d = some x) ∧ (x.opcode = 2) ∧ (x.field 40 1 = 1) ∧ (s.gate d x = some 0) ∧ (x.field 41 1 = 0xFF) ∧ (s.last? (x.field 42 2) = some l) ∧ (l.permits x.slice = true) ∧ (x.field 48 4 = 1) ∧ (l.layers[x.field 44 2]? = some lay) ∧ (s.memRead 0x0F 0xFF 6 x.slice (x.field 56 8) 2 = (.bytes raw, s)) ∧ (raw = [0xFF, 0xFF]) ∧ (s.memRead 0x0F 0xFF 6 0 (fieldLE lay 16 8 + 16 * 0xFFFF) 0 = (.bytes [], s)) ∧ (fieldLE lay 8 8 % 64 = 0) ∧ (fieldLE lay 8 8 ≤ x.field 72 8) ∧ (s.memRead 0x0F 0xFF 6 0 (fieldLE lay 0 8) (fieldLE lay 8 8) = (.bytes row, s)) ∧ ((s.memWrite 0x0F 0xFF 6 x.slice (x.field 64 8) row).1 = none) ∧ (s.getF (R.crRing x.cq) F.crRing_space = 1) ∧ (s.noneWaits = true)) ([0, 9] ++ zeros 62)) ([0xFF, 0xFF])) (bytesLE 8 0x8000 ++ bytesLE 8 64 ++ zeros 16)) (⟨tinyLast.raw, [bytesLE 8 0x8000 ++ bytesLE 8 64 ++ zeros 16]⟩)) (wholeOf (opRaw 2 1 [(41, 1, 0xFF), (48, 4, 1), (56, 8, 0x4000), (64, 8, 0x6000), (72, 8, 64)]))) (5)) ({ w (withDesc served (opRaw 2 1 [(41, 1, 0xFF), (48, 4, 1), (56, 8, 0x4000), (64, 8, 0x6000), (72, 8, 64)])) (R.crRing 0) F.crRing_space 1 with serve := { served.serve with lasts := [(0, ⟨tinyLast.raw, [bytesLE 8 0x8000 ++ bytesLE 8 64 ++ zeros 16]⟩)] }, mem := [(0x4000, 0xFF), (0x4001, 0xFF), (0x8001, 9)] })),
    decide ((fun (s : State) => (fun (d : Nat) => (fun (x : Desc) => (fun (l : LastRec) => (fun (raw : List Byte) => s.Inv = true ∧ (s.desc? d = some x) ∧ (x.opcode = 2) ∧ (x.field 40 1 = 2) ∧ (s.gate d x = some 0) ∧ (x.field 41 1 = 0xFF) ∧ (s.last? (x.field 42 2) = some l) ∧ (l.permits x.slice = true) ∧ (x.field 48 4 = 1) ∧ (x.field 84 1 = 0) ∧ (s.memRead 0x0F 0xFF 6 x.slice (x.field 56 8) (x.field 52 4 * 4) = (.bytes raw, s)) ∧ (raw.length = x.field 52 4 * 4) ∧ ((s.memWrite 0x0F 0xFF 6 x.slice (x.field 64 8) (bytesLE 4 (sampleRow (x.field 80 4) (x.field 46 2) (x.field 52 4) 0 x.key (elems 4 (x.field 52 4) raw)).1)).1 = none) ∧ (s.getF (R.crRing x.cq) F.crRing_space = 1) ∧ (s.noneWaits = true)) ([0, 0, 0, 0, 0, 0, 0, 0x40])) (tinyLast)) (wholeOf (opRaw 2 2 [(41, 1, 0xFF), (48, 4, 1), (52, 4, 2), (56, 8, 0x4000), (64, 8, 0x6000)]))) (5)) ({ w (withDesc served (opRaw 2 2 [(41, 1, 0xFF), (48, 4, 1), (52, 4, 2), (56, 8, 0x4000), (64, 8, 0x6000)])) (R.crRing 0) F.crRing_space 1 with mem := [(0x4007, 0x40)] }))] id = true := by decide +kernel

set_option maxRecDepth 20000 in
/-- For each clause, in order, a state and operands that meet its hypotheses. -/
theorem witness_JobCommands : List.all [
    decide ((fun (s : State) => (fun (d : Nat) => (fun (j : Nat) => (fun (x : Desc) => (fun (r : List Byte) => s.Inv = true ∧ (s.acts d x 4 8 = true) ∧ (j = x.field 42 2) ∧ (j < 16) ∧ (s.job? j = none) ∧ (x.field 64 8 % 64 = 0) ∧ (s.memRead 0x10 j 0 x.slice (x.field 64 8) 128 = (.bytes r, s)) ∧ (jobRecordOk r = true) ∧ (s.jobOwned x.slice ⟨x.slice, r, [], false⟩ = true) ∧ (s.replicates 2 x.slice = false) ∧ (s.noneWaits = true)) (jobRaw)) (wholeOf (opRaw 4 8 [(42, 2, 15), (64, 8, 0x4000)]))) (15)) (5)) ({ withDesc training (opRaw 4 8 [(42, 2, 15), (64, 8, 0x4000)]) with mem := putCells [] 0x4000 jobRaw })),
    decide ((fun (s : State) => (fun (d : Nat) => (fun (j : Nat) => (fun (x : Desc) => s.Inv = true ∧ (s.acts d x 4 8 = true) ∧ (j = x.field 42 2) ∧ ((s.job? j).isSome = true) ∧ (s.noneWaits = true)) (wholeOf (opRaw 4 8 [(42, 2, 1), (64, 8, 0x4000)]))) (1)) (5)) (withDesc training (opRaw 4 8 [(42, 2, 1), (64, 8, 0x4000)]))),
    decide ((fun (s : State) => (fun (d : Nat) => (fun (j : Nat) => (fun (x : Desc) => (fun (y : Job) => s.Inv = true ∧ (s.acts d x 4 9 = true) ∧ (j = x.field 42 2) ∧ (s.job? j = some y) ∧ (y.slice = x.slice) ∧ (s.jobBusy d j = false) ∧ (s.replicates 2 x.slice = false) ∧ (s.noneWaits = true)) (⟨0, jobRaw, [], false⟩)) (wholeOf (opRaw 4 9 [(42, 2, 1)]))) (1)) (5)) (withDesc training (opRaw 4 9 [(42, 2, 1)]))),
    decide ((fun (s : State) => (fun (d : Nat) => (fun (j : Nat) => (fun (x : Desc) => (fun (r : List Byte) => (fun (y : Job) => s.Inv = true ∧ (s.acts d x 4 10 = true) ∧ (j = x.field 42 2) ∧ (s.job? j = some y) ∧ (y.slice = x.slice) ∧ (s.jobBusy d j = false) ∧ (x.field 64 8 % 64 = 0) ∧ (s.memRead 0x10 j 0 x.slice (x.field 64 8) 128 = (.bytes r, s)) ∧ (x.field 72 8 = 0) ∧ (jobRecordOk r = true) ∧ (s.jobOwned x.slice { y with raw := r, bits := [], error := false } = true) ∧ (s.noneWaits = true)) (⟨0, jobRaw, [], false⟩)) (setField jobRaw 24 8 2)) (wholeOf (opRaw 4 10 [(42, 2, 1), (64, 8, 0x4000)]))) (1)) (5)) ({ withDesc training (opRaw 4 10 [(42, 2, 1), (64, 8, 0x4000)]) with mem := putCells [] 0x4000 (setField jobRaw 24 8 2) })),
    decide ((fun (s : State) => (fun (d : Nat) => (fun (j : Nat) => (fun (x : Desc) => (fun (r : List Byte) => (fun (m : List Byte) => (fun (y : Job) => s.Inv = true ∧ (s.acts d x 4 10 = true) ∧ (j = x.field 42 2) ∧ (s.job? j = some y) ∧ (y.slice = x.slice) ∧ (s.jobBusy d j = false) ∧ (x.field 64 8 % 64 = 0) ∧ (s.memRead 0x10 j 0 x.slice (x.field 64 8) 128 = (.bytes r, s)) ∧ (x.field 72 8 ≠ 0) ∧ (s.memRead 0x10 j 0 x.slice (x.field 72 8) 128 = (.bytes m, s)) ∧ (loadMatches r m = true) ∧ (jobRecordOk (loadRecord r m) = true) ∧ (s.jobOwned x.slice { y with raw := loadRecord r m, bits := [], error := false } = true) ∧ (s.noneWaits = true)) (⟨0, jobRaw, [], false⟩)) (raw [(8, 4, 7), (16, 8, 0x77), (24, 8, 30), (48, 4, 4), (56, 8, 3), (64, 4, 2), (68, 4, 1), (72, 8, 32), (80, 8, 10)])) (jobRaw)) (wholeOf (opRaw 4 10 [(42, 2, 1), (64, 8, 0x4000), (72, 8, 0x5000)]))) (1)) (5)) ({ withDesc training (opRaw 4 10 [(42, 2, 1), (64, 8, 0x4000), (72, 8, 0x5000)]) with mem := putCells (putCells [] 0x4000 jobRaw) 0x5000 (raw [(8, 4, 7), (16, 8, 0x77), (24, 8, 30), (48, 4, 4), (56, 8, 3), (64, 4, 2), (68, 4, 1), (72, 8, 32), (80, 8, 10)]) })),
    decide ((fun (s : State) => (fun (d : Nat) => (fun (j : Nat) => (fun (x : Desc) => (fun (y : Job) => s.Inv = true ∧ (s.acts d x 4 11 = true) ∧ (j = x.field 42 2) ∧ (s.job? j = some y) ∧ (y.slice = x.slice) ∧ ((s.memWrite 0x10 j 0 x.slice (x.field 64 8) y.raw).1 = none) ∧ (s.getF (R.crRing x.cq) F.crRing_space = 1) ∧ (s.noneWaits = true)) (⟨0, jobRaw, [], false⟩)) (wholeOf (opRaw 4 11 [(42, 2, 1), (64, 8, 0x4000)]))) (1)) (5)) (withDesc training (opRaw 4 11 [(42, 2, 1), (64, 8, 0x4000)]))),
    decide ((fun (s : State) => (fun (d : Nat) => (fun (j : Nat) => (fun (x : Desc) => (fun (y : Job) => s.Inv = true ∧ (s.acts d x 4 12 = true) ∧ (j = x.field 42 2) ∧ (s.job? j = some y) ∧ (y.slice = x.slice) ∧ (s.jobRuns d j (fun oc op => oc == 0x04 && [0, 3, 4, 5].contains op) = false) ∧ (s.ckpt? j = none) ∧ (y.raw.length = 128) ∧ (0 < y.field 56 8) ∧ (s.noneWaits = true)) (⟨0, jobRaw, [], false⟩)) (wholeOf (opRaw 4 12 [(42, 2, 1)]))) (1)) (5)) (withDesc training (opRaw 4 12 [(42, 2, 1)])))] id = true := by decide +kernel

set_option maxRecDepth 20000 in
/-- For each clause, in order, a state and operands that meet its hypotheses. -/
theorem witness_OptimizerCommands : List.all [
    decide ((fun (s : State) => (fun (d : Nat) => (fun (x : Desc) => (fun (y : Job) => (fun (p : SubPart) => (fun (blk : List Byte) => (fun (bw : List Byte) => (fun (b1 : List Byte) => (fun (bg : List Byte) => (fun (b2 : List Byte) => (fun (r : Nat × Nat × Nat) => (fun (s1 : State) => s.Inv = true ∧ (s.desc? d = some x) ∧ (x.opcode = 4) ∧ (x.field 40 1 = 0) ∧ (x.subs = [p]) ∧ (p.acts = true) ∧ (s.job? (x.field 42 2) = some y) ∧ (y.slice = x.slice) ∧ (s.journalOf d p = (0, false)) ∧ (x.field 44 4 = 1) ∧ (x.field 41 1 = 0) ∧ (x.field 48 1 = 0) ∧ (x.field 49 1 = 0xFF) ∧ (s.refusals 0x0E 0 x.slice (stepRanges x 0 1) = ([], s)) ∧ (s.readRanges x.slice [(x.field 112 8, 64), (x.field 64 8, 4), (x.field 72 8, 4), (x.field 88 8, 4), (x.field 80 8, 4)] = ([blk, bw, b1, bg, b2], [], s)) ∧ (((below 9).all fun i => f32Finite (fieldLE blk (4 * i) 4)) = true) ∧ (fieldLE blk 36 28 = 0) ∧ (r = (stepChecked 0 (stepParams blk) (leNat bw) (leNat b1) (leNat b2) (leNat bg)).1) ∧ (bw.length = 4) ∧ (b1.length = 4) ∧ (b2.length = 4) ∧ (bg.length = 4) ∧ (s1 = s.journalOpen d p 0 [blk, bw, b1, bg, b2]) ∧ ((s1.writeRanges x.slice [(x.field 64 8, bytesLE 4 r.1), (x.field 72 8, bytesLE 4 r.2.1), (x.field 80 8, bytesLE 4 r.2.2)]).1 = []) ∧ (s.noneWaits = true)) (s.journalOpen d p 0 [blk, bw, b1, bg, b2])) ((stepChecked 0 (stepParams blk) (leNat bw) (leNat b1) (leNat b2) (leNat bg)).1)) (zeros 4)) ([0, 0, 0, 0x40])) (zeros 4)) ([0, 0, 0x80, 0x3F])) ([0, 0, 0x80, 0x3F, 0, 0, 0, 0, 0, 0, 0x80, 0x3F] ++ zeros 52)) ({ SubPart.fresh 0 0 with phase := .running })) (⟨0, jobRaw, [], false⟩)) (descOf (opRaw 4 0 [(42, 2, 1), (44, 4, 1), (49, 1, 0xFF), (64, 8, 0x4000), (72, 8, 0x4100), (80, 8, 0x4200), (88, 8, 0x4300), (112, 8, 0x4400)]) .running)) (5)) ({ training with bench := { training.bench with descs := [(5, descOf (opRaw 4 0 [(42, 2, 1), (44, 4, 1), (49, 1, 0xFF), (64, 8, 0x4000), (72, 8, 0x4100), (80, 8, 0x4200), (88, 8, 0x4300), (112, 8, 0x4400)]) .running)] }, mem := [(0x4002, 0x80), (0x4003, 0x3F), (0x4303, 0x40), (0x4402, 0x80), (0x4403, 0x3F), (0x440A, 0x80), (0x440B, 0x3F)] })),
    decide ((fun (s : State) => (fun (d : Nat) => (fun (x : Desc) => (fun (y : Job) => (fun (p : SubPart) => s.Inv = true ∧ (s.desc? d = some x) ∧ (x.opcode = 4) ∧ (x.field 40 1 = 0) ∧ (x.subs = [p]) ∧ (p.acts = true) ∧ (s.job? (x.field 42 2) = some y) ∧ (y.slice = x.slice) ∧ (x.field 44 4 ≤ (s.journalOf d p).1 * 4096) ∧ (s.refusals 0x0E 0 x.slice (stepRanges x 0 (x.field 44 4) ++ (stepDests x 0 (x.field 44 4)).drop (if x.field 41 1 = 0 then 3 else 2)) = ([], s))) ({ SubPart.fresh 0 0 with phase := .running })) (⟨0, jobRaw, [], false⟩)) (descOf (opRaw 4 0 [(42, 2, 1), (44, 4, 1), (49, 1, 0xFF)]) .running)) (5)) ({ training with bench := { training.bench with descs := [(5, descOf (opRaw 4 0 [(42, 2, 1), (44, 4, 1), (49, 1, 0xFF)]) .running)], journal := [(0, ⟨5, 1, false⟩)] } })),
    decide ((fun (s : State) => (fun (d : Nat) => (fun (x : Desc) => (fun (y : Job) => (fun (p : SubPart) => (fun (l : List Byte) => s.Inv = true ∧ (s.desc? d = some x) ∧ (x.opcode = 4) ∧ (x.field 40 1 = 1) ∧ (x.subs = [p]) ∧ (p.acts = true) ∧ (s.job? (x.field 42 2) = some y) ∧ (y.slice = x.slice) ∧ (x.field 48 1 = 0) ∧ (s.readRanges x.slice [(x.field 64 8, x.field 44 4 * 4)] = ([l], [], s)) ∧ ((s.writeRanges x.slice [(x.field 72 8, ((elems 4 (x.field 44 4) l).foldl (fun b g => b.addTerm ((fp32.decode g).mul (fp32.decode g))) (binsAt (signed 16 (x.field 50 2) + 1))).record)]).1 = []) ∧ (l.length = x.field 44 4 * 4) ∧ (s.noneWaits = true)) ([0, 0, 0x80, 0x3F, 0, 0, 0, 0x40])) ({ SubPart.fresh 0 0 with phase := .running })) (⟨0, jobRaw, [], false⟩)) (descOf (opRaw 4 1 [(42, 2, 1), (44, 4, 2), (50, 2, 3), (64, 8, 0x4000), (72, 8, 0x4100)]) .running)) (5)) ({ training with bench := { training.bench with descs := [(5, descOf (opRaw 4 1 [(42, 2, 1), (44, 4, 2), (50, 2, 3), (64, 8, 0x4000), (72, 8, 0x4100)]) .running)] }, mem := [(0x4002, 0x80), (0x4003, 0x3F), (0x4007, 0x40)] }))] id = true := by decide +kernel

set_option maxRecDepth 20000 in
/-- For each clause, in order, a state and operands that meet its hypotheses. -/
theorem witness_IntakeAndDeliveryCommands : List.all [
    decide ((fun (s : State) => (fun (d : Nat) => (fun (x : Desc) => (fun (y : Job) => (fun (l : List Byte) => s.Inv = true ∧ (s.acts d x 4 2 = true) ∧ (s.job? (x.field 42 2) = some y) ∧ (y.slice = x.slice) ∧ (((maskList 8 (x.field 52 1)).all fun p => s.getF (R.dpStatus p) F.dpStatus_owner == x.slice && s.portUsable p) = true) ∧ (s.memRead 0x10 (x.field 42 2) 0 x.slice (x.field 64 8) (x.field 44 4) = (.bytes l, s)) ∧ (s.noneWaits = true)) (zeros 4)) (⟨0, jobRaw, [], false⟩)) (wholeOf (opRaw 4 2 [(42, 2, 1), (44, 4, 4), (52, 1, 1), (64, 8, 0x4000), (72, 8, 0x9000)]))) (5)) (withDesc training (opRaw 4 2 [(42, 2, 1), (44, 4, 4), (52, 1, 1), (64, 8, 0x4000), (72, 8, 0x9000)]))),
    decide ((fun (s : State) => (fun (d : Nat) => (fun (j : Nat) => (fun (k : Nat) => (fun (x : Desc) => (fun (y : Job) => (fun (g : List Byte) => (fun (ps : List Byte) => s.Inv = true ∧ (s.acts d x 4 3 = true) ∧ (j = x.field 42 2) ∧ (j < 16) ∧ (k = x.field 44 4) ∧ (k < 2 ^ 16) ∧ (s.bench.descs = [(d, x)]) ∧ (s.job? j = some y) ∧ (y.slice = x.slice) ∧ (k < y.micro) ∧ (y.world = 1) ∧ (y.rank = 0) ∧ (Tab.find? y.bits k = none) ∧ (s.memRead 0x10 j 0 x.slice (x.field 64 8) (y.field 64 8 * y.gradBytes) = (.bytes g, s)) ∧ (s.memRead 0x10 j 0 x.slice (y.field 112 8) 16 = (.bytes ps, s)) ∧ (g.length = y.field 64 8 * y.gradBytes) ∧ (y.field 64 8 ≤ y.shardElems) ∧ ((s.memWrite 0x10 j 0 x.slice (y.field 96 8 + k * y.slotBytes) g).1 = none) ∧ (s.getF (R.crRing x.cq) F.crRing_space = 1) ∧ (s.noneWaits = true)) (zeros 16)) ([0, 7] ++ zeros 126)) (⟨0, jobRaw, [], false⟩)) (wholeOf (opRaw 4 3 [(42, 2, 1), (44, 4, 1), (64, 8, 0x4000)]))) (1)) (1)) (5)) ({ withDesc training (opRaw 4 3 [(42, 2, 1), (44, 4, 1), (64, 8, 0x4000)]) with mem := [(0x4001, 7)] })),
    decide ((fun (s : State) => (fun (d : Nat) => (fun (j : Nat) => (fun (k : Nat) => (fun (r : Nat) => (fun (n : Nat) => (fun (x : Desc) => (fun (y : Job) => (fun (e : List Byte) => (fun (l : List Byte) => (fun (tab : List Byte) => s.Inv = true ∧ (s.acts d x 4 4 = true) ∧ (j = x.field 42 2) ∧ (k = x.field 44 4) ∧ (s.job? j = some y) ∧ (y.slice = x.slice) ∧ (k < y.micro) ∧ (x.field 52 1 = 0xFF) ∧ (y.records k = [r]) ∧ (s.readRanges x.slice [(x.field 72 8 + 16 * r, 16)] = ([e], [], s)) ∧ (n = fieldLE e 8 4) ∧ (0 < n) ∧ (n ≤ 2 ^ 24) ∧ (fieldLE e 12 4 = 0) ∧ (fieldLE e 0 8 + n ≤ s.nsBytes (y.field 120 4)) ∧ (64 + n ≤ x.field 120 4) ∧ (l.length = n) ∧ (tab = bytesLE 8 r ++ bytesLE 4 n ++ bytesLE 4 64) ∧ ((s.portOrMem j x.slice 0xFF [(x.field 64 8, tab), (x.field 64 8 + 64, l)]).1 = 0) ∧ (s.getF (R.crRing x.cq) F.crRing_space = 1) ∧ (s.noneWaits = true)) (bytesLE 8 r ++ bytesLE 4 3 ++ bytesLE 4 64)) ([1, 2, 3])) (zeros 8 ++ [3] ++ zeros 7)) (⟨0, jobRaw, [], false⟩)) (wholeOf (opRaw 4 4 [(42, 2, 1), (44, 4, 1), (52, 1, 0xFF), (64, 8, 0x4000), (72, 8, 0x5000), (120, 4, 100)]))) (3)) ((Job.records ⟨0, jobRaw, [], false⟩ 1).headD 0)) (1)) (1)) (5)) ({ withDesc training (opRaw 4 4 [(42, 2, 1), (44, 4, 1), (52, 1, 0xFF), (64, 8, 0x4000), (72, 8, 0x5000), (120, 4, 100)]) with mem := (below 10).map fun i => (0x5008 + 16 * i, 3) })),
    decide ((fun (s : State) => (fun (d : Nat) => (fun (x : Desc) => (fun (y : Job) => s.Inv = true ∧ (s.acts d x 4 5 = true) ∧ (s.job? (x.field 42 2) = some y) ∧ (y.slice = x.slice) ∧ (y.error = false) ∧ (y.bits.length ≠ y.micro)) (⟨0, jobRaw, [], false⟩)) (wholeOf (opRaw 4 5 [(42, 2, 1)]))) (5)) (withDesc training (opRaw 4 5 [(42, 2, 1)]))),
    decide ((fun (s : State) => (fun (d : Nat) => (fun (x : Desc) => (fun (y : Job) => (fun (st : Nat) => s.Inv = true ∧ (s.acts d x 4 5 = true) ∧ (st < 12) ∧ (s.bench.descs = [(d, x)]) ∧ (s.job? (x.field 42 2) = some y) ∧ (y.slice = x.slice) ∧ (y.error = true ∨ y.bits.length = y.micro) ∧ (s.noneWaits = true)) (0)) (⟨0, jobRaw, [(0, ()), (1, ())], false⟩)) (wholeOf (opRaw 4 5 [(42, 2, 1)]))) (5)) ({ withDesc training (opRaw 4 5 [(42, 2, 1)]) with train := { training.train with jobs := [(1, ⟨0, jobRaw, [(0, ()), (1, ())], false⟩)] } })),
    decide ((fun (s : State) => (fun (d : Nat) => (fun (x : Desc) => (fun (st : Nat) => s.Inv = true ∧ (s.desc? d = some x) ∧ (st < 12) ∧ (x.opcode = 4) ∧ (x.field 40 1 = 5) ∧ (x.performed = true) ∧ (x.arriveAfter = false) ∧ (s.noneWaits = true)) (0)) ({ wholeOf (opRaw 4 5 [(42, 2, 1)]) with performed := true })) (5)) ({ training with bench := { training.bench with descs := [(5, { wholeOf (opRaw 4 5 [(42, 2, 1)]) with performed := true })] } })),
    decide ((fun (s : State) => (fun (imm : Nat) => (fun (j : Nat) => (fun (k : Nat) => (fun (y : Job) => (fun (sl : Nat) => (fun (q : List (Nat × Nat)) => s.Inv = true ∧ (s.train.handed = (sl, imm) :: q) ∧ (j = natBits imm 19 16) ∧ (k = natBits imm 15 0) ∧ (s.job? j = some y) ∧ (y.slice = sl) ∧ (k < y.micro) ∧ (natBits imm 31 31 = y.step % 2) ∧ (Tab.find? y.bits k = none)) ([])) (0)) (⟨0, jobRaw, [], false⟩)) (1)) (1)) (2 ^ 31 + 2 ^ 16 + 1)) ({ training with train := { training.train with handed := [(0, 2 ^ 31 + 2 ^ 16 + 1)] } })),
    decide ((fun (s : State) => (fun (imm : Nat) => (fun (j : Nat) => (fun (k : Nat) => (fun (y : Job) => (fun (sl : Nat) => (fun (q : List (Nat × Nat)) => s.Inv = true ∧ (s.train.handed = (sl, imm) :: q) ∧ (j = natBits imm 19 16) ∧ (k = natBits imm 15 0) ∧ (s.job? j = some y) ∧ (y.slice = sl) ∧ (k < y.micro) ∧ (natBits imm 31 31 ≠ y.step % 2)) ([])) (0)) (⟨0, jobRaw, [], false⟩)) (1)) (1)) (2 ^ 16 + 1)) ({ training with train := { training.train with handed := [(0, 2 ^ 16 + 1)] } })),
    decide ((fun (s : State) => (fun (imm : Nat) => (fun (j : Nat) => (fun (sl : Nat) => (fun (q : List (Nat × Nat)) => s.Inv = true ∧ (s.train.handed = (sl, imm) :: q) ∧ (j = natBits imm 19 16) ∧ (s.job? j = none)) ([])) (0)) (2)) (2 ^ 17 + 1)) ({ training with train := { training.train with handed := [(0, 2 ^ 17 + 1)] } }))] id = true := by decide +kernel

set_option maxRecDepth 20000 in
/-- For each clause, in order, a state and operands that meet its hypotheses. -/
theorem witness_CheckpointCommands : List.all [
    decide ((fun (s : State) => (fun (d : Nat) => (fun (j : Nat) => (fun (n : Nat) => (fun (x : Desc) => (fun (y : Job) => (fun (l : List Byte) => s.Inv = true ∧ (s.acts d x 5 1 = true) ∧ (j = x.field 42 2) ∧ (n = x.field 44 4) ∧ (s.job? j = some y) ∧ (y.slice = x.slice) ∧ (s.snap = none) ∧ (s.ckpt? j = none) ∧ (s.bench.descs = [(d, x)]) ∧ (Tab.find? s.train.commits j = none) ∧ (0 < y.world) ∧ (s.memRead 0x10 j 0 x.slice (x.field 56 8) (32 * n) = (.bytes l, s)) ∧ ((chunks 32 n l).all (s.shardOk (y.field 88 8)) = true) ∧ (((chunks 32 n l).map shardOf).all (fun h => s.owned x.slice h.addr h.bytes) = true) ∧ (s.ckptEngine = true) ∧ (s.stagingSize ≠ 0) ∧ (y.gen ≠ 0xFFFFFFFF)) (shardEntry)) (⟨0, jobRaw, [], false⟩)) (wholeOf (opRaw 5 1 [(42, 2, 1), (44, 4, 1), (56, 8, 0x4000)]))) (1)) (1)) (5)) ({ withDesc training (opRaw 5 1 [(42, 2, 1), (44, 4, 1), (56, 8, 0x4000)]) with mem := putCells [] 0x4000 shardEntry })),
    decide ((fun (s : State) => (fun (p : Snap) => (fun (c : Ckpt) => (fun (l : List Byte) => (fun (i : Nat) => s.Inv = true ∧ (s.snap = some p) ∧ (s.ckpt? p.job = some c) ∧ (p.nextPage s.stagingPages (fun i => (Tab.find? p.sent i).isSome) = some i) ∧ (Tab.find? p.staged i = some l) ∧ (p.sentCount + 1 ≠ p.shards.foldl (fun t h => t + h.pages) 0)) (0)) ([7])) (⟨5, jobRaw, 3, [], 65536, 0⟩)) (snap2)) (snapping jobRaw snap2)),
    decide ((fun (s : State) => (fun (p : Snap) => (fun (c : Ckpt) => (fun (l : List Byte) => (fun (i : Nat) => s.Inv = true ∧ (s.snap = some p) ∧ (s.ckpt? p.job = some c) ∧ (p.nextPage s.stagingPages (fun i => (Tab.find? p.sent i).isSome) = some i) ∧ (Tab.find? p.staged i = some l) ∧ (p.sentCount + 1 = p.shards.foldl (fun t h => t + h.pages) 0) ∧ (c.field 76 2 ≠ c.field 38 2)) (0)) ([7])) (⟨5, jobRaw2, 3, [], 65536, 0⟩)) ({ snap1 with staged := [(0, [7])] })) (snapping jobRaw2 { snap1 with staged := [(0, [7])] })),
    decide ((fun (s : State) => (fun (addr : Nat) => (fun (data : List Byte) => (fun (p : Snap) => (fun (slice : Nat) => s.Inv = true ∧ (s.snap = some p) ∧ (p.uncopied addr data.length ≠ []) ∧ (s.accessCode slice addr data.length = none) ∧ (p.copying.length < 4) ∧ (p.waiting = [])) (0)) (snap2)) ([9])) (0x10000010005)) (snapping jobRaw snap2)),
    decide ((fun (s : State) => (fun (addr : Nat) => (fun (data : List Byte) => (fun (source : Nat) => (fun (slice : Nat) => s.Inv = true ∧ (s.snap = none) ∧ ((s.memWrite 0x0D 0xFF source slice addr data).1 = none) ∧ (s.noneWaits = true)) (0)) (0)) ([9])) (0x10000010005)) (training)),
    decide ((fun (s : State) => (fun (i : Nat) => (fun (p : Snap) => (fun (r : List Nat) => s.Inv = true ∧ (s.snap = some p) ∧ (p.copying = i :: r) ∧ (Tab.find? p.copied i = none) ∧ (p.waiting = [])) ([])) ({ snap2 with copying := [1] })) (1)) (snapping jobRaw { snap2 with copying := [1] })),
    decide ((fun (s : State) => (fun (p : Snap) => (fun (c : Ckpt) => s.Inv = true ∧ (s.snap = some p) ∧ (s.ckpt? p.job = some c) ∧ (s.stagingPages ≤ p.staged.length + p.copying.length) ∧ (p.waiting.any (fun v => (p.uncopied v.addr v.data.length).any fun i => !p.copying.contains i) = true)) (⟨5, jobRaw, 3, [], 65536, 0⟩)) ({ snap2 with waiting := [⟨0, 0, 0x10000010005, [9]⟩] })) (w (snapping jobRaw { snap2 with waiting := [⟨0, 0, 0x10000010005, [9]⟩] }) R.memLayout F.memLayout_staging_gib 0)),
    decide ((fun (s : State) => (fun (d : Nat) => (fun (j : Nat) => (fun (x : Desc) => (fun (y : Job) => (fun (c : Ckpt) => s.Inv = true ∧ (s.acts d x 5 2 = true) ∧ (j = x.field 42 2) ∧ (s.job? j = some y) ∧ (y.slice = x.slice) ∧ (s.ckpt? j = some c) ∧ (c.desc ≠ d)) (⟨5, jobRaw, 3, [], 65536, 0⟩)) (⟨0, jobRaw, [], false⟩)) (wholeOf (opRaw 5 2 [(42, 2, 1)]))) (1)) (6)) ({ snapping jobRaw snap2 with bench := { training.bench with descs := [(5, { wholeOf (opRaw 5 1 [(42, 2, 1)]) with performed := true }), (6, wholeOf (opRaw 5 2 [(42, 2, 1)]))] } })),
    decide ((fun (s : State) => (fun (job : Nat) => (fun (x : Job) => (fun (rank : Nat) => s.Inv = true ∧ (s.job? job = some x) ∧ (x.field 76 2 = x.rank) ∧ (rank < x.world) ∧ (s.ckpt? job = none)) (0)) (⟨0, jobRaw, [], false⟩)) (1)) (training)),
    decide ((fun (s : State) => (fun (job : Nat) => (fun (code : Nat) => (fun (x : Job) => (fun (c : Ckpt) => (fun (rank : Nat) => s.Inv = true ∧ (s.job? job = some x) ∧ (x.field 76 2 = x.rank) ∧ (rank < x.world) ∧ (s.ckpt? job = some c) ∧ (c.field 76 2 = c.field 38 2) ∧ ((s.commit job).writing = false) ∧ ((s.commit job).swapping = false) ∧ (code ≠ 0)) (0)) (⟨5, jobRaw, 3, [], 65536, 0⟩)) (⟨0, jobRaw, [], false⟩)) (0x16)) (1)) (snapping jobRaw snap2)),
    decide ((fun (s : State) => (fun (job : Nat) => (fun (y : Job) => (fun (c : Ckpt) => s.Inv = true ∧ (s.ckpt? job = some c) ∧ ((s.commit job).swapping = true) ∧ (s.job? job = some y) ∧ (s.replicates 2 y.slice = false)) (⟨5, jobRaw, 3, [], 65536, 0⟩)) (⟨0, jobRaw, [], false⟩)) (1)) ({ snapping jobRaw snap2 with train := { (snapping jobRaw snap2).train with commits := [(1, ⟨[], none, false, true⟩)] } })),
    decide ((fun (s : State) => (fun (job : Nat) => (fun (c : Ckpt) => (fun (v : Nat) => s.Inv = true ∧ (s.ckpt? job = some c) ∧ ((s.commit job).swapping = true) ∧ (v ≠ c.field 0 4 * 2 ^ 32 + c.gen % 2 ^ 32)) (0)) (⟨5, jobRaw, 3, [], 65536, 0⟩)) (1)) ({ snapping jobRaw snap2 with train := { (snapping jobRaw snap2).train with commits := [(1, ⟨[], none, false, true⟩)] } })),
    decide ((fun (s : State) => (fun (job : Nat) => (fun (y : Job) => (fun (c : Ckpt) => s.Inv = true ∧ (s.ckpt? job = some c) ∧ (s.job? job = some y) ∧ (s.replicates 2 y.slice = false)) (⟨5, jobRaw, 3, [], 65536, 0⟩)) (⟨0, jobRaw, [], false⟩)) (1)) (snapping jobRaw snap2)),
    decide ((fun (s : State) => (fun (job : Nat) => (fun (c : Ckpt) => s.Inv = true ∧ (s.ckpt? job = some c)) (⟨5, jobRaw, 3, [], 65536, 0⟩)) (1)) (snapping jobRaw snap2))] id = true := by decide +kernel

set_option maxRecDepth 20000 in
/-- For each clause, in order, a state and operands that meet its hypotheses. -/
theorem witness_DigestAndRestoreCommands : List.all [
    decide ((fun (s : State) => (fun (d : Nat) => (fun (x : Desc) => (fun (l : List Byte) => (fun (h : List Byte) => s.Inv = true ∧ (s.acts d x 5 0 = true) ∧ (s.memRead 0x10 0 0 x.slice (x.field 56 8) (x.field 44 4) = (.bytes l, s)) ∧ (h = (if x.field 41 1 = 0 then sha256 l else sha384 l)) ∧ ((s.memWrite 0x10 0 0 x.slice (x.field 64 8) h).1 = none) ∧ (s.getF (R.crRing x.cq) F.crRing_space = 1) ∧ (s.noneWaits = true)) (sha256 (zeros 4))) (zeros 4)) (wholeOf (opRaw 5 0 [(44, 4, 4), (56, 8, 0x4000), (64, 8, 0x5000)]))) (5)) (withDesc training (opRaw 5 0 [(44, 4, 4), (56, 8, 0x4000), (64, 8, 0x5000)]))),
    decide ((fun (s : State) => (fun (d : Nat) => (fun (x : Desc) => (fun (y : Job) => (fun (l : List Byte) => s.Inv = true ∧ (s.acts d x 5 3 = true) ∧ (s.job? (x.field 42 2) = some y) ∧ (y.slice = x.slice) ∧ (s.snap = none) ∧ (s.refusals 0x10 (x.field 42 2) x.slice [(x.field 64 8, x.field 88 8), (x.field 72 8, 48)] = ([], s)) ∧ (l.length = x.field 44 4) ∧ ((s.memWrite 0x10 (x.field 42 2) 0 x.slice (x.field 64 8) ((l.drop (x.field 80 8)).take (x.field 88 8))).1 = none) ∧ (s.getF (R.crRing x.cq) F.crRing_space = 1) ∧ (s.noneWaits = true)) ([1, 2, 3, 4])) (⟨0, jobRaw, [], false⟩)) (wholeOf (opRaw 5 3 [(42, 2, 1), (44, 4, 4), (64, 8, 0x5000), (72, 8, 0x6000), (80, 8, 1), (88, 8, 2)]))) (5)) (withDesc training (opRaw 5 3 [(42, 2, 1), (44, 4, 4), (64, 8, 0x5000), (72, 8, 0x6000), (80, 8, 1), (88, 8, 2)]))),
    decide ((fun (s : State) => (fun (d : Nat) => (fun (x : Desc) => (fun (y : Job) => (fun (p : Snap) => s.Inv = true ∧ (s.acts d x 5 3 = true) ∧ (s.job? (x.field 42 2) = some y) ∧ (y.slice = x.slice) ∧ (s.snap = some p) ∧ (p.shards.any (fun h => meets (x.field 64 8) (x.field 88 8) h.addr h.bytes) = true) ∧ (s.noneWaits = true)) (snap2)) (⟨0, jobRaw, [], false⟩)) (wholeOf (opRaw 5 3 [(42, 2, 1), (44, 4, 4), (64, 8, 0x10000000000), (88, 8, 2)]))) (5)) ({ snapping jobRaw snap2 with bench := (withDesc training (opRaw 5 3 [(42, 2, 1), (44, 4, 4), (64, 8, 0x10000000000), (88, 8, 2)])).bench })),
    decide ((fun (s : State) => (fun (d : Nat) => (fun (g : Nat) => (fun (n : Nat) => (fun (x : Desc) => (fun (y : Job) => (fun (v : List Byte) => (fun (l : List Byte) => s.Inv = true ∧ (s.acts d x 5 4 = true) ∧ (s.job? (x.field 42 2) = some y) ∧ (y.slice = x.slice) ∧ (g = fieldLE v 0 4) ∧ (fieldLE v 4 4 = y.field 0 4) ∧ (g ≠ 0) ∧ (manifestOk l g = true) ∧ (n = 128 + 80 * fieldLE l 12 4 + 48) ∧ (n ≤ x.field 44 4) ∧ ((s.memWrite 0x10 (x.field 42 2) 0 x.slice (x.field 56 8) (l.take n)).1 = none) ∧ (s.getF (R.crRing x.cq) F.crRing_space = 1) ∧ (s.noneWaits = true)) (raw [(0, 4, 0x4B434E43), (4, 4, 1), (8, 4, 4)] ++ sha384 (raw [(0, 4, 0x4B434E43), (4, 4, 1), (8, 4, 4)]))) ([4, 0, 0, 0, 0x77, 0, 0, 0])) (⟨0, jobRaw, [], false⟩)) (wholeOf (opRaw 5 4 [(42, 2, 1), (44, 4, 1000), (56, 8, 0x5000)]))) (176)) (4)) (5)) (withDesc training (opRaw 5 4 [(42, 2, 1), (44, 4, 1000), (56, 8, 0x5000)])))] id = true := by decide +kernel

set_option maxRecDepth 20000 in
/-- For each clause, in order, a state and operands that meet its hypotheses. -/
theorem witness_DmaCommands : List.all [
    decide ((fun (s : State) => (fun (ch : Nat) => (fun (v : Word) => s.Inv = true ∧ (ch < 1024) ∧ (s.getF (dmaReg R.chanCfg ch) F.chanCfg_enable = 1) ∧ (s.sliceState (s.chanOwner ch) = 1) ∧ (v.toNat % 2 ^ 16 < s.chanSlots ch)) (63)) (1023)) (dmaReady)),
    decide ((fun (s : State) => (fun (ch : Nat) => (fun (v : Word) => s.Inv = true ∧ (ch < 1024) ∧ (s.getF (dmaReg R.chanCfg ch) F.chanCfg_enable = 1) ∧ (s.sliceState (s.chanOwner ch) = 1) ∧ (s.chanSlots ch ≤ v.toNat % 2 ^ 16)) (64)) (1023)) (dmaReady)),
    decide ((fun (s : State) => (fun (ch : Nat) => (fun (l : List Byte) => s.Inv = true ∧ (ch < 1024) ∧ (s.getF (dmaReg R.chanCfg ch) F.chanCfg_enable = 1) ∧ (s.chanState ch ≤ 1) ∧ (s.fetches (s.chanOwner ch) = true) ∧ (s.chanHeld ch = false) ∧ (s.getF (dmaReg R.chanHead ch) F.chanHead_head ≠ s.getF (dmaReg R.chanTail ch) F.chanTail_tail) ∧ (s.getF (dmaReg R.chanRing ch) F.chanRing_space = 1) ∧ (s.hostPath (s.sliceFn (s.chanOwner ch)) = true) ∧ (s.ringWaits (s.chanOwner ch) 1 = false) ∧ (l.length = 64) ∧ ((s.dmaCheck ch l).1 ≠ 8) ∧ (((s.chanWork ch ++ [DmaWork.fetched (s.nextWork ch) (s.getF (dmaReg R.chanHead ch) F.chanHead_head) l (s.dmaCheck ch l).1]).find? DmaWork.open_).all (fun u => (u.outcome (s.chanLeave ch)).isNone) = true)) (dmaRaw 1 8 0x4000 0x5000 [])) (1023)) (dmaReady)),
    decide ((fun (s : State) => (fun (ch : Nat) => (fun (l : List Byte) => s.Inv = true ∧ (ch < 1024) ∧ (s.tablesRise = true) ∧ (s.getF (dmaReg R.chanCfg ch) F.chanCfg_enable = 1) ∧ (s.chanState ch ≤ 1) ∧ (s.fetches (s.chanOwner ch) = true) ∧ (s.chanHeld ch = false) ∧ (s.getF (dmaReg R.chanHead ch) F.chanHead_head ≠ s.getF (dmaReg R.chanTail ch) F.chanTail_tail) ∧ (s.getF (dmaReg R.chanRing ch) F.chanRing_space = 1) ∧ (s.hostPath (s.sliceFn (s.chanOwner ch)) = true) ∧ (s.ringWaits (s.chanOwner ch) 1 = false) ∧ (l.length = 64) ∧ ((s.dmaCheck ch l).1 ≠ 0) ∧ (s.chanWork ch = [])) (dmaRaw 7 8 0x4000 0x5000 [])) (1023)) (dmaReady)),
    decide ((fun (s : State) => (fun (ch : Nat) => (fun (n : Nat) => (fun (k : Nat) => (fun (v : DmaWork) => (fun (l : List Byte) => (fun (b : State) => (fun (u : State) => s.Inv = true ∧ (ch < 1024) ∧ (s.dmaNow ch 1 = some v) ∧ (fieldLE v.raw 2 1 = 0) ∧ (fieldLE v.raw 3 1 = 0) ∧ (v.done = v.asked) ∧ (v.held = []) ∧ (((s.chanWork ch).find? DmaWork.open_).all (fun u => (u.outcome (s.chanLeave ch)).isNone) = true) ∧ (k = s.dmaShare ch v (min n (fieldLE v.raw 8 4 - v.asked))) ∧ (0 < k) ∧ (v.done + k < fieldLE v.raw 8 4) ∧ (b = s.dmaTook ch v k) ∧ (b.memRead 0x06 (ch / 64) 2 (s.chanOwner ch) (fieldLE v.raw 16 8 + v.asked) k = (.bytes l, b)) ∧ (u = b.setWork ch (setWorkAt (b.chanWork ch) { v with asked := v.asked + k, held := [(v.asked, l)] })) ∧ ((u.memWrite 0x06 (ch / 64) 2 (s.chanOwner ch) (fieldLE v.raw 24 8 + v.asked) l).1 = none) ∧ (l.length = k) ∧ (s.noneWaits = true)) (b.setWork ch (setWorkAt (b.chanWork ch) { v with asked := v.asked + k, held := [(v.asked, l)] }))) (s.dmaTook ch v k)) ([0, 7, 0])) (DmaWork.fetched 1 0 (dmaRaw 1 8 0x4000 0x5000 []) 0)) (3)) (3)) (1023)) ({ dmaRunning (dmaRaw 1 8 0x4000 0x5000 []) with mem := [(0x4001, 7)] })),
    decide ((fun (s : State) => (fun (ch : Nat) => (fun (n : Nat) => (fun (k : Nat) => (fun (v : DmaWork) => (fun (l : List Byte) => (fun (b : State) => (fun (u : State) => s.Inv = true ∧ (ch < 1024) ∧ (s.dmaNow ch 1 = some v) ∧ (fieldLE v.raw 2 1 = 1) ∧ (fieldLE v.raw 3 1 = 0) ∧ (v.done = v.asked) ∧ (v.held = []) ∧ (((s.chanWork ch).find? DmaWork.open_).all (fun u => (u.outcome (s.chanLeave ch)).isNone) = true) ∧ (k = s.dmaShare ch v (min n (fieldLE v.raw 8 4 - v.asked))) ∧ (0 < k) ∧ (v.done + k < fieldLE v.raw 8 4) ∧ (s.hostPath (s.sliceFn (s.chanOwner ch)) = true) ∧ (s.tagWait (s.chanOwner ch) 1 = false) ∧ (b = (s.dmaTook ch v k).emitReads (s.sliceFn (s.chanOwner ch)) (s.chanPasid ch) (fieldLE v.raw 16 8 + v.asked) k) ∧ (u = b.setWork ch (setWorkAt (b.chanWork ch) { v with asked := v.asked + k, held := [(v.asked, l)] })) ∧ ((u.memWrite 0x06 (ch / 64) 2 (s.chanOwner ch) (fieldLE v.raw 24 8 + v.asked) l).1 = none) ∧ (l.length = k) ∧ (s.noneWaits = true)) (b.setWork ch (setWorkAt (b.chanWork ch) { v with asked := v.asked + k, held := [(v.asked, l)] }))) ((s.dmaTook ch v k).emitReads (s.sliceFn (s.chanOwner ch)) (s.chanPasid ch) (fieldLE v.raw 16 8 + v.asked) k)) ([0, 7, 0])) (DmaWork.fetched 1 0 (dmaRaw 1 8 0x4000 0x5000 [(2, 1, 1)]) 0)) (3)) (3)) (1023)) (dmaRunning (dmaRaw 1 8 0x4000 0x5000 [(2, 1, 1)]))),
    decide ((fun (s : State) => (fun (ch : Nat) => (fun (n : Nat) => (fun (k : Nat) => (fun (v : DmaWork) => (fun (u : State) => s.Inv = true ∧ (ch < 1024) ∧ (s.dmaNow ch 2 = some v) ∧ (fieldLE v.raw 3 1 = 0) ∧ (((s.chanWork ch).find? DmaWork.open_).all (fun u => (u.outcome (s.chanLeave ch)).isNone) = true) ∧ (k = s.dmaShare ch v (min n (fieldLE v.raw 8 4 - v.done))) ∧ (0 < k) ∧ (v.done + k < fieldLE v.raw 8 4) ∧ (u = s.dmaTook ch v k) ∧ ((u.memWrite 0x06 (ch / 64) 2 (s.chanOwner ch) (fieldLE v.raw 24 8 + v.done) ((below k).map fun i => ((v.raw.drop 16).take 8).getD ((v.done + i) % 8) 0)).1 = none) ∧ (s.noneWaits = true)) (s.dmaTook ch v k)) (DmaWork.fetched 1 0 (dmaRaw 2 80 0x0807060504030201 0x5000 []) 0)) (11)) (11)) (1023)) (dmaRunning (dmaRaw 2 80 0x0807060504030201 0x5000 []))),
    decide ((fun (s : State) => (fun (ch : Nat) => (fun (v : DmaWork) => s.Inv = true ∧ (ch < 1024) ∧ (s.tablesRise = true) ∧ (s.chanHeld ch = false) ∧ (s.chanWork ch = [v]) ∧ (v.issued = true) ∧ (v.code = 0) ∧ (v.acked = false) ∧ (v.left = false) ∧ (fieldLE v.raw 3 1 = 0 ∨ s.chanLeave ch = true) ∧ (s.noneWaits = true)) ({ DmaWork.fetched 1 0 (dmaRaw 1 8 0x4000 0x5000 []) 0 with done := 8, asked := 8, issued := true })) (1023)) ({ dmaReady with dma := [(1023, [{ DmaWork.fetched 1 0 (dmaRaw 1 8 0x4000 0x5000 []) 0 with done := 8, asked := 8, issued := true }])] })),
    decide ((fun (s : State) => (fun (ch : Nat) => (fun (v : DmaWork) => s.Inv = true ∧ (ch < 1024) ∧ (s.tablesRise = true) ∧ (s.chanWork ch = [v]) ∧ (v.issued = true) ∧ (v.code = 0) ∧ (v.acked = false) ∧ (v.left = true)) ({ DmaWork.fetched 1 0 (dmaRaw 1 8 0x4000 0x5000 []) 0 with done := 8, asked := 8, issued := true, left := true })) (1023)) ({ dmaReady with dma := [(1023, [{ DmaWork.fetched 1 0 (dmaRaw 1 8 0x4000 0x5000 []) 0 with done := 8, asked := 8, issued := true, left := true }])] })),
    decide ((fun (s : State) => (fun (ch : Nat) => (fun (v : DmaWork) => s.Inv = true ∧ (ch < 1024) ∧ (s.tablesRise = true) ∧ (s.chanWork ch = [v]) ∧ (v.left = true) ∧ (v.code = 0)) ({ DmaWork.fetched 1 0 (dmaRaw 1 8 0x4000 0x5000 []) 0 with done := 8, asked := 8, issued := true, left := true })) (1023)) ({ w dmaReady (R.chanCfg 15 63) F.chanCfg_leave 1 with dma := [(1023, [{ DmaWork.fetched 1 0 (dmaRaw 1 8 0x4000 0x5000 []) 0 with done := 8, asked := 8, issued := true, left := true }])] })),
    decide ((fun (s : State) => (fun (ch : Nat) => s.Inv = true ∧ (ch < 1024) ∧ (s.serving = true) ∧ (s.chanState ch ≤ 1)) (1023)) (dmaReady)),
    decide ((fun (s : State) => (fun (ch : Nat) => s.Inv = true ∧ (ch < 1024) ∧ (s.serving = true) ∧ (s.chanState ch = 3) ∧ ((s.chanWork ch).any DmaWork.open_ = true)) (1023)) (w (dmaRunning (dmaRaw 1 8 0x4000 0x5000 [])) (R.chanStatus 15 63) F.chanStatus_state 3)),
    decide ((fun (s : State) => (fun (ch : Nat) => s.Inv = true ∧ (ch < 1024) ∧ (s.chanState ch = 2) ∧ ((s.tags.any fun e => e.2.who == ch) = false)) (1023)) (w (dmaRunning (dmaRaw 1 8 0x4000 0x5000 [])) (R.chanStatus 15 63) F.chanStatus_state 2)),
    decide ((fun (s : State) => (fun (e : Nat) => (fun (code : Nat) => s.Inv = true ∧ (e < 16) ∧ (code = 0x11 ∨ code = 0x12 ∨ code = 0x16)) (0x12)) (15)) (dmaRunning (dmaRaw 1 8 0x4000 0x5000 []))),
    decide ((fun (s : State) => (fun (ch : Nat) => s.Inv = true ∧ (ch < 1024) ∧ (s.serving = true) ∧ (s.chanState ch = 4) ∧ (s.chanWork ch = []) ∧ (s.getF (dmaReg R.chanHead ch) F.chanHead_head = s.getF (dmaReg R.chanTail ch) F.chanTail_tail)) (1023)) (w ready (R.chanStatus 15 63) F.chanStatus_state 4)),
    decide ((fun (s : State) => (fun (ch : Nat) => s.Inv = true ∧ (ch < 1024) ∧ (s.serving = true) ∧ (s.chanState ch ≠ 4)) (1023)) (dmaReady)),
    decide ((fun (s : State) => (fun (ch : Nat) => s.Inv = true ∧ (ch < 1024) ∧ (s.tablesRise = true) ∧ (s.serving = true)) (1023)) (dmaRunning (dmaRaw 1 8 0x4000 0x5000 [])))] id = true := by decide +kernel

set_option maxRecDepth 20000 in
/-- For each clause, in order, a state and operands that meet its hypotheses. -/
theorem witness_HostAccessCommands : List.all [
    decide ((fun (s : State) => (fun (fn : Nat) => s.Inv = true ∧ (fn < 2) ∧ ((s.epOf fn).perst = false) ∧ (s.getF (R.epStatus fn) F.epStatus_flr_busy = 0)) (1)) (hosted)),
    decide ((fun (s : State) => (fun (fn : Nat) => s.Inv = true ∧ (fn < 2) ∧ ((s.epOf fn).perst = false) ∧ (s.getF (R.epStatus fn) F.epStatus_flr_busy = 0)) (1)) (hosted)),
    decide ((fun (s : State) => (fun (fn : Nat) => s.Inv = true ∧ (fn < 2) ∧ ((s.epOf fn).perst = false) ∧ (s.getF (R.epStatus fn) F.epStatus_flr_busy = 1)) (1)) (w hosted (R.epStatus 1) F.epStatus_flr_busy 1)),
    decide ((fun (s : State) => (fun (fn : Nat) => (fun (v : Nat) => s.Inv = true ∧ (fn < 2) ∧ (s.tablesRise = true) ∧ ((s.epOf fn).perst = false) ∧ (s.getF (R.epStatus fn) F.epStatus_flr_busy = 0) ∧ (natBit v 2 = true)) (6)) (1)) (hosted)),
    decide ((fun (s : State) => (fun (fn : Nat) => s.Inv = true ∧ (fn < 2) ∧ ((s.epOf fn).perst = false)) (1)) (hosted)),
    decide ((fun (s : State) => (fun (off : Nat) => (fun (len : Nat) => (fun (a : Nat) => (fun (l : List Byte) => (fun (fn : Nat) => (fun (slice : Nat) => s.Inv = true ∧ (s.serving = true) ∧ (s.barOpen fn = true) ∧ (s.apertureHit fn off len false true = some (a, slice)) ∧ ((s.memRead 0x04 fn 3 slice a len).1 = .bytes l) ∧ (s.noneWaits = true)) (0)) (0)) ([0, 7])) (4)) (2)) (4)) ({ hosted with mem := [(5, 7)] })),
    decide ((fun (s : State) => (fun (off : Nat) => (fun (a : Nat) => (fun (l : List Byte) => (fun (fn : Nat) => (fun (slice : Nat) => s.Inv = true ∧ (s.serving = true) ∧ (s.barOpen fn = true) ∧ (l.length ≤ 128 * 2 ^ (s.epOf fn).mps) ∧ (s.apertureHit fn off l.length true false = some (a, slice)) ∧ ((s.memWrite 0x04 fn 3 slice a l).1 = none) ∧ (s.noneWaits = true)) (0)) (0)) ([0, 7])) (4)) (4)) (hosted)),
    decide ((fun (s : State) => (fun (fn : Nat) => (fun (l : List Byte) => s.Inv = true ∧ (fn < 2) ∧ (128 * 2 ^ (s.epOf fn).mps < l.length)) (List.replicate 513 1)) (1)) (hosted)),
    decide ((fun (s : State) => (fun (off : Nat) => (fun (len : Nat) => (fun (fn : Nat) => s.Inv = true ∧ (s.serving = true) ∧ (s.barOpen fn = true) ∧ (s.apertureHit fn off len false true = none)) (0)) (4)) (0x200000)) (hosted)),
    decide ((fun (s : State) => (fun (off : Nat) => (fun (n : Nat) => (fun (a : Nat) => (fun (v : Nat) => (fun (op : AtomicReq) => (fun (l : List Byte) => (fun (fn : Nat) => (fun (slice : Nat) => s.Inv = true ∧ (s.serving = true) ∧ (s.barOpen fn = true) ∧ (n = 4 ∨ n = 8) ∧ ((atomicNew op 0).map Prod.fst = some n) ∧ (off % n = 0) ∧ (s.apertureHit fn off n true true = some (a, slice)) ∧ (s.memRead 0x04 fn 3 slice a n = (.bytes l, s)) ∧ (atomicNew op (leNat l) = some (n, v)) ∧ ((s.memWrite 0x04 fn 3 slice a (bytesLE n v)).1 = none) ∧ (s.noneWaits = true)) (0)) (0)) ([0xFF, 0xFF, 0xFF, 0xFF])) (.fetchAdd 4 3)) (2)) (4)) (4)) (4)) ({ hosted with mem := [(4, 0xFF), (5, 0xFF), (6, 0xFF), (7, 0xFF)] })),
    decide ((fun (s : State) => (fun (fn : Nat) => (fun (v : Nat) => s.Inv = true ∧ (fn < 2) ∧ (v < 2048) ∧ (natBit (s.reg (R.msixPba fn (v / 64))).toNat (v % 64) = true) ∧ ((s.epOf fn).msixEnable = true) ∧ (s.hostPath fn = true) ∧ (s.vectorMasked fn v = false) ∧ ((s.epOf fn).funcMask = false)) (2047)) (1)) ((withEp1 (w hosted (R.msixTable 1 4095) (32, 32) 0) { epUp with msixEnable := true }).setPending 1 2047)),
    decide ((fun (s : State) => s.Inv = true ∧ (s.serving = true)) ({ hosted.setReg (R.intxPend 0) 5 with ep := [(0, { epUp with inta := true })] })),
    decide ((fun (s : State) => (fun (fn : Nat) => s.Inv = true ∧ (fn < 2) ∧ (s.getF (R.epStatus fn) F.epStatus_d_state ≠ 3)) (1)) ({ hosted with tags := [(2 ^ 14 + 5, ⟨1, 0, 0, 0, 4, 0⟩)] })),
    decide ((fun (s : State) => (fun (fn : Nat) => s.Inv = true ∧ (fn < 2) ∧ (s.getF (R.epStatus fn) F.epStatus_d_state = 3) ∧ (s.pwr ≠ 2)) (1)) (w hosted (R.epStatus 1) F.epStatus_d_state 3)),
    decide ((fun (s : State) => (fun (fn : Nat) => s.Inv = true ∧ (fn < 2) ∧ (s.getF (R.epStatus fn) F.epStatus_d_state = 3)) (1)) (w hosted (R.epStatus 1) F.epStatus_d_state 3)),
    decide ((fun (s : State) => (fun (fn : Nat) => s.Inv = true ∧ (fn < 2) ∧ (s.tablesRise = true) ∧ ((s.epOf fn).perst = false)) (1)) (withSlice9 hosted)),
    decide ((fun (s : State) => (fun (fn : Nat) => s.Inv = true ∧ (s.tablesRise = true) ∧ ((s.epOf fn).perst = true) ∧ (s.pwr ≠ 3)) (1)) (withEp1 hosted { epUp with perst := true })),
    decide ((fun (s : State) => (fun (fn : Nat) => (fun (src : Nat) => s.Inv = true ∧ (fn < 2) ∧ (src < 4) ∧ (natBit (s.reg (R.wakeCfg fn)).toNat src = false ∨ (s.epOf fn).pmeEn = false)) (3)) (1)) (hosted)),
    decide ((fun (s : State) => (fun (fn : Nat) => (fun (src : Nat) => s.Inv = true ∧ (fn < 2) ∧ (src < 4) ∧ (natBit (s.reg (R.wakeCfg fn)).toNat src = true) ∧ ((s.epOf fn).pmeEn = true) ∧ (s.getF (R.epStatus fn) F.epStatus_d_state = 3) ∧ (s.getF (R.epStatus fn) F.epStatus_link_up = 1) ∧ ((s.epOf fn).linkPm ≠ 4)) (3)) (1)) (withEp1 (w (w hosted (R.epStatus 1) F.epStatus_d_state 3) (R.wakeCfg 1) (3, 3) 1) { epUp with pmeEn := true })),
    decide ((fun (s : State) => (fun (fn : Nat) => s.Inv = true ∧ (fn < 2)) (1)) (hosted)),
    decide ((fun (s : State) => (fun (fn : Nat) => (fun (deep : Bool) => s.Inv = true ∧ (fn < 2) ∧ ((s.epOf fn).aspm = 2) ∧ (deep = true → natBit (s.epOf fn).l1ss 3 = true) ∧ (s.getF (R.epStatus fn) F.epStatus_link_up = 1) ∧ ((s.epOf fn).linkPm = 0)) (false)) (1)) (withEp1 hosted { epUp with aspm := 2 }))] id = true := by decide +kernel

set_option maxRecDepth 20000 in
/-- For each clause, in order, a state and operands that meet its hypotheses. -/
theorem witness_HostLossCommands : List.all [
    decide ((fun (s : State) => (fun (u : Nat) => (fun (tag : Nat) => (fun (use : TagUse) => s.Inv = true ∧ (u < 2) ∧ (Tab.find? s.tags (tagKey u tag) = some use)) (⟨1023, 0, 0, 0, 4, 0⟩)) (5)) (1)) ({ hosted with tags := [(tagKey 1 5, ⟨1023, 0, 0, 0, 4, 0⟩)] })),
    decide ((fun (s : State) => (fun (tag : Nat) => (fun (last : Bool) => (fun (use : TagUse) => (fun (l : List Byte) => (fun (v : DmaWork) => (fun (u : Nat) => s.Inv = true ∧ (use.who < 1024) ∧ (Tab.find? s.tags (tagKey u tag) = some use) ∧ (l.length ≤ use.len - use.got) ∧ (last = true → use.got + l.length = use.len) ∧ (use.len ≠ 0) ∧ (l ≠ []) ∧ ((s.chanWork use.who).find? (fun v => v.num == use.num && v.code == 0) = some v) ∧ (v.issued = false) ∧ (v.acked = false) ∧ (v.held = []) ∧ (v.done = use.off + use.got) ∧ (((s.chanWork use.who).find? DmaWork.open_).all (fun u => (u.outcome (s.chanLeave use.who)).isNone) = true) ∧ (fieldLE v.raw 3 1 = 0) ∧ ((s.memWrite 0x06 (use.who / 64) 2 (s.chanOwner use.who) (fieldLE v.raw 24 8 + (use.off + use.got)) l).1 = none) ∧ (s.getF (dmaReg R.chanCfg use.who) F.chanCfg_leave = 0) ∧ (s.noneWaits = true)) (0)) ({ DmaWork.fetched 1 0 (dmaRaw 1 8 0x4000 0x5000 [(2, 1, 1)]) 0 with done := 3, asked := 6 })) ([1, 2, 3])) (⟨1023, 0, 1, 2, 4, 1⟩)) (true)) (5)) ({ dmaRunning (dmaRaw 1 8 0x4000 0x5000 [(2, 1, 1)]) with dma := [(1023, [{ DmaWork.fetched 1 0 (dmaRaw 1 8 0x4000 0x5000 [(2, 1, 1)]) 0 with done := 3, asked := 6 }])], tags := [(tagKey 0 5, ⟨1023, 0, 1, 2, 4, 1⟩)] })),
    decide ((fun (s : State) => (fun (u : Nat) => (fun (tag : Nat) => (fun (q : TagQuar) => s.Inv = true ∧ (u < 2) ∧ (Tab.find? s.tags (tagKey u tag) = none) ∧ (Tab.find? s.quarantine (tagKey u tag) = some q)) (⟨0, 0⟩)) (8191)) (1)) ({ hosted with quarantine := [(tagKey 1 8191, ⟨0, 0⟩)] })),
    decide ((fun (s : State) => (fun (u : Nat) => (fun (tag : Nat) => s.Inv = true ∧ (u < 2) ∧ (Tab.find? s.tags (tagKey u tag) = none) ∧ (Tab.find? s.quarantine (tagKey u tag) = none)) (0)) (1)) (hosted)),
    decide ((fun (s : State) => (fun (u : Nat) => (fun (tag : Nat) => (fun (q : TagQuar) => s.Inv = true ∧ (u < 2) ∧ (Tab.find? s.quarantine (tagKey u tag) = some q) ∧ (s.unitTimeout u ≤ s.since q.since) ∧ (s.unitTimeout u ≤ s.since q.last)) (⟨s.now - 16000000, s.now - 16000000⟩)) (8191)) (1)) ({ hosted with quarantine := [(tagKey 1 8191, ⟨0, 0⟩)], clock := { hosted.clock with ticks := 16000000 } })),
    decide ((fun (s : State) => (fun (u : Nat) => (fun (tag : Nat) => (fun (q : TagQuar) => s.Inv = true ∧ (Tab.find? s.quarantine (tagKey u tag) = some q) ∧ (s.since q.since < s.unitTimeout u ∨ s.since q.last < s.unitTimeout u)) (⟨0, 1⟩)) (8191)) (1)) ({ hosted with quarantine := [(tagKey 1 8191, ⟨0, 1⟩)], clock := { hosted.clock with ticks := 16000000 } })),
    decide ((fun (s : State) => (fun (fn : Nat) => s.Inv = true ∧ (fn < 2) ∧ (s.getF (R.epStatus fn) F.epStatus_bme = 1) ∧ (s.getF (R.epStatus fn) F.epStatus_flr_busy = 0)) (1)) ({ hosted with tags := [(tagKey 1 5, ⟨1, 0, 0, 0, 4, 0⟩)] })),
    decide ((fun (s : State) => (fun (fn : Nat) => s.Inv = true ∧ (fn < 2) ∧ (s.getF (R.epStatus fn) F.epStatus_flr_busy = 0)) (1)) ({ withSlice9 hosted with tags := [(tagKey 1 5, ⟨1, 0, 0, 0, 4, 0⟩)] })),
    decide ((fun (s : State) => (fun (fn : Nat) => s.Inv = true ∧ (fn < 2) ∧ (s.getF (R.epStatus fn) F.epStatus_flr_busy = 1)) (1)) (w hosted (R.epStatus 1) F.epStatus_flr_busy 1)),
    decide ((fun (s : State) => (fun (fn : Nat) => s.Inv = true ∧ (fn < 2) ∧ (s.getF (R.epStatus fn) F.epStatus_flr_busy = 1) ∧ (((s.slicesOf fn).any fun n => s.sliceState n == 3) = false)) (1)) (w hosted (R.epStatus 1) F.epStatus_flr_busy 1)),
    decide ((fun (s : State) => (fun (fn : Nat) => (fun (v : Word) => s.Inv = true ∧ (fn < 2) ∧ (s.tablesRise = true) ∧ (s.serving = true) ∧ (getBits v F.hbCfg_period_ms ≠ 0) ∧ (getBits v F.hbCfg_enable = 1)) (word [(F.hbCfg_enable, 1), (F.hbCfg_period_ms, 10001)])) (1)) (w hosted (R.epStatus 1) F.epStatus_host_lost 1)),
    decide ((fun (s : State) => (fun (fn : Nat) => (fun (v : Word) => s.Inv = true ∧ (fn < 2) ∧ (s.tablesRise = true) ∧ (s.serving = true) ∧ (getBits v F.hbCfg_period_ms = 0) ∧ (getBits v F.hbCfg_enable = 1)) (word [(F.hbCfg_enable, 1)])) (1)) (hosted)),
    decide ((fun (s : State) => (fun (fn : Nat) => (fun (v : Word) => s.Inv = true ∧ (fn < 2) ∧ (s.serving = true) ∧ (getBits v F.hbCfg_enable = 0) ∧ (s.getF (R.hbCfg fn) F.hbCfg_enable = 1) ∧ ((s.slicesOf fn).isEmpty = false) ∧ (s.getF (R.epStatus fn) F.epStatus_flr_busy = 0) ∧ ((s.epOf fn).draining = false)) (0)) (1)) (w (withSlice9 hosted) (R.hbCfg 1) F.hbCfg_enable 1)),
    decide ((fun (s : State) => (fun (fn : Nat) => s.Inv = true ∧ (fn < 2) ∧ (s.tablesRise = true) ∧ (s.serving = true)) (1)) (hosted)),
    decide ((fun (s : State) => (fun (fn : Nat) => s.Inv = true ∧ (fn < 2) ∧ (s.getF (R.hbCfg fn) F.hbCfg_enable = 1) ∧ (s.getF (R.epStatus fn) F.epStatus_flr_busy = 0) ∧ ((s.epOf fn).draining = false)) (1)) (w hosted (R.hbCfg 1) F.hbCfg_enable 1)),
    decide ((fun (s : State) => (fun (fn : Nat) => s.Inv = true ∧ (fn < 2) ∧ (s.getF (R.hbCfg fn) F.hbCfg_enable = 1) ∧ (s.getF (R.epStatus fn) F.epStatus_flr_busy = 1) ∧ ((s.epOf fn).draining = false)) (1)) (w (w hosted (R.hbCfg 1) F.hbCfg_enable 1) (R.epStatus 1) F.epStatus_flr_busy 1)),
    decide ((fun (s : State) => (fun (fn : Nat) => s.Inv = true ∧ (s.getF (R.hbCfg fn) F.hbCfg_enable = 0)) (1)) (hosted)),
    decide ((fun (s : State) => (fun (fn : Nat) => s.Inv = true ∧ (fn < 2) ∧ (s.getF (R.epStatus fn) F.epStatus_link_up = 0) ∧ ((s.epOf fn).perst = false) ∧ ((s.epOf fn).linkPm ≠ 4) ∧ (s.getF (R.epStatus fn) F.epStatus_flr_busy = 0) ∧ ((s.epOf fn).draining = false)) (1)) (w hosted (R.epStatus 1) F.epStatus_link_up 0)),
    decide ((fun (s : State) => (fun (fn : Nat) => s.Inv = true ∧ (fn < 2) ∧ (s.tablesRise = true) ∧ (s.partsFit = true) ∧ ((s.epOf fn).draining = true)) (1)) (withEp1 (withSlice9 hosted) { epUp with draining := true })),
    decide ((fun (s : State) => (fun (fn : Nat) => s.Inv = true ∧ (fn < 2)) (1)) (hosted)),
    decide ((fun (s : State) => (fun (fn : Nat) => s.Inv = true ∧ (fn < 2)) (1)) (hosted)),
    decide ((fun (s : State) => (fun (fn : Nat) => (fun (tag : Nat) => (fun (use : TagUse) => s.Inv = true ∧ (fn < 2) ∧ (Tab.find? s.tags (tagKey fn tag) = some use) ∧ (s.chanWork use.who = [])) (⟨1023, 0, 0, 0, 4, 0⟩)) (5)) (1)) ({ hosted with tags := [(tagKey 1 5, ⟨1023, 0, 0, 0, 4, 0⟩)] })),
    decide ((fun (s : State) => (fun (fn : Nat) => (fun (tag : Nat) => (fun (q : TagQuar) => s.Inv = true ∧ (fn < 2) ∧ (Tab.find? s.tags (tagKey fn tag) = none) ∧ (Tab.find? s.quarantine (tagKey fn tag) = some q)) (⟨0, 0⟩)) (8191)) (1)) ({ hosted with quarantine := [(tagKey 1 8191, ⟨0, 0⟩)] })),
    decide ((fun (s : State) => (fun (fn : Nat) => (fun (v : Nat) => s.Inv = true ∧ (fn < 2) ∧ ((s.epOf fn).perst = false) ∧ (s.getF (R.epStatus fn) F.epStatus_flr_busy = 1) ∧ (natBit v 15 = true)) (2 ^ 15)) (1)) (w hosted (R.epStatus 1) F.epStatus_flr_busy 1))] id = true := by decide +kernel

set_option maxRecDepth 20000 in
/-- For each clause, in order, a state and operands that meet its hypotheses. -/
theorem witness_SliceCommands : List.all [
    decide ((fun (s : State) => (fun (ch : Nat) => (fun (v : Word) => s.Inv = true ∧ (s.serving = true) ∧ (ch < 1024) ∧ (s.getF (R.engineStatus (ch / 64)) F.engineStatus_ckpt = 0) ∧ (getBits v F.chanCfg_owner = s.chanOwner ch) ∧ (getBits v F.chanCfg_leave = 0) ∧ (s.chanIdle ch = true) ∧ (s.quietAllows (s.chanOwner ch) (fun q => natBit q.engines (ch / 64)) = true) ∧ (s.chanOwner ch = 0 → (s.chansUsed 0).contains ch = true ∨ (s.chansUsed 0).length < s.limit 0 .channels)) (word [(F.chanCfg_enable, 1), (F.chanCfg_classes, 5), (F.chanCfg_pasid, 77)])) (1023)) (ready)),
    decide ((fun (s : State) => (fun (n : Nat) => (fun (v : Word) => s.Inv = true ∧ (s.serving = true) ∧ (n ≠ 0) ∧ (getBits v F.sliceCmdGo_slice = n) ∧ (getBits v F.sliceCmdGo_op = 1) ∧ (s.getF R.sliceCmdGo F.sliceCmdGo_busy = 0) ∧ (s.sliceState n = 0) ∧ (entryBad s n = false) ∧ (s.entryConflict n true = false) ∧ (s.entryShort n = false) ∧ (s.replicates 3 n = false)) (word [(F.sliceCmdGo_op, 1), (F.sliceCmdGo_slice, 9)])) (9)) (w ready (R.sliceBind 9) F.sliceBind_function 1)),
    decide ((fun (s : State) => (fun (n : Nat) => (fun (v : Word) => s.Inv = true ∧ (s.serving = true) ∧ (getBits v F.sliceCmdGo_slice = n) ∧ (getBits v F.sliceCmdGo_op = 6) ∧ (s.getF R.sliceCmdGo F.sliceCmdGo_busy = 0) ∧ (s.sliceState n = 1 ∨ s.sliceState n = 2) ∧ (lowersBelowUse s n = false) ∧ (entryBad s n = false) ∧ (s.entryConflict n false = false) ∧ (s.entryShort n = false) ∧ (s.replicates 3 n = false)) (word [(F.sliceCmdGo_op, 6), (F.sliceCmdGo_slice, 9)])) (9)) ({ w (w (withSlice9 running) (R.slicePolicy 9) F.slicePolicy_vec_base 7) (R.slicePolicy 9) F.slicePolicy_vec_count 8 with image := none })),
    decide ((fun (s : State) => (fun (n : Nat) => (fun (v : Word) => s.Inv = true ∧ (s.serving = true) ∧ (n ≠ 0) ∧ (getBits v F.sliceCmdGo_slice = n) ∧ (getBits v F.sliceCmdGo_op = 2) ∧ (s.getF R.sliceCmdGo F.sliceCmdGo_busy = 0) ∧ (s.sliceState n = 1 ∨ s.sliceState n = 2) ∧ (s.replicates 3 n = false) ∧ (s.partsFit = true)) (word [(F.sliceCmdGo_op, 2), (F.sliceCmdGo_slice, 9)])) (9)) (withSlice9 ready)),
    decide ((fun (s : State) => (fun (n : Nat) => (fun (v : Word) => s.Inv = true ∧ (s.serving = true) ∧ (n ≠ 0) ∧ (getBits v F.sliceCmdGo_slice = n) ∧ (getBits v F.sliceCmdGo_op = 3) ∧ (s.getF R.sliceCmdGo F.sliceCmdGo_busy = 0) ∧ (s.sliceState n = 1 ∨ s.sliceState n = 2) ∧ (inFlr s n = false) ∧ (s.replicates 3 n = false) ∧ (s.partsFit = true)) (word [(F.sliceCmdGo_op, 3), (F.sliceCmdGo_slice, 9)])) (9)) (withSlice9 ready)),
    decide ((fun (s : State) => (fun (n : Nat) => (fun (v : Word) => s.Inv = true ∧ (s.serving = true) ∧ (getBits v F.sliceCmdGo_slice = n) ∧ (getBits v F.sliceCmdGo_op = 3) ∧ (s.getF R.sliceCmdGo F.sliceCmdGo_busy = 0) ∧ (s.sliceState n = 0 ∨ 2 < s.sliceState n)) (word [(F.sliceCmdGo_op, 3), (F.sliceCmdGo_slice, 9)])) (9)) (w ready (R.sliceBind 9) F.sliceBind_state 4)),
    decide ((fun (s : State) => (fun (n : Nat) => (fun (v : Word) => s.Inv = true ∧ (s.serving = true) ∧ (getBits v F.sliceCmdGo_slice = n) ∧ (getBits v F.sliceCmdGo_op = 3) ∧ (s.getF R.sliceCmdGo F.sliceCmdGo_busy = 1)) (word [(F.sliceCmdGo_op, 3), (F.sliceCmdGo_slice, 9)])) (9)) (w (withSlice9 ready) R.sliceCmdGo F.sliceCmdGo_busy 1)),
    decide ((fun (s : State) => (fun (n : Nat) => (fun (v : Word) => s.Inv = true ∧ (s.serving = true) ∧ (n ≠ 0) ∧ (getBits v F.sliceCmdGo_slice = n) ∧ (getBits v F.sliceCmdGo_op = 4) ∧ (s.getF R.sliceCmdGo F.sliceCmdGo_busy = 0) ∧ (s.sliceState n = 1) ∧ (inFlr s n = false) ∧ (s.replicates 3 n = false)) (word [(F.sliceCmdGo_op, 4), (F.sliceCmdGo_slice, 9)])) (9)) (withSlice9 ready)),
    decide ((fun (s : State) => (fun (n : Nat) => (fun (v : Word) => s.Inv = true ∧ (s.serving = true) ∧ (n ≠ 0) ∧ (getBits v F.sliceCmdGo_slice = n) ∧ (getBits v F.sliceCmdGo_op = 5) ∧ (s.getF R.sliceCmdGo F.sliceCmdGo_busy = 0) ∧ (s.sliceState n = 2) ∧ (standbyHolds s n = false) ∧ (s.pasidClash n = false) ∧ (s.replicates 3 n = false)) (word [(F.sliceCmdGo_op, 5), (F.sliceCmdGo_slice, 9)])) (9)) (w (withSlice9 ready) (R.sliceBind 9) F.sliceBind_state 2)),
    decide ((fun (s : State) => (fun (n : Nat) => (fun (v : Word) => s.Inv = true ∧ (s.serving = true) ∧ (n ≠ 0) ∧ (getBits v F.sliceCmdGo_slice = n) ∧ (getBits v F.sliceCmdGo_op = 5) ∧ (s.getF R.sliceCmdGo F.sliceCmdGo_busy = 0) ∧ (s.sliceState n = 2) ∧ (standbyHolds s n = false) ∧ (s.pasidClash n = true) ∧ (s.replicates 3 n = false)) (word [(F.sliceCmdGo_op, 5), (F.sliceCmdGo_slice, 9)])) (9)) (w (w (w (withSlice9 ready) (R.sliceBind 9) F.sliceBind_state 2) (R.sliceBind 8) F.sliceBind_state 1) (R.sliceBind 8) F.sliceBind_function 1)),
    decide ((fun (s : State) => (fun (n : Nat) => (fun (v : Word) => s.Inv = true ∧ (s.serving = true) ∧ (getBits v F.sliceCmdGo_slice = n) ∧ (getBits v F.sliceCmdGo_op = 7) ∧ (s.getF R.sliceCmdGo F.sliceCmdGo_busy = 0) ∧ (s.sliceState n = 1) ∧ (s.replicates 3 n = false)) (word [(F.sliceCmdGo_op, 7), (F.sliceCmdGo_slice, 9)])) (9)) (w (withSlice9 ready) (R.logCfg 9) F.logCfg_overflow 1)),
    decide ((fun (s : State) => (fun (n : Nat) => (fun (v : Word) => s.Inv = true ∧ (s.serving = true) ∧ (getBits v F.sliceCmdGo_slice = n) ∧ (getBits v F.sliceCmdGo_op = 8) ∧ (s.getF R.sliceCmdGo F.sliceCmdGo_busy = 0) ∧ (s.sliceState n = 1 ∨ s.sliceState n = 2) ∧ (s.getF (R.logCfg n) F.logCfg_active = 1) ∧ (s.replicates 3 n = false)) (word [(F.sliceCmdGo_op, 8), (F.sliceCmdGo_slice, 9)])) (9)) (w (withSlice9 ready) (R.logCfg 9) F.logCfg_active 1)),
    decide ((fun (s : State) => (fun (n : Nat) => (fun (v : Word) => s.Inv = true ∧ (s.serving = true) ∧ (getBits v F.sliceCmdGo_slice = n) ∧ (getBits v F.sliceCmdGo_op = 9) ∧ (s.getF R.sliceCmdGo F.sliceCmdGo_busy = 0) ∧ (s.sliceState n = 1 ∨ s.sliceState n = 2) ∧ (s.getF (R.logCfg n) F.logCfg_active = 1) ∧ (s.replicates 3 n = false)) (word [(F.sliceCmdGo_op, 9), (F.sliceCmdGo_slice, 9)])) (9)) (w (withSlice9 ready) (R.logCfg 9) F.logCfg_active 1)),
    decide ((fun (s : State) => (fun (n : Nat) => s.Inv = true ∧ (s.sliceCmd = some (8, n)) ∧ (s.hostPath (s.sliceFn n) = true) ∧ ((s.dirty.any fun d => d.slice == n && d.buffer != s.getF (R.logCfg n) F.logCfg_buffer) = false)) (0)) ({ hosted with sliceCmd := some (8, 0), dirty := [⟨0, 5, 0, 0, 0⟩] })),
    decide ((fun (s : State) => (fun (n : Nat) => s.Inv = true ∧ (s.sliceCmd = some (8, n)) ∧ (s.hostPath (s.sliceFn n) = true) ∧ ((s.dirty.any fun d => d.slice == n && d.buffer != s.getF (R.logCfg n) F.logCfg_buffer) = true)) (0)) ({ hosted with sliceCmd := some (8, 0), dirty := [⟨0, 5, 1, 0, 0⟩] })),
    decide ((fun (s : State) => (fun (d : DirtyPage) => (fun (l : List Byte) => (fun (r : List DirtyPage) => s.Inv = true ∧ (s.dirty = d :: r) ∧ (l.length = 8) ∧ (s.hostPath d.fn = true) ∧ ((s.nextTag d.fn).isNone = false)) ([])) (zeros 8)) (⟨0, 127, 0, 0, 0x4000⟩)) ({ hosted with dirty := [⟨0, 127, 0, 0, 0x4000⟩] })),
    decide ((fun (s : State) => (fun (n : Nat) => s.Inv = true ∧ (n < 256) ∧ (s.tablesRise = true) ∧ (s.sliceState n = 3) ∧ (s.storeBusy n = false) ∧ (s.sliceCmd = some (3, n))) (9)) ({ w (withSlice9 ready) (R.sliceBind 9) F.sliceBind_state 3 with sliceCmd := some (3, 9) })),
    decide ((fun (s : State) => (fun (n : Nat) => s.Inv = true ∧ (n < 256) ∧ (s.tablesRise = true) ∧ (s.sliceState n = 3) ∧ (s.storeBusy n = false) ∧ (s.sliceCmd = some (2, n))) (9)) ({ w (withSlice9 ready) (R.sliceBind 9) F.sliceBind_state 3 with sliceCmd := some (2, 9), regions := [(4, ⟨0, 2 ^ 21, 9, 0, false, 1, false⟩)] })),
    decide ((fun (s : State) => (fun (n : Nat) => s.Inv = true ∧ (s.sliceState n ≠ 3)) (9)) (withSlice9 ready)),
    decide ((fun (s : State) => (fun (n : Nat) => s.Inv = true ∧ (s.sliceCmd = some (4, n)) ∧ (s.sliceBusy n = false)) (9)) ({ withSlice9 ready with sliceCmd := some (4, 9) })),
    decide ((fun (s : State) => (fun (n : Nat) => s.Inv = true ∧ (s.sliceState n = 4) ∧ ((s.regions.any fun e => e.2.owner == n) = false) ∧ ((s.serve.frames.any fun e => e.2.slice == n) = false) ∧ ((s.bench.leftBy.any fun e => e.2 == n) = false)) (9)) (w (withSlice9 ready) (R.sliceBind 9) F.sliceBind_state 4)),
    decide ((fun (s : State) => (fun (n : Nat) => s.Inv = true ∧ ((s.regions.any fun e => e.2.owner == n) = true ∨ (s.serve.frames.any fun e => e.2.slice == n) = true ∨ (s.bench.leftBy.any fun e => e.2 == n) = true)) (0)) (w ready (R.sliceBind 0) F.sliceBind_state 4)),
    decide ((fun (s : State) => (fun (fn : Nat) => (fun (p : Nat) => (fun (v : Word) => s.Inv = true ∧ (s.serving = true) ∧ (fn < 2) ∧ (p < 16384) ∧ (getBits v F.doorbellEntry_valid = 1) ∧ (s.sliceState (getBits v F.doorbellEntry_slice) ≠ 0) ∧ (s.sliceFn (getBits v F.doorbellEntry_slice) = fn) ∧ (s.queueOwner (getBits v F.doorbellEntry_kind) (getBits v F.doorbellEntry_queue) = some (getBits v F.doorbellEntry_slice)) ∧ (s.replicates 3 (getBits v F.doorbellEntry_slice) = false)) (word [(F.doorbellEntry_valid, 1), (F.doorbellEntry_kind, 3), (F.doorbellEntry_slice, 9), (F.doorbellEntry_queue, 4095)])) (16383)) (1)) (w (withSlice9 ready) (R.crCfg 4095) F.crCfg_owner 9)),
    decide ((fun (s : State) => (fun (fn : Nat) => (fun (v : Word) => (fun (p : Nat) => s.Inv = true ∧ (s.serving = true) ∧ (fn < 2) ∧ (p < 16384) ∧ (getBits v F.doorbellEntry_valid = 1) ∧ (s.sliceFn (getBits v F.doorbellEntry_slice) ≠ fn)) (0)) (word [(F.doorbellEntry_valid, 1)])) (1)) (ready)),
    decide ((fun (s : State) => (fun (fn : Nat) => (fun (a : Nat) => (fun (v : Word) => s.Inv = true ∧ (s.serving = true) ∧ (fn < 2) ∧ (a < 4096) ∧ (getBits v F.aperCtrl_valid = 0) ∧ (s.replicates 3 (getBits v F.aperCtrl_slice) = false)) (word [(F.aperCtrl_slice, 9), (F.aperCtrl_w, 1)])) (4095)) (1)) (hosted)),
    decide ((fun (s : State) => (fun (a : Nat) => (fun (v : Word) => (fun (fn : Nat) => s.Inv = true ∧ (s.serving = true) ∧ (fn < 2) ∧ (a < 4096) ∧ ((s.setReg (R.aperSize fn a) (setBits 0 F.aperSize_units (getBits v F.aperSize_units))).apertureClash fn a = true)) (0)) (word [(F.aperSize_units, 3)])) (9)) (w hosted (R.aperCtrl 0 9) F.aperCtrl_valid 1)),
    decide ((fun (s : State) => (fun (q : Nat) => (fun (v : Word) => (fun (owner : Nat) => s.Inv = true ∧ (s.serving = true) ∧ (q < 1024) ∧ (s.getF (R.bqCfg q) F.bqCfg_enable = 0) ∧ (getBits v F.bqCfg_enable = 1) ∧ (owner = getBits v F.bqCfg_owner) ∧ (s.sliceState owner = 1) ∧ (s.getF (R.bqRing q) F.bqRing_space = 1) ∧ (s.queueQuota .bench owner = false) ∧ (s.replicates 3 owner = false)) (0)) (word [(F.bqCfg_enable, 1)])) (1023)) (w (w roomy (R.bqRing 1023) F.bqRing_space 1) (R.bqStatus 1023) F.bqStatus_state 4)),
    decide ((fun (s : State) => (fun (kind : QueueKind) => (fun (q : Nat) => (fun (v : Word) => (fun (owner : Nat) => s.Inv = true ∧ (s.serving = true) ∧ (q < queueCount kind) ∧ (owner = getBits v (55, 48)) ∧ (getBits v (63, 63) = 1) ∧ (s.getF (queueRegs kind q v).cfg (63, 63) = 1 ∨ s.sliceState owner ≠ 1)) (0)) (word [(F.cqCfg_enable, 1)])) (1023)) (.cipher)) (w ready (R.cqCfg 1023) F.cqCfg_enable 1)),
    decide ((fun (s : State) => (fun (q : Nat) => (fun (v : Word) => (fun (owner : Nat) => s.Inv = true ∧ (s.serving = true) ∧ (q < 4096) ∧ (getBits v F.crCfg_enable = 0) ∧ (owner = getBits v F.crCfg_owner) ∧ (s.getF (R.crCfg q) F.crCfg_enable = 1) ∧ (s.replicates 3 owner = false)) (0)) (0)) (4095)) ({ w ready (R.crCfg 4095) F.crCfg_enable 1 with ringWait := [(4095, [⟨0, 1, 2, 0, 0, 5, 0, 0, 0, false⟩])] })),
    decide ((fun (s : State) => (fun (r : Nat) => (fun (v : Word) => s.Inv = true ∧ (r < 4096) ∧ (s.getF (R.crCfg r) F.crCfg_enable = 1) ∧ (s.sliceState (s.getF (R.crCfg r) F.crCfg_owner) = 1) ∧ (v.toNat % 2 ^ 16 < s.crSize r)) (63)) (4095)) (w ready (R.crCfg 4095) F.crCfg_enable 1)),
    decide ((fun (s : State) => (fun (r : Nat) => (fun (v : Word) => s.Inv = true ∧ (r < 4096) ∧ (s.getF (R.crCfg r) F.crCfg_enable = 1) ∧ (s.sliceState (s.getF (R.crCfg r) F.crCfg_owner) = 1) ∧ (s.crSize r ≤ v.toNat % 2 ^ 16)) (64)) (4095)) (w ready (R.crCfg 4095) F.crCfg_enable 1)),
    decide ((fun (s : State) => (fun (r : Nat) => s.Inv = true ∧ (r < 4096) ∧ (s.getF (R.crCfg r) F.crCfg_enable = 0)) (4095)) (ready)),
    decide ((fun (s : State) => (fun (r : Nat) => (fun (n : Nat) => s.Inv = true ∧ (r < 4096) ∧ (s.getF (R.crCfg r) F.crCfg_enable = 1) ∧ (n = s.getF (R.crCfg r) F.crCfg_owner) ∧ (s.sliceState n ≠ 1)) (9)) (4095)) (w (w ready (R.crCfg 4095) F.crCfg_enable 1) (R.crCfg 4095) F.crCfg_owner 9)),
    decide ((fun (s : State) => (fun (fn : Nat) => (fun (p : Nat) => (fun (off : Nat) => (fun (len : Nat) => (fun (v : Nat) => (fun (r : Nat) => (fun (i : Nat) => (fun (n : Nat) => s.Inv = true ∧ (s.bell 3 (.page fn p off len v) = .hit r i) ∧ (s.getF (R.crCfg r) F.crCfg_enable = 0) ∧ (n = s.getF (R.crCfg r) F.crCfg_owner)) (9)) (3)) (4095)) (3)) (4)) (0)) (16383)) (1)) ((w (withSlice9 hosted) (R.crCfg 4095) F.crCfg_owner 9).setReg (R.doorbellEntry 1 16383) (word [(F.doorbellEntry_valid, 1), (F.doorbellEntry_kind, 3), (F.doorbellEntry_slice, 9), (F.doorbellEntry_queue, 4095)]))),
    decide ((fun (s : State) => (fun (r : Nat) => (fun (a : Nat) => (fun (x : Rec) => s.Inv = true ∧ (Tab.get [] s.ringWait r = [x]) ∧ (s.crOpen r x.slice = true) ∧ (s.crFull r = false) ∧ (s.getF (R.crRing r) F.crRing_space = 0) ∧ (a = s.getF (R.crRing r) F.crRing_base * 4096 + s.getF (R.crStatus r) F.crStatus_tail * 32) ∧ ((s.memWrite 0x05 x.slice 6 x.slice a (x.bytes (s.getF (R.crStatus r) F.crStatus_phase))).1 = none) ∧ (s.noneWaits = true)) (⟨0, 1, 2, 0, 0, 5, 0, 0, 0, false⟩)) (160)) (4095)) ({ w (w (w ready (R.crCfg 4095) F.crCfg_enable 1) (R.crStatus 4095) F.crStatus_tail 5) (R.crStatus 4095) F.crStatus_full 1 with ringWait := [(4095, [⟨0, 1, 2, 0, 0, 5, 0, 0, 0, false⟩])] })),
    decide ((fun (s : State) => (fun (r : Nat) => (fun (x : Rec) => (fun (xs : List Rec) => s.Inv = true ∧ (Tab.get [] s.ringWait r = x :: xs) ∧ (s.crOpen r x.slice = true) ∧ (s.crFull r = true)) ([])) (⟨0, 1, 2, 0, 0, 5, 0, 0, 0, false⟩)) (4095)) ({ w (w ready (R.crCfg 4095) F.crCfg_enable 1) (R.crHead 4095) F.crHead_head 1 with ringWait := [(4095, [⟨0, 1, 2, 0, 0, 5, 0, 0, 0, false⟩])] }))] id = true := by decide +kernel

set_option maxRecDepth 20000 in
/-- For each clause, in order, a state and operands that meet its hypotheses. -/
theorem witness_PortCommands : List.all [
    decide ((fun (s : State) => (fun (p : Nat) => (fun (f : Nat) => s.Inv = true ∧ (s.serving = true) ∧ (p < 16) ∧ (s.portState p = 3) ∧ (f = s.getF (R.dpCfgData p) F.dpCfgData_function)) (5)) (7)) (w (w ported (R.dpCfgData 7) F.dpCfgData_function 5) (R.dpCfgAddr 7) F.dpCfgAddr_reg 0xFFE)),
    decide ((fun (s : State) => (fun (p : Nat) => s.Inv = true ∧ (s.serving = true) ∧ (p < 16) ∧ (s.portState p ≠ 3)) (15)) (ported)),
    decide ((fun (s : State) => (fun (p : Nat) => s.Inv = true ∧ (s.serving = true) ∧ (p < 16) ∧ (s.portState p = 3)) (7)) (ported)),
    decide ((fun (s : State) => (fun (p : Nat) => (fun (bus : Nat) => (fun (n : Nat) => (fun (a : Nat) => (fun (l : List Byte) => s.Inv = true ∧ (p < 16) ∧ (s.portUsable p = true) ∧ (s.onDoorbellPage p bus n = false) ∧ (s.windowHit p bus n false true = some a) ∧ ((s.memRead 0x07 p 6 (s.getF (R.dpStatus p) F.dpStatus_owner) a n).1 = .bytes l) ∧ (s.noneWaits = true)) ([0, 7])) (4)) (2)) (0x400004)) (7)) ({ ported with mem := [(5, 7)] })),
    decide ((fun (s : State) => (fun (p : Nat) => (fun (bus : Nat) => (fun (a : Nat) => (fun (l : List Byte) => s.Inv = true ∧ (p < 16) ∧ (l.length ≤ 512) ∧ (s.portUsable p = true) ∧ (s.onDoorbellPage p bus l.length = false) ∧ (s.windowHit p bus l.length true false = some a) ∧ ((s.memWrite 0x07 p 6 (s.getF (R.dpStatus p) F.dpStatus_owner) a l).1 = none) ∧ (s.noneWaits = true)) ([1, 7])) (4)) (0x400004)) (7)) (ported)),
    decide ((fun (s : State) => (fun (p : Nat) => (fun (bus : Nat) => (fun (n : Nat) => (fun (a : Nat) => (fun (v : Nat) => (fun (op : AtomicReq) => (fun (l : List Byte) => s.Inv = true ∧ (p < 16) ∧ (s.portUsable p = true) ∧ (n = 4 ∨ n = 8) ∧ ((atomicNew op 0).map Prod.fst = some n) ∧ (bus % n = 0) ∧ (s.onDoorbellPage p bus n = false) ∧ (s.windowHit p bus n true true = some a) ∧ (s.memRead 0x07 p 6 (s.getF (R.dpStatus p) F.dpStatus_owner) a n = (.bytes l, s)) ∧ (atomicNew op (leNat l) = some (n, v)) ∧ ((s.memWrite 0x07 p 6 (s.getF (R.dpStatus p) F.dpStatus_owner) a (bytesLE n v)).1 = none) ∧ (s.noneWaits = true)) ([0xFF, 0xFF, 0xFF, 0xFF])) (.fetchAdd 4 3)) (2)) (4)) (4)) (0x400004)) (7)) ({ ported with mem := [(4, 0xFF), (5, 0xFF), (6, 0xFF), (7, 0xFF)] })),
    decide ((fun (s : State) => (fun (p : Nat) => (fun (bus : Nat) => (fun (n : Nat) => s.Inv = true ∧ (p < 16) ∧ (s.portUsable p = false ∨ s.windowHit p bus n false true = none)) (8)) (0x3FFFFC)) (7)) (ported)),
    decide ((fun (s : State) => (fun (p : Nat) => (fun (l : List Byte) => s.Inv = true ∧ (p < 16) ∧ (512 < l.length)) (List.replicate 513 1)) (7)) (ported)),
    decide ((fun (s : State) => (fun (p : Nat) => (fun (bus : Nat) => (fun (l : List Byte) => s.Inv = true ∧ (p < 16) ∧ (l.length ≤ 512) ∧ (s.portUsable p = false ∨ s.onDoorbellPage p bus l.length = false ∧ s.windowHit p bus l.length true false = none)) ([1, 2])) (0x5FFFFF)) (7)) (ported)),
    decide ((fun (s : State) => (fun (p : Nat) => (fun (bits : List (BitVec 8)) => s.Inv = true ∧ (p < 16) ∧ (natBit (bits.getD p 0).toNat 0 = true) ∧ (natBit (Tab.get 0 s.slots.last p).toNat 0 = true) ∧ (natBit (Tab.get 0 s.slots.accepted p).toNat 0 = false) ∧ (natBit (Tab.get 0 s.slots.accepted p).toNat 2 = true) ∧ (s.portState p = 0)) ([0, 0, 0, 0, 0, 0, 0, 0, 0, 0, 0, 0, 0, 0, 0, 1])) (15)) ({ ready with slots := { ready.slots with last := [(15, 1)], accepted := [(15, 4)] } })),
    decide ((fun (s : State) => (fun (p : Nat) => (fun (bits : List (BitVec 8)) => s.Inv = true ∧ (p < 16) ∧ (natBit (bits.getD p 0).toNat 2 = true) ∧ (natBit (Tab.get 0 s.slots.last p).toNat 2 = true) ∧ (natBit (Tab.get 0 s.slots.accepted p).toNat 2 = false)) ([0, 0, 0, 0, 0, 0, 0, 5])) (7)) ({ ported with slots := { ready.slots with last := [(7, 5)], accepted := [(7, 1)] } })),
    decide ((fun (s : State) => (fun (p : Nat) => s.Inv = true ∧ (s.serving = true) ∧ (p < 16) ∧ (s.portState p = 0)) (15)) (ready)),
    decide ((fun (s : State) => (fun (p : Nat) => s.Inv = true ∧ (s.serving = true) ∧ (p < 16) ∧ (s.getF (R.dpCtrl p) F.dpCtrl_port_enable = 0)) (7)) (w ported (R.dpCtrl 7) F.dpCtrl_port_enable 0)),
    decide ((fun (s : State) => (fun (p : Nat) => s.Inv = true ∧ (s.serving = true) ∧ (p < 16) ∧ (s.getF (R.dpCtrl p) F.dpCtrl_port_enable = 1)) (7)) (ported)),
    decide ((fun (s : State) => (fun (p : Nat) => s.Inv = true ∧ (p < 16) ∧ (s.portState p = 1)) (15)) (w { ready with pins := { ready.pins with portPerst := 0xFFFF } } (R.dpStatus 15) F.dpStatus_state 1)),
    decide ((fun (s : State) => (fun (p : Nat) => (fun (wd : Nat) => (fun (sp : Nat) => s.Inv = true ∧ (p < 16) ∧ (s.portState p = 2) ∧ (wd < 32) ∧ (sp < 16)) (6)) (16)) (15)) (w ready (R.dpStatus 15) F.dpStatus_state 2)),
    decide ((fun (s : State) => (fun (p : Nat) => s.Inv = true ∧ (p < 16) ∧ (s.portState p ≠ 2)) (15)) (ready)),
    decide ((fun (s : State) => (fun (p : Nat) => s.Inv = true ∧ (p < 16) ∧ (s.portState p = 3)) (7)) (ported)),
    decide ((fun (s : State) => (fun (p : Nat) => s.Inv = true ∧ (p < 16) ∧ (s.portState p = 2)) (15)) (w ready (R.dpStatus 15) F.dpStatus_state 2)),
    decide ((fun (s : State) => (fun (p : Nat) => s.Inv = true ∧ (s.serving = true) ∧ (p < 16) ∧ (s.getF (R.dpCtrl p) F.dpCtrl_port_enable = 0) ∧ (1 < s.portState p)) (7)) (w ported (R.dpCtrl 7) F.dpCtrl_port_enable 0)),
    decide ((fun (s : State) => (fun (p : Nat) => s.Inv = true ∧ (s.serving = true) ∧ (p < 16) ∧ (s.getF (R.dpCtrl p) F.dpCtrl_port_enable = 1)) (7)) (ported)),
    decide ((fun (s : State) => (fun (p : Nat) => s.Inv = true ∧ (s.serving = true) ∧ (p < 16) ∧ (s.portState p = 3)) (7)) (w ported (R.dpCtrl 7) F.dpCtrl_port_enable 0)),
    decide ((fun (s : State) => (fun (p : Nat) => s.Inv = true ∧ (s.serving = true) ∧ (p < 16) ∧ (s.portState p ≠ 3)) (7)) (ready)),
    decide ((fun (s : State) => (fun (p : Nat) => s.Inv = true ∧ (s.serving = true) ∧ (p < 16) ∧ (s.getF (R.dpCtrl p) F.dpCtrl_port_enable = 1)) (7)) (ported)),
    decide ((fun (s : State) => (fun (p : Nat) => (fun (sev : Nat) => s.Inv = true ∧ (p < 16) ∧ (sev < 3)) (2)) (7)) (ported))] id = true := by decide +kernel

set_option maxRecDepth 20000 in
/-- For each clause, in order, a state and operands that meet its hypotheses. -/
theorem witness_StorageQueueCommands : List.all [
    decide ((fun (s : State) => (fun (p : Nat) => (fun (v : Nat) => (fun (q : Nat) => (fun (i : Nat) => (fun (fn : Nat) => s.Inv = true ∧ (s.bellAt 4 0 (.page fn p 0 4 v) = .hit q i) ∧ (s.qpOpen q = true) ∧ (i < s.sqSlots q)) (0)) (63)) (4095)) (63)) (3)) ({ stored.setReg (R.doorbellEntry 0 3) (word [(F.doorbellEntry_valid, 1), (F.doorbellEntry_kind, 4), (F.doorbellEntry_queue, 4095)]) with ep := imaged.ep })),
    decide ((fun (s : State) => (fun (p : Nat) => (fun (v : Nat) => (fun (q : Nat) => (fun (i : Nat) => (fun (fn : Nat) => s.Inv = true ∧ (s.bellAt 4 0 (.page fn p 0 4 v) = .hit q i) ∧ (s.qpOpen q = true) ∧ (s.sqSlots q ≤ i)) (0)) (64)) (4095)) (64)) (3)) ({ stored.setReg (R.doorbellEntry 0 3) (word [(F.doorbellEntry_valid, 1), (F.doorbellEntry_kind, 4), (F.doorbellEntry_queue, 4095)]) with ep := imaged.ep })),
    decide ((fun (s : State) => (fun (p : Nat) => (fun (v : Nat) => (fun (q : Nat) => (fun (i : Nat) => (fun (fn : Nat) => s.Inv = true ∧ (Tab.rising s.store.cqHead = true) ∧ (s.bellAt 4 4 (.page fn p 4 4 v) = .hit q i) ∧ (s.qpOpen q = true) ∧ (i < s.cqSlots q) ∧ (Tab.get [] s.store.waiting q = [])) (0)) (63)) (4095)) (63)) (3)) ({ stored.setReg (R.doorbellEntry 0 3) (word [(F.doorbellEntry_valid, 1), (F.doorbellEntry_kind, 4), (F.doorbellEntry_queue, 4095)]) with ep := imaged.ep })),
    decide ((fun (s : State) => (fun (p : Nat) => (fun (v : Nat) => (fun (q : Nat) => (fun (i : Nat) => (fun (e : NvmeCqe) => (fun (fn : Nat) => s.Inv = true ∧ (Tab.rising s.store.cqHead = true) ∧ (s.bellAt 4 4 (.page fn p 4 4 v) = .hit q i) ∧ (s.qpOpen q = true) ∧ (i < s.cqSlots q) ∧ (Tab.get [] s.store.waiting q = [e]) ∧ ((s.getF (R.qpStatus q) F.qpStatus_cq_tail + 1) % s.cqSlots q ≠ i) ∧ (s.hostPath (s.sliceFn (s.qpSlice q)) = true)) (0)) (⟨0, 1, 2, 3, 4, true⟩)) (63)) (4095)) (63)) (3)) ({ stored.setReg (R.doorbellEntry 0 3) (word [(F.doorbellEntry_valid, 1), (F.doorbellEntry_kind, 4), (F.doorbellEntry_queue, 4095)]) with ep := imaged.ep, store := { stored.store with cqHead := [(4095, 1)], waiting := [(4095, [⟨0, 1, 2, 3, 4, true⟩])] } })),
    decide ((fun (s : State) => (fun (q : Nat) => (fun (l : List Byte) => (fun (g : Got) => (fun (head : Nat) => s.Inv = true ∧ (s.qpOpen q = true) ∧ (s.fetches (s.qpSlice q) = true) ∧ (head = s.getF (R.qpStatus q) F.qpStatus_sq_head) ∧ (head ≠ s.getF (R.qpStatus q) F.qpStatus_sq_tail) ∧ (Tab.get [] s.store.waiting q = []) ∧ (s.getF R.storCfg F.storCfg_apprentice = 0) ∧ (Tab.find? s.store.removed (q * 2 ^ 16 + head) = none) ∧ (s.qpTurn (s.qpSlice q) = some q) ∧ (s.ringWaits (s.qpSlice q) 1 = false) ∧ ((s.ringRead (s.qpSlice q) (s.getF (R.qpSq q) F.qpSq_base * 4096) 1 (head * 64) 64 g).1 = .bytes l) ∧ ((if q ≥ 0x1000 then adminListed (fieldLE l 0 1) else [0, 1, 2, 8, 9].contains (fieldLE l 0 1)) = true)) (0)) (.bytes l)) ((nvmeOf 4095 1 []).raw)) (4095)) (w stored (R.qpStatus 4095) F.qpStatus_sq_tail 1)),
    decide ((fun (s : State) => (fun (q : Nat) => (fun (l : List Byte) => (fun (g : Got) => (fun (head : Nat) => s.Inv = true ∧ (q < 0x1000) ∧ (s.qpOpen q = true) ∧ (s.fetches (s.qpSlice q) = true) ∧ (head = s.getF (R.qpStatus q) F.qpStatus_sq_head) ∧ (head ≠ s.getF (R.qpStatus q) F.qpStatus_sq_tail) ∧ (s.cqeRoom q = true) ∧ (s.getF R.storCfg F.storCfg_apprentice = 0) ∧ (Tab.find? s.store.removed (q * 2 ^ 16 + head) = none) ∧ (s.qpTurn (s.qpSlice q) = some q) ∧ (s.ringWaits (s.qpSlice q) 1 = false) ∧ ((s.ringRead (s.qpSlice q) (s.getF (R.qpSq q) F.qpSq_base * 4096) 1 (head * 64) 64 g).1 = .bytes l) ∧ ([0, 1, 2, 8, 9].contains (fieldLE l 0 1) = false)) (0)) (.bytes l)) ((nvmeOf 4095 5 []).raw)) (4095)) (w stored (R.qpStatus 4095) F.qpStatus_sq_tail 1)),
    decide ((fun (c : NvmeCmd) => (fun (s : State) => (fun (id : Nat) => (fun (a : Nat) => s.Inv = true ∧ (s.adminIs id 0x06 c = true) ∧ (c.field 40 1 = 1) ∧ (c.buffer 4096 [] = (0, [(a, 4096)])) ∧ (s.hostPath (s.sliceFn c.slice) = true) ∧ (c.slice = s.qpSlice c.queue)) (0x5000)) (3)) (withCmd c)) (nvmeOf 0x1000 6 [(40, 1, 1), (24, 8, 0x5000)])),
    decide ((fun (c : NvmeCmd) => (fun (s : State) => (fun (id : Nat) => s.Inv = true ∧ (s.adminIs id 0x06 c = true) ∧ (c.field 40 1 = 0) ∧ (s.nsOf c.slice (c.field 4 4) = none)) (3)) (withCmd c)) (nvmeOf 0x1000 6 [(4, 4, 2)])),
    decide ((fun (c : NvmeCmd) => (fun (s : State) => (fun (s : State) => (fun (id : Nat) => (fun (a : Nat) => (fun (lists : List Got) => s.Inv = true ∧ (s.adminIs id 0x02 c = true) ∧ (c.field 40 1 = 4) ∧ (c.field 42 2 = 1023) ∧ (c.field 44 2 = 0) ∧ (c.field 48 8 = 0) ∧ (c.buffer 4096 lists = (0, [(a, 4096)])) ∧ (s.hostPath (s.sliceFn c.slice) = true)) ([])) (0x5000)) (3)) ({ s with store := { s.store with ctl := [(0, { NvmeCtl.fresh with changed := [7, 1] })] } })) (withCmd c)) (nvmeOf 0x1000 2 [(40, 1, 4), (42, 2, 1023), (24, 8, 0x5000)])),
    decide ((fun (c : NvmeCmd) => (fun (s : State) => (fun (id : Nat) => (fun (a : Nat) => (fun (lists : List Got) => s.Inv = true ∧ (s.adminIs id 0x02 c = true) ∧ (c.field 40 1 = 2) ∧ (c.field 42 2 = 127) ∧ (c.field 44 2 = 0) ∧ (c.buffer 512 lists = (0, [(a, 512)])) ∧ (s.hostPath (s.sliceFn c.slice) = true)) ([])) (0x5000)) (3)) (withCmd c)) (nvmeOf 0x1000 2 [(40, 1, 2), (42, 2, 127), (24, 8, 0x5000)])),
    decide ((fun (c : NvmeCmd) => (fun (s : State) => (fun (id : Nat) => s.Inv = true ∧ (s.adminIs id 0x0A c = true) ∧ (c.field 40 1 = 0x0B)) (3)) (withCmd c)) (nvmeOf 0x1000 10 [(40, 1, 11)])),
    decide ((fun (c : NvmeCmd) => (fun (s : State) => (fun (id : Nat) => s.Inv = true ∧ (s.adminIs id 0x0A c = true) ∧ (c.field 40 1 = 7)) (3)) (withCmd c)) (nvmeOf 0x1000 10 [(40, 1, 7)])),
    decide ((fun (c : NvmeCmd) => (fun (s : State) => (fun (id : Nat) => s.Inv = true ∧ (s.adminIs id 0x09 c = true) ∧ (c.field 40 1 = 0x0B) ∧ (s.store.held = []) ∧ (Tab.rising s.store.ctl = true)) (3)) (withCmd c)) (nvmeOf 0x1000 9 [(40, 1, 11), (44, 4, 0x100)])),
    decide ((fun (c : NvmeCmd) => (fun (s : State) => (fun (id : Nat) => s.Inv = true ∧ (s.adminIs id 0x09 c = true) ∧ ([1, 7, 0x0B, 0x0F].contains (c.field 40 1) = false)) (3)) (withCmd c)) (nvmeOf 0x1000 9 [(40, 1, 2)])),
    decide ((fun (c : NvmeCmd) => (fun (s : State) => (fun (id : Nat) => s.Inv = true ∧ (s.adminIs id 0x0C c = true) ∧ ((s.nvmeCtl c.slice).queued = []) ∧ ((s.nvmeCtl c.slice).waiting.length < 4)) (3)) (withCmd c)) (nvmeOf 0x1000 12 [])),
    decide ((fun (c : NvmeCmd) => (fun (s : State) => (fun (s : State) => (fun (id : Nat) => (fun (e : Nat) => (fun (es : List Nat) => s.Inv = true ∧ (s.adminIs id 0x0C c = true) ∧ ((s.nvmeCtl c.slice).queued = e :: es)) ([])) (0x00040002)) (3)) ({ s with store := { s.store with ctl := [(0, { NvmeCtl.fresh with queued := [0x00040002] })] } })) (withCmd c)) (nvmeOf 0x1000 12 [])),
    decide ((fun (c : NvmeCmd) => (fun (s : State) => (fun (id : Nat) => s.Inv = true ∧ (s.adminIs id 0x18 c = true)) (3)) (withCmd c)) (nvmeOf 0x1000 0x18 [])),
    decide ((fun (c : NvmeCmd) => (fun (s : State) => (fun (id : Nat) => (fun (i : Nat) => (fun (q : Nat) => (fun (l : List Byte) => s.Inv = true ∧ (s.adminIs id 8 c = true) ∧ (q = c.field 40 2 - 1) ∧ (0 < c.field 40 2) ∧ (q < 0x1000) ∧ (s.qpSlice q = c.slice) ∧ (s.qpOpen q = true) ∧ (s.cqeRoom q = true) ∧ (s.getF (R.qpStatus q) F.qpStatus_sq_head = 0) ∧ (s.getF (R.qpStatus q) F.qpStatus_sq_tail = i + 1) ∧ (i + 1 < s.sqSlots q) ∧ ((below (i + 1)).find? (fun k => fieldLE (l.drop (k * 64)) 2 2 == c.field 42 2 && (Tab.find? s.store.removed (q * 2 ^ 16 + k % s.sqSlots q)).isNone) = some i)) (zeros 66 ++ [6, 0])) (4095)) (1)) (3)) (w (withCmd c) (R.qpStatus 4095) F.qpStatus_sq_tail 2)) (nvmeOf 0x1000 8 [(40, 2, 4096), (42, 2, 6)])),
    decide ((fun (c : NvmeCmd) => (fun (s : State) => (fun (id : Nat) => s.Inv = true ∧ (s.adminIs id 8 c = true)) (3)) (withCmd c)) (nvmeOf 0x1000 8 [])),
    decide ((fun (c : NvmeCmd) => (fun (s : State) => (fun (id : Nat) => (fun (tail : Nat) => (fun (a : Nat) => s.Inv = true ∧ (s.nvme? id = some c) ∧ (c.admin = true) ∧ (adminForwarded c.op = true) ∧ (c.started = false) ∧ (tail = s.getF R.medPtr F.medPtr_tail) ∧ ((tail + 1) % 2 ^ (s.getF R.medRing F.medRing_size + 6) ≠ s.getF R.medPtr F.medPtr_head % 2 ^ (s.getF R.medRing F.medRing_size + 6)) ∧ (a = s.getF R.medRing F.medRing_base * 4096 + tail * 72) ∧ ((s.memWrite 0x08 0 6 0 a (c.raw ++ [BitVec.ofNat 8 c.slice, 0] ++ bytesLE 2 (sqIdOf c.queue) ++ bytesLE 4 s.store.nextTag)).1 = none) ∧ (s.noneWaits = true)) (0)) (0)) (3)) (withCmd c)) (nvmeOf 0x1000 0x0D [(40, 4, 5)])),
    decide ((fun (c : NvmeCmd) => (fun (s : State) => (fun (s : State) => (fun (v : Word) => (fun (tag : Nat) => (fun (id : Nat) => s.Inv = true ∧ (s.serving = true) ∧ (tag = getBits v F.medReply_tag) ∧ (Tab.find? s.store.med tag = some id) ∧ (s.store.held.any (fun h => h.1 == tag) = false) ∧ (s.nvme? id = some c) ∧ (c.deletes = none) ∧ (c.fate = 0) ∧ (s.cqeRoom c.queue = true)) (3)) (5)) (word [(F.medReply_tag, 5), (F.medReply_status, 0x6916)])) ({ s with store := { s.store with med := [(5, 3)] } })) (withCmd c)) ({ nvmeOf 0x1000 0x0D [] with started := true })),
    decide ((fun (s : State) => (fun (v : Word) => s.Inv = true ∧ (s.serving = true) ∧ (Tab.find? s.store.med (getBits v F.medReply_tag) = none)) (7)) (stored)),
    decide ((fun (c : NvmeCmd) => (fun (s : State) => (fun (s : State) => (fun (tag : Nat) => (fun (id : Nat) => s.Inv = true ∧ (Tab.find? s.store.med tag = some id) ∧ (s.nvme? id = some c) ∧ (c.fate = 0) ∧ (s.cqeRoom c.queue = true)) (3)) (5)) ({ s with store := { s.store with med := [(5, 3)] } })) (withCmd c)) ({ nvmeOf 0x1000 0x0D [] with started := true })),
    decide ((fun (s : State) => (fun (q : Nat) => (fun (v : Word) => (fun (owner : Nat) => s.Inv = true ∧ (s.serving = true) ∧ (q < 0x1000) ∧ (owner = getBits v F.qpCfg_owner) ∧ (s.getF (R.qpCfg q) F.qpCfg_enable = 0) ∧ (getBits v F.qpCfg_enable = 1) ∧ (Tab.find? s.store.deleting q = none) ∧ (s.sliceState owner = 1) ∧ (getBits v F.qpCfg_sq_size ≠ 0) ∧ (getBits v F.qpCfg_cq_size ≠ 0) ∧ (s.vectorOk owner (getBits v F.qpCfg_vector) = true) ∧ (s.replicates 3 owner = false) ∧ ((s.pairsOf owner).length < s.limit owner .queuePairs)) (0)) (word [(F.qpCfg_enable, 1), (F.qpCfg_sq_size, 65535), (F.qpCfg_cq_size, 1), (F.qpCfg_irq, 1), (F.qpCfg_vector, 5)])) (4095)) ({ roomy with force := [] })),
    decide ((fun (s : State) => (fun (q : Nat) => (fun (v : Word) => s.Inv = true ∧ (s.serving = true) ∧ (q < 0x1000) ∧ (s.getF (R.qpCfg q) F.qpCfg_enable = 0) ∧ (getBits v F.qpCfg_enable = 1) ∧ (s.sliceState (getBits v F.qpCfg_owner) ≠ 1)) (word [(F.qpCfg_enable, 1), (F.qpCfg_owner, 9), (F.qpCfg_sq_size, 63), (F.qpCfg_cq_size, 63)])) (4095)) (roomy)),
    decide ((fun (s : State) => (fun (q : Nat) => (fun (v : Word) => s.Inv = true ∧ (s.serving = true) ∧ (q < 0x1100) ∧ (s.getF (R.qpCfg q) F.qpCfg_enable = 1) ∧ (getBits v F.qpCfg_enable = 0) ∧ (s.qpDraining q = true) ∧ (Tab.rising s.store.cmds = true) ∧ (s.store.held = [])) (0)) (4095)) (withCmd { nvmeOf 4095 1 [] with started := true, pieces := [⟨0, 1, 0, [0], none⟩] }))] id = true := by decide +kernel

set_option maxRecDepth 20000 in
/-- For each clause, in order, a state and operands that meet its hypotheses. -/
theorem witness_StorageDataCommands : List.all [
    decide ((fun (c : NvmeCmd) => (fun (s : State) => (fun (id : Nat) => (fun (ns : Nat) => s.Inv = true ∧ (s.ioIs id 0 ns c = true) ∧ (c.pieces = []) ∧ (c.reservedSet = false) ∧ (s.legsServe ns = true) ∧ (s.earlierWrites id ns = false)) (0)) (3)) (withCmd c)) (nvmeOf 4095 0 [])),
    decide ((fun (c : NvmeCmd) => (fun (s : State) => (fun (s : State) => (fun (id : Nat) => (fun (ns : Nat) => s.Inv = true ∧ (s.ioIs id 0 ns c = true) ∧ (c.pieces = []) ∧ (c.reservedSet = false) ∧ (s.legsServe ns = true) ∧ (s.earlierWrites id ns = true)) (0)) (3)) ({ s with store := { s.store with cmds := [(1, { nvmeOf 4095 1 [] with started := true, ns := some 0, pieces := [⟨0, 1, 0, [0], none⟩] }), (3, c)] } })) (withCmd c)) (nvmeOf 4095 0 [])),
    decide ((fun (c : NvmeCmd) => (fun (s : State) => (fun (id : Nat) => (fun (z : Nat) => (fun (buf : List (Nat × Nat)) => (fun (ns : Nat) => (fun (lists : List Got) => s.Inv = true ∧ (s.ioIs id 1 ns c = true) ∧ (z = s.lbaBytes ns) ∧ (c.slba + c.nlb ≤ s.getF (R.nsSize ns) F.nsSize_lbas) ∧ (c.reservedSet = false) ∧ (c.nlb * z ≤ 2 ^ 21) ∧ (c.buffer (c.nlb * z) lists = (0, buf)) ∧ (s.getF R.storCfg F.storCfg_apprentice = 0) ∧ (s.hostPath (s.sliceFn c.slice) = true) ∧ (s.legsServe ns = true) ∧ (s.flagClear ns = true)) ([])) (0)) ([(0x5000, 98304)])) (4096)) (3)) (withCmd c)) (nvmeOf 4095 1 [(1, 1, 0x40), (24, 8, 0x5000), (32, 4, 98304), (40, 8, 8), (48, 2, 23), (51, 1, 0x40)])),
    decide ((fun (c : NvmeCmd) => (fun (s : State) => (fun (id : Nat) => (fun (ns : Nat) => s.Inv = true ∧ (s.ioIs id 1 ns c = true) ∧ (s.getF (R.nsSize ns) F.nsSize_lbas < c.slba + c.nlb)) (0)) (3)) (withCmd c)) (nvmeOf 4095 1 [(40, 8, 64)])),
    decide ((fun (c : NvmeCmd) => (fun (s : State) => (fun (id : Nat) => (fun (ns : Nat) => s.Inv = true ∧ (s.ioIs id 1 ns c = true) ∧ (c.slba + c.nlb ≤ s.getF (R.nsSize ns) F.nsSize_lbas) ∧ (c.reservedSet = true)) (0)) (3)) (withCmd c)) (nvmeOf 4095 1 [(8, 1, 1)])),
    decide ((fun (c : NvmeCmd) => (fun (s : State) => (fun (id : Nat) => s.Inv = true ∧ (s.ioCmd id 1 = some c) ∧ (s.nsOf c.slice (c.field 4 4) = none) ∧ (c.ns = none) ∧ (c.fate = 0) ∧ (s.cqeRoom c.queue = true)) (3)) (withCmd c)) (nvmeOf 4095 1 [(4, 4, 2)])),
    decide ((fun (c : NvmeCmd) => (fun (s : State) => (fun (s : State) => (fun (id : Nat) => (fun (z : Nat) => (fun (buf : List (Nat × Nat)) => (fun (k : Nat) => (fun (be : Nat) => (fun (ns : Nat) => (fun (lists : List Got) => s.Inv = true ∧ (s.ioIs id 2 ns c = true) ∧ (z = s.lbaBytes ns) ∧ (c.slba + c.nlb ≤ s.getF (R.nsSize ns) F.nsSize_lbas) ∧ (c.reservedSet = false) ∧ (c.nlb * z ≤ 2 ^ 21) ∧ (c.buffer (c.nlb * z) lists = (0, buf)) ∧ (s.hostPath (s.sliceFn c.slice) = true) ∧ (s.legsServe ns = true) ∧ (s.readLeg ns = some k) ∧ (s.legBackend ns k = some be)) ([])) (0)) (1023)) (1)) ([(0x5000, 98304)])) (4096)) (3)) ({ s with store := { s.store with backs := [(0, ⟨none, 0, 0, 0, 0, 1, 0, 1⟩)], nextBack := 1 } })) (withCmd c)) (nvmeOf 4095 2 [(1, 1, 0x40), (24, 8, 0x5000), (32, 4, 98304), (40, 8, 8), (48, 2, 23)])),
    decide ((fun (c : NvmeCmd) => (fun (s : State) => (fun (id : Nat) => (fun (z : Nat) => (fun (ns : Nat) => s.Inv = true ∧ (s.ioIs id 8 ns c = true) ∧ (z = s.lbaBytes ns) ∧ (c.slba + c.nlb ≤ s.getF (R.nsSize ns) F.nsSize_lbas) ∧ (c.reservedSet = false) ∧ (s.getF R.storCfg F.storCfg_apprentice = 0) ∧ (s.legsServe ns = true) ∧ (s.flagClear ns = true)) (0)) (4096)) (3)) (withCmd c)) (nvmeOf 4095 8 [(40, 8, 15), (48, 2, 1), (51, 1, 2)])),
    decide ((fun (c : NvmeCmd) => (fun (s : State) => (fun (id : Nat) => (fun (ns : Nat) => s.Inv = true ∧ (s.ioIs id 8 ns c = true) ∧ (c.slba + c.nlb ≤ s.getF (R.nsSize ns) F.nsSize_lbas) ∧ (c.reservedSet = false) ∧ (s.getF R.storCfg F.storCfg_apprentice = 1)) (0)) (3)) (w (withCmd c) R.storCfg F.storCfg_apprentice 1)) (nvmeOf 4095 8 [])),
    decide ((fun (c : NvmeCmd) => (fun (s : State) => (fun (id : Nat) => (fun (n : Nat) => (fun (buf : List (Nat × Nat)) => (fun (l : List Byte) => (fun (rs : List (Nat × Nat)) => (fun (ps : List NvmePiece) => (fun (ns : Nat) => (fun (lists : List Got) => s.Inv = true ∧ (s.ioIs id 9 ns c = true) ∧ (natBit (c.field 44 4) 2 = true) ∧ (n = c.field 40 1 + 1) ∧ (l.length = n * 16) ∧ (rs = (chunks 16 n l).map (fun r => (fieldLE r 8 8, fieldLE r 4 4))) ∧ ((rs.all fun r => decide (r.1 + r.2 ≤ s.getF (R.nsSize ns) F.nsSize_lbas)) = true) ∧ (c.reservedSet = false) ∧ (c.buffer (n * 16) lists = (0, buf)) ∧ (s.getF R.storCfg F.storCfg_apprentice = 0) ∧ (s.hostPath (s.sliceFn c.slice) = true) ∧ (s.legsServe ns = true) ∧ (s.flagClear ns = true) ∧ (ps = byLba (rs.flatMap fun r => if r.2 = 0 then [] else splitPieces (s.lbaBytes ns) r.1 r.2 (s.liveLegs ns))) ∧ (ps ≠ [])) ([])) (0)) ([⟨5, 3, 0, [0, 1], none⟩, ⟨63, 1, 0, [0, 1], none⟩])) ([(63, 1), (5, 3)])) (zeros 4 ++ bytesLE 4 1 ++ bytesLE 8 63 ++ zeros 4 ++ bytesLE 4 3 ++ bytesLE 8 5)) ([(0x5000, 32)])) (2)) (3)) (withCmd c)) (nvmeOf 4095 9 [(40, 1, 1), (44, 4, 4), (24, 8, 0x5000)])),
    decide ((fun (c : NvmeCmd) => (fun (s : State) => (fun (k : BackCmd) => (fun (s : State) => (fun (b : Nat) => (fun (id : Nat) => (fun (p : NvmePiece) => s.Inv = true ∧ (Tab.find? s.store.backs b = some k) ∧ (k.cmd = some id) ∧ (s.nvme? id = some c) ∧ (c.pieces = [p]) ∧ (k.piece = 0) ∧ (p.legs = [k.leg]) ∧ (k.op ≠ 2) ∧ (c.status = 0) ∧ (c.dnr = false) ∧ (c.fate = 0) ∧ (s.cqeRoom c.queue = true)) (⟨0, 1, 0, [1], none⟩)) (3)) (7)) ({ s with store := { s.store with backs := [(7, k)] } })) (⟨some 3, 0, 0, 1, 1023, 1, 0, 1⟩)) (withCmd c)) ({ nvmeOf 4095 1 [] with started := true, ns := some 0, pieces := [⟨0, 1, 0, [1], none⟩] })),
    decide ((fun (c : NvmeCmd) => (fun (s : State) => (fun (k : BackCmd) => (fun (s : State) => (fun (b : Nat) => (fun (id : Nat) => (fun (a : Nat) => (fun (p : NvmePiece) => (fun (l : List Byte) => s.Inv = true ∧ (Tab.find? s.store.backs b = some k) ∧ (k.cmd = some id) ∧ (s.nvme? id = some c) ∧ (c.pieces = [p]) ∧ (k.piece = 0) ∧ (p.legs = [k.leg]) ∧ (p.retriedFrom = none) ∧ (k.op = 2) ∧ (s.getF (R.beCfg k.backend) F.beCfg_kind ≠ 1) ∧ (c.buf = [(a, l.length)]) ∧ (p.off = 0) ∧ (l ≠ []) ∧ (c.status = 0) ∧ (c.dnr = false) ∧ (c.fate = 0) ∧ (c.slice = s.qpSlice c.queue) ∧ (s.cqeRoom c.queue = true)) ([8, 9])) (⟨0, 1, 0, [1], none⟩)) (0x5000)) (3)) (7)) ({ s with store := { s.store with backs := [(7, k)] } })) (⟨some 3, 0, 0, 1, 1023, 2, 0, 1⟩)) (withCmd c)) ({ nvmeOf 4095 2 [] with started := true, ns := some 0, pieces := [⟨0, 1, 0, [1], none⟩], buf := [(0x5000, 2)] })),
    decide ((fun (c : NvmeCmd) => (fun (s : State) => (fun (k : BackCmd) => (fun (s : State) => (fun (b : Nat) => (fun (id : Nat) => (fun (be : Nat) => (fun (st : Nat) => (fun (p : NvmePiece) => s.Inv = true ∧ (Tab.find? s.store.backs b = some k) ∧ (k.cmd = some id) ∧ (s.nvme? id = some c) ∧ (c.pieces = [p]) ∧ (k.piece = 0) ∧ (p.retriedFrom = none) ∧ (k.op = 2) ∧ (st / 256 = 2 ∨ st / 256 = 3) ∧ (s.mirrored k.ns = true) ∧ (s.legUsable k.ns (1 - k.leg) = true) ∧ (Tab.find? s.store.resync k.ns = none) ∧ (s.legBackend k.ns (1 - k.leg) = some be)) (⟨0, 1, 0, [1], none⟩)) (0x281)) (0)) (3)) (7)) ({ s with store := { s.store with backs := [(7, k)], nextBack := 8 } })) (⟨some 3, 0, 0, 1, 1023, 2, 0, 1⟩)) (withCmd c)) ({ nvmeOf 4095 2 [] with started := true, ns := some 0, pieces := [⟨0, 1, 0, [1], none⟩] })),
    decide ((fun (s : State) => (fun (k : BackCmd) => (fun (s : State) => (fun (b : Nat) => (fun (st : Nat) => s.Inv = true ∧ (Tab.find? s.store.backs b = some k) ∧ (k.ns < 4096) ∧ (k.leg < 2) ∧ (k.op = 1 ∨ k.op = 8 ∨ k.op = 9) ∧ (st ≠ 0) ∧ (((k.cmd.bind s.nvme?).all fun c => c.status != 4) = true) ∧ (s.mirrored k.ns = true) ∧ (natBit (s.getF (R.nsStatus k.ns) F.nsStatus_failed) k.leg = false) ∧ (Tab.find? s.store.resync k.ns = none)) (0x181)) (7)) ({ s with store := { s.store with backs := [(7, k)] } })) (⟨some 3, 0, 0, 1, 1023, 1, 0, 1⟩)) (withCmd { nvmeOf 4095 1 [] with started := true, ns := some 0, pieces := [⟨0, 1, 0, [0, 1], none⟩] })),
    decide ((fun (s : State) => (fun (k : BackCmd) => (fun (s : State) => (fun (b : Nat) => s.Inv = true ∧ (Tab.find? s.store.backs b = some k) ∧ (k.ns < 4096) ∧ (k.leg < 2) ∧ (s.mirrored k.ns = true) ∧ (natBit (s.getF (R.nsStatus k.ns) F.nsStatus_failed) k.leg = false) ∧ (Tab.find? s.store.resync k.ns = none)) (7)) ({ s with store := { s.store with backs := [(7, k)] } })) (⟨some 3, 0, 0, 1, 1023, 1, 0, 1⟩)) (withCmd { nvmeOf 4095 1 [] with started := true, ns := some 0, pieces := [⟨0, 1, 0, [0, 1], none⟩] })),
    decide ((fun (c : NvmeCmd) => (fun (s : State) => (fun (k : BackCmd) => (fun (s : State) => (fun (b : Nat) => (fun (id : Nat) => (fun (p : NvmePiece) => s.Inv = true ∧ (Tab.find? s.store.backs b = some k) ∧ (k.cmd = some id) ∧ (s.mirrored k.ns = false) ∧ (s.nvme? id = some c) ∧ (c.pieces = [p]) ∧ (k.piece = 0) ∧ (p.legs = [k.leg]) ∧ (p.retriedFrom = none) ∧ (k.op = 2 ∨ c.op ≠ 2) ∧ (Tab.find? s.store.resync k.ns = none) ∧ (c.status = 0) ∧ (c.dnr = false) ∧ (c.fate = 0) ∧ (s.cqeRoom c.queue = true)) (⟨0, 1, 0, [0], none⟩)) (3)) (7)) ({ s with store := { s.store with backs := [(7, k)] } })) (⟨some 3, 0, 0, 0, 0, 2, 0, 1⟩)) (w (withCmd c) (R.nsLegs 0) F.nsLegs_leg1 0xFFFF)) ({ nvmeOf 4095 2 [] with started := true, ns := some 0, pieces := [⟨0, 1, 0, [0], none⟩] })),
    decide ((fun (c : NvmeCmd) => (fun (s : State) => (fun (s : State) => (fun (port : Nat) => (fun (id : Nat) => (fun (off : Nat) => (fun (a : Nat) => (fun (l : List Byte) => s.Inv = true ∧ (s.portUsable port = true) ∧ (s.store.cmds = [(id, c)]) ∧ (id < 2 ^ 32) ∧ (off < 2 ^ 24) ∧ (c.fate ≤ 2) ∧ (c.op = 2) ∧ (c.admin = false) ∧ (c.buf = [(a, off + l.length)]) ∧ (l ≠ []) ∧ ((s.store.backs.any fun k => k.2.cmd == some id && k.2.op == 2 && s.getF (R.beCfg k.2.backend) F.beCfg_kind == 1 && s.getF (R.beCfg k.2.backend) F.beCfg_port == port) = true) ∧ (s.hostPath (s.sliceFn c.slice) = true)) ([8, 9])) (0x5000)) (1)) (3)) (15)) ({ w (w (w (w s (R.beCfg 1023) F.beCfg_kind 1) (R.beCfg 1023) F.beCfg_port 15) (R.dpStatus 15) F.dpStatus_state 3) (R.dpCtrl 15) F.dpCtrl_port_enable 1 with store := { s.store with backs := [(7, ⟨some 3, 0, 0, 1, 1023, 2, 0, 1⟩)] } })) (withCmd c)) ({ nvmeOf 4095 2 [] with started := true, ns := some 0, buf := [(0x5000, 3)] })),
    decide ((fun (s : State) => (fun (port : Nat) => (fun (addr : Nat) => s.Inv = true ∧ (port < 16) ∧ (s.portUsable port = false ∨ addr < 2 ^ 63)) (2 ^ 63)) (15)) (stored)),
    decide ((fun (s : State) => (fun (ns : Nat) => s.Inv = true ∧ (s.mirrored ns = true) ∧ (s.getF (R.nsMap ns) F.nsMap_valid = 1) ∧ ((s.store.cmds.any fun e => e.2.ns == some ns) = false) ∧ (Tab.find? s.store.unflushed ns = none) ∧ (Tab.find? s.store.clean ns = none) ∧ (Tab.find? s.store.resync ns = none)) (0)) (stored)),
    decide ((fun (c : NvmeCmd) => (fun (s : State) => (fun (s : State) => (fun (id : Nat) => (fun (z : Nat) => (fun (buf : List (Nat × Nat)) => (fun (ns : Nat) => (fun (lists : List Got) => s.Inv = true ∧ (s.ioIs id 1 ns c = true) ∧ (z = s.lbaBytes ns) ∧ (c.slba + c.nlb ≤ s.getF (R.nsSize ns) F.nsSize_lbas) ∧ (c.reservedSet = false) ∧ (c.nlb * z ≤ 2 ^ 21) ∧ (c.buffer (c.nlb * z) lists = (0, buf)) ∧ (s.getF R.storCfg F.storCfg_apprentice = 0) ∧ (s.hostPath (s.sliceFn c.slice) = true) ∧ (s.legsServe ns = true) ∧ (Tab.find? s.store.clean ns = some ()) ∧ (Tab.rising s.store.clean = true) ∧ (s.flagBusy ns = false)) ([])) (0)) ([(0x5000, 4096)])) (4096)) (3)) ({ s with store := { s.store with clean := [(0, ())] } })) (withCmd c)) (nvmeOf 4095 1 [(24, 8, 0x5000), (40, 8, 8)])),
    decide ((fun (s : State) => (fun (ns : Nat) => s.Inv = true ∧ (s.serving = true) ∧ (ns < 4096) ∧ (s.getF (R.nsStatus ns) F.nsStatus_state = 2) ∧ (s.getF (R.nsStatus ns) F.nsStatus_failed = 2) ∧ ((s.setF (R.nsStatus ns) F.nsStatus_failed 0).legUsable ns 1 = true) ∧ ((s.setF (R.nsStatus ns) F.nsStatus_failed 0).legUsable ns 0 = true)) (0)) (w (w stored (R.nsStatus 0) F.nsStatus_state 2) (R.nsStatus 0) F.nsStatus_failed 2)),
    decide ((fun (s : State) => (fun (n : Nat) => (fun (lba : Nat) => (fun (ns : Nat) => (fun (good : Nat) => s.Inv = true ∧ (ns < 4096) ∧ (Tab.find? s.store.resync ns = some (good, lba)) ∧ (lba + n < s.getF (R.nsSize ns) F.nsSize_lbas)) (0)) (0)) (16)) (47)) ({ stored with store := { stored.store with resync := [(0, (0, 16))] } })),
    decide ((fun (s : State) => (fun (n : Nat) => (fun (lba : Nat) => (fun (ns : Nat) => (fun (good : Nat) => s.Inv = true ∧ (ns < 4096) ∧ (Tab.find? s.store.resync ns = some (good, lba)) ∧ (s.getF (R.nsSize ns) F.nsSize_lbas ≤ lba + n)) (0)) (0)) (16)) (48)) ({ stored with store := { stored.store with resync := [(0, (0, 16))] } })),
    decide ((fun (s : State) => (fun (b : Nat) => (fun (aw : Nat) => (fun (bound : Nat) => s.Inv = true ∧ (b < 1024) ∧ (Tab.rising s.store.lba4k = true) ∧ (Tab.rising s.store.unclean = true) ∧ (Tab.rising s.store.nabo = true) ∧ (s.getF (R.beStatus b) F.beStatus_state = 1) ∧ (aw < 2 ^ 16) ∧ (bound < 2 ^ 16)) (0xFFFF)) (15)) (1023)) (w stored (R.beStatus 1023) F.beStatus_state 1))] id = true := by decide +kernel

set_option maxRecDepth 20000 in
/-- For each clause, in order, a state and operands that meet its hypotheses. -/
theorem witness_PacketCommands : List.all [
    decide ((fun (s : State) => (fun (body : List Byte) => (fun (prio : Nat) => (fun (port : Nat) => (fun (pipe : Nat) => s.Inv = true ∧ (s.netOpen port = true) ∧ (pipe = s.pipeOf port) ∧ (60 ≤ body.length) ∧ (body.length ≤ 9212) ∧ (macControl body ≠ some 1) ∧ (macControl body ≠ some 0x101) ∧ (prio < 8)) (0)) (0)) (7)) (zeros 9212)) (packets [])),
    decide ((fun (s : State) => (fun (body : List Byte) => (fun (fcs : Bool) => (fun (port : Nat) => s.Inv = true ∧ (s.netOpen port = true) ∧ (fcs = false ∨ body.length < 60 ∨ 9212 < body.length)) (0)) (true)) (zeros 59)) (packets [])),
    decide ((fun (s : State) => (fun (pipe : Nat) => s.Inv = true ∧ (Tab.get [] s.pkt.rx pipe = []) ∧ (Tab.get [] s.pkt.again pipe = []) ∧ (Tab.get [] s.pkt.host pipe = []) ∧ (((below (16 - s.getF R.cipherCfg F.cipherCfg_job_cores)).find? fun k => (Tab.find? s.pkt.stage (firstAction + 16 * pipe + k)).isNone).isSome = true)) (3)) ({ packets [] with pkt := { (packets []).pkt with slots := [(3, (15, 2))] } })),
    decide ((fun (s : State) => (fun (s : State) => (fun (v : Nat) => (fun (arg : Nat) => (fun (p : Packet) => (fun (ps : List Packet) => (fun (q : Packet) => (fun (body : List Byte) => (fun (pipe : Nat) => (fun (k : Nat) => s.Inv = true ∧ ((below (16 - s.getF R.cipherCfg F.cipherCfg_job_cores)).find? (fun k => (Tab.find? s.pkt.stage (firstAction + 16 * pipe + k)).isNone) = some k) ∧ (Tab.get [] s.pkt.rx pipe = p :: ps) ∧ ((s.parse p).1 = 0) ∧ (q = (s.lookups (s.parse p).2).1) ∧ (s.pkt.leaving = []) ∧ ((s.pktSet fun k => { k with rx := Tab.put [] k.rx pipe ps }).mayLeave (s.lookups (s.parse p).2).1 = true) ∧ (q.source < 8 ∨ 128 ≤ q.source) ∧ ((s.lookups (s.parse p).2).2.policer = none) ∧ ((s.lookups (s.parse p).2).2.program = none) ∧ ((s.lookups (s.parse p).2).2.verdict = some v) ∧ (v < 2 ^ 16) ∧ (arg = v) ∧ (s.emission q = some body) ∧ ((s.tmQueue arg).owner = q.slice) ∧ (body.length ≤ 9212) ∧ (s.tmTakes arg (frameLen body) = true) ∧ ((s.tmQueue arg).ecn = 0)) (0)) (0)) (zeros 60)) ((s.lookups (s.parse packet1).2).1)) ([])) (packet1)) (9)) (9)) ({ s with pkt := { s.pkt with queues := [(9, queueOf [])] } })) (withPacket (packets (resultOf 9 0 0 1)))),
    decide ((fun (s : State) => (fun (p : Packet) => (fun (ps : List Packet) => (fun (pipe : Nat) => (fun (k : Nat) => s.Inv = true ∧ ((below (16 - s.getF R.cipherCfg F.cipherCfg_job_cores)).find? (fun k => (Tab.find? s.pkt.stage (firstAction + 16 * pipe + k)).isNone) = some k) ∧ (Tab.get [] s.pkt.rx pipe = p :: ps) ∧ (p.tx = none) ∧ ((s.parse p).1 = 0) ∧ (s.pkt.leaving = []) ∧ ((s.pktSet fun k => { k with rx := Tab.put [] k.rx pipe ps }).mayLeave (s.lookups (s.parse p).2).1 = true) ∧ ((s.lookups (s.parse p).2).2.policer = none) ∧ ((s.lookups (s.parse p).2).2.program = none) ∧ ((s.lookups (s.parse p).2).2.verdict = some (2 ^ 28))) (0)) (0)) ([])) (packet1)) (withPacket (packets (resultOf (2 ^ 28) 0 0 1)))),
    decide ((fun (s : State) => (fun (p : Packet) => (fun (ps : List Packet) => (fun (pol : Nat) => (fun (pipe : Nat) => (fun (k : Nat) => s.Inv = true ∧ ((below (16 - s.getF R.cipherCfg F.cipherCfg_job_cores)).find? (fun k => (Tab.find? s.pkt.stage (firstAction + 16 * pipe + k)).isNone) = some k) ∧ (Tab.get [] s.pkt.rx pipe = p :: ps) ∧ (p.tx = none) ∧ ((s.parse p).1 = 0) ∧ (s.pkt.leaving = []) ∧ ((s.lookups (s.parse p).2).2.policer = some pol) ∧ ((Tab.get Policer.fresh s.pkt.policers pol).p.tokens < (8 * max 64 ((s.lookups (s.parse p).2).1.field 1) : Nat))) (0)) (0)) (65535)) ([])) (packet1)) (withPacket (packets (resultOf 9 0 65535 17)))),
    decide ((fun (s : State) => (fun (core : Nat) => (fun (p : Packet) => s.Inv = true ∧ (s.tablesRise = true) ∧ (Tab.find? s.pkt.stage core = some p) ∧ ((s.core core).bundles = 256) ∧ ((s.core core).stall = .none)) (packet1)) (107)) ({ (packets []).setCore 107 { Core.clear with role := .action 0, bundles := 256 } with pkt := { (packets []).pkt with stage := [(107, packet1)] } })),
    decide ((fun (s : State) => (fun (core : Nat) => s.Inv = true ∧ ((s.core core).bundles < 256)) (107)) ((packets []).setCore 107 { Core.clear with role := .action 0, bundles := 255 })),
    decide ((fun (s : State) => (fun (r : Nat) => (fun (v : Word) => s.Inv = true ∧ (r < 16384) ∧ (s.getF (R.prCfg r) F.prCfg_enable = 1) ∧ (s.sliceState (s.getF (R.prCfg r) F.prCfg_owner) = 1) ∧ (v.toNat % 2 ^ 16 < ringSlots (s.getF (R.prRing r) F.prRing_size))) (63)) (16383)) (w ready (R.prCfg 16383) F.prCfg_enable 1)),
    decide ((fun (s : State) => (fun (r : Nat) => (fun (v : Word) => s.Inv = true ∧ (r < 16384) ∧ (s.getF (R.prCfg r) F.prCfg_enable = 1) ∧ (s.sliceState (s.getF (R.prCfg r) F.prCfg_owner) = 1) ∧ (ringSlots (s.getF (R.prRing r) F.prRing_size) ≤ v.toNat % 2 ^ 16)) (64)) (16383)) (w ready (R.prCfg 16383) F.prCfg_enable 1)),
    decide ((fun (s : State) => (fun (s : State) => (fun (r : Nat) => (fun (q : Nat) => (fun (n : Nat) => (fun (d : List Byte) => (fun (host : Got) => (fun (l : List Byte) => (fun (head : Nat) => (fun (owner : Nat) => s.Inv = true ∧ (r < 16384) ∧ (s.prOpen r 1 = true) ∧ (head = s.getF (R.prStatus r) F.prStatus_head) ∧ (head ≠ s.getF (R.prTail r) F.prTail_tail) ∧ (s.ringBlocked (s.getF (R.prCfg r) F.prCfg_cq) = false) ∧ (owner = s.getF (R.prCfg r) F.prCfg_owner) ∧ (s.ringWaits owner 1 = false) ∧ (s.getF (R.prRing r) F.prRing_space = 1) ∧ ((s.ringRead owner (s.getF (R.prRing r) F.prRing_base * 4096) 1 (head * 32) 32 host).1 = .bytes d) ∧ (fieldLE d 16 2 = 1) ∧ (fieldLE d 20 12 = 0) ∧ (n = fieldLE d 8 4) ∧ (14 ≤ n) ∧ (n ≤ 9212) ∧ (l.length = n) ∧ (q = fieldLE d 18 2) ∧ ((s.tmQueue q).owner = owner) ∧ (s.tmTakes q (frameLen l) = true)) (0)) (0)) (zeros 14)) (.bytes d)) (zeros 8 ++ bytesLE 4 14 ++ zeros 4 ++ [1, 0, 9, 0] ++ zeros 12)) (14)) (9)) (16383)) ({ s with pkt := { s.pkt with queues := [(9, queueOf [])] } })) (w (w (w (w (packets []) (R.prCfg 16383) F.prCfg_enable 1) (R.prCfg 16383) F.prCfg_dir 1) (R.prTail 16383) F.prTail_tail 1) (R.prRing 16383) F.prRing_space 1)),
    decide ((fun (s : State) => (fun (r : Nat) => (fun (d : List Byte) => (fun (host : Got) => (fun (head : Nat) => (fun (owner : Nat) => s.Inv = true ∧ (r < 16384) ∧ (s.prOpen r 1 = true) ∧ (head = s.getF (R.prStatus r) F.prStatus_head) ∧ (head ≠ s.getF (R.prTail r) F.prTail_tail) ∧ (s.ringBlocked (s.getF (R.prCfg r) F.prCfg_cq) = false) ∧ (owner = s.getF (R.prCfg r) F.prCfg_owner) ∧ (s.ringWaits owner 1 = false) ∧ (s.getF (R.prRing r) F.prRing_space = 1) ∧ ((s.ringRead owner (s.getF (R.prRing r) F.prRing_base * 4096) 1 (head * 32) 32 host).1 = .bytes d) ∧ (fieldLE d 8 4 < 14) ∧ (Tab.get [] s.pkt.txs r = []) ∧ (s.crOpen (s.getF (R.prCfg r) F.prCfg_cq) owner = false)) (0)) (0)) (.bytes d)) (zeros 8 ++ bytesLE 4 13 ++ zeros 20)) (16383)) (w (w (w (w (packets []) (R.prCfg 16383) F.prCfg_enable 1) (R.prCfg 16383) F.prCfg_dir 1) (R.prTail 16383) F.prTail_tail 1) (R.prRing 16383) F.prRing_space 1)),
    decide ((fun (s : State) => (fun (s : State) => (fun (k : Nat) => (fun (l : List Byte) => (fun (f : TmFrame) => (fun (fs : List TmFrame) => (fun (port : Nat) => (fun (g : Nat) => s.Inv = true ∧ (s.netOpen port = true) ∧ (s.full = true ∨ 0 ≤ s.portTokens port) ∧ (f.body = .frame l) ∧ ((Sched.pick (fun g => s.groupEligible g && decide ((s.tmGroup g).tokens ≥ 0)) s.groupHead s.groupQuantum (Tab.get Sched.idle s.pkt.minTier port).fuel (Tab.get Sched.idle s.pkt.minTier port)).1 = some g) ∧ ((s.queuePick g).1 = some k) ∧ ((s.tmQueue k).frames = f :: fs)) (0)) (0)) ([])) (⟨.frame (zeros 14), true, none, none⟩)) (zeros 14)) (9)) ({ s with pkt := { s.pkt with queues := [(9, queueOf [⟨.frame (zeros 14), true, none, none⟩])], qs := [(0, ⟨none, [9], []⟩)], minTier := [(0, ⟨none, [0], []⟩)], allTier := [(0, ⟨none, [0], []⟩)] } })) (packets [])),
    decide ((fun (s : State) => (fun (port : Nat) => s.Inv = true ∧ (Tab.get Sched.idle s.pkt.minTier port = Sched.idle) ∧ (Tab.get Sched.idle s.pkt.allTier port = Sched.idle)) (0)) (packets [])),
    decide ((fun (s : State) => (fun (n : Nat) => (fun (x : Shaper) => s.Inv = true ∧ (Tab.find? s.pkt.shapers n = some x) ∧ (x.held = none)) (⟨100, 500, 500, none⟩)) (7)) ({ packets [] with pkt := { (packets []).pkt with shapers := [(7, ⟨100, 500, 500, none⟩)] } })),
    decide ((fun (s : State) => (fun (n : Nat) => (fun (b : Nat) => (fun (r : Nat) => (fun (x : Shaper) => s.Inv = true ∧ (Tab.find? s.pkt.shapers n = some x) ∧ (x.held = some (b, r))) (⟨100, 500, 500, some (10, 3)⟩)) (3)) (10)) (7)) ({ packets [] with pkt := { (packets []).pkt with shapers := [(7, ⟨100, 500, 500, some (10, 3)⟩)] } })),
    decide ((fun (s : State) => (fun (c : Nat) => (fun (q : Nat) => (fun (port : Nat) => s.Inv = true ∧ (port < s.netPorts) ∧ (c < 8) ∧ (q ≠ 0)) (0)) (65535)) (7)) (packets [])),
    decide ((fun (s : State) => (fun (port : Nat) => (fun (c : Nat) => s.Inv = true ∧ (port < 8) ∧ (c < 8) ∧ (natBit (s.getF (R.netPortStatus port) F.netPortStatus_paused) c = true)) (7)) (7)) (w (packets []) (R.netPortStatus 7) F.netPortStatus_paused 255)),
    decide ((fun (s : State) => (fun (v : Word) => s.Inv = true ∧ (s.serving = true) ∧ (objKind v = 1) ∧ (objIndex v < 65536)) (word [(F.objCmd_kind, 1), (F.objCmd_index, 65535)])) ({ packets [] with pkt := { (packets []).pkt with queues := [(65535, queueOf [])] } })),
    decide ((fun (s : State) => (fun (v : Word) => s.Inv = true ∧ (s.serving = true) ∧ (objExists (objKind v) (objIndex v) = false) ∧ (objKind v ≠ 6) ∧ (objKind v ≠ 7)) (word [(F.objCmd_kind, 1), (F.objCmd_index, 65536)])) (packets [])),
    decide ((fun (s : State) => (fun (v : Word) => s.Inv = true ∧ (s.serving = true) ∧ (objKind v = 2) ∧ (objIndex v < 65535) ∧ (1 ≤ getBits (s.reg (R.objData 0)) (20, 0)) ∧ (getBits (s.reg (R.objData 0)) (20, 0) ≤ 1600000)) (word [(F.objCmd_kind, 2), (F.objCmd_index, 65534)])) (w (packets []) (R.objData 0) (20, 0) 1600000)),
    decide ((fun (s : State) => (fun (v : Word) => s.Inv = true ∧ (s.serving = true) ∧ (objKind v = 1) ∧ (objIndex v < 65536) ∧ ((s.tmQueue (objIndex v)).frames = []) ∧ (getBits (s.reg (R.objData 0)) (63, 63) = 1) ∧ (getBits (s.reg (R.objData 0)) (42, 40) < s.netPorts) ∧ (s.quietAllows (getBits (s.reg (R.objData 0)) (55, 48)) (fun x => natBit x.ports (getBits (s.reg (R.objData 0)) (42, 40))) = true) ∧ (64 ≤ getBits (s.reg (R.objData 0)) (19, 0)) ∧ (getBits (s.reg (R.objData 0)) (19, 0) ≤ 1048575)) (word [(F.objCmd_kind, 1), (F.objCmd_index, 65535)])) ((packets []).setReg (R.objData 0) (word [((63, 63), 1), ((19, 0), 64)]))),
    decide ((fun (s : State) => (fun (v : Word) => s.Inv = true ∧ (s.serving = true) ∧ (objKind v = 6) ∧ (objIndex v < (s.lookTable s.objTable).size) ∧ (objIndex v ≠ 0xFFFFFF) ∧ (s.replicates 3 0 = false) ∧ (s.replicates 1 0 = false)) (word [(F.objCmd_kind, 6)])) (w (packets []) (R.objData 13) (5, 0) 63)),
    decide ((fun (s : State) => (fun (v : Word) => s.Inv = true ∧ (s.serving = true) ∧ (objKind v = 1) ∧ (objIndex v < 65536) ∧ (64 ≤ (s.tmQueue (objIndex v)).quantum) ∧ (s.quietAllows (s.tmQueue (objIndex v)).owner (fun x => natBit x.ports (s.tmQueue (objIndex v)).port) = true)) (word [(F.objCmd_kind, 1), (F.objCmd_index, 7)])) ({ packets [] with pkt := { (packets []).pkt with queues := [(7, ⟨64, 0, []⟩)] } })),
    decide ((fun (s : State) => (fun (v : Word) => s.Inv = true ∧ (s.serving = true) ∧ (objKind v = 8) ∧ (1 ≤ objIndex v) ∧ (objIndex v < 1024) ∧ (Tab.find? s.progs (objIndex v) = none) ∧ (s.replicates 3 0 = false)) (word [(F.objCmd_kind, 8), (F.objCmd_index, 1023)])) (packets [])),
    decide ((fun (s : State) => (fun (v : Word) => s.Inv = true ∧ (s.serving = true) ∧ (objKind v = 1) ∧ (objIndex v < 65536) ∧ ((s.tmQueue (objIndex v)).frames.all (fun f => f.tx.isNone) = true)) (word [(F.objCmd_kind, 1), (F.objCmd_index, 7)])) ({ packets [] with pkt := { (packets []).pkt with queues := [(7, queueOf [⟨.frame (zeros 14), true, none, none⟩])] } })),
    decide ((fun (s : State) => (fun (dom : Nat) => (fun (port : Nat) => (fun (tr : Nat) => s.Inv = true ∧ (s.getF R.ptpCfg F.ptpCfg_enable = 1) ∧ (port = s.getF R.ptpCfg F.ptpCfg_port) ∧ (dom = s.getF R.ptpCfg F.ptpCfg_domain) ∧ (tr = s.getF R.ptpCfg F.ptpCfg_transport) ∧ (s.netOpen port = true)) (0)) (0)) (5)) (w (w (packets []) R.ptpCfg F.ptpCfg_enable 1) R.ptpCfg F.ptpCfg_domain 5)),
    decide ((fun (s : State) => (fun (s : State) => (fun (recv : Int) => (fun (corr : Int) => (fun (off : Int) => (fun (port : Nat) => (fun (dom : Nat) => (fun (tr : Nat) => s.Inv = true ∧ (s.getF R.ptpCfg F.ptpCfg_enable = 1) ∧ (port = s.getF R.ptpCfg F.ptpCfg_port) ∧ (dom = s.getF R.ptpCfg F.ptpCfg_domain) ∧ (tr = s.getF R.ptpCfg F.ptpCfg_transport) ∧ (s.netOpen port = true) ∧ (s.pkt.ptp.ready = true) ∧ (s.pkt.ptp.asked = true) ∧ (s.followsPair = false) ∧ (s.getF R.timeSrc F.timeSrc_src = 1) ∧ (off = Int.tdiv ((s.pkt.ptp.t2 - s.pkt.ptp.t1) - ((recv - corr) - s.pkt.ptp.t3)) 2)) (0)) (0)) (0)) (50)) (0)) (600)) ({ s with pkt := { s.pkt with ptp := ⟨100, 300, false, true, 500, true, 0, 0⟩ } })) (w (w (w (packets []) R.ptpCfg F.ptpCfg_enable 1) R.timeSrc F.timeSrc_src 1) R.servoStatus F.servoStatus_holdover 1)),
    decide ((fun (s : State) => s.Inv = true ∧ (s.ppsDriven = false) ∧ (s.followsPair = false) ∧ (s.getF R.timeSrc F.timeSrc_src = 2) ∧ (s.clock.ticks.toNat % 1600000000 < 800000000)) (w { packets [] with clock := { (packets []).clock with ticks := 1600000016 } } R.timeSrc F.timeSrc_src 2)),
    decide ((fun (s : State) => s.Inv = true ∧ (s.ppsDriven = true)) (w (packets []) R.ptpCfg F.ptpCfg_pps_out 1)),
    decide ((fun (s : State) => s.Inv = true ∧ (s.getF R.timeSrc F.timeSrc_src ≠ 0)) (w (packets []) R.timeSrc F.timeSrc_src 3)),
    decide ((fun (s : State) => s.Inv = true ∧ (s.ppsDriven = true)) (w (packets []) R.ptpCfg F.ptpCfg_pps_out 1))] id = true := by decide +kernel

set_option maxRecDepth 20000 in
/-- For each clause, in order, a state and operands that meet its hypotheses. -/
theorem witness_TransportPacketCommands : List.all [
    decide ((fun (s : State) => (fun (p : RocePkt) => s.Inv = true ∧ (s.full = true) ∧ (s.conn? p.conn = none)) (pktOf .write 0 0 [])) (ready)),
    decide ((fun (s : State) => (fun (p : RocePkt) => (fun (c : Conn) => s.Inv = true ∧ (s.conn? p.conn = some c)) (connIn 3)) (pktOf .write 0 0 [])) (linked (connIn 3))),
    decide ((fun (s : State) => (fun (p : RocePkt) => (fun (n : Nat) => (fun (c : Conn) => (fun (a : Nat) => s.Inv = true ∧ (s.takesOn n c = true) ∧ (p.conn = n) ∧ (c.sprayed = false) ∧ (c.rx = []) ∧ (c.ahead = []) ∧ (p.psn = c.expPsn) ∧ (p.psn < 2 ^ 24) ∧ (p.op = .write) ∧ (p.first = true) ∧ (p.last = true) ∧ (p.ce = false) ∧ (p.imm = none) ∧ (p.len = p.payload.length) ∧ (p.payload ≠ []) ∧ ((s.mrTarget c p.rkey p.va p.len 1).1 = some (0, a)) ∧ ((s.memWrite 0x0A 0 6 c.owner a p.payload).1 = none) ∧ ((Tab.find? s.net.mrs (p.rkey / 256)).isSome = true) ∧ (s.takesFrame c c.ackQueue (.answer n (.ack p.psn 0 false)) = true) ∧ (s.noneWaits = true)) (0x5008)) (connIn 3)) (9)) (pktOf .write 0xFFFFFF 0x4008 [1, 2])) (withMr (connIn 3))),
    decide ((fun (s : State) => (fun (s : State) => (fun (p : RocePkt) => (fun (n : Nat) => (fun (c : Conn) => (fun (a : Nat) => (fun (old : Nat) => (fun (l : List Byte) => s.Inv = true ∧ (s.takesOn n c = true) ∧ (p.conn = n) ∧ (c.sprayed = false) ∧ (c.rx = []) ∧ (c.ahead = []) ∧ (p.psn = c.expPsn) ∧ (p.psn < 2 ^ 24) ∧ (p.op = .faa) ∧ (p.va % 8 = 0) ∧ (p.ce = false) ∧ ((s.mrTarget c p.rkey p.va 8 3).1 = some (0, a)) ∧ ((Tab.find? s.net.mrs (p.rkey / 256)).isSome = true) ∧ (s.memRead 0x0A 0 6 c.owner a 8 = (.bytes l, s)) ∧ (old = leNat l) ∧ ((s.memWrite 0x0A 0 6 c.owner a (bytesLE 8 ((old + p.operand) % 2 ^ 64))).1 = none) ∧ (s.takesFrame c c.ackQueue (.answer n (.atomic p.psn old)) = true) ∧ (s.noneWaits = true)) ([0xFF, 0, 0, 0, 0, 0, 0, 0])) (255)) (0x5008)) (connIn 3)) (9)) (pktOf .faa 0xFFFFFF 0x4008 [])) ({ s with mem := [(0x5008, 0xFF)] })) (withMr (connIn 3))),
    decide ((fun (s : State) => (fun (s : State) => (fun (p : RocePkt) => (fun (n : Nat) => (fun (c : Conn) => (fun (a : Nat) => (fun (l : List Byte) => s.Inv = true ∧ (s.takesOn n c = true) ∧ (p.conn = n) ∧ (c.sprayed = false) ∧ (c.rx = []) ∧ (c.ahead = []) ∧ (p.psn = c.expPsn) ∧ (p.psn < 2 ^ 24) ∧ (p.op = .read) ∧ (p.ce = false) ∧ (0 < p.len) ∧ (p.len ≤ c.mtu) ∧ ((s.mrTarget c p.rkey p.va p.len 2).1 = some (0, a)) ∧ ((Tab.find? s.net.mrs (p.rkey / 256)).isSome = true) ∧ (s.memRead 0x0A 0 6 c.owner a p.len = (.bytes l, s)) ∧ (s.takesFrame c c.ackQueue (.answer n (.readData p.psn l)) = true)) ([0xFF, 0])) (0x5008)) (connIn 3)) (9)) ({ pktOf .read 0xFFFFFF 0x4008 [] with len := 2 })) ({ s with mem := [(0x5008, 0xFF)] })) (withMr (connIn 3))),
    decide ((fun (s : State) => (fun (p : RocePkt) => (fun (n : Nat) => (fun (c : Conn) => (fun (q : RecvReq) => s.Inv = true ∧ (s.takesOn n c = true) ∧ (p.conn = n) ∧ (c.sprayed = false) ∧ (c.intake = false) ∧ (c.storage = false) ∧ (c.rx = []) ∧ (c.ahead = []) ∧ (p.psn = c.expPsn) ∧ (p.psn < 2 ^ 24) ∧ (p.op = .send) ∧ (p.first = true) ∧ (p.last = true) ∧ (p.ce = false) ∧ (p.payload ≠ []) ∧ (c.recvs = [q]) ∧ (p.payload.length ≤ q.length) ∧ (q.space = 0) ∧ ((s.memWrite 0x0A 0 6 c.owner q.local_ p.payload).1 = none) ∧ (s.getF (R.crRing c.cq) F.crRing_space = 1) ∧ (s.takesFrame c c.ackQueue (.answer n (.ack p.psn 0 false)) = true) ∧ (s.noneWaits = true)) (⟨5, 2, 0x6000, 0⟩)) ({ connIn 3 with recvs := [⟨5, 2, 0x6000, 0⟩] })) (9)) (pktOf .send 0xFFFFFF 0 [1, 2])) (w (linked { connIn 3 with recvs := [⟨5, 2, 0x6000, 0⟩] }) (R.crRing 3) F.crRing_space 1)),
    decide ((fun (s : State) => (fun (p : RocePkt) => (fun (n : Nat) => (fun (d : Nat) => (fun (c : Conn) => s.Inv = true ∧ (s.takesOn n c = true) ∧ (p.conn = n) ∧ (c.sprayed = false) ∧ (c.nakSent = false) ∧ (p.ce = false) ∧ (d = psnDist c.expPsn p.psn) ∧ (0 < d) ∧ (d < 2 ^ 23) ∧ (s.takesFrame c c.ackQueue (.answer n (.nak .sequence c.expPsn)) = true)) (connIn 2)) (1)) (9)) (pktOf .write 0 0x4008 [1, 2])) (withMr (connIn 2))),
    decide ((fun (s : State) => (fun (p : RocePkt) => (fun (n : Nat) => (fun (c : Conn) => s.Inv = true ∧ (s.takesOn n c = true) ∧ (p.conn = n) ∧ (c.sprayed = false) ∧ (c.nakSent = true) ∧ (p.ce = false) ∧ (0 < psnDist c.expPsn p.psn) ∧ (psnDist c.expPsn p.psn < 2 ^ 23)) ({ connIn 2 with nakSent := true })) (9)) (pktOf .write 0 0x4008 [1, 2])) (withMr { connIn 2 with nakSent := true })),
    decide ((fun (s : State) => (fun (p : RocePkt) => (fun (n : Nat) => (fun (c : Conn) => s.Inv = true ∧ (s.takesOn n c = true) ∧ (p.conn = n) ∧ (c.sprayed = false) ∧ (p.ce = false) ∧ (2 ^ 23 ≤ psnDist c.expPsn p.psn) ∧ (p.op = .write ∨ p.op = .send) ∧ (s.takesFrame c c.ackQueue (.answer n (.ack ((c.expPsn + (2 ^ 24 - 1)) % 2 ^ 24) 0 false)) = true)) (connIn 2)) (9)) (pktOf .write 0xFFFFFE 0x4008 [1, 2])) (withMr (connIn 2))),
    decide ((fun (s : State) => (fun (p : RocePkt) => (fun (n : Nat) => (fun (c : Conn) => s.Inv = true ∧ (s.takesOn n c = true) ∧ (p.conn = n) ∧ (c.sprayed = false) ∧ (c.rx = []) ∧ (p.psn = c.expPsn) ∧ (p.psn < 2 ^ 24) ∧ (p.op = .write) ∧ (p.first = true) ∧ (p.ce = false) ∧ (p.imm = none) ∧ ((s.mrTarget c p.rkey p.va p.len 1).1 = none) ∧ ((Tab.find? s.net.mrs (p.rkey / 256)).isSome = true) ∧ (s.takesFrame c c.ackQueue (.answer n (.nak .access c.expPsn)) = true)) (connIn 2)) (9)) (pktOf .write 0xFFFFFF 0x4FFF [1, 2])) (withMr (connIn 2))),
    decide ((fun (s : State) => (fun (p : RocePkt) => (fun (n : Nat) => (fun (c : Conn) => s.Inv = true ∧ (s.full = true) ∧ (s.conn? n = some c) ∧ (p.conn = n) ∧ (s.isResident n = true) ∧ (c.state = 4) ∧ (s.replicates 1 c.owner = false) ∧ (s.takesFrame c c.ackQueue (.answer n (.nak .operational c.expPsn)) = true)) (connIn 4)) (9)) (pktOf .write 0 0 [])) (linked (connIn 4))),
    decide ((fun (s : State) => (fun (p : RocePkt) => (fun (n : Nat) => s.Inv = true ∧ (s.full = true) ∧ (p.conn = n) ∧ ((s.conn? n).isSome = true) ∧ (s.isResident n = false)) (9)) (pktOf .write 0 0 [])) ({ linked (connIn 3) with net := { (linked (connIn 3)).net with resident := [] } })),
    decide ((fun (c : Conn) => (fun (s : State) => (fun (n : Nat) => (fun (psn : Nat) => (fun (m : Msg) => (fun (p : TxPkt) => s.Inv = true ∧ (s.conn? n = some c) ∧ (c.state = 3) ∧ (c.sprayed = false) ∧ (c.txq = []) ∧ (c.unacked = [p]) ∧ (p.pkt.psn = psn) ∧ (needsData p.pkt = false) ∧ (psn < 2 ^ 24) ∧ (c.msgs = [m]) ∧ (m.op ≤ 3) ∧ (m.owner = .request 77 false)) (sentOf (pktOf .write 5 0x4008 [1, 2]))) (msgOf 2 5 2)) (5)) (9)) (linked c)) ({ connIn 3 with msgs := [msgOf 2 5 2], unacked := [sentOf (pktOf .write 5 0x4008 [1, 2])], retries := 2 })),
    decide ((fun (c : Conn) => (fun (s : State) => (fun (n : Nat) => (fun (psn : Nat) => (fun (p : TxPkt) => s.Inv = true ∧ (s.conn? n = some c) ∧ (c.state = 3) ∧ (c.sprayed = false) ∧ (c.txq = []) ∧ (c.unacked = [p]) ∧ (2 ^ 23 ≤ psnDist p.pkt.psn psn) ∧ (c.msgs = [])) (sentOf (pktOf .write 5 0x4008 [1, 2]))) (4)) (9)) (linked c)) ({ connIn 3 with unacked := [sentOf (pktOf .write 5 0x4008 [1, 2])] })),
    decide ((fun (c : Conn) => (fun (s : State) => (fun (n : Nat) => (fun (psn : Nat) => (fun (old : Nat) => (fun (m : Msg) => (fun (p : TxPkt) => s.Inv = true ∧ (s.conn? n = some c) ∧ (c.state = 3) ∧ (c.sprayed = false) ∧ (c.txq = []) ∧ (c.unacked = [p]) ∧ (p.pkt.psn = psn) ∧ (c.msgs = [m]) ∧ (m.op = 6) ∧ (m.firstPsn = psn) ∧ (m.answered = false) ∧ (m.owner = .request 77 false) ∧ (m.space = 0) ∧ ((s.memWrite 0x0A 0 6 c.owner m.local_ (bytesLE 8 old)).1 = none) ∧ (s.noneWaits = true)) (sentOf (pktOf .faa 5 0x4008 []))) (msgOf 6 5 8)) (258)) (5)) (9)) (linked c)) ({ connIn 3 with msgs := [msgOf 6 5 8], unacked := [sentOf (pktOf .faa 5 0x4008 [])] })),
    decide ((fun (c : Conn) => (fun (s : State) => (fun (n : Nat) => (fun (psn : Nat) => (fun (p : TxPkt) => s.Inv = true ∧ (s.conn? n = some c) ∧ (c.state = 3) ∧ (c.sprayed = false) ∧ (c.txq = []) ∧ (c.msgs = []) ∧ (c.unacked = [p]) ∧ (p.pkt.psn = psn) ∧ (psn < 2 ^ 24) ∧ (s.since p.first ≤ s.lifetime) ∧ (s.takesFrame c c.queue (.request n 0 p.pkt) = true)) (sentOf (pktOf .write 5 0x4008 [1, 2]))) (5)) (9)) (linked c)) ({ connIn 3 with unacked := [sentOf (pktOf .write 5 0x4008 [1, 2])] })),
    decide ((fun (c : Conn) => (fun (s : State) => (fun (n : Nat) => s.Inv = true ∧ (s.conn? n = some c) ∧ (c.state = 3) ∧ (c.txq = []) ∧ (c.msgs = []) ∧ (c.unacked = []) ∧ (c.rnrRetry = 7)) (9)) (linked c)) (connIn 3)),
    decide ((fun (c : Conn) => (fun (s : State) => (fun (n : Nat) => (fun (k : NakKind) => s.Inv = true ∧ (s.conn? n = some c) ∧ (c.state = 3) ∧ (c.txq = []) ∧ (c.msgs = []) ∧ (c.unacked = []) ∧ (k = .access ∨ k = .invalid ∨ k = .operational)) (.operational)) (9)) (linked c)) (connIn 3)),
    decide ((fun (c : Conn) => (fun (s : State) => (fun (n : Nat) => s.Inv = true ∧ (s.conn? n = some c)) (9)) (linked c)) (connIn 3)),
    decide ((fun (c : Conn) => (fun (s : State) => (fun (n : Nat) => (fun (psn : Nat) => (fun (m : Msg) => (fun (l : List Byte) => s.Inv = true ∧ (s.conn? n = some c) ∧ (c.msgs = [m]) ∧ (c.unacked = []) ∧ (m.op = 4) ∧ (m.answered = false) ∧ (m.covers psn = true) ∧ (m.firstPsn = psn) ∧ (m.space = 0) ∧ (l ≠ []) ∧ (l.length ≤ c.mtu) ∧ (c.mtu < m.length) ∧ (m.got = []) ∧ (c.txq = []) ∧ ((s.memWrite 0x0A 0 6 c.owner m.local_ l).1 = none) ∧ (s.noneWaits = true)) ([1, 2])) (msgOf 4 5 1025)) (5)) (9)) (linked c)) ({ connIn 3 with msgs := [msgOf 4 5 1025] })),
    decide ((fun (c : Conn) => (fun (s : State) => (fun (n : Nat) => (fun (psn : Nat) => (fun (p : TxPkt) => s.Inv = true ∧ (s.conn? n = some c) ∧ (c.state = 3) ∧ (c.sprayed = false) ∧ (c.unacked = [p]) ∧ (p.pkt.psn = psn) ∧ (p.reported = false) ∧ (c.retries < c.retryCnt) ∧ (c.rnrWait = false) ∧ (s.since p.first ≤ s.lifetime) ∧ (s.takesFrame c c.queue (.request n 0 p.pkt) = true)) (sentOf (pktOf .write 5 0x4008 [1, 2]))) (5)) (9)) (linked c)) ({ connIn 3 with unacked := [sentOf (pktOf .write 5 0x4008 [1, 2])], retries := 6 })),
    decide ((fun (c : Conn) => (fun (s : State) => (fun (n : Nat) => (fun (psn : Nat) => (fun (p : TxPkt) => s.Inv = true ∧ (s.conn? n = some c) ∧ (c.state = 3) ∧ (c.unacked = [p]) ∧ (p.pkt.psn = psn) ∧ (p.reported = false) ∧ (c.retryCnt ≤ c.retries) ∧ (c.rnrWait = false)) (sentOf (pktOf .write 5 0x4008 [1, 2]))) (5)) (9)) (linked c)) ({ connIn 3 with unacked := [sentOf (pktOf .write 5 0x4008 [1, 2])], retries := 7 })),
    decide ((fun (c : Conn) => (fun (s : State) => (fun (n : Nat) => (fun (p : TxPkt) => s.Inv = true ∧ (s.conn? n = some c) ∧ (c.state = 3) ∧ (c.sprayed = false) ∧ (c.rnrWait = true) ∧ (c.txq = []) ∧ (c.unacked = [p]) ∧ (p.reported = false) ∧ (s.since p.first ≤ s.lifetime) ∧ (s.takesFrame c c.queue (.request n 0 p.pkt) = true)) (sentOf (pktOf .write 5 0x4008 [1, 2]))) (9)) (linked c)) ({ connIn 3 with unacked := [sentOf (pktOf .write 5 0x4008 [1, 2])], rnrWait := true })),
    decide ((fun (c : Conn) => (fun (s : State) => (fun (n : Nat) => (fun (psn : Nat) => s.Inv = true ∧ (s.conn? n = some c) ∧ (c.state = 3) ∧ (c.unacked.any (fun p => p.pkt.psn == psn) = true)) (5)) (9)) (linked c)) ({ connIn 3 with unacked := [sentOf (pktOf .write 5 0x4008 [1, 2])] })),
    decide ((fun (c : Conn) => (fun (s : State) => (fun (n : Nat) => (fun (k : Nat) => s.Inv = true ∧ (s.conn? n = some c) ∧ (natBit c.suspended k = true)) (15)) (9)) (linked c)) ({ connIn 3 with suspended := 0x8001 })),
    decide ((fun (c : Conn) => (fun (s : State) => (fun (n : Nat) => s.Inv = true ∧ (s.conn? n = some c) ∧ (c.sprayed = true) ∧ (0 < c.sinceAck) ∧ (s.replicates 1 c.owner = false) ∧ (s.takesFrame c c.ackQueue (.answer n (.ack ((c.expPsn + (2 ^ 24 - 1)) % 2 ^ 24) c.bitmap c.ceEcho)) = true)) (9)) (linked c)) ({ Conn.fresh (ctxOf 0x40) with state := 3, sinceAck := 1, ahead := [1, 64] })),
    decide ((fun (c : Conn) => (fun (s : State) => (fun (n : Nat) => s.Inv = true ∧ (s.conn? n = some c) ∧ (s.isResident n = false) ∧ (Tab.get [] s.net.waits n = [])) (9)) ({ linked c with net := { (linked c).net with resident := [] } })) (connIn 3)),
    decide ((fun (c : Conn) => (fun (s : State) => (fun (n : Nat) => s.Inv = true ∧ (s.conn? n = some c) ∧ (c.state = 3) ∧ (s.isResident n = false) ∧ (Tab.get [] s.net.waits n = [])) (9)) ({ linked c with net := { (linked c).net with resident := [] } })) (connIn 3))] id = true := by decide +kernel

set_option maxRecDepth 20000 in
/-- For each clause, in order, a state and operands that meet its hypotheses. -/
theorem witness_ConnectionAndSceranCommands : List.all [
    decide ((fun (s : State) => (fun (v : Word) => (fun (n : Nat) => (fun (c : Conn) => s.Inv = true ∧ (s.serving = true) ∧ (s.full = true) ∧ (n = getBits v F.connCmd_conn) ∧ (s.conn? n = some c)) (connIn 3)) (9)) (9)) (linked (connIn 3))),
    decide ((fun (s : State) => (fun (n : Nat) => (fun (v : Word) => (fun (c : Conn) => s.Inv = true ∧ (s.serving = true) ∧ (s.full = true) ∧ (n = getBits v F.connCmd_conn) ∧ (s.conn? n = none) ∧ (c = Conn.fresh s.connWords) ∧ (s.sliceState c.owner = 1) ∧ ((s.connsOf c.owner).length < s.limit c.owner .connections) ∧ (s.net.conns.length < s.connRoom)) (Conn.fresh roomy.connWords)) (0xFFFFFF)) (0xFFFFFF)) (roomy)),
    decide ((fun (s : State) => (fun (n : Nat) => (fun (v : Word) => s.Inv = true ∧ (s.serving = true) ∧ (s.full = true) ∧ (n = getBits v F.connCmd_conn) ∧ ((s.conn? n).isSome = true)) (9)) (9)) (linked (connIn 3))),
    decide ((fun (s : State) => (fun (n : Nat) => (fun (v : Word) => (fun (dest : Nat) => (fun (c : Conn) => s.Inv = true ∧ (s.serving = true) ∧ (s.full = true) ∧ (n = getBits v F.connCmd_conn) ∧ (s.conn? n = some c) ∧ (dest = getBits (s.reg (R.connData 0)) (63, 61)) ∧ (dest ≠ 0) ∧ (dest ≠ 4) ∧ (dest ≠ c.state + 1 ∨ 3 < dest)) (connIn 1)) (3)) (9)) (9)) (w (linked (connIn 1)) (R.connData 0) (63, 61) 3)),
    decide ((fun (s : State) => (fun (n : Nat) => (fun (v : Word) => (fun (dest : Nat) => (fun (c : Conn) => (fun (x : Conn) => s.Inv = true ∧ (s.serving = true) ∧ (s.full = true) ∧ (n = getBits v F.connCmd_conn) ∧ (s.conn? n = some c) ∧ (dest = getBits (s.reg (R.connData 0)) (63, 61)) ∧ (dest = c.state + 1) ∧ (dest ≤ 2) ∧ (x = Conn.fresh (setBits (s.connWords.getD 0 0) (55, 48) c.owner :: s.connWords.drop 1)) ∧ (s.contextOk x = true) ∧ (s.ringsOwned x = true) ∧ (x.storage = false) ∧ ((s.tmQueue x.queue).owner = c.owner) ∧ ((s.tmQueue x.ackQueue).owner = c.owner)) (Conn.fresh (setBits (s.connWords.getD 0 0) (55, 48) (connIn 1).owner :: s.connWords.drop 1))) (connIn 1)) (2)) (9)) (9)) (w (w (w (linked (connIn 1)) (R.connData 0) (63, 61) 2) (R.connData 1) (23, 0) 0xABCDEF) (R.connData 7) (1, 0) 1)),
    decide ((fun (s : State) => (fun (n : Nat) => (fun (v : Word) => (fun (c : Conn) => s.Inv = true ∧ (s.serving = true) ∧ (s.full = true) ∧ (n = getBits v F.connCmd_conn) ∧ (s.conn? n = some c) ∧ (getBits (s.reg (R.connData 0)) (63, 61) = 4)) (connIn 1)) (9)) (9)) (w (linked (connIn 1)) (R.connData 0) (63, 61) 4)),
    decide ((fun (s : State) => (fun (n : Nat) => (fun (v : Word) => (fun (c : Conn) => s.Inv = true ∧ (s.serving = true) ∧ (s.full = true) ∧ (n = getBits v F.connCmd_conn) ∧ (s.conn? n = some c) ∧ (c.state = 4) ∧ (s.replicates 1 c.owner = false)) (connIn 4)) (9)) (9)) (linked (connIn 4))),
    decide ((fun (s : State) => (fun (p : Nat) => (fun (v : Nat) => (fun (n : Nat) => (fun (i : Nat) => (fun (c : Conn) => (fun (fn : Nat) => s.Inv = true ∧ (s.bellAt 5 0 (.page fn p 0 4 v) = .hit n i) ∧ (s.conn? n = some c) ∧ (s.full = true) ∧ (s.isResident n = true) ∧ (c.state = 1 ∨ c.state = 2 ∨ c.state = 3) ∧ (c.storage = false) ∧ (s.sliceState c.owner = 1) ∧ (i < ringSlots (c.field 5 (3, 0)))) (0)) (connIn 3)) (63)) (9)) (63)) (3)) ({ (linked (connIn 3)).setReg (R.doorbellEntry 0 3) (word [(F.doorbellEntry_valid, 1), (F.doorbellEntry_kind, 5), (F.doorbellEntry_queue, 9)]) with ep := imaged.ep })),
    decide ((fun (s : State) => (fun (p : Nat) => (fun (v : Nat) => (fun (n : Nat) => (fun (i : Nat) => (fun (c : Conn) => (fun (fn : Nat) => s.Inv = true ∧ (s.bellAt 5 4 (.page fn p 4 4 v) = .hit n i) ∧ (s.conn? n = some c) ∧ (s.full = true) ∧ (s.isResident n = true) ∧ (c.state = 1 ∨ c.state = 2 ∨ c.state = 3) ∧ (c.storage = false) ∧ (s.sliceState c.owner = 1) ∧ (i < ringSlots (c.field 6 (3, 0)))) (0)) (connIn 3)) (63)) (9)) (63)) (3)) ({ (linked (connIn 3)).setReg (R.doorbellEntry 0 3) (word [(F.doorbellEntry_valid, 1), (F.doorbellEntry_kind, 5), (F.doorbellEntry_queue, 9)]) with ep := imaged.ep })),
    decide ((fun (c : Conn) => (fun (s : State) => (fun (n : Nat) => (fun (raw : List Byte) => (fun (host : Got) => (fun (l : List Byte) => s.Inv = true ∧ (s.asks n 0 c host raw = true) ∧ (fieldLE raw 24 1 = 1) ∧ (l.length = fieldLE raw 8 4) ∧ (l ≠ []) ∧ (l.length ≤ c.mtu) ∧ (s.takesFrame c c.queue (.request n c.pickPath (c.firstOut raw l .send true none)) = true)) ([8, 9])) (.bytes (reqRaw 0 2))) (reqRaw 0 2)) (9)) (linked c)) ({ connIn 3 with sqTail := 1 })),
    decide ((fun (c : Conn) => (fun (s : State) => (fun (n : Nat) => (fun (raw : List Byte) => (fun (host : Got) => (fun (l : List Byte) => s.Inv = true ∧ (s.asks n 1 c host raw = true) ∧ (fieldLE raw 24 1 = 1) ∧ (l.length = fieldLE raw 8 4) ∧ (l ≠ []) ∧ (l.length ≤ c.mtu) ∧ (s.takesFrame c c.queue (.request n c.pickPath (c.firstOut raw l .send true (some (fieldLE raw 12 4)))) = true)) ([8, 9])) (.bytes (reqRaw 1 2))) (reqRaw 1 2)) (9)) (linked c)) ({ connIn 3 with sqTail := 1 })),
    decide ((fun (c : Conn) => (fun (s : State) => (fun (n : Nat) => (fun (raw : List Byte) => (fun (host : Got) => (fun (l : List Byte) => s.Inv = true ∧ (s.asks n 2 c host raw = true) ∧ (fieldLE raw 24 1 = 1) ∧ (l.length = fieldLE raw 8 4) ∧ (c.mtu < l.length) ∧ (l.length ≤ 2 * c.mtu) ∧ (s.takesFrame c c.queue (.request n c.pickPath (c.firstOut raw l .write false none)) = true)) (zeros 1025)) (.bytes (reqRaw 2 1025))) (reqRaw 2 1025)) (9)) (linked c)) ({ connIn 3 with sqTail := 1 })),
    decide ((fun (c : Conn) => (fun (s : State) => (fun (n : Nat) => (fun (raw : List Byte) => (fun (host : Got) => (fun (l : List Byte) => s.Inv = true ∧ (s.asks n 3 c host raw = true) ∧ (fieldLE raw 24 1 = 1) ∧ (l.length = fieldLE raw 8 4) ∧ (l ≠ []) ∧ (l.length ≤ c.mtu) ∧ (s.takesFrame c c.queue (.request n c.pickPath (c.firstOut raw l .write true (some (fieldLE raw 12 4)))) = true)) ([8, 9])) (.bytes (reqRaw 3 2))) (reqRaw 3 2)) (9)) (linked c)) ({ connIn 3 with sqTail := 1 })),
    decide ((fun (c : Conn) => (fun (s : State) => (fun (n : Nat) => (fun (raw : List Byte) => (fun (host : Got) => s.Inv = true ∧ (s.asks n 4 c host raw = true) ∧ (fieldLE raw 24 1 = 1) ∧ (s.takesFrame c c.queue (.request n c.pickPath (c.firstOut raw [] .read true none)) = true)) (.bytes (reqRaw 4 2049))) (reqRaw 4 2049)) (9)) (linked c)) ({ connIn 3 with sqTail := 1 })),
    decide ((fun (c : Conn) => (fun (s : State) => (fun (n : Nat) => (fun (raw : List Byte) => (fun (host : Got) => s.Inv = true ∧ (s.asks n 5 c host raw = true) ∧ (fieldLE raw 24 1 = 1) ∧ (s.takesFrame c c.queue (.request n c.pickPath (c.firstOut raw [] .cas true none)) = true)) (.bytes (reqRaw 5 8))) (reqRaw 5 8)) (9)) (linked c)) ({ connIn 3 with sqTail := 1 })),
    decide ((fun (c : Conn) => (fun (s : State) => (fun (n : Nat) => (fun (raw : List Byte) => (fun (host : Got) => s.Inv = true ∧ (s.asks n 6 c host raw = true) ∧ (fieldLE raw 24 1 = 1) ∧ (s.takesFrame c c.queue (.request n c.pickPath (c.firstOut raw [] .faa true none)) = true)) (.bytes (reqRaw 6 8))) (reqRaw 6 8)) (9)) (linked c)) ({ connIn 3 with sqTail := 1 })),
    decide ((fun (c : Conn) => (fun (s : State) => (fun (n : Nat) => (fun (raw : List Byte) => s.Inv = true ∧ (s.conn? n = some c) ∧ (c.rqHead ≠ c.rqTail) ∧ (c.state = 2 ∨ c.state = 3) ∧ (s.ringBlocked c.cq = false) ∧ (s.ringWaits c.owner 1 = false) ∧ (s.fetches c.owner = true) ∧ (c.field 6 (4, 4) = 1) ∧ (s.hostPath (s.sliceFn c.owner) = true) ∧ (raw.length = 64) ∧ (fieldLE raw 0 1 = 0x10) ∧ (s.badRequest c.owner raw = false) ∧ (c.rx = [])) (reqRaw 0x10 2)) (9)) (linked c)) ({ connIn 3 with rqHead := 63 })),
    decide ((fun (s : State) => s.Inv = true ∧ (s.serving = true) ∧ (s.getF R.mrInval F.mrInval_busy = 0)) (ready)),
    decide ((fun (s : State) => s.Inv = true ∧ (s.serving = true) ∧ (s.getF R.mrInval F.mrInval_busy = 1)) (w ready R.mrInval F.mrInval_busy 1)),
    decide ((fun (s : State) => (fun (i : Nat) => s.Inv = true ∧ (s.net.inval = some i) ∧ (s.replicates 1 0 = false)) (2)) ({ withMr (connIn 3) with net := { (withMr (connIn 3)).net with inval := some 2 } })),
    decide ((fun (c : Conn) => (fun (s : State) => (fun (n : Nat) => (fun (x : Rec) => (fun (a : Nat) => s.Inv = true ∧ (s.conn? n = some c) ∧ (c.state = 3) ∧ (c.w = c.wMin) ∧ (s.crOpen c.evq c.owner = true) ∧ (s.crFull c.evq = false) ∧ (Tab.get [] s.ringWait c.evq = []) ∧ (s.getF (R.crRing c.evq) F.crRing_space = 0) ∧ (a = s.getF (R.crRing c.evq) F.crRing_base * 4096 + s.getF (R.crStatus c.evq) F.crStatus_tail * 32) ∧ (x = ⟨0, n % 2 ^ 16, 5, 0, c.owner, 0, 0, s.now, n + 0x85 * 2 ^ 24, false⟩) ∧ ((s.memWrite 0x05 c.owner 6 c.owner a (x.bytes (s.getF (R.crStatus c.evq) F.crStatus_phase))).1 = none) ∧ (s.noneWaits = true)) (0)) (⟨0, 9, 5, 0, 0, 0, 0, ready.now, 9 + 0x85 * 2 ^ 24, false⟩)) (9)) (w (linked c) (R.crCfg 4) F.crCfg_enable 1)) ({ connIn 3 with w := 0 })),
    decide ((fun (s : State) => (fun (port : Nat) => s.Inv = true ∧ (port < s.netPorts) ∧ (port < 8) ∧ (s.getF (R.netPortStatus port) F.netPortStatus_link_up = 0)) (0)) (ready)),
    decide ((fun (s : State) => (fun (addr : Nat) => (fun (node : Nat) => (fun (id : Nat) => (fun (a : Nat) => (fun (epoch : Word) => (fun (l : List Byte) => (fun (key : List Byte) => (fun (i : Nat) => (fun (ipv6 : Bool) => (fun (q : Nat) => s.Inv = true ∧ (s.full = true) ∧ (s.nodeKnown ipv6 addr = true) ∧ (s.storeNamed = true) ∧ (key = bytesLE 4 node ++ bytesLE 8 epoch.toNat ++ bytesLE 6 id) ∧ (s.net.index = []) ∧ ((s.sceranFind key).2 = some i) ∧ ((s.memWrite 0x0A 0 6 0 a l).1 = none) ∧ ((s.accessCode 0 (s.sceranAddr 0) 64) = none) ∧ (meets a l.length (s.sceranAddr 0) 64 = false) ∧ (s.replicates 1 0 = false) ∧ (l ≠ []) ∧ (s.nodeTakes node q (.sceranAnswer node epoch id 0 0 []) = true) ∧ (s.noneWaits = true)) (0)) (false)) (crc64 (sceranKey 7 9 5) % 2 ^ 18)) (sceranKey 7 9 5)) ([1, 2])) (9)) (0x5000)) (5)) (7)) (0x0A000001)) (sceranReady)),
    decide ((fun (s : State) => (fun (addr : Nat) => (fun (node : Nat) => (fun (id : Nat) => (fun (epoch : Word) => (fun (op : ScOp) => (fun (tgt : Nat) => (fun (l : List Byte) => (fun (e : ScIndex) => (fun (k : Nat) => (fun (i : Nat) => (fun (ipv6 : Bool) => (fun (q : Nat) => s.Inv = true ∧ (s.full = true) ∧ (s.nodeKnown ipv6 addr = true) ∧ (s.storeNamed = true) ∧ ((s.sceranFind (sceranKey node epoch id)).1 = some i) ∧ (Tab.find? s.net.index i = some e) ∧ (k = s.sceranAddr e.number) ∧ (op = .write tgt l) ∧ (s.replicates 1 0 = false) ∧ (s.nodeTakes node q (.sceranAnswer node epoch id (leNat (s.bytesAt (k + 20) 2)) 0 []) = true)) (0)) (false)) (crc64 (sceranKey 7 9 5) % 2 ^ 18)) (0x10000)) (⟨crc64 (sceranKey 7 9 5), 0, 1⟩)) ([1, 2])) (0x5000)) (.write 0x5000 [1, 2])) (9)) (5)) (7)) (0x0A000001)) ({ sceranReady with net := { sceranReady.net with index := [(crc64 (sceranKey 7 9 5) % 2 ^ 18, ⟨crc64 (sceranKey 7 9 5), 0, 1⟩)] }, mem := [(0x10000, 7), (0x10004, 9), (0x1000C, 5), (0x10014, 8)] })),
    decide ((fun (s : State) => (fun (addr : Nat) => (fun (node : Nat) => (fun (ipv6 : Bool) => (fun (id : Nat) => (fun (q : Nat) => (fun (epoch : Word) => s.Inv = true ∧ (s.full = true) ∧ (s.nodeKnown ipv6 addr = true) ∧ (s.storeNamed = false) ∧ (s.nodeTakes node q (.sceranBusy node epoch id) = true)) (0)) (0)) (0)) (false)) (7)) (0x0A000001)) (w sceranReady R.sceranStore F.sceranStore_base 0)),
    decide ((fun (m : Nat) => (fun (s : State) => (fun (addr : Nat) => (fun (id : Nat) => (fun (x : ScSent) => (fun (ipv6 : Bool) => (fun (q : Nat) => s.Inv = true ∧ (s.full = true) ∧ (s.nodeKnown ipv6 addr = true) ∧ (Tab.find? s.net.sent id = some x) ∧ ((s.train.commits.any fun e => e.2.swapping) = false) ∧ (x.dest = .node m) ∧ (s.nodeTakes m q (.sceranRelease x.dest id) = true)) (0)) (false)) (⟨.node 7, .faa 0 1, 0, 0⟩)) (5)) (0x0A000001)) ({ sceranReady with net := { sceranReady.net with sent := [(5, ⟨.node 7, .faa 0 1, 0, 0⟩)] } })) (7)),
    decide ((fun (s : State) => (fun (addr : Nat) => (fun (node : Nat) => (fun (id : Nat) => (fun (epoch : Word) => (fun (e : ScIndex) => (fun (i : Nat) => (fun (ipv6 : Bool) => s.Inv = true ∧ (s.full = true) ∧ (s.nodeKnown ipv6 addr = true) ∧ ((s.sceranFind (sceranKey node epoch id)).1 = some i) ∧ (Tab.find? s.net.index i = some e) ∧ (s.accessCode 0 (s.sceranAddr e.number) 64 = none) ∧ (s.noneWaits = true)) (false)) (crc64 (sceranKey 7 9 5) % 2 ^ 18)) (⟨crc64 (sceranKey 7 9 5), 0, 1⟩)) (9)) (5)) (7)) (0x0A000001)) ({ sceranReady with net := { sceranReady.net with index := [(crc64 (sceranKey 7 9 5) % 2 ^ 18, ⟨crc64 (sceranKey 7 9 5), 0, 1⟩)] }, mem := [(0x10000, 7), (0x10004, 9), (0x1000C, 5), (0x10014, 8)] })),
    decide ((fun (m : Nat) => (fun (s : State) => (fun (id : Nat) => (fun (x : ScSent) => (fun (q : Nat) => s.Inv = true ∧ (Tab.find? s.net.sent id = some x) ∧ (x.dest = .node m) ∧ (s.nodeTakes m q (.sceran x.dest id x.op) = true)) (0)) (⟨.node 7, .faa 0 1, 0, 0⟩)) (5)) ({ sceranReady with net := { sceranReady.net with sent := [(5, ⟨.node 7, .faa 0 1, 0, 0⟩)] } })) (7)),
    decide ((fun (s : State) => (fun (id : Nat) => s.Inv = true ∧ ((Tab.find? s.net.sent id).isSome = true) ∧ ((s.train.commits.any fun e => e.2.swapping) = false)) (5)) ({ ready with net := { ready.net with sent := [(5, ⟨.partner, .faa 0 1, 0, 0⟩)] } })),
    decide ((fun (s : State) => (fun (n : Nat) => s.Inv = true ∧ ((s.net.index.any fun e => e.2.number == n) = true)) (3)) ({ sceranReady with net := { sceranReady.net with index := [(7, ⟨5, 3, 1⟩)] } }))] id = true := by decide +kernel

set_option maxRecDepth 20000 in
/-- For each clause, in order, a state and operands that meet its hypotheses. -/
theorem witness_CipherCommands : List.all [
    decide ((fun (s : State) => s.Inv = true ∧ (s.drbgOk = true)) (cipherReady)),
    decide ((fun (s : State) => s.Inv = true ∧ (s.drbgOk = true)) (cipherReady)),
    decide ((fun (s : State) => s.Inv = true ∧ (s.tablesRise = true)) (cipherReady)),
    decide ((fun (s : State) => (fun (pass : Bool) => s.Inv = true ∧ (s.cipher.rngFails < 3) ∧ (pass = true)) (true)) ({ cipherReady with cipher := { cipherReady.cipher with rngFails := 2 } })),
    decide ((fun (s : State) => s.Inv = true ∧ (3 ≤ s.cipher.rngFails)) ({ cipherReady with cipher := { cipherReady.cipher with rngFails := 3 } })),
    decide ((fun (s : State) => (fun (v : Word) => (fun (k : Nat) => s.Inv = true ∧ (s.keyRuns v 1 k = true) ∧ (s.keyCheck k s.keyData true = 0) ∧ (s.rngOk = true) ∧ (s.entryWritten k = true) ∧ (s.noneWaits = true)) (2047)) (word [(F.keyCmd_op, 1), (F.keyCmd_slot, 2047)])) ((w (w (roomy.setReg (R.keyData 0) 0x0706050403020100) R.keyAttr F.keyAttr_kind 1) R.keyAttr F.keyAttr_allow_enc 1))),
    decide ((fun (s : State) => (fun (v : Word) => (fun (k : Nat) => s.Inv = true ∧ (s.keyRuns v 1 k = true) ∧ ((s.slot k).state ≠ 0)) (66)) (word [(F.keyCmd_op, 1), (F.keyCmd_slot, 66)])) (cipherReady)),
    decide ((fun (s : State) => (fun (v : Word) => (fun (k : Nat) => s.Inv = true ∧ (s.keyRuns v 2 k = true) ∧ (s.keyCheck k [] false = 0) ∧ (s.rngOk = true) ∧ ((let kind := s.getF R.keyAttr F.keyAttr_kind; (s.drawBytes State.draw (keyBytes kind / 8)).2.entryWritten k) = true) ∧ (s.noneWaits = true)) (2047)) (word [(F.keyCmd_op, 2), (F.keyCmd_slot, 2047)])) (w roomy R.keyAttr F.keyAttr_kind 3)),
    decide ((fun (s : State) => (fun (v : Word) => (fun (k : Nat) => s.Inv = true ∧ (s.keyRuns v 2 k = true) ∧ ((s.slot k).state ≠ 0)) (66)) (word [(F.keyCmd_op, 2), (F.keyCmd_slot, 66)])) (cipherReady)),
    decide ((fun (s : State) => (fun (s : State) => (fun (s : State) => (fun (v : Word) => (fun (k : Nat) => (fun (u : Nat) => s.Inv = true ∧ (s.keyRuns v 3 k = true) ∧ (s.keyCheck k [] false = 0) ∧ (u = s.getF R.keyAttr F.keyAttr_wrap_slot) ∧ ((s.slot u).state ≠ 0) ∧ ((s.slot u).kind = 4) ∧ (s.unwrapCode u = 0) ∧ (s.rngOk = true) ∧ (s.entryWritten k = true) ∧ (s.noneWaits = true)) (69)) (2047)) (word [(F.keyCmd_op, 3), (F.keyCmd_slot, 2047)])) ({ s with cipher := { s.cipher with slots := [(69, keySlot 4 ((below 32).map (BitVec.ofNat 8)))] } })) (((s.setReg (R.keyData 0) 0xA25B0FCEF9C3E864).setReg (R.keyData 1) 0x2A8A81057977E963).setReg (R.keyData 2) 0xE78A6E7D1E19C893)) (w (w roomy R.keyAttr F.keyAttr_kind 1) R.keyAttr F.keyAttr_wrap_slot 69)),
    decide ((fun (s : State) => (fun (v : Word) => (fun (k : Nat) => s.Inv = true ∧ (s.keyRuns v 4 k = true) ∧ ((s.cipher.jobs.any fun e => jobNames e.2.raw k) = false) ∧ ((s.queuedJobs.any fun r => jobNames r k) = false) ∧ ((s.memWrite 0x0B 4 6 0 (s.slotAddr k) (zeros 128)).1 = none) ∧ (s.noneWaits = true)) (68)) (word [(F.keyCmd_op, 4), (F.keyCmd_slot, 68)])) (cipherReady)),
    decide ((fun (s : State) => (fun (v : Word) => (fun (k : Nat) => s.Inv = true ∧ (s.keyRuns v 4 k = true) ∧ ((s.cipher.jobs.any fun e => jobNames e.2.raw k) = true)) (66)) (word [(F.keyCmd_op, 4), (F.keyCmd_slot, 66)])) ({ cipherReady with cipher := { cipherReady.cipher with jobs := [(0, ⟨jobRaw3 1 [], none⟩)] } })),
    decide ((fun (s : State) => (fun (v : Word) => (fun (k : Nat) => (fun (x : KeySlot) => s.Inv = true ∧ (s.keyRuns v 5 k = true) ∧ (x = s.slot k) ∧ (x.kind < 16) ∧ (x.owner < 256) ∧ (x.state < 4) ∧ (x.salt < 2 ^ 32)) (keySlot 1 (zeros 16))) (66)) (word [(F.keyCmd_op, 5), (F.keyCmd_slot, 66)])) (cipherReady)),
    decide ((fun (s : State) => (fun (pipe : Nat) => (fun (k : Nat) => s.Inv = true ∧ (k < 2 ^ 16) ∧ (Tab.find? s.cipher.wanted (pipe * 2 ^ 16 + k) = some ())) (65535)) (3)) ({ cipherReady with cipher := { cipherReady.cipher with wanted := [(262143, ())] } })),
    decide ((fun (s : State) => (fun (b : Bell) => (fun (q : Nat) => (fun (i : Nat) => s.Inv = true ∧ (s.bell 7 b = .hit q i) ∧ (s.getF (R.cqCfg q) F.cqCfg_enable = 1) ∧ (s.sliceState (s.cqOwner q) = 1) ∧ (i < ringSlots (s.getF (R.cqRing q) F.cqRing_size))) (63)) (1023)) (.reg 1023 63)) (cipherReady)),
    decide ((fun (s : State) => (fun (q : Nat) => s.Inv = true ∧ (q < 1024) ∧ (s.getF (R.cqCfg q) F.cqCfg_enable = 0)) (7)) (cipherReady)),
    decide ((fun (s : State) => (fun (fn : Nat) => (fun (p : Nat) => (fun (off : Nat) => (fun (len : Nat) => (fun (v : Nat) => (fun (q : Nat) => (fun (i : Nat) => (fun (n : Nat) => s.Inv = true ∧ (s.bell 7 (.page fn p off len v) = .hit q i) ∧ (s.getF (R.cqCfg q) F.cqCfg_enable = 0) ∧ (n = s.cqOwner q)) (9)) (3)) (5)) (3)) (4)) (0)) (16383)) (1)) ((w (withSlice9 hosted) (R.cqCfg 5) F.cqCfg_owner 9).setReg (R.doorbellEntry 1 16383) (word [(F.doorbellEntry_valid, 1), (F.doorbellEntry_kind, 7), (F.doorbellEntry_slice, 9), (F.doorbellEntry_queue, 5)]))),
    decide ((fun (s : State) => (fun (q : Nat) => (fun (raw : List Byte) => (fun (src : List Byte) => (fun (aux : List Byte) => (fun (nonce : List Byte) => (fun (io : JobIo) => s.Inv = true ∧ (s.cipherRuns q 1 io raw false [src, aux, nonce, []] = true) ∧ (src ≠ [])) (ioOf raw src aux nonce [])) (zeros 12)) ([1, 2])) (zeros 17)) (jobRaw3 1 [(8, 4, 17), (40, 4, 2)])) (1023)) (cipherReady)),
    decide ((fun (s : State) => (fun (q : Nat) => (fun (raw : List Byte) => (fun (src : List Byte) => (fun (io : JobIo) => (fun (aux : List Byte) => s.Inv = true ∧ (s.cipherRuns q 1 io raw true [src, aux, [], []] = true) ∧ (src ≠ [])) ([])) (ioOf raw src [] [] [])) (zeros 17)) (jobRaw3 1 [(1, 1, 1), (8, 4, 17)])) (1023)) (cipherReady)),
    decide ((fun (s : State) => (fun (q : Nat) => (fun (raw : List Byte) => (fun (io : JobIo) => s.Inv = true ∧ (s.cipherComes q 1 io raw = true) ∧ ((s.jobCheck (s.cqOwner q) raw).1 = 0) ∧ (natBit (fieldLE raw 1 1) 0 = true) ∧ ((s.slot (fieldLE raw 12 2)).counter = (s.slot (fieldLE raw 12 2)).limit)) (ioOf raw [] [] [] [])) (jobRaw3 1 [(1, 1, 1), (8, 4, 17)])) (1023)) ({ cipherReady with cipher := { cipherReady.cipher with slots := [(66, { keySlot 1 (zeros 16) with counter := 0x100 })] } })),
    decide ((fun (s : State) => (fun (q : Nat) => (fun (raw : List Byte) => (fun (io : JobIo) => s.Inv = true ∧ (s.cipherComes q 1 io raw = true) ∧ ((s.jobCheck (s.cqOwner q) raw).1 = 0) ∧ (natBit (fieldLE raw 1 1) 0 = false) ∧ (s.cachedKey (q % 4) (fieldLE raw 12 2) = none)) (ioOf raw [] [] [] [])) (jobRaw3 1 [(8, 4, 17)])) (1023)) ({ cipherReady with cipher := { cipherReady.cipher with cache := [] } })),
    decide ((fun (s : State) => (fun (q : Nat) => (fun (raw : List Byte) => (fun (src : List Byte) => (fun (nonce : List Byte) => (fun (tag : List Byte) => (fun (io : JobIo) => (fun (aux : List Byte) => s.Inv = true ∧ (s.cipherRuns q 2 io raw false [src, aux, nonce, tag] = true) ∧ (src ≠ [])) ([])) (ioOf raw src [] nonce tag)) ([0xAB, 0x6E, 0x47, 0xD4, 0x2C, 0xEC, 0x13, 0xBD, 0xF5, 0x3A, 0x67, 0xB2, 0x12, 0x57, 0xBD, 0xDF])) (zeros 12)) ([0x03, 0x88, 0xDA, 0xCE, 0x60, 0xB6, 0xA3, 0x92, 0xF3, 0x28, 0xC2, 0xB9, 0x71, 0xB2, 0xFE, 0x78])) (jobRaw3 2 [(8, 4, 16)])) (1023)) (cipherReady)),
    decide ((fun (s : State) => (fun (q : Nat) => (fun (raw : List Byte) => (fun (src : List Byte) => (fun (nonce : List Byte) => (fun (io : JobIo) => s.Inv = true ∧ (s.cipherRuns q 3 io raw false [src, [], nonce, []] = true)) (ioOf raw src [] nonce [])) (bytesBE 16 (2 ^ 128 - 1))) (zeros 17)) (jobRaw3 3 [(8, 4, 17)])) (1023)) (cipherReady)),
    decide ((fun (s : State) => (fun (q : Nat) => (fun (raw : List Byte) => (fun (n : Nat) => (fun (src : List Byte) => (fun (io : JobIo) => s.Inv = true ∧ (s.cipherRuns q 4 io raw false [src, [], [], []] = true) ∧ (src ≠ []) ∧ (n = fieldLE raw 40 4)) (ioOf raw src [] [] [])) (zeros 34)) (17)) (jobRaw3 4 [(8, 4, 34), (14, 2, 67), (32, 8, 9), (40, 4, 17)])) (1023)) (cipherReady)),
    decide ((fun (s : State) => (fun (q : Nat) => (fun (raw : List Byte) => (fun (n : Nat) => (fun (src : List Byte) => (fun (io : JobIo) => s.Inv = true ∧ (s.cipherRuns q 5 io raw false [src, [], [], []] = true) ∧ (src ≠ []) ∧ (n = fieldLE raw 40 4)) (ioOf raw src [] [] [])) (zeros 34)) (17)) (jobRaw3 5 [(8, 4, 34), (14, 2, 67), (32, 8, 9), (40, 4, 17)])) (1023)) (cipherReady)),
    decide ((fun (s : State) => (fun (q : Nat) => (fun (raw : List Byte) => (fun (src : List Byte) => (fun (io : JobIo) => s.Inv = true ∧ (s.cipherRuns q 8 io raw false [src, [], [], []] = true)) (ioOf raw src [] [] [])) ([0x61, 0x62, 0x63])) (jobRaw3 8 [(8, 4, 3)])) (1023)) (cipherReady)),
    decide ((fun (s : State) => (fun (q : Nat) => (fun (raw : List Byte) => (fun (io : JobIo) => (fun (src : List Byte) => s.Inv = true ∧ (s.cipherRuns q 9 io raw false [src, [], [], []] = true)) ([])) (ioOf raw [] [] [] [])) (jobRaw3 9 [])) (1023)) (cipherReady)),
    decide ((fun (s : State) => (fun (q : Nat) => (fun (raw : List Byte) => (fun (src : List Byte) => (fun (io : JobIo) => s.Inv = true ∧ (s.cipherRuns q 0x0C io raw false [src, [], [], []] = true)) (ioOf raw src [] [] [])) (zeros 48)) (jobRaw3 12 [(8, 4, 48), (12, 2, 68)])) (1023)) (cipherReady)),
    decide ((fun (s : State) => (fun (q : Nat) => (fun (raw : List Byte) => (fun (src : List Byte) => (fun (aux : List Byte) => (fun (tag : List Byte) => (fun (p : Nat × Nat) => (fun (io : JobIo) => s.Inv = true ∧ (s.cipherRuns q 0x0D io raw false [src, aux, [], tag] = true) ∧ (ptOfBytes aux = some p)) (ioOf raw src aux [] tag)) (bpG)) (zeros 96)) (ptBytes (some bpG))) (zeros 48)) (jobRaw3 13 [(8, 4, 48), (12, 2, 0)])) (1023)) (cipherReady)),
    decide ((fun (s : State) => (fun (q : Nat) => (fun (raw : List Byte) => (fun (src : List Byte) => (fun (aux : List Byte) => (fun (tag : List Byte) => (fun (io : JobIo) => s.Inv = true ∧ (s.cipherRuns q 0x0D io raw false [src, aux, [], tag] = true) ∧ (ptOfBytes aux = none)) (ioOf raw src aux [] tag)) (zeros 96)) (zeros 97)) (zeros 48)) (jobRaw3 13 [(8, 4, 48), (12, 2, 0)])) (1023)) (cipherReady)),
    decide ((fun (s : State) => (fun (q : Nat) => (fun (raw : List Byte) => (fun (io : JobIo) => s.Inv = true ∧ (s.cipherRuns q 0x0E io raw false [[], [], [], []] = true)) (ioOf raw [] [] [] [])) (jobRaw3 14 [(12, 2, 68)])) (1023)) (cipherReady))] id = true := by decide +kernel

set_option maxRecDepth 20000 in
/-- For each clause, in order, a state and operands that meet its hypotheses. -/
theorem witness_PowerEventCommands : List.all [
    decide ((fun (s : State) => s.Inv = true ∧ (s.emergIs 4 false = true)) (ready)),
    decide ((fun (s : State) => s.Inv = true ∧ (s.emergIs 4 true = true)) (w (w ready R.emergStatus F.emergStatus_input_low 1) R.emergStatus F.emergStatus_active 1)),
    decide ((fun (s : State) => s.Inv = true ∧ (s.power.off = false) ∧ ((s.epOf 0).msixEnable = true) ∧ (s.hostPath 0 = true) ∧ (s.vectorMasked 0 0 = false) ∧ ((s.epOf 0).funcMask = false)) ({ ready.setReg (R.msixTable 0 1) 0 with ep := [(0, { epUp with msixEnable := true })] })),
    decide ((fun (s : State) => s.Inv = true ∧ (s.power.off = false)) (ready)),
    decide ((fun (s : State) => s.Inv = true ∧ (s.emergIs 3 false = true)) (ready)),
    decide ((fun (s : State) => s.Inv = true ∧ (s.emergIs 3 true = true)) (w (w ready R.emergStatus F.emergStatus_overpower 1) R.emergStatus F.emergStatus_active 1)),
    decide ((fun (s : State) => s.Inv = true ∧ (s.power.off = false)) (ready)),
    decide ((fun (s : State) => s.Inv = true ∧ (s.power.off = false)) (ready)),
    decide ((fun (s : State) => s.Inv = true ∧ (s.power.off = false)) (ready)),
    decide ((fun (r : PlinkReq) => (fun (s : State) => s.Inv = true ∧ (s.power.off = false) ∧ (s.power.request = some r) ∧ (r.op = 1)) ({ w ready R.pwrState F.pwrState_state 1 with power := { Power.reset with request := some r } })) (⟨1, false⟩)),
    decide ((fun (r : PlinkReq) => (fun (s : State) => s.Inv = true ∧ (s.power.off = false) ∧ (s.power.request = some r) ∧ (r.op = 2)) ({ w ready R.pwrState F.pwrState_state 1 with power := { Power.reset with request := some r } })) (⟨2, true⟩)),
    decide ((fun (r : PlinkReq) => (fun (s : State) => s.Inv = true ∧ (s.power.off = false) ∧ (s.power.request = some r) ∧ (r.op = 1)) ({ w ready R.pwrState F.pwrState_state 1 with power := { Power.reset with request := some r, rails := [(5, 2)] } })) (⟨1, false⟩)),
    decide ((fun (r : PlinkReq) => (fun (s : State) => s.Inv = true ∧ (s.power.off = false) ∧ (s.power.request = some r) ∧ (r.resent = false)) ({ ready with power := { Power.reset with request := some r } })) (⟨2, false⟩)),
    decide ((fun (r : PlinkReq) => (fun (s : State) => s.Inv = true ∧ (s.emergIs 5 false = true) ∧ (s.power.request = some r) ∧ (r.resent = true) ∧ (r.op = 1)) ({ w ready R.pwrState F.pwrState_state 1 with power := { Power.reset with request := some r } })) (⟨1, true⟩)),
    decide ((fun (s : State) => s.Inv = true ∧ (s.emergIs 5 true = true)) (w (w ready R.emergStatus F.emergStatus_link_lost 1) R.emergStatus F.emergStatus_active 1)),
    decide ((fun (s : State) => s.Inv = true ∧ (s.power.off = false)) (ready)),
    decide ((fun (s : State) => (fun (pin : Nat) => (fun (vin : Nat) => (fun (iin : Nat) => s.Inv = true ∧ (s.power.off = false) ∧ (s.getF R.emergStatus F.emergStatus_link_lost = 0) ∧ (pin < 2 ^ 16) ∧ (vin < 2 ^ 16) ∧ (iin < 2 ^ 16)) (65535)) (50000)) (65535)) (ready)),
    decide ((fun (s : State) => s.Inv = true ∧ (s.power.off = false) ∧ (s.getF R.emergStatus F.emergStatus_link_lost = 1)) (w ready R.emergStatus F.emergStatus_link_lost 1)),
    decide ((fun (s : State) => (fun (p : Nat) => (fun (cap : Nat) => (fun (rate : Nat) => s.Inv = true ∧ (s.power.off = false) ∧ (Tab.find? s.boot.down 1 = none) ∧ (cap = max 500 (min 1000 (s.getF R.capCfg F.capCfg_cap_w))) ∧ (rate = s.getF R.capStatus F.capStatus_cap_rate) ∧ (cap < p) ∧ (1 < rate) ∧ (rate ≤ 64)) (64)) (800)) (960)) (w ready R.capCfg F.capCfg_cap_w 800)),
    decide ((fun (s : State) => (fun (p : Nat) => (fun (cap : Nat) => s.Inv = true ∧ (s.power.off = false) ∧ (Tab.find? s.boot.down 1 = none) ∧ (cap = max 500 (min 1000 (s.getF R.capCfg F.capCfg_cap_w))) ∧ (p ≤ cap) ∧ (cap ≤ p + 12)) (800)) (795)) (w (w ready R.capCfg F.capCfg_cap_w 800) R.capStatus F.capStatus_cap_rate 37)),
    decide ((fun (s : State) => (fun (p : Nat) => (fun (cap : Nat) => (fun (rate : Nat) => s.Inv = true ∧ (s.power.off = false) ∧ (Tab.find? s.boot.down 1 = none) ∧ (cap = max 500 (min 1000 (s.getF R.capCfg F.capCfg_cap_w))) ∧ (rate = s.getF R.capStatus F.capStatus_cap_rate) ∧ (rate ≤ 64) ∧ (p + 12 < cap) ∧ (s.power.quietCut = 0)) (37)) (500)) (487)) ({ w (w ready R.capCfg F.capCfg_cap_w 300) R.capStatus F.capStatus_cap_rate 37 with bench := { ready.bench with rates := [(575, ⟨37, false, false⟩)] } })),
    decide ((fun (s : State) => (fun (p : Nat) => (fun (cap : Nat) => s.Inv = true ∧ (s.power.off = false) ∧ (Tab.find? s.boot.down 1 = none) ∧ (cap = max 500 (min 1000 (s.getF R.capCfg F.capCfg_cap_w))) ∧ (s.getF R.capStatus F.capStatus_cap_rate = 1) ∧ (cap < p) ∧ (s.power.capOver = 9)) (1000)) (1001)) ({ w ready R.capStatus F.capStatus_cap_rate 1 with power := { Power.reset with capOver := 9 } })),
    decide ((fun (s : State) => (fun (v : Word) => (fun (ph : Nat) => (fun (st : Nat) => s.Inv = true ∧ (s.serving = true) ∧ (s.power.off = false) ∧ (ph = getBits v F.phaseCtrl_phase) ∧ (ph ≤ 4) ∧ (st < 12)) (11)) (4)) (word [(F.phaseCtrl_phase, 4), (F.phaseCtrl_stacks, 0x801)])) (ready)),
    decide ((fun (s : State) => (fun (v : Word) => (fun (st : Nat) => s.Inv = true ∧ (s.serving = true) ∧ (s.power.off = false) ∧ (4 < getBits v F.phaseCtrl_phase) ∧ (st < 12)) (11)) (word [(F.phaseCtrl_phase, 5), (F.phaseCtrl_stacks, 0xFFF)])) (ready)),
    decide ((fun (s : State) => (fun (st : Nat) => (fun (b : Nat) => s.Inv = true ∧ (s.power.off = false) ∧ (s.getF (R.opPoint (s.phaseOf st)) F.opPoint_gate_idle = 1) ∧ (s.benchBusy st b = false)) (6)) (11)) (w ready R.phaseStatus F.phaseStatus_phases (4 * 2 ^ 44))),
    decide ((fun (s : State) => (fun (dies : List Nat) => (fun (dram : List Nat) => s.Inv = true ∧ (s.emergIs 1 false = true) ∧ ((dies.any fun x => decide (x ≥ 105)) = true) ∧ (dies.all (fun x => decide (x < 256)) = true) ∧ (dram.all (fun x => decide (x < 95)) = true) ∧ (s.power.therm ≤ 64) ∧ (8 ≤ s.power.therm)) ([94])) ([40, 105])) (ready)),
    decide ((fun (s : State) => (fun (dies : List Nat) => s.Inv = true ∧ (s.power.off = false) ∧ (dies.all (fun x => decide (x < 103)) = true) ∧ (usTicks 1000 ≤ s.since s.power.thermRaise)) ([102])) ({ ready with clock := { ready.clock with ticks := 0x186A00 }, power := { Power.reset with therm := 40 } })),
    decide ((fun (s : State) => (fun (dies : List Nat) => s.Inv = true ∧ (s.power.off = false) ∧ (dies.all (fun x => decide (x < 105)) = true) ∧ (s.since s.power.thermRaise < usTicks 1000)) ([102])) ({ ready with power := { Power.reset with therm := 40 } })),
    decide ((fun (s : State) => (fun (st : Nat) => s.Inv = true ∧ (st < 12) ∧ (s.emergIs (36 + st) false = true)) (11)) (ready)),
    decide ((fun (s : State) => (fun (st : Nat) => s.Inv = true ∧ (st < 12) ∧ (s.emergIs (36 + st) true = true)) (11)) (w (w ready R.emergStatus F.emergStatus_droop_stacks 0x800) R.emergStatus F.emergStatus_droop 1))] id = true := by decide +kernel

set_option maxRecDepth 20000 in
/-- For each clause, in order, a state and operands that meet its hypotheses. -/
theorem witness_DeviceStateCommands : List.all [
    decide ((fun (s : State) => (fun (v : Word) => s.Inv = true ∧ (s.pwrTakes v 1 = true) ∧ (s.pwr = 1)) (1)) (w ready R.pwrState F.pwrState_state 1)),
    decide ((fun (s : State) => (fun (v : Word) => s.Inv = true ∧ (s.pwrTakes v 1 = true) ∧ (s.pwr ≠ 1)) (1)) (ready)),
    decide ((fun (s : State) => (fun (v : Word) => s.Inv = true ∧ (s.pwrTakes v 2 = true) ∧ (s.pwr = 0)) (2)) (ready)),
    decide ((fun (s : State) => (fun (v : Word) => s.Inv = true ∧ (s.pwrTakes v 2 = true) ∧ (s.pwr ≠ 0)) (2)) (w ready R.pwrState F.pwrState_state 1)),
    decide ((fun (s : State) => (fun (v : Word) => s.Inv = true ∧ (s.power.off = false) ∧ (s.serving = true) ∧ (getBits v F.pwrStateCmd_op = 2) ∧ (s.getF R.pwrState F.pwrState_busy = 1)) (2)) (w ready R.pwrState F.pwrState_busy 1)),
    decide ((fun (s : State) => s.Inv = true ∧ (s.power.off = false) ∧ (s.power.stopping = true) ∧ (s.benchesIdle = true)) ({ w ready R.pwrState F.pwrState_busy 1 with power := { Power.reset with stopping := true } })),
    decide ((fun (s : State) => s.Inv = true ∧ (s.power.off = false) ∧ (s.power.stopping = true) ∧ (s.benchesIdle = false)) ({ inFlight sumRaw .running with power := { Power.reset with stopping := true } })),
    decide ((fun (s : State) => s.Inv = true ∧ (s.power.off = false) ∧ (s.power.stopping = true)) ({ w ready R.pwrState F.pwrState_busy 1 with power := { Power.reset with stopping := true } })),
    decide ((fun (s : State) => s.Inv = true ∧ (s.power.off = false) ∧ (s.pwr = 1) ∧ (s.getF R.pwrCfg F.pwrCfg_auto_a0 = 1) ∧ (s.benchReady = true) ∧ (s.getF R.pwrState F.pwrState_busy = 0)) (w (inFlight sumRaw .waiting) R.pwrState F.pwrState_state 1)),
    decide ((fun (s : State) => (fun (v : Word) => s.Inv = true ∧ (s.pwrTakes v 3 = true) ∧ (s.pwr ≤ 1) ∧ (s.sleepOk false = true) ∧ (s.activationOpen = false)) (3)) (running)),
    decide ((fun (s : State) => (fun (v : Word) => s.Inv = true ∧ (s.pwrTakes v 3 = true) ∧ (s.sleepOk false = false)) (3)) (withSlice9 ready)),
    decide ((fun (s : State) => (fun (v : Word) => s.Inv = true ∧ (s.pwrTakes v 4 = true) ∧ (s.pwr ≤ 1) ∧ (s.sleepOk true = true) ∧ (s.activationOpen = false)) (4)) (running)),
    decide ((fun (s : State) => (fun (v : Word) => s.Inv = true ∧ (s.pwrTakes v 4 = true) ∧ (s.sleepOk true = false)) (4)) (served)),
    decide ((fun (s : State) => (fun (v : Word) => s.Inv = true ∧ (s.pwrTakes v 5 = true)) (5)) (armed 3)),
    decide ((fun (s : State) => s.Inv = true ∧ (s.power.off = false) ∧ (s.getF R.pwrState F.pwrState_armed = 2) ∧ (s.pwr ≤ 1) ∧ (s.getF R.pwrState F.pwrState_busy = 0) ∧ (s.getF (R.epStatus 0) F.epStatus_d_state = 3) ∧ (s.getF (R.epStatus 1) F.epStatus_d_state = 3) ∧ (s.sleepOk false = true) ∧ (s.pipesEmpty = true) ∧ (s.net.conns = [])) (w (w (armed 2) (R.epStatus 0) F.epStatus_d_state 3) (R.epStatus 1) F.epStatus_d_state 3)),
    decide ((fun (s : State) => s.Inv = true ∧ (s.power.off = false) ∧ (s.getF R.pwrState F.pwrState_armed = 2) ∧ (s.pwr ≤ 1) ∧ (s.getF R.pwrState F.pwrState_busy = 0) ∧ (s.getF (R.epStatus 0) F.epStatus_d_state = 3) ∧ (s.getF (R.epStatus 1) F.epStatus_d_state = 3) ∧ (s.sleepOk false = false)) (withSlice9 (w (w (armed 2) (R.epStatus 0) F.epStatus_d_state 3) (R.epStatus 1) F.epStatus_d_state 3))),
    decide ((fun (s : State) => s.Inv = true ∧ (s.emergIs 5 false = true) ∧ (s.getF R.pwrState F.pwrState_armed = 2) ∧ (s.pwr ≤ 1) ∧ (s.getF R.pwrState F.pwrState_busy = 0) ∧ (s.getF (R.epStatus 0) F.epStatus_d_state = 3) ∧ (s.getF (R.epStatus 1) F.epStatus_d_state = 3) ∧ (s.sleepOk false = true)) (w (w (armed 2) (R.epStatus 0) F.epStatus_d_state 3) (R.epStatus 1) F.epStatus_d_state 3)),
    decide ((fun (s : State) => s.Inv = true ∧ (s.power.off = false) ∧ (s.getF R.pwrState F.pwrState_armed = 3) ∧ (s.pwr ≤ 1) ∧ (s.getF R.pwrState F.pwrState_busy = 0) ∧ (((s.epOf 0).linkPm = 4 ∧ (s.epOf 1).linkPm = 4) ∨ ((s.epOf 0).perst = true ∧ (s.epOf 1).perst = true)) ∧ (s.sleepOk true = true) ∧ (s.pipesEmpty = true) ∧ (s.net.conns = []) ∧ (((s.listed (R.nsMap 0) 0x20 4096).any fun n => s.mirrored n) = false)) ({ armed 3 with ep := [(0, { Ep.reset with linkPm := 4 }), (1, { Ep.reset with linkPm := 4 })] })),
    decide ((fun (s : State) => s.Inv = true ∧ (s.power.off = false) ∧ (s.getF R.pwrState F.pwrState_armed = 3) ∧ (s.pwr ≤ 1) ∧ (s.getF R.pwrState F.pwrState_busy = 0) ∧ ((s.epOf 0).perst = true) ∧ ((s.epOf 1).perst = true) ∧ (s.sleepOk true = false)) ({ armed 3 with train := training.train, ep := [(0, { Ep.reset with perst := true }), (1, { Ep.reset with perst := true })] })),
    decide ((fun (s : State) => (fun (source : Nat) => s.Inv = true ∧ (s.power.off = false) ∧ (s.pwr = 2) ∧ ((source = 1) ∨ (3 ≤ source ∧ source ≤ 6 ∧ s.wakeEnabled (source - 3) = true ∧ (source = 6 → s.reg R.wakeTimer ≤ s.now)))) (6)) (w (w (asleep 2) (R.wakeCfg 1) (3, 3) 1) R.padStatus F.padStatus_held 7)),
    decide ((fun (s : State) => (fun (source : Nat) => (fun (v : AonSave) => (fun (e : Nat × Word) => s.Inv = true ∧ (s.power.off = false) ∧ (s.tablesRise = true) ∧ (s.pwr = 3) ∧ ((source = 2) ∨ (3 ≤ source ∧ source ≤ 6 ∧ s.wakeEnabled (source - 3) = true ∧ (source = 6 → s.reg R.wakeTimer ≤ s.now))) ∧ (s.power.saved = some v) ∧ (v.deep = true) ∧ (Tab.rising v.regs = true) ∧ (v.regs.contains e = true) ∧ (([R.pwrState, R.padStatus, R.wakeStatus 0, R.wakeStatus 1, R.dbStatus, R.dbSeq, R.dbOverwrite, R.storCfg, R.spillCfg] ++ (below 16).map R.dpStatus).contains e.1 = false)) ((R.capCfg, 800))) (⟨true, [(R.capCfg, 800)], [(0, ⟨0, 2 ^ 20, 0, 0, false, 1, false⟩)], [], []⟩)) (2)) (asleep 3)),
    decide ((fun (s : State) => (fun (source : Nat) => s.Inv = true ∧ (s.power.off = false) ∧ (s.pwr = 3) ∧ (3 ≤ source) ∧ (source ≤ 6) ∧ (s.wakeEnabled (source - 3) = false)) (3)) (asleep 3)),
    decide ((fun (s : State) => s.Inv = true ∧ (s.power.off = false)) (w ready R.padStatus F.padStatus_held 7)),
    decide ((fun (s : State) => s.Inv = true ∧ (s.power.off = false)) (w ready R.padStatus F.padStatus_held 7))] id = true := by decide +kernel

set_option maxRecDepth 20000 in
/-- For each clause, in order, a state and operands that meet its hypotheses. -/
theorem witness_BootCommands : List.all [
    decide ((fun (s : State) => (fun (seen : BootSeen) => s.Inv = true ∧ (s.booting = true) ∧ (seen.identityOk = false)) (⟨4, 0x8000000, true, false, true, true⟩)) (romReady)),
    decide ((fun (s : State) => (fun (seen : BootSeen) => s.Inv = true ∧ (s.booting = true) ∧ (seen.identityOk = true) ∧ (seen.counters < 4)) (⟨3, 0x8000000, true, true, true, true⟩)) (romReady)),
    decide ((fun (s : State) => (fun (seen : BootSeen) => s.Inv = true ∧ (s.booting = true) ∧ (seen.identityOk = true) ∧ (4 ≤ seen.counters) ∧ (seen.rpmcOk = false)) (⟨4, 0x8000000, false, true, true, true⟩)) (romReady)),
    decide ((fun (s : State) => (fun (seen : BootSeen) => (fun (k : Nat) => s.Inv = true ∧ (s.booting = true) ∧ (seen.identityOk = true) ∧ (4 ≤ seen.counters) ∧ (seen.rpmcOk = true) ∧ (k = s.boot.flash.header.fwTrial.getD s.boot.flash.header.fwActive) ∧ (k < 2)) (0)) (⟨4, 0x8000000, true, true, true, true⟩)) (romReady)),
    decide ((fun (s : State) => (fun (k : Nat) => s.Inv = true ∧ (s.stage = 1) ∧ (k = s.boot.flash.header.imgTrial.getD s.boot.flash.header.imgActive) ∧ (k < 2)) (0)) (atStage 1)),
    decide ((fun (s : State) => s.Inv = true ∧ (s.stage = 2)) (withBoot (atStage 2) { Boot.reset with fwTrying := true, fwSlot := 1, flash := { Flash.blank with header := ⟨0, 0, some 1, some 1⟩ } })),
    decide ((fun (s : State) => s.Inv = true ∧ (s.stage = 3) ∧ (s.boot.trained = true)) (withBoot (atStage 3) { Boot.reset with trained := true })),
    decide ((fun (s : State) => s.Inv = true ∧ (s.stage = 3) ∧ (s.boot.trained = true)) (withBoot (atStage 3) { Boot.reset with trained := true })),
    decide ((fun (s : State) => s.Inv = true ∧ (s.stage = 3) ∧ (s.boot.trained = false)) (atStage 3)),
    decide ((fun (s : State) => (fun (full : Bool) => s.Inv = true ∧ (s.pins.pwrGood = true) ∧ (s.stage < 3 ∨ (full = true ∧ s.stage = 3))) (true)) ({ atStage 3 with pins := romReady.pins })),
    decide ((fun (s : State) => (fun (v : Word) => s.Inv = true ∧ (s.stage ≠ 0) ∧ ((Tab.get Bucket.full s.daybook.buckets 1).tokens ≠ 0) ∧ (getBits v F.resetCtrl_warm = 0xA55A)) (word [(F.resetCtrl_warm, 0xA55A)])) ({ w (fwReady 0) R.offCause F.offCause_cause 3 with mem := [(5, 1)] })),
    decide ((fun (s : State) => (fun (v : Word) => s.Inv = true ∧ (getBits v F.resetCtrl_warm ≠ 0xA55A)) (word [(F.resetCtrl_warm, 0xA55B)])) (ready)),
    decide ((fun (s : State) => (fun (n : Nat) => s.Inv = true ∧ (10 ≤ n) ∧ (s.power.off = false) ∧ (s.pins.pwrGood = true) ∧ (s.pins.devResetN = true)) (10)) ({ w (fwReady 0) R.offCause F.offCause_cause 3 with mem := [(5, 1)], pins := romReady.pins })),
    decide ((fun (s : State) => (fun (n : Nat) => s.Inv = true ∧ (n < 10)) (9)) ({ ready with pins := romReady.pins })),
    decide ((fun (s : State) => s.Inv = true ∧ (s.power.off = false) ∧ (s.pins.pwrGood = true) ∧ (3 ≤ s.stage) ∧ (s.stage < 8) ∧ (Tab.find? s.boot.down 0 = none)) ({ ready with pins := romReady.pins })),
    decide ((fun (s : State) => s.Inv = true ∧ (s.power.off = false) ∧ (s.pins.pwrGood = true) ∧ (s.stage < 3) ∧ (s.boot.fwTrying = true) ∧ (Tab.find? s.boot.down 0 = none)) ({ withBoot (atStage 2) { Boot.reset with fwTrying := true, flash := { Flash.blank with header := ⟨0, 0, some 1, none⟩ } } with pins := romReady.pins })),
    decide ((fun (s : State) => (fun (core : Nat) => s.Inv = true ∧ (core = 1 ∨ core = 2) ∧ (s.power.off = false) ∧ (s.pins.pwrGood = true) ∧ (s.stage ≠ 9) ∧ (Tab.find? s.boot.down core = none) ∧ (Tab.find? s.boot.expiries core = none)) (2)) ({ ready with pins := romReady.pins })),
    decide ((fun (s : State) => (fun (core : Nat) => (fun (tm : Word) => s.Inv = true ∧ (1 ≤ core) ∧ (core ≤ 10) ∧ (s.power.off = false) ∧ (s.pins.pwrGood = true) ∧ (s.stage ≠ 9) ∧ (Tab.find? s.boot.down core = none) ∧ (Tab.find? s.boot.expiries core = some tm) ∧ (s.since tm < usTicks 1000000)) (0)) (10)) (withBoot { ready with pins := romReady.pins } { Boot.reset with expiries := [(10, 0)] })),
    decide ((fun (s : State) => (fun (core : Nat) => (fun (st : Nat) => s.Inv = true ∧ (core = st + 11) ∧ (st < 12) ∧ (s.power.off = false) ∧ (s.pins.pwrGood = true) ∧ (s.stage ≠ 9) ∧ (s.linkFenced st = false) ∧ (Tab.find? s.boot.down core = none) ∧ (Tab.find? s.boot.expiries core = none)) (11)) (22)) ({ ready with pins := romReady.pins })),
    decide ((fun (s : State) => (fun (core : Nat) => (fun (st : Nat) => (fun (tm : Word) => s.Inv = true ∧ (core = st + 11) ∧ (st < 12) ∧ (s.power.off = false) ∧ (s.pins.pwrGood = true) ∧ (s.stage ≠ 9) ∧ (s.linkFenced st = false) ∧ (Tab.find? s.boot.down core = none) ∧ (Tab.find? s.boot.expiries core = some tm) ∧ (s.since tm < usTicks 1000000) ∧ (s.bench.descs = []) ∧ (s.bench.launches = []) ∧ (s.serve.batches = []) ∧ (s.snap = none)) (0)) (11)) (22)) (withBoot { ready with pins := romReady.pins } { Boot.reset with expiries := [(22, 0)] })),
    decide ((fun (s : State) => (fun (core : Nat) => s.Inv = true ∧ ((Tab.find? s.boot.down core).isSome = true) ∧ (core < 23) ∧ (s.stage ≠ 9) ∧ (s.boot.act = none) ∧ (s.bench.breaks = [])) (2)) (withBoot { ready with bench := { ready.bench with stalled := [(12, ())] } } { Boot.reset with down := [(2, ())] }))] id = true := by decide +kernel

set_option maxRecDepth 20000 in
/-- For each clause, in order, a state and operands that meet its hypotheses. -/
theorem witness_FirmwareCommands : List.all [
    decide ((fun (s : State) => (fun (v : Word) => (fun (a : Nat) => (fun (n : Nat) => s.Inv = true ∧ (s.mboxTakes v 1 = true) ∧ (a = (s.reg R.mboxArg0).toNat) ∧ (n = (s.reg R.mboxArg1).toNat) ∧ (n ≤ 4096) ∧ (s.mboxArea a n = true) ∧ (Tab.rising s.boot.flash.bytes = true)) (9)) (0x2100000)) (mboxWord 1)) (withBoot (((running.setReg R.mboxArg0 0x2100000).setReg R.mboxArg1 9).setReg (R.mboxBuf 0) 0x0807060504030201) { Boot.reset with flash := { Flash.blank with bytes := [(0x2100001, 0), (0x2100009, 7)] } })),
    decide ((fun (s : State) => (fun (v : Word) => (fun (a : Nat) => (fun (n : Nat) => s.Inv = true ∧ (s.mboxTakes v 1 = true) ∧ (a = (s.reg R.mboxArg0).toNat) ∧ (n = (s.reg R.mboxArg1).toNat) ∧ (n ≤ 4096) ∧ (s.mboxArea a n = false)) (9)) (0x100000)) (mboxWord 1)) ((running.setReg R.mboxArg0 0x100000).setReg R.mboxArg1 9)),
    decide ((fun (s : State) => (fun (v : Word) => (fun (a : Nat) => s.Inv = true ∧ (s.mboxTakes v 2 = true) ∧ (a = (s.reg R.mboxArg0).toNat) ∧ (a % 65536 = 0) ∧ (s.mboxArea a 65536 = true) ∧ (Tab.rising s.boot.flash.bytes = true)) (0x5100000)) (mboxWord 2)) (withBoot (running.setReg R.mboxArg0 0x5100000) { Boot.reset with flash := { Flash.blank with bytes := [(0x50FFFFF, 3), (0x5100000, 0), (0x510FFFF, 7), (0x5110000, 8)] } })),
    decide ((fun (s : State) => (fun (v : Word) => (fun (a : Nat) => s.Inv = true ∧ (s.mboxTakes v 2 = true) ∧ (a = (s.reg R.mboxArg0).toNat) ∧ (a % 65536 = 0) ∧ (s.mboxArea a 65536 = false)) (0x30000)) (mboxWord 2)) (running.setReg R.mboxArg0 0x30000)),
    decide ((fun (s : State) => (fun (v : Word) => (fun (k : Nat) => s.Inv = true ∧ (s.mboxTakes v 3 = true) ∧ (k = (s.reg R.mboxArg0).toNat) ∧ (k < 2) ∧ (k ≠ s.boot.flash.header.fwActive)) (1)) (mboxWord 3)) (running.setReg R.mboxArg0 1)),
    decide ((fun (x : StagedFw) => (fun (s : State) => (fun (v : Word) => s.Inv = true ∧ (s.mboxTakes v 4 = true) ∧ (s.boot.staged = some x) ∧ (s.activating = false) ∧ (natBits x.hostIf 31 16 = s.getF R.hostIfRev F.hostIfRev_major) ∧ (s.getF R.emergStatus F.emergStatus_active = 0)) (mboxWord 4)) (w (fwReady 0x10000) R.hostIfRev F.hostIfRev_major 1)) (stagedFw 0x10000)),
    decide ((fun (x : StagedFw) => (fun (s : State) => (fun (v : Word) => s.Inv = true ∧ (s.mboxTakes v 4 = true) ∧ (s.boot.staged = some x) ∧ (s.activating = false) ∧ (natBits x.hostIf 31 16 = s.getF R.hostIfRev F.hostIfRev_major) ∧ (s.getF R.emergStatus F.emergStatus_active = 1)) (mboxWord 4)) (w (w (fwReady 0x10000) R.hostIfRev F.hostIfRev_major 1) R.emergStatus F.emergStatus_active 1)) (stagedFw 0x10000)),
    decide ((fun (x : StagedFw) => (fun (s : State) => (fun (v : Word) => s.Inv = true ∧ (s.mboxTakes v 4 = true) ∧ (s.boot.staged = some x) ∧ (s.activating = false) ∧ (natBits x.hostIf 31 16 ≠ s.getF R.hostIfRev F.hostIfRev_major)) (mboxWord 4)) (w (fwReady 0x20000) R.hostIfRev F.hostIfRev_major 1)) (stagedFw 0x20000)),
    decide ((fun (x : StagedFw) => (fun (s : State) => (fun (v : Word) => s.Inv = true ∧ (s.mboxTakes v 4 = true) ∧ (s.boot.staged = some x) ∧ (s.activating = true)) (mboxWord 4)) (w (fwReady 0x10000) R.fwVersion F.fwVersion_deferred 1)) (stagedFw 0x10000)),
    decide ((fun (s : State) => s.Inv = true ∧ (s.getF R.emergStatus F.emergStatus_active = 0) ∧ (usTicks 100000 ≤ s.since s.power.lastEmergency) ∧ (s.boot.act = none) ∧ (s.getF R.fwVersion F.fwVersion_deferred = 1)) ({ w (fwReady 0x10000) R.fwVersion F.fwVersion_deferred 1 with clock := { running.clock with ticks := 0x9896800 } })),
    decide ((fun (a : Activation) => (fun (s : State) => (fun (c : Nat) => (fun (l : List Nat) => s.Inv = true ∧ (s.getF R.emergStatus F.emergStatus_active = 0) ∧ (usTicks 100000 ≤ s.since s.power.lastEmergency) ∧ (s.boot.act = some a) ∧ (a.held = true) ∧ (a.queue = c :: l) ∧ (c ≠ 0)) ([0])) (2)) ({ switching a with clock := { running.clock with ticks := 0x9896800 } })) (⟨[2, 0], [10], true, true⟩)),
    decide ((fun (s : State) => s.Inv = true ∧ (s.getF R.emergStatus F.emergStatus_active = 1 ∨ s.since s.power.lastEmergency < usTicks 100000)) (w (w (fwReady 0x10000) R.fwVersion F.fwVersion_deferred 1) R.emergStatus F.emergStatus_active 1)),
    decide ((fun (a : Activation) => (fun (s : State) => (fun (core : Nat) => (fun (c : Nat) => (fun (l : List Nat) => s.Inv = true ∧ (s.boot.act = some a) ∧ (a.held = false) ∧ (a.queue = core :: c :: l) ∧ (core < 23) ∧ (s.bench.breaks = []) ∧ (s.getF R.emergStatus F.emergStatus_active = 0)) ([0])) (12)) (11)) (switching a)) (⟨[11, 12, 0], [], false, true⟩)),
    decide ((fun (a : Activation) => (fun (s : State) => (fun (core : Nat) => (fun (c : Nat) => (fun (l : List Nat) => s.Inv = true ∧ (s.boot.act = some a) ∧ (a.held = false) ∧ (a.queue = core :: c :: l) ∧ (core < 23) ∧ (s.bench.breaks = []) ∧ (s.getF R.emergStatus F.emergStatus_active = 1)) ([0])) (12)) (11)) (w (switching a) R.emergStatus F.emergStatus_active 1)) (⟨[11, 12, 0], [], false, true⟩)),
    decide ((fun (a : Activation) => (fun (s : State) => (fun (core : Nat) => (fun (x : StagedFw) => s.Inv = true ∧ (s.boot.act = some a) ∧ (a.held = false) ∧ (a.queue = [core]) ∧ (core < 23) ∧ (s.boot.staged = some x) ∧ (x.slot < 2) ∧ (a.waits = true)) (stagedFw 0x10000)) (0)) (switching a)) (⟨[0], [2], false, true⟩)),
    decide ((fun (a : Activation) => (fun (s : State) => (fun (c : Nat) => (fun (l : List Nat) => s.Inv = true ∧ (s.boot.act = some a) ∧ (a.held = false) ∧ (a.queue = c :: l) ∧ (a.waits = true) ∧ (s.bench.breaks = [])) ([0])) (2)) (switching a)) (⟨[2, 0], [10], false, true⟩)),
    decide ((fun (s : State) => (fun (v : Word) => s.Inv = true ∧ (s.mboxTakes v 5 = true) ∧ (s.boot.flash.counters.length = 4) ∧ (s.getF R.fwVersion F.fwVersion_power_pending = 0) ∧ (s.getF R.fwVersion F.fwVersion_deferred = 0) ∧ (s.getF R.fwVersion F.fwVersion_at_reset = 0)) (mboxWord 5)) (w running R.fwVersion F.fwVersion_security_version 7)),
    decide ((fun (s : State) => (fun (v : Word) => s.Inv = true ∧ (s.mboxTakes v 5 = true) ∧ (s.getF R.fwVersion F.fwVersion_power_pending = 1)) (mboxWord 5)) (w running R.fwVersion F.fwVersion_power_pending 1)),
    decide ((fun (s : State) => (fun (v : Word) => (fun (k : Nat) => s.Inv = true ∧ (s.mboxTakes v 6 = true) ∧ (k = (s.reg R.mboxArg0).toNat) ∧ (k < 2)) (1)) (mboxWord 6)) (running.setReg R.mboxArg0 1)),
    decide ((fun (s : State) => (fun (v : Word) => s.Inv = true ∧ (s.mboxTakes v 7 = true) ∧ (s.boot.flash.counters.length = 4) ∧ (s.image.isSome = true)) (mboxWord 7)) (withBoot imaged { Boot.reset with imgVersion := 3 })),
    decide ((fun (s : State) => (fun (v : Word) => s.Inv = true ∧ (s.mboxTakes v 8 = true) ∧ (s.boot.flash.counters.length = 4)) (mboxWord 8)) (running)),
    decide ((fun (s : State) => (fun (v : Word) => s.Inv = true ∧ (s.mboxTakes v 9 = true) ∧ (s.boot.flash.counters.length = 4)) (mboxWord 9)) (running)),
    decide ((fun (s : State) => (fun (tr : Nat) => s.Inv = true ∧ (3 ≤ s.stage) ∧ (s.power.off = false) ∧ (tr ≤ 3) ∧ (s.securityPaused = false)) (3)) (atStage 8)),
    decide ((fun (s : State) => (fun (k : Nat) => (fun (tr : Nat) => s.Inv = true ∧ (3 ≤ s.stage) ∧ (s.power.off = false) ∧ (tr ≤ 3) ∧ (s.securityPaused = false) ∧ (Tab.find? s.boot.spdm tr = some ()) ∧ (1 ≤ k) ∧ (k ≤ 7)) (0)) (7)) (withBoot (atStage 9) { Boot.reset with spdm := [(0, ())] })),
    decide ((fun (s : State) => (fun (tr : Nat) => s.Inv = true ∧ (3 ≤ s.stage) ∧ (s.power.off = false) ∧ (tr ≤ 3) ∧ (s.securityPaused = true)) (0)) (switching ⟨[0], [], false, true⟩)),
    decide ((fun (s : State) => s.Inv = true ∧ (s.stage < 3)) (atStage 2))] id = true := by decide +kernel

set_option maxRecDepth 20000 in
/-- For each clause, in order, a state and operands that meet its hypotheses. -/
theorem witness_PairCommands : List.all [
    decide ((fun (s : State) => (fun (lane : Nat) => s.Inv = true ∧ (lane < 8) ∧ (s.weltUp = true) ∧ (s.pair.badLanes = 0)) (7)) (paired 3 1)),
    decide ((fun (s : State) => (fun (lane : Nat) => s.Inv = true ∧ (lane < 4) ∧ (s.weltUp = true) ∧ (s.pair.badLanes = 16)) (3)) (pairedWith 3 1 { livePair with badLanes := 16 })),
    decide ((fun (s : State) => (fun (lanes : Nat) => s.Inv = true ∧ (s.pairState = 0 ∨ s.pair.badLanes = 0) ∧ (lanes = 255)) (255)) (pairedWith 0 0 { Pair.single with badLanes := 16 })),
    decide ((fun (s : State) => (fun (lanes : Nat) => s.Inv = true ∧ (1 ≤ s.pairState) ∧ (s.pairState ≤ 3) ∧ (s.pair.badLanes = 1) ∧ (lanes = 255)) (255)) (pairedWith 3 1 { livePair with badLanes := 1 })),
    decide ((fun (s : State) => (fun (p : Partner) => s.Inv = true ∧ (s.full = true) ∧ (s.getF R.pairCfg F.pairCfg_enable = 1) ∧ (s.weltUp = true) ∧ (s.pairState = 0) ∧ (p.verified = true) ∧ (p.layout = s.reg R.memLayout) ∧ (p.slices = (below 4).map (fun i => s.reg (R.pairSlices i))) ∧ (p.classes = s.getF R.pairCfg F.pairCfg_classes)) (twin)) (paired 0 0)),
    decide ((fun (s : State) => (fun (p : Partner) => s.Inv = true ∧ (s.full = true) ∧ (s.getF R.pairCfg F.pairCfg_enable = 1) ∧ (s.weltUp = true) ∧ (s.pairState = 0) ∧ (p.verified = false)) ({ twin with verified := false })) (paired 0 0)),
    decide ((fun (s : State) => (fun (p : Partner) => s.Inv = true ∧ (s.full = true) ∧ (s.getF R.pairCfg F.pairCfg_enable = 1) ∧ (s.weltUp = true) ∧ (s.pairState = 0) ∧ (p.verified = true) ∧ (p.classes ≠ s.getF R.pairCfg F.pairCfg_classes)) ({ twin with classes := 7 })) (paired 0 0)),
    decide ((fun (s : State) => s.Inv = true ∧ (s.pairState = 2)) (paired 2 1)),
    decide ((fun (s : State) => s.Inv = true ∧ (s.pairState = 2 ∨ s.pairState = 3) ∧ (s.pairActive = false)) (paired 3 0)),
    decide ((fun (s : State) => s.Inv = true ∧ (s.pairState = 2 ∨ s.pairState = 3) ∧ (s.pairActive = false) ∧ (Tab.rising s.net.conns = true)) (paired 3 0)),
    decide ((fun (s : State) => (fun (a : Nat) => (fun (v : Word) => (fun (s1 : State) => s.Inv = true ∧ (s.pairState = 3) ∧ (s.pairActive = false) ∧ (s.heldSlices = []) ∧ (s1.heldSlices = []) ∧ (goesTo (s.regWrite a 0xFFFFFFFFFFFFFFFF v) s1 = true) ∧ ([R.regionCmdGo, R.sliceCmdGo, R.objCmd].contains a = false)) (s.setReg R.wakeMac 5)) (5)) (R.wakeMac)) ((paired 3 0).setReg (R.pairSlices 0) 0)),
    decide ((fun (s : State) => s.Inv = true ∧ (s.pairActive = true)) (paired 3 1)),
    decide ((fun (s : State) => s.Inv = true ∧ (s.pair.verdicts = [])) (paired 3 1)),
    decide ((fun (x : RoceAnswer) => (fun (c : Conn) => (fun (s : State) => (fun (conn : Nat) => (fun (q : Nat) => (fun (tm : Word) => s.Inv = true ∧ (s.pair.held = [(tm, .answer conn q x)]) ∧ (s.conn? conn = some c) ∧ (s.takesFrame c q (.answer conn x) = true)) (0)) (8)) (9)) ({ pairedWith 3 1 { livePair with held := [(0, .answer 9 8 x)] } with net := (linked c).net, pkt := (linked c).pkt })) (connIn 2)) (.ack 5 3 false)),
    decide ((fun (s : State) => s.Inv = true ∧ (s.pair.held = [])) (paired 3 1)),
    decide ((fun (s : State) => (fun (p : Nat) => (fun (k : Nat) => (fun (l : List (Nat × Nat)) => s.Inv = true ∧ (s.pairState = 2 ∨ s.pairState = 3) ∧ (s.pairActive = true) ∧ (s.weltUp = true) ∧ (s.pair.bulkStopped = false) ∧ (s.pair.bulk = (p, k) :: l) ∧ (2 ≤ k)) ([(0x300, 1)])) (2)) (0x200)) (bulked 3 1)),
    decide ((fun (s : State) => (fun (p : Nat) => (fun (i : Nat) => (fun (r : Region) => (fun (l : List Byte) => s.Inv = true ∧ (s.pairState = 2 ∨ s.pairState = 3) ∧ (s.pairActive = false) ∧ (s.regionOf (p * 4096) = some (i, r)) ∧ (r.bulk = true) ∧ (l.length = 4096) ∧ ((s.memWrite 0x0C 0 6 r.owner (p * 4096) l).1 = none) ∧ (s.noneWaits = true)) (List.replicate 4096 7)) (⟨0x200000, 0x200000, 0, 0, true, 1, false⟩)) (2)) (0x200)) (bulked 3 0)),
    decide ((fun (s : State) => s.Inv = true ∧ (s.pairActive = true)) (bulked 3 1)),
    decide ((fun (s : State) => (fun (v : Word) => s.Inv = true ∧ (s.pairTakes v 1 = true) ∧ (s.pairState = 3) ∧ (s.pairActive = true) ∧ (s.pair.bulk = []) ∧ (s.pair.held = []) ∧ (s.heldSlices = [])) (1)) ((paired 3 1).setReg (R.pairSlices 0) 0)),
    decide ((fun (s : State) => (fun (v : Word) => s.Inv = true ∧ (s.pairTakes v 1 = true) ∧ (s.pairState = 3) ∧ (s.pairActive = true)) (1)) (bulked 3 1)),
    decide ((fun (s : State) => (fun (v : Word) => s.Inv = true ∧ (s.pairTakes v 1 = true) ∧ (s.pairState ≠ 3)) (1)) (paired 2 1)),
    decide ((fun (s : State) => s.Inv = true ∧ (s.pairState = 3) ∧ (s.pairActive = false) ∧ (s.net.conns = []) ∧ (s.serve.seqs = []) ∧ (s.getF R.pairAnnCtrl F.pairAnnCtrl_length = 0)) (paired 3 0)),
    decide ((fun (s : State) => s.Inv = true ∧ (s.full = true) ∧ (s.pairState ≠ 0) ∧ (s.weltUp = true)) (paired 3 1)),
    decide ((fun (s : State) => s.Inv = true ∧ (s.full = true) ∧ (s.pairState = 0)) (paired 0 0)),
    decide ((fun (s : State) => s.Inv = true ∧ (s.followsPair = false)) (w (pairedWith 3 1 { Pair.single with bulkStopped := true }) R.pairStatus F.pairStatus_fallback 1)),
    decide ((fun (s : State) => s.Inv = true ∧ (s.pairState = 3)) (pairedWith 3 1 Pair.single)),
    decide ((fun (s : State) => s.Inv = true ∧ (1 ≤ s.pairState) ∧ (s.pairState ≤ 3) ∧ (s.pair.probing = false) ∧ (s.pair.pinLive = true)) (paired 3 1)),
    decide ((fun (s : State) => s.Inv = true ∧ (1 ≤ s.pairState) ∧ (s.pairState ≤ 3) ∧ (s.pair.probing = false) ∧ (s.pair.weltLive = true)) (paired 3 1)),
    decide ((fun (s : State) => (fun (welt : Bool) => s.Inv = true ∧ (1 ≤ s.pairState) ∧ (s.pairState ≤ 3) ∧ (s.pair.probing = false) ∧ ((if welt then s.pair.pinLive else s.pair.weltLive) = false)) (true)) (pairedWith 3 0 { Pair.single with weltLive := true })),
    decide ((fun (s : State) => s.Inv = true ∧ (s.pair.probing = true)) (pairedWith 3 0 { Pair.single with probing := true })),
    decide ((fun (s : State) => s.Inv = true ∧ (s.pair.probing = true) ∧ (s.pairState = 3) ∧ (s.pairActive = false) ∧ (s.net.conns = []) ∧ (s.serve.seqs = []) ∧ (s.getF R.pairAnnCtrl F.pairAnnCtrl_length = 0)) (pairedWith 3 0 { Pair.single with probing := true })),
    decide ((fun (s : State) => s.Inv = true ∧ (s.pair.probing = true) ∧ (s.pairState ≠ 3 ∨ s.pairActive = true) ∧ (s.pair.held = [])) (pairedWith 2 0 { Pair.single with probing := true })),
    decide ((fun (s : State) => (fun (v : Word) => (fun (p : Partner) => s.Inv = true ∧ (s.pairTakes v 2 = true) ∧ (s.pairState = 4) ∧ (s.weltUp = true) ∧ (s.pairRefusal p = 0)) (twin)) (2)) (paired 4 1)),
    decide ((fun (s : State) => (fun (v : Word) => s.Inv = true ∧ (s.pairTakes v 2 = true) ∧ (s.pairState ≠ 4)) (2)) (paired 3 1)),
    decide ((fun (s : State) => (fun (v : Word) => s.Inv = true ∧ (s.pairTakes v 3 = true) ∧ (s.pairState ≠ 0) ∧ (s.pair.held = [])) (3)) (bulked 3 1)),
    decide ((fun (s : State) => s.Inv = true ∧ (s.pairState ≠ 0) ∧ (s.pair.held = [])) (bulked 3 0)),
    decide ((fun (s : State) => (fun (v : Word) => s.Inv = true ∧ (s.pairTakes v 3 = true) ∧ (s.pairState = 0)) (3)) (paired 0 0))] id = true := by decide +kernel

set_option maxRecDepth 20000 in
/-- For each clause, in order, a state and operands that meet its hypotheses. -/
theorem witness_TestDaybookAndPinCommands : List.all [
    decide ((fun (s : State) => (fun (st : Nat) => (fun (b : Nat) => (fun (a : Nat) => s.Inv = true ∧ (s.isstMay st b a = true)) (11 * 2 ^ 35)) (6)) (11)) ({ testable with bench := { ready.bench with scratch := [(83 * 2 ^ 22 + 60 * 65536, 7)] }, isst := ⟨[(11, 5)], []⟩ })),
    decide ((fun (s : State) => (fun (st : Nat) => s.Inv = true ∧ (s.isstHeld st = true)) (11)) (w testable R.emergStatus F.emergStatus_thermal 1)),
    decide ((fun (s : State) => (fun (st : Nat) => (fun (b : Nat) => (fun (a : Nat) => s.Inv = true ∧ (st < 12) ∧ (b < 7) ∧ (s.isstBench st = some b) ∧ (s.saveRegion st = some a) ∧ (s.isstSound st b = true)) (11 * 2 ^ 35)) (2)) (11)) ({ underTest with mem := [(11 * 2 ^ 35 + 5, 9)] })),
    decide ((fun (s : State) => (fun (st : Nat) => (fun (b : Nat) => (fun (f : IsstFault) => s.Inv = true ∧ (st < 12) ∧ (b < 7) ∧ (s.isstBench st = some b) ∧ (s.isstSound st b = true) ∧ (isstFaultFits f = true) ∧ (f = .logic → s.bench.descs = [] ∧ s.bench.launches = [] ∧ s.serve.batches = [])) (.engine 3)) (2)) (11)) (underTest)),
    decide ((fun (s : State) => (fun (st : Nat) => (fun (b : Nat) => s.Inv = true ∧ (st < 12) ∧ (b < 7) ∧ (s.isstBench st = some b)) (2)) (11)) (underTest)),
    decide ((fun (s : State) => (fun (st : Nat) => s.Inv = true ∧ (st < 12) ∧ (s.full = true)) (11)) (testable)),
    decide ((fun (s : State) => (fun (st : Nat) => (fun (b : Nat) => s.Inv = true ∧ (st < 12) ∧ (s.full = true) ∧ (s.isstNext st = some b) ∧ (s.isstBench st = none)) (6)) (11)) ({ testable with isst := ⟨[(11, 5)], []⟩ })),
    decide ((fun (s : State) => s.Inv = true ∧ (s.stage = 2 ∨ s.stage = 3)) (atStage 3)),
    decide ((fun (s : State) => (fun (g : Nat) => s.Inv = true ∧ (s.stage = 3) ∧ (g < 16) ∧ (natBit (s.reg (R.repairGroup g)).toNat ((groupLevel g).bitFor 3) = true)) (11)) (atStage 3)),
    decide ((fun (s : State) => (fun (cause : Nat) => s.Inv = true ∧ (s.stage ≠ 9) ∧ (s.power.off = false) ∧ (s.pins.pwrGood = true) ∧ (1 ≤ cause) ∧ (cause ≤ 6)) (6)) (poweredUp)),
    decide ((fun (s : State) => (fun (i : Nat) => s.Inv = true ∧ (1 ≤ i) ∧ (i ≤ 18) ∧ (Tab.rising s.daybook.buckets = true)) (18)) (ready)),
    decide ((fun (s : State) => (fun (v : Word) => s.Inv = true ∧ (s.serving = true) ∧ (getBits v F.tallySel_block ≠ 5 ∨ getBits v F.tallySel_item < 9)) (word [(F.tallySel_block, 5), (F.tallySel_item, 1)])) ({ ready with tally := [(tallyKey 5 1 0, 7)] })),
    decide ((fun (s : State) => (fun (v : Word) => (fun (n : Nat) => s.Inv = true ∧ (s.serving = true) ∧ (getBits v F.tallySel_block = 5) ∧ (getBits v F.tallySel_item = 9) ∧ (n = getBits v F.tallySel_instance) ∧ (n < 256)) (7)) (word [(F.tallySel_block, 5), (F.tallySel_item, 9), (F.tallySel_instance, 7)])) ({ ready with regions := [(1, ⟨0, 2 ^ 31, 7, 0, false, 1, false⟩)] })),
    decide ((fun (s : State) => (fun (s : State) => (fun (v : Word) => (fun (n : Nat) => (fun (a : Nat) => s.Inv = true ∧ (s.serving = true) ∧ (s.getF R.tallyDump F.tallyDump_busy = 0) ∧ (s.getF R.tallySel F.tallySel_block ≠ 5 ∨ s.getF R.tallySel F.tallySel_item < 9) ∧ (n = getBits v F.tallyDump_count) ∧ (1 ≤ n) ∧ (n ≤ 4096) ∧ (a = s.getF R.tallyDumpAddr F.tallyDumpAddr_addr * 8) ∧ (s.owned 0 a (8 * n) = true) ∧ ((let sel := s.reg R.tallySel; let l := (below n).flatMap fun i => bytesLE 8 (Tab.get 0 s.tally (tallyKey (getBits sel F.tallySel_block) (getBits sel F.tallySel_item) ((getBits sel F.tallySel_instance + i) % 65536))).toNat; (s.memWrite 0x01 0 0 0 a l).1) = none) ∧ (s.recGoes (getBits v F.tallyDump_cq) 0 = true) ∧ (s.noneWaits = true)) (0x800)) (2)) (word [(F.tallyDump_count, 2), (F.tallyDump_cq, 4095)])) ({ w (w s R.tallySel F.tallySel_block 5) R.tallySel F.tallySel_item 1 with tally := [(tallyKey 5 1 0, 7)] })) (w (w (w ready (R.crCfg 4095) F.crCfg_enable 1) (R.crRing 4095) F.crRing_space 1) R.tallyDumpAddr F.tallyDumpAddr_addr 0x100)),
    decide ((fun (s : State) => (fun (v : Word) => s.Inv = true ∧ (s.serving = true) ∧ (s.getF R.tallyDump F.tallyDump_busy = 0) ∧ (getBits v F.tallyDump_count = 0 ∨ 4096 < getBits v F.tallyDump_count) ∧ (s.recGoes (getBits v F.tallyDump_cq) 0 = true)) (word [(F.tallyDump_count, 4097), (F.tallyDump_cq, 4095)])) (w (w ready (R.crCfg 4095) F.crCfg_enable 1) (R.crRing 4095) F.crRing_space 1)),
    decide ((fun (s : State) => (fun (v : Word) => s.Inv = true ∧ (s.serving = true) ∧ (s.getF R.tallyDump F.tallyDump_busy = 0) ∧ (1 ≤ getBits v F.tallyDump_count) ∧ (getBits v F.tallyDump_count ≤ 4096) ∧ (s.owned 0 (s.getF R.tallyDumpAddr F.tallyDumpAddr_addr * 8) (8 * getBits v F.tallyDump_count) = false) ∧ (s.recGoes (getBits v F.tallyDump_cq) 0 = true)) (word [(F.tallyDump_count, 1), (F.tallyDump_cq, 4095)])) (w (w (w ready (R.crCfg 4095) F.crCfg_enable 1) (R.crRing 4095) F.crRing_space 1) R.tallyDumpAddr F.tallyDumpAddr_addr 0x20000)),
    decide ((fun (s : State) => (fun (id : Nat) => (fun (n : Nat) => s.Inv = true ∧ (s.stage ≠ 0) ∧ (s.power.off = false) ∧ (s.sensor id = some n)) (77)) (1)) (w ready R.tempStatus F.tempStatus_tj_max 77)),
    decide ((fun (s : State) => (fun (id : Nat) => (fun (n : Nat) => s.Inv = true ∧ (s.stage ≠ 0) ∧ (s.power.off = false) ∧ (s.stateSensor id = some n)) (4)) (8)) (ready)),
    decide ((fun (s : State) => (fun (e : DbEntry) => (fun (es : List DbEntry) => s.Inv = true ∧ (s.stage ≠ 0) ∧ (s.power.off = false) ∧ (s.daybook.events = e :: es)) ([])) (⟨0, 5, 2, 0, 0x30, 0, 3, 0, 0⟩)) ({ ready with daybook := { ready.daybook with events := [⟨0, 5, 2, 0, 0x30, 0, 3, 0, 0⟩] } })),
    decide ((fun (s : State) => s.Inv = true ∧ (s.pins.pwrGood = true) ∧ (s.power.off = false)) (poweredUp)),
    decide ((fun (s : State) => s.Inv = true ∧ (s.pins.pwrGood = true) ∧ (s.power.off = false)) (poweredUp)),
    decide ((fun (s : State) => (fun (code : Nat) => s.Inv = true ∧ (s.pins.pwrGood = true) ∧ (s.power.off = false) ∧ ([0x88, 0x89, 0x97, 0x8D, 0x8E, 0x86, 0x79, 0x03].contains code = false)) (0x8B)) (poweredUp)),
    decide ((fun (s : State) => s.Inv = true ∧ (s.pins.pwrGood = true) ∧ (s.power.off = false)) (poweredUp)),
    decide ((fun (s : State) => s.Inv = true ∧ (s.pins.pwrGood = false) ∧ (s.pins.thermtripN = true)) (State.reset)),
    decide ((fun (s : State) => s.Inv = true ∧ (s.pins.pwrGood = false) ∧ (s.pins.thermtripN = true)) (State.reset)),
    decide ((fun (s : State) => s.Inv = true ∧ (s.pins.devResetN = false) ∧ (s.power.off = false) ∧ (s.pins.pwrGood = true) ∧ (s.pins.firstStart = false) ∧ ((Tab.get Bucket.full s.daybook.buckets 1).tokens ≠ 0)) ({ State.reset with pins := { romReady.pins with devResetN := false, tap := 4 } })),
    decide ((fun (s : State) => s.Inv = true ∧ (s.power.off = false) ∧ (s.pins.pwrGood = true)) (poweredUp)),
    decide ((fun (s : State) => s.Inv = true ∧ (s.pins.pwrGood = true)) (poweredUp)),
    decide ((fun (s : State) => (fun (code : Nat) => s.Inv = true ∧ (s.pins.pwrGood = true) ∧ (1 ≤ code)) (5)) (poweredUp))] id = true := by decide +kernel
/-! Witnesses of the statements that are not clauses about one command. -/

theorem witness_IdleStepIsTick : running.pending = [] := by decide

/-- A state in which a command waits behind a timebase read. -/
def queued : State := { running with pending := [.timebaseRead 0, .refclkRestore] }

/-- The state after it: the latch and the data read are 0, the other command waits. -/
def queuedNext : State := { (running.emit (.regData 0)) with pending := [.refclkRestore] }

set_option maxRecDepth 20000 in
theorem witness_EveryStepKeepsInvariant : queued.Inv = true ∧ goesTo (step queued) queuedNext = true := by decide +kernel

set_option maxRecDepth 20000 in
theorem witness_EveryStepKeepsTables : queued.tablesRise = true ∧ goesTo (step queued) queuedNext = true := by decide +kernel

theorem witness_CommandsKeepQueue :
    goesTo (exec (.timebaseRead 0) { running with pending := [.refclkRestore] }) queuedNext = true := by decide +kernel

theorem witness_CommandsThatStoreNothing :
    storesNothing (.timebaseRead 0) = true ∧ goesTo (exec (.timebaseRead 0) running) (running.emit (.regData 0)) = true := by
  decide +kernel

theorem witness_OverwrittenEntriesAreCounted : running.Inv = true := by decide +kernel

theorem witness_TimebaseAdvances_1 :
    running.power.off = false ∧ running.active = true ∧ running.clock.pllLocked = true ∧ running.clock.frac = 0 ∧
    running.getF R.timeRate F.timeRate_rate_adj = 0 := by decide +kernel

theorem witness_TimebaseAdvances_2 : atS2.power.off = false ∧ atS2.active = false ∧ atS2.clock.aonRing = false := by decide +kernel

theorem witness_ServoOwnsTimebase : (w running R.timeSrc F.timeSrc_src 2).getF R.timeSrc F.timeSrc_src ≠ 0 := by decide +kernel

set_option maxRecDepth 20000 in
theorem witness_LockedRegistersKeepTheirValue :
    imaged.Inv = true ∧ imaged.barOpen 0 = true ∧ R.memLayout < 2 ^ 26 ∧ R.memLayout % (if true then 8 else 4) = 0 ∧
    imaged.answersAt (R.memLayout / 8 * 8) = true ∧ imaged.image.isSome = true ∧
    imaged.route (R.memLayout / 8 * 8) (reach R.memLayout true) (placed R.memLayout true 3) = none ∧
    (match regAt (R.memLayout / 8 * 8) with
     | some d => d.fields.any fun f => f.ty == .rwl
     | none => false) = true := by decide +kernel

theorem witness_ExactSumIgnoresOrder :
    Entry.zero.form = .exact ∧
    List.isPerm [[(⟨.nan, 127⟩, ⟨.nan, 127⟩)], ([] : List (Operand × Operand))] [[], [(⟨.nan, 127⟩, ⟨.nan, 127⟩)]] = true := by decide

set_option exponentiation.threshold 400 in
theorem witness_RangeHighTellsOverflow_within : (⟨.exact, 2 ^ 319 - 1, 0, 0, 1⟩ : Entry).flagsNow = 0 := by decide

set_option exponentiation.threshold 400 in
theorem witness_RangeHighTellsOverflow_beyond : (⟨.exact, 2 ^ 319, 0, 0, 1⟩ : Entry).flagsNow = 1 := by decide

theorem witness_ExactRecordRoundTrip : excessFits (-(2 ^ 319)) = true ∧ 6 % 2 = 0 ∧ 6 < 256 := by decide +kernel

theorem witness_RepresentableValuesUnchanged : 0x7E < 2 ^ e4m3.bits ∧ (e4m3.decode 0x7E).isFin = true := by decide

theorem witness_SpecialBlockQuantizes : List.any [Num.nan, .inf true] (fun v => !v.isFin) = true := by decide

theorem witness_BinnedSumMergesAnySplit : List.isPerm [Num.nan, .inf true] [.inf true, .nan] = true := by decide

set_option maxRecDepth 20000 in
theorem witness_StitchedDataSurvivesTwoLosses :
    0x8000000000 ≤ 0x8000000000 ∧ popCount 12 (w stitched R.stitchStatus F.stitchStatus_lost_stacks 0x801).lostStacks ≤ 2 := by
  decide +kernel

set_option maxRecDepth 20000 in
theorem witness_WordCodeCorrectsOneSymbol :
    (zeros 35).length = 35 ∧ rsDecode (zeros 35) = .clean ∧ 34 < 35 ∧ (1 : Byte) ≠ (zeros 35).getD 34 0 := by decide +kernel

theorem witness_AttendSumsIgnoreOrder :
    List.isPerm [([], [⟨Num.nan, 0⟩]), (([], []) : KvRow)] [([], []), ([], [⟨Num.nan, 0⟩])] = true := by decide

/-! Ill-formed commands: for every range, a command with an operand one beyond it. -/

set_option maxRecDepth 20000 in
/-- Operands one beyond their range: refused. -/
theorem test_ill_formed_1 (x0 : Got) (x1 : BarScope) (x2 : Feed) :
    List.all (α := Instr)
   [.registerWrite 2 0 false 0, .registerWrite 0 (2 ^ 26) false 0, .bar0MisalignedAccess 2 0 0 false,
    .bar0MisalignedAccess 0 (2 ^ 26) 0 false, .linkFlitReceive 15 ⟨0, []⟩, .linkFlitReceive 0 ⟨0, zeros 257⟩,
    .linkRetrain 15 false, .laneSpareSubstitute 15 0 false false, .laneSpareSubstitute 0 258 false false,
    .linkTrainRetry 15 false, .timebaseRead 3, .benchDescriptorFetch 1024 x0, .subpartDispatch 0 12 0,
    .subpartDispatch 0 0 6, .subpartComplete 0 12 0, .subpartComplete 0 0 6, .instanceStart 0 0 12 0, .instanceStart 0 0 0 6,
    .kernelTimeLimit 84, .scratchPageZeroed 12 0 0, .scratchPageZeroed 0 7 0, .scratchPageZeroed 0 0 64,
    .barrierRelease x1 16, .barrierOwnerWrite x1 16 0, .engineIdle 12 0, .engineIdle 0 48, .rampStep 12, .engineFault 12 0 0,
    .engineFault 0 7 0, .engineFault 0 0 9, .laneFault 12 0 0 0, .laneFault 0 7 0 0, .laneFault 0 0 9 0, .laneFault 0 0 0 33,
    .benchFault 12 0, .benchFault 0 7, .bundleExecute 171 x2, .coprocessorOpComplete 171 0 x0,
    .coprocessorOpComplete 0 16 x0, .storeFailure 171] (fun i => !i.wf) = true := rfl

set_option maxRecDepth 20000 in
/-- Operands one beyond their range: refused. -/
theorem test_ill_formed_2 (x0 : CasReply) (x1 : Got) (x2 : CfgReq) (x3 : MemReq) :
    List.all (α := Instr)
   [.interrupt 171 0, .interrupt 0 64, .dramTempPoll 12 [], .ddrChannelFail 8, .regionZeroingDone 4096,
    .stitchWrite 8 0 0 [], .stitchWrite 0 256 0 [], .stitchWrite 0 0 (2 ^ 52) [], .stitchRead 8 0 0 0, .stitchRead 0 256 0 0,
    .stitchRead 0 0 (2 ^ 52) 0, .feedDoorbell 8 0 0, .maximaExchange 0 12, .partialMerge 0 12, .frameZeroingDone (2 ^ 52),
    .copyBeforeWrite 8 0 0 [], .copyBeforeWrite 0 256 0 [], .copyBeforeWrite 0 0 (2 ^ 52) [], .checkpointEntries 16 0 0 [],
    .checkpointEntries 0 65536 0 [], .checkpointEntries 0 0 65536 [], .commitCasReply 16 x0, .checkpointOutcome 16 0,
    .checkpointOutcome 0 65536, .checkpointLimitTimeout 16, .dmaDescriptorFetch 1024 x1, .dmaCopy 1024 0 none,
    .dmaFill 1024 0, .dmaWritesAcked 1024, .dmaLateError 1024 0, .dmaLateError 0 65536, .dmaPause 1024 false,
    .dmaPaused 1024, .dmaEngineStop 16 0 0, .dmaEngineStop 0 65536 0, .dmaEngineStop 0 0 (2 ^ 64), .dmaClearError 1024,
    .dmaSquash 1024, .configRequest 2 x2, .bar4Access 2 0 x3] (fun i => !i.wf) = true := rfl

set_option maxRecDepth 20000 in
/-- Operands one beyond their range: refused. -/
theorem test_ill_formed_3 (x0 : AtomicReq) (x1 : Got) (x2 : QueueKind) :
    List.all (α := Instr)
   [.bar4Atomic 2 0 x0, .msixPendingSend 2 0, .msixPendingSend 0 2048, .intxPendWrite 2 0, .d3hotEntry 2, .d0Write 2,
    .l2Entry 2, .perstAssert 2, .perstDeassert 2, .wakeSource 2 0, .wakeSource 0 4, .completionTimeout 18 0,
    .completionTimeout 0 16384, .completionReceived 18 0 false x1, .completionReceived 0 16384 false x1,
    .tagQuarantineRelease 18 0, .tagQuarantineRelease 0 16384, .busMasterDisable 2, .functionLevelReset 2, .flrComplete 2,
    .hbCfgWrite 2 0, .hbCountWrite 2 0, .heartbeatMiss 2, .upstreamLinkDown 2, .hostLossDrainEnd 2, .malformedTlp 2,
    .poisonedTlp 2 none, .upstreamLinkChange 2 false false false 0 0, .aspmIdleEntry 2 false, .chanCfgWrite 1024 0,
    .logSwapDone 256, .sliceResetDone 256 false, .quiesceDone 256, .sliceZeroingDone 256, .doorbellEntryWrite 2 0 0,
    .doorbellEntryWrite 0 16384 0, .apertureEntryWrite 2 0 0 0, .apertureEntryWrite 0 4096 0 0, .apertureEntryWrite 0 0 4 0,
    .queueEnable x2 16384 0] (fun i => !i.wf) = true := rfl

set_option maxRecDepth 20000 in
/-- Operands one beyond their range: refused. -/
theorem test_ill_formed_4 (x0 : PortReq) (x1 : Got) (x2 : Feed) (x3 : PtpMsg) (x4 : NakKind) :
    List.all (α := Instr)
   [.pendingRecordWrite 4096, .dpCfgAccess 16 false 0 none, .inboundPortRequest 16 0 x0, .powerCtrlWrite 16 false,
    .poweringEnd 16, .portLinkUp 16 0 0 false, .portLinkDown 16, .trainFail 16, .hotReset 16, .portEnableWrite 16 false,
    .errMessage 16 0, .errMessage 0 3, .nvmeCommandFetch 0x1100 x1, .mediationTimeout (2 ^ 32), .queuePairEnable 0x1100 0,
    .backendCompletion 0 2048 false [], .proxyAccess 16 0 0 none x1, .proxyAccess 0 (2 ^ 64) 0 none x1, .cleanFlagSet 4096,
    .nsRearm 4096, .resyncCopy 4096 0 0 0, .resyncCopy 0 0 2048 0, .resyncCopy 0 0 0 2048,
    .backendReady 1024 0 ⟨0, 0, false⟩ false, .frameReceive 8 [] false 0, .frameReceive 0 [] false 8, .pipelinePass 4 x2,
    .actionTimeLimit 171 x2, .transmitDescriptor 16384 x1 x1, .tmSchedule 8, .pfcReceive 8 [], .pfcPauseExpire 8 0,
    .pfcPauseExpire 0 8, .ptpMessage 8 0 ⟨0, x3⟩, .ptpMessage 0 256 ⟨0, x3⟩, .ptpMessage 0 0 ⟨3, x3⟩,
    .ackReceive (2 ^ 24) 0 0 false none, .ackReceive 0 (2 ^ 24) 0 false none, .ackReceive 0 0 (2 ^ 64) false none,
    .nakReceive (2 ^ 24) 0 x4] (fun i => !i.wf) = true := rfl

set_option maxRecDepth 20000 in
/-- Operands one beyond their range: refused. -/
theorem test_ill_formed_5 (x0 : NakKind) (x1 : Got) (x2 : ScOp) (x3 : JobIo) :
    List.all (α := Instr)
   [.nakReceive 0 (2 ^ 24) x0, .cnpReceive (2 ^ 24), .readResponse (2 ^ 24) 0 [], .readResponse 0 (2 ^ 24) [],
    .send (2 ^ 24) x1 x1, .sendWithImmediate (2 ^ 24) x1 x1, .rdmaWrite (2 ^ 24) x1 x1,
    .rdmaWriteWithImmediate (2 ^ 24) x1 x1, .rdmaRead (2 ^ 24) x1, .atomicCompareSwap (2 ^ 24) x1,
    .atomicFetchAdd (2 ^ 24) x1, .receive (2 ^ 24) x1, .retransmitTimeout (2 ^ 24) 0, .retransmitTimeout 0 (2 ^ 24),
    .rnrDelayEnd (2 ^ 24), .connectionLifetimeExpiry (2 ^ 24) 0, .connectionLifetimeExpiry 0 (2 ^ 24),
    .pathResume (2 ^ 24) 0, .pathResume 0 16, .ackTimer (2 ^ 24), .contextFillDone (2 ^ 24) false, .windowAtMin (2 ^ 24),
    .netLinkChange 8 false, .sceranRequest false (2 ^ 128) 0 0 0 x2 false, .sceranRequest false 0 (2 ^ 32) 0 0 x2 false,
    .sceranResponse ⟨false, 2 ^ 128, false, 0⟩ 0 0 [], .sceranResponse ⟨false, 0, false, 0⟩ 65536 0 [],
    .sceranRelease 0 0 ⟨false, 2 ^ 128, false, 0⟩, .sceranRelease (2 ^ 32) 0 ⟨false, 0, false, 0⟩, .sceranRecordExpiry 262144,
    .keyUnwrapDone 4 0, .keyUnwrapDone 0 65536, .gcmSeal 1024 x3, .gcmOpen 1024 x3, .ctr 1024 x3, .xtsEncrypt 1024 x3,
    .xtsDecrypt 1024 x3, .sha256 1024 x3, .sha384 1024 x3, .ecdsaSign 1024 x3] (fun i => !i.wf) = true := rfl

set_option maxRecDepth 20000 in
/-- Operands one beyond their range: refused. -/
theorem test_ill_formed_6 (x0 : JobIo) (x1 : SpdmReq) :
    List.all (α := Instr)
   [.ecdsaVerify 1024 x0, .publicKey 1024 x0, .wake 16, .benchGateIdle 12 0, .benchGateIdle 0 7, .droop 12, .droopClear 12,
    .watchdogExpiry 23 [], .coreRestart 23, .spdmRequest 4 x1, .activationCoreReady 23, .weltLaneFail 8, .weltLinkUp 256,
    .isstStart 12 0, .isstStart 0 7, .isstEnd 12 [] false, .isstAbandon 12, .isstWindowLate 12 0, .isstWindowLate 0 7,
    .deviceFatal 256, .isstDeferLimit 12 0, .isstDeferLimit 0 7, .pmbusCommand 256, .powerGood 256 false false,
    .tapInstruction 6] (fun i => !i.wf) = true := rfl

/-- A command at the ends of its ranges is well formed. -/
theorem test_well_formed : List.all (α := Instr) [.laneFault 11 6 8 32, .linkFlitReceive 14 ⟨0, zeros 256⟩, .refclkLoss]
    (fun i => i.wf) = true := by decide +kernel

/-! The table gives no row bits: no word spells a command. -/

theorem test_word_spells_nothing : decodeTableWord 32 0x13 = none ∧ (State.reset.withFetchWord 32 0x13).pending = [] :=
  ⟨rfl, rfl⟩

/-! Single steps, each with what the rules give. -/

/-- R13: an idle step in A0 with root lock is one tick. -/
theorem test_idle_tick : goesTo (step running) { running with clock := { running.clock with ticks := 1, cycles := 1 } } = true := by
  decide +kernel

/-- The TIMEBASE row of the register table (spec/01): reading the high half answers the latch. -/
theorem test_timebase_high :
    goesTo (exec (.timebaseRead 1) { running with clock := { running.clock with latch := 9 } })
      { running with clock := { running.clock with latch := 9 }, out := [.regData 9] } = true := by decide +kernel

/-- R87, R88: 1.0 + 2.0 in FP32 is 3.0, 0x40400000, stored at the destination, low byte first. -/
theorem test_reduce_sum : (match exec (.reduce 5) sumState with
    | .next t => t.bytesAt 0x2000 4 == [0x00, 0x00, 0x40, 0x40]
    | _ => false) = true := by decide +kernel

/-- R42, R43: 17 lies between 16 and 18 and goes to the even one; with sat, above the largest E4M3 value 448 the result is 448. -/
theorem test_convert_e4m3 :
    (e4m3.convert (fp32.decode 0x41880000) ⟨0, 0, true⟩).1 = 0x58 ∧ (e4m3.convert (fp32.decode 0x44000000) ⟨0, 0, true⟩).1 = 0x7E := by
  decide +kernel

/-- R497: what pads show in OFF and in the safe state. -/
theorem test_pads :
    State.reset.pad .pwrgood = .low ∧ State.reset.pad (.dperst 3) = .unpowered ∧ State.reset.pad .pps = .highZ ∧
    ((w poweredUp R.bootStatus F.bootStatus_stage 9).pad (.dperst 3)) = .low := by decide +kernel

/-- R49: Philox4x32-10 on zeros. -/
theorem test_philox_zero : philox (0, 0, 0, 0) (0, 0) = (0x6627E8D5, 0xE169C58D, 0xBC57AC4C, 0x9B00DBD8) := by decide +kernel

/-- R162: a changed symbol of a code word is named; two changed are not taken for one here. -/
theorem test_rs_decode :
    rsDecode ((zeros 35).set 7 0x5A) = .corrected 7 ∧ rsDecode (((zeros 35).set 7 0x5A).set 9 0x11) = .uncorrectable := by
  decide +kernel

/-- TALLY_DIR (R479): bytes moved of the storage front end is one counter in unit 1, fences have six instances, block 0x03 has no item. -/
theorem test_tally_dir :
    resetOf (R.tallyDir 0x08 1) = 0x10001 ∧ resetOf (R.tallyDir 0x11 5) = 6 ∧ resetOf (R.tallyDir 0x03 0) = 0 := by decide +kernel

end Sys2Proof.Machine
end

section
/-! PROOFS. Writes of the registers that are locked once the configuration image is applied (R3). -/

namespace Sys2Proof.Machine

/-! ## The fields of a register stand apart -/

/-- A field's bits lie within the 64 bits of a register. -/
abbrev FieldDesc.Fits (f : FieldDesc) : Prop := f.lo ≤ f.hi ∧ f.hi < 64

/-- Two fields share no bit. -/
abbrev FieldDesc.Apart (f g : FieldDesc) : Prop := f.hi < g.lo ∨ g.hi < f.lo

/-- A register's fields lie within its 64 bits and share none of them. -/
abbrev RegDesc.LaidOut (d : RegDesc) : Prop := (∀ f ∈ d.fields, f.Fits) ∧ d.fields.Pairwise FieldDesc.Apart

/-- What holds of the members of both branches holds of the members of the choice. -/
theorem forall_mem_ite {α : Type} {p : α → Prop} {c : Prop} [Decidable c] {k l : List α} (hk : ∀ x ∈ k, p x) (hl : ∀ x ∈ l, p x) :
    ∀ x ∈ if c then k else l, p x := by
  split
  · exact hk
  · exact hl

/-- The registers of every chapter's table are laid out: a finite fact of each branch of the address map. -/
theorem tablesAt_laidOut (a : Nat) : ∀ d ∈ tablesAt a, d.LaidOut := by
  unfold tablesAt
  repeat' apply forall_mem_ite
  all_goals decide

/-- Every register assigned to an address is laid out. -/
theorem regAt_laidOut {a : Nat} {d : RegDesc} (h : regAt a = some d) : d.LaidOut :=
  tablesAt_laidOut a d (List.mem_of_find?_eq_some h)

/-! ## What a field holds after the fields are set one by one -/

/-- Setting fields leaves the bits of a field that stands apart from each of them. -/
theorem getBits_foldl_setBits_apart (g : FieldDesc → Nat) (f : FieldDesc) (hf : f.Fits) (l : List FieldDesc)
    (hl : ∀ x ∈ l, x.Fits ∧ f.Apart x) (w : Word) :
    getBits (l.foldl (fun w x => setBits w (x.hi, x.lo) (g x)) w) (f.hi, f.lo) = getBits w (f.hi, f.lo) := by
  induction l generalizing w with
  | nil => rfl
  | cons x l ih =>
    obtain ⟨⟨hx, hfx⟩, hl⟩ := List.forall_mem_cons.mp hl
    rw [List.foldl_cons, ih hl, getBits_setBits_disjoint _ _ _ _ _ _ hx.1 hf.2 hfx.symm]

/-- Of fields that stand apart, each holds what it was set to, modulo its width. -/
theorem getBits_foldl_setBits_mem (g : FieldDesc → Nat) (f : FieldDesc) (l : List FieldDesc) (hf : f ∈ l)
    (fits : ∀ x ∈ l, x.Fits) (apart : l.Pairwise FieldDesc.Apart) (w : Word) :
    getBits (l.foldl (fun w x => setBits w (x.hi, x.lo) (g x)) w) (f.hi, f.lo) = g f % 2 ^ (f.hi + 1 - f.lo) := by
  induction l generalizing w with
  | nil => cases hf
  | cons x l ih =>
    obtain ⟨hx, fits'⟩ := List.forall_mem_cons.mp fits
    obtain ⟨hxl, apart'⟩ := List.pairwise_cons.mp apart
    rw [List.foldl_cons]
    rcases List.mem_cons.mp hf with rfl | hf
    · rw [getBits_foldl_setBits_apart g f hx l fun y hy => ⟨fits' y hy, hxl y hy⟩, getBits_setBits _ _ _ _ hx.1 hx.2]
    · exact ih hf fits' apart' _

/-- After a write each field of a laid-out register holds what its access type makes of it, modulo its width. -/
theorem RegDesc.getBits_written {d : RegDesc} (hd : d.LaidOut) {f : FieldDesc} (hf : f ∈ d.fields) (locked : Bool)
    (m v old : Word) :
    getBits (d.written locked m v old) (f.hi, f.lo) = f.written locked m v old % 2 ^ (f.hi + 1 - f.lo) :=
  getBits_foldl_setBits_mem (fun x => x.written locked m v old) f d.fields hf hd.1 hd.2 0

/-- A locked RWL field keeps its value under every write of its register (R3). -/
theorem RegDesc.getBits_written_locked {d : RegDesc} (hd : d.LaidOut) {f : FieldDesc} (hf : f ∈ d.fields) (hty : f.ty = .rwl)
    (m v old : Word) : getBits (d.written true m v old) (f.hi, f.lo) = getBits old (f.hi, f.lo) := by
  have keeps : f.written true m v old = getBits old (f.hi, f.lo) := by simp only [FieldDesc.written, hty, if_true]
  rw [d.getBits_written hd hf, keeps]
  exact Nat.mod_mod _ _

/-! ## A write that reaches a register -/

/-- An aligned write that the function performs, to a block that answers, is a write of the register (R1, R28, R432). -/
theorem exec_registerWrite_reaching {s : State} {fn a : Nat} {wide : Bool} (v : Word) (hfn : fn < 2) (ha : a < 2 ^ 26)
    (hopen : s.barOpen fn = true) (halign : a % (if wide then 8 else 4) = 0) (hreach : bar0Reaches fn (a / 8 * 8) = true)
    (hans : s.answersAt (a / 8 * 8) = true) :
    exec (.registerWrite fn a wide v) s = s.regWrite (a / 8 * 8) (reach a wide) (placed a wide v) := by
  have inRange : ¬ (fn ≥ 2 ∨ a ≥ 2 ^ 26) := by omega
  have arm : exec (.registerWrite fn a wide v) s = execRegisterWrite fn a wide v s := rfl
  simp only [arm, execRegisterWrite, if_neg inRange, hopen, halign, hreach, hans, not_true_eq_false, ne_eq, or_self, if_false]

/-- A register without a row or rule of its own is written by the access types of its fields alone. -/
theorem State.regWrite_unrouted {s : State} {a : Nat} {m v : Word} (h : s.route a m v = none) :
    s.regWrite a m v = .next (s.plainWrite a m v) := by
  rw [State.regWrite, h]; rfl

/-- After image apply a write of a register with an RWL field is recorded, and what the other fields take is set (R3). -/
theorem State.plainWrite_locked {s : State} {a : Nat} {d : RegDesc} (m v : Word) (hd : regAt a = some d)
    (hlock : d.hasLock = true) (himg : s.image.isSome = true) :
    s.plainWrite a m v = (s.ignoreWrite a v).setReg a (d.written true m v (s.reg a)) := by
  simp only [State.plainWrite, hd, hlock, himg, and_self, if_true]

/-- A register is locked when one of its fields is RWL. -/
theorem RegDesc.hasLock_of_mem {d : RegDesc} {f : FieldDesc} (hf : f ∈ d.fields) (hty : f.ty = .rwl) : d.hasLock = true :=
  List.any_eq_true.mpr ⟨f, hf, by rw [hty]; rfl⟩

/-- The invariant of a run holds the registers in canonical form. -/
theorem State.regsWf_of_Inv {s : State} (h : s.Inv = true) : s.regsWf = true := by
  simp only [State.Inv, Bool.and_eq_true] at h
  obtain ⟨⟨⟨_, hregs⟩, _⟩, _⟩ := h
  exact hregs

/-- Settles O16: the write sets the register to the word its access types make of it, in which every RWL field reads as before, upon the
state that has recorded the write. -/
theorem lockedRegistersKeepTheirValue : Obligations.LockedRegistersKeepTheirValue := by
  intro s a wide v d f hinv hopen ha halign hans himg hroute hd hf hty
  have hwf : (s.ignoreWrite (a / 8 * 8) (placed a wide v)).regsWf = true := s.regsWf_record _ (State.regsWf_of_Inv hinv)
  have written := s.plainWrite_locked (reach a wide) (placed a wide v) hd (d.hasLock_of_mem hf hty) himg
  refine ⟨s.plainWrite (a / 8 * 8) (reach a wide) (placed a wide v), ?_, ?_, ?_⟩
  · rw [exec_registerWrite_reaching v (by decide) ha hopen halign rfl hans, State.regWrite_unrouted hroute]
  · rw [written, State.getF, State.reg_setReg _ _ _ _ hwf, if_pos rfl,
      RegDesc.getBits_written_locked (regAt_laidOut hd) hf hty, State.getF]
  · rw [written, State.setReg_daybook]

end Sys2Proof.Machine
end

section
/-! PROOFS. The manager's writes of TIME_RATE and TIME_STEP while the servo owns them (R14). -/

namespace Sys2Proof.Machine

/-- The command of a TIME_RATE write is carried out by its row (R13, R14). -/
theorem exec_timeRateWrite (v : Word) (s : State) : exec (.timeRateWrite v) s = execTimeRateWrite v s := rfl

/-- The command of a TIME_STEP write is carried out by its row (R13, R14). -/
theorem exec_timeStepWrite (v : Word) (s : State) : exec (.timeStepWrite v) s = execTimeStepWrite v s := rfl

/-- The servo owns the two registers while a source is selected or a standby follows its pair (R14, R458). -/
theorem State.servoOwns_iff (s : State) :
    s.servoOwns = true ↔ s.getF R.timeSrc F.timeSrc_src ≠ 0 ∨ s.followsPair = true := by
  rw [State.servoOwns, Bool.or_eq_true, bne_iff_ne]

/-- A TIME_RATE write while the servo owns the register is ignored and recorded. -/
theorem execTimeRateWrite_of_servoOwns {s : State} (v : Word) (h : s.servoOwns = true) :
    execTimeRateWrite v s = .next (s.writeIgnored 0x01 0 R.timeRate v) := if_pos h

/-- A TIME_STEP write while the servo owns the register is ignored and recorded. -/
theorem execTimeStepWrite_of_servoOwns {s : State} (v : Word) (h : s.servoOwns = true) :
    execTimeStepWrite v s = .next (s.writeIgnored 0x01 0 R.timeStep v) := if_pos h

/-- Settles O15: a nonzero src gives both registers to the servo, and each row then only records the write. -/
theorem servoOwnsTimebase : Obligations.ServoOwnsTimebase := by
  have owned : ∀ s : State, s.getF R.timeSrc F.timeSrc_src ≠ 0 → s.servoOwns = true :=
    fun s hsrc => s.servoOwns_iff.mpr (.inl hsrc)
  constructor
  · intro s v hsrc
    rw [exec_timeRateWrite, execTimeRateWrite_of_servoOwns v (owned s hsrc)]
  · intro s v hsrc
    rw [exec_timeStepWrite, execTimeStepWrite_of_servoOwns v (owned s hsrc)]

end Sys2Proof.Machine
end

section
/-! PROOFS. One entry of the daybook's ring: where it stands, and the count of older entries overwritten (R472, R473). -/

namespace Sys2Proof.Machine

/-- The entry is placed at the head, with the time and the number of the state before it; every other slot is kept (R472). -/
theorem State.dbWrite_ring (s : State) (e : DbEvent) :
    (s.dbWrite e).daybook.ring =
      Tab.insert s.daybook.ring (s.getF R.dbStatus F.dbStatus_head) (e.entry s.now (s.getF R.dbSeq F.dbSeq_next)) := by
  unfold State.dbWrite
  dsimp only
  split
  · rw [State.setReg_daybook, State.setF_daybook, State.setF_daybook]
  · rw [State.setF_daybook, State.setF_daybook]

/-- DB_OVERWRITE counts an entry when the slot at the head is taken, and keeps its value when the slot is empty (R473). -/
theorem State.dbWrite_overwrite (s : State) (e : DbEvent) (h : s.regsWf = true) :
    (s.dbWrite e).reg R.dbOverwrite =
      if (Tab.find? s.daybook.ring (s.getF R.dbStatus F.dbStatus_head)).isSome then s.reg R.dbOverwrite + 1
      else s.reg R.dbOverwrite := by
  unfold State.dbWrite
  dsimp only
  generalize hplaced : ({ s with daybook := _ } : State) = placed
  have placed_wf : placed.regsWf = true := by subst hplaced; exact h
  have placed_reg : placed.reg R.dbOverwrite = s.reg R.dbOverwrite := by subst hplaced; rfl
  generalize hmoved : placed.setF R.dbStatus F.dbStatus_head _ = moved
  have moved_wf : moved.regsWf = true := hmoved ▸ placed.regsWf_setF _ _ _ placed_wf
  have numbered_wf := moved.regsWf_setF R.dbSeq F.dbSeq_next (s.getF R.dbSeq F.dbSeq_next + 1) moved_wf
  have numbered_reg : (moved.setF R.dbSeq F.dbSeq_next (s.getF R.dbSeq F.dbSeq_next + 1)).reg R.dbOverwrite =
      s.reg R.dbOverwrite := by
    rw [moved.reg_setF_ne _ _ _ _ moved_wf (by decide), ← hmoved, placed.reg_setF_ne _ _ _ _ placed_wf (by decide), placed_reg]
  split
  · rw [State.reg_setReg _ _ _ _ numbered_wf, if_pos rfl, numbered_reg]
  · exact numbered_reg

/-- Settles O9: the slot at the head reads as the entry inserted there, and the count moves by the slot's state before the write. -/
theorem overwrittenEntriesAreCounted : Obligations.OverwrittenEntriesAreCounted := by
  intro s e hinv
  constructor
  · rw [s.dbWrite_ring, Tab.find?_insert, if_pos rfl]
  · rw [s.dbWrite_overwrite e (State.regsWf_of_Inv hinv)]
    split
    · rfl
    · exact (BitVec.add_zero _).symm

end Sys2Proof.Machine
end
